-- ==== Sys2Proof/Word.lean ====
section
/-! DEFINITION. The word types of the machine and the sparse map in which every bank of registers is held. -/

namespace Sys2Proof

/-- A 64-bit word (R12). -/
abbrev Word := BitVec 64
/-- A bundle address: a byte address divided by 32 (R13). -/
abbrev Pc := BitVec 51
/-- A core of the package, laid out as `cid` bits [10:0]: die, table, seat (R23). -/
abbrev CoreId := BitVec 11
/-- A table of the package: die [6:4], table within the die [3:0] (R23). -/
abbrev TableId := BitVec 7
/-- A compute die, CD0 to CD7 (R1). -/
abbrev DieId := BitVec 3
/-- A stack: 0 to 7 for NS0 to NS7, 8 to 15 for FS0 to FS7 (R365). -/
abbrev StackId := BitVec 4

/-- A sparse map: the listed keys, each with its value; an unlisted key has the default its reader names. -/
abbrev Bank (κ α : Type) := List (κ × α)

/-- Read a sparse map. -/
def Bank.get {κ α : Type} [DecidableEq κ] (m : Bank κ α) (d : α) (k : κ) : α :=
  match m with
  | [] => d
  | (k', v) :: rest => if k' = k then v else Bank.get rest d k

/-- Write a sparse map: the key's old entries go, the new one stands first. -/
def Bank.set {κ α : Type} [DecidableEq κ] (m : Bank κ α) (k : κ) (v : α) : Bank κ α :=
  (k, v) :: m.filter (fun e => decide (e.1 ≠ k))

/-- Drop a key from a sparse map. -/
def Bank.erase {κ α : Type} [DecidableEq κ] (m : Bank κ α) (k : κ) : Bank κ α :=
  m.filter (fun e => decide (e.1 ≠ k))

end Sys2Proof
end

