-- ==== Sys2Proof/Syntax.lean ====
section
/-! DEFINITION. The syntax of the machine: one constructor per row of the opcode table. The 229 instructions carry
the bit fields of their encodings and their token word; the 92 events of the package carry what the event names. -/

namespace Sys2Proof

/-- The five engines of a core (R28); their numbers in `xcause.ENG` are 0 to 4 (R386). -/
inductive Engine where
  | c | v | m | d | f
deriving DecidableEq, Repr

/-- A token word (R43). -/
structure Tok where
  post : BitVec 5
  wait0 : BitVec 5
  wait1 : BitVec 5
  wait2 : BitVec 5
  ts : Bool
  ka : Bool
deriving DecidableEq, Repr

/-- A vector extension slot (R55). -/
structure VExt where
  c : BitVec 6
  rm : BitVec 3
  sat : Bool
  nw : BitVec 4
  dpos : BitVec 3
  sa : BitVec 4
  sb : BitVec 4
  scf : BitVec 4
  sfmt : BitVec 3
deriving DecidableEq, Repr

/-- The literal of `li` and `lip`: one slot (W = 0) or two (W = 1), low word first (R41, R71). -/
inductive Lit where
  | short (w : BitVec 32)
  | long (lo hi : BitVec 32)
deriving DecidableEq, Repr

/-- A branch offset in bundles: in the first slot (L = 0) or in a continuation (L = 1) (R51). -/
inductive BrOff where
  | short (o : BitVec 9)
  | long (o : BitVec 32)
deriving DecidableEq, Repr

/-- What a die controller resets: one core, or the sixteen cores of a table (R32). -/
inductive ResetTarget where
  | core (k : CoreId)
  | table (tb : TableId)
deriving DecidableEq, Repr

/-- What is marked failed in a stack: a pseudo-channel, a layer, or all of it (R232, R441). -/
inductive FailMark where
  | pseudoChannel (pc : BitVec 6)
  | layer (l : BitVec 4)
  | whole
deriving DecidableEq, Repr

/-- How an access uses what it reaches (R239). -/
inductive Use where
  | read | write | fetch
deriving DecidableEq, Repr

/-- An access whose translation a walk looks for: its virtual address and its use (R240, R241). -/
structure WalkFor where
  va : BitVec 56
  use : Use
deriving DecidableEq, Repr

/-- What the device's host is (R437). -/
inductive HostKind where
  | pcie
  /-- a CXL 3.1 host, with unordered I/O to memory devices behind its switches -/
  | cxl31
  /-- a CXL 2.0 host: only host memory can be reached -/
  | cxl20
deriving DecidableEq, Repr

/-- The host's end of the link: what it is, and whether PCIe 7.0 runs between the ends (R437). -/
structure HostEnd where
  kind : HostKind
  gen7 : Bool
deriving DecidableEq, Repr

/-- A signed image (R443): its bytes by offset, its RSA-3072 signature, its SLH-DSA-SHA2-192s signature. -/
structure SignedImage where
  bytes : List (Nat × BitVec 8)
  rsa : List (BitVec 8)
  slh : List (BitVec 8)
deriving DecidableEq, Repr

/-- What a boot ROM verifies: the firmware image and the configuration blob (R443). -/
structure BootImages where
  firmware : SignedImage
  blob : SignedImage
deriving DecidableEq, Repr

/-- A seat that its table's spare core takes over, and the remap entries by which the spare's own test has repaired its
tower (R296, R442). -/
structure SpareSeat where
  seat : BitVec 4
  repairs : List (BitVec 11 × BitVec 32)
deriving DecidableEq, Repr

/-- A host access through a BAR: a read of `len` bytes or a write of the bytes (R439). -/
inductive HostAccess where
  | read (len : Nat)
  | write (bytes : List (BitVec 8))
deriving DecidableEq, Repr

/-- How the host completes a request to one 32-byte sector of its memory (R438). -/
inductive HostAnswer where
  | data (bytes : List (BitVec 8))
  | unsupported
  | abort
  | poisoned
deriving DecidableEq, Repr

/-- A fabric packet (R447): what it asks and the bytes it carries. `poison` lists the 32-byte sectors, counted from the
packet's first, that carry the poison bit. -/
structure FabricPacket where
  src : BitVec 14
  dst : BitVec 14
  cls : BitVec 2
  key : BitVec 16
  addr : BitVec 52
  lane : BitVec 4
  seq : Nat
  write : Bool
  len : Nat
  bytes : List (BitVec 8)
  poison : List Nat
  die : BitVec 3
  desc : Nat
deriving DecidableEq, Repr

/-- A register of a die, of the launch unit, of the package or of the mailbox whose write has no behaviour of its own
(R242, R420, R439, R451, R452). -/
inductive DevReg where
  | tiva (d : DieId) | tilen (d : DieId) | asdt (d : DieId) | tistat (d : DieId)
  | pkgid (d : DieId) | dready (d : DieId) | seatmap0 (d : DieId) | seatmap1 (d : DieId)
  | fqbase (d : DieId) | fqhead (d : DieId)
  | lspbase | lspsize | lgstat | gencnt (g : BitVec 6)
  | hwbase | fmdata | fmstat | fmid
deriving DecidableEq, Repr

/-- The instructions of the five engines and the events of the package, in the order of the opcode table. -/
inductive Instr where
  | nop (tok : Option Tok)
  | add (d : BitVec 5) (a : BitVec 5) (b : BitVec 5) (tok : Option Tok)
  | sub (d : BitVec 5) (a : BitVec 5) (b : BitVec 5) (tok : Option Tok)
  | mul (d : BitVec 5) (a : BitVec 5) (b : BitVec 5) (tok : Option Tok)
  | mulhI (d : BitVec 5) (a : BitVec 5) (b : BitVec 5) (tok : Option Tok)
  | mulhN (d : BitVec 5) (a : BitVec 5) (b : BitVec 5) (tok : Option Tok)
  | divI (d : BitVec 5) (a : BitVec 5) (b : BitVec 5) (tok : Option Tok)
  | divN (d : BitVec 5) (a : BitVec 5) (b : BitVec 5) (tok : Option Tok)
  | remI (d : BitVec 5) (a : BitVec 5) (b : BitVec 5) (tok : Option Tok)
  | remN (d : BitVec 5) (a : BitVec 5) (b : BitVec 5) (tok : Option Tok)
  | and (d : BitVec 5) (a : BitVec 5) (b : BitVec 5) (tok : Option Tok)
  | or (d : BitVec 5) (a : BitVec 5) (b : BitVec 5) (tok : Option Tok)
  | xor (d : BitVec 5) (a : BitVec 5) (b : BitVec 5) (tok : Option Tok)
  | andn (d : BitVec 5) (a : BitVec 5) (b : BitVec 5) (tok : Option Tok)
  | sll (d : BitVec 5) (a : BitVec 5) (b : BitVec 5) (tok : Option Tok)
  | srl (d : BitVec 5) (a : BitVec 5) (b : BitVec 5) (tok : Option Tok)
  | sra (d : BitVec 5) (a : BitVec 5) (b : BitVec 5) (tok : Option Tok)
  | rol (d : BitVec 5) (a : BitVec 5) (b : BitVec 5) (tok : Option Tok)
  | fsh (d : BitVec 5) (a : BitVec 5) (b : BitVec 5) (c : BitVec 5) (tok : Option Tok)
  | clz (d : BitVec 5) (a : BitVec 5) (w : BitVec 2) (tok : Option Tok)
  | ctz (d : BitVec 5) (a : BitVec 5) (w : BitVec 2) (tok : Option Tok)
  | ffs (d : BitVec 5) (a : BitVec 5) (w : BitVec 2) (tok : Option Tok)
  | popc (d : BitVec 5) (a : BitVec 5) (w : BitVec 2) (tok : Option Tok)
  | bswap (d : BitVec 5) (a : BitVec 5) (w : BitVec 2) (tok : Option Tok)
  | minI (d : BitVec 5) (a : BitVec 5) (b : BitVec 5) (tok : Option Tok)
  | minN (d : BitVec 5) (a : BitVec 5) (b : BitVec 5) (tok : Option Tok)
  | maxI (d : BitVec 5) (a : BitVec 5) (b : BitVec 5) (tok : Option Tok)
  | maxN (d : BitVec 5) (a : BitVec 5) (b : BitVec 5) (tok : Option Tok)
  | seq (d : BitVec 5) (a : BitVec 5) (b : BitVec 5) (tok : Option Tok)
  | sne (d : BitVec 5) (a : BitVec 5) (b : BitVec 5) (tok : Option Tok)
  | sltI (d : BitVec 5) (a : BitVec 5) (b : BitVec 5) (tok : Option Tok)
  | sltN (d : BitVec 5) (a : BitVec 5) (b : BitVec 5) (tok : Option Tok)
  | sleI (d : BitVec 5) (a : BitVec 5) (b : BitVec 5) (tok : Option Tok)
  | sleN (d : BitVec 5) (a : BitVec 5) (b : BitVec 5) (tok : Option Tok)
  | sel (d : BitVec 5) (a : BitVec 5) (b : BitVec 5) (c : BitVec 5) (tok : Option Tok)
  | addi (d : BitVec 5) (a : BitVec 5) (i : BitVec 14) (tok : Option Tok)
  | andi (d : BitVec 5) (a : BitVec 5) (i : BitVec 14) (tok : Option Tok)
  | ori (d : BitVec 5) (a : BitVec 5) (i : BitVec 14) (tok : Option Tok)
  | xori (d : BitVec 5) (a : BitVec 5) (i : BitVec 14) (tok : Option Tok)
  | slli (d : BitVec 5) (a : BitVec 5) (i : BitVec 14) (tok : Option Tok)
  | srli (d : BitVec 5) (a : BitVec 5) (i : BitVec 14) (tok : Option Tok)
  | srai (d : BitVec 5) (a : BitVec 5) (i : BitVec 14) (tok : Option Tok)
  | roli (d : BitVec 5) (a : BitVec 5) (i : BitVec 14) (tok : Option Tok)
  | seqi (d : BitVec 5) (a : BitVec 5) (i : BitVec 14) (tok : Option Tok)
  | sltiI (d : BitVec 5) (a : BitVec 5) (i : BitVec 14) (tok : Option Tok)
  | sltiN (d : BitVec 5) (a : BitVec 5) (i : BitVec 14) (tok : Option Tok)
  | muli (d : BitVec 5) (a : BitVec 5) (i : BitVec 14) (tok : Option Tok)
  | li (d : BitVec 5) (lit : Lit) (tok : Option Tok)
  | lip (d : BitVec 5) (lit : Lit) (tok : Option Tok)
  | fadd (d : BitVec 5) (a : BitVec 5) (b : BitVec 5) (r : BitVec 3) (t : BitVec 1) (tok : Option Tok)
  | fsub (d : BitVec 5) (a : BitVec 5) (b : BitVec 5) (r : BitVec 3) (t : BitVec 1) (tok : Option Tok)
  | fmul (d : BitVec 5) (a : BitVec 5) (b : BitVec 5) (r : BitVec 3) (t : BitVec 1) (tok : Option Tok)
  | ffma (d : BitVec 5) (a : BitVec 5) (b : BitVec 5) (r : BitVec 3) (t : BitVec 1) (c : BitVec 5) (tok : Option Tok)
  | fdiv (d : BitVec 5) (a : BitVec 5) (b : BitVec 5) (r : BitVec 3) (t : BitVec 1) (tok : Option Tok)
  | fsqrt (d : BitVec 5) (a : BitVec 5) (r : BitVec 3) (t : BitVec 1) (tok : Option Tok)
  | fmin (d : BitVec 5) (a : BitVec 5) (b : BitVec 5) (t : BitVec 1) (tok : Option Tok)
  | fmax (d : BitVec 5) (a : BitVec 5) (b : BitVec 5) (t : BitVec 1) (tok : Option Tok)
  | feq (d : BitVec 5) (a : BitVec 5) (b : BitVec 5) (t : BitVec 1) (tok : Option Tok)
  | flt (d : BitVec 5) (a : BitVec 5) (b : BitVec 5) (t : BitVec 1) (tok : Option Tok)
  | fle (d : BitVec 5) (a : BitVec 5) (b : BitVec 5) (t : BitVec 1) (tok : Option Tok)
  | fcvt (d : BitVec 5) (a : BitVec 5) (k : BitVec 5) (r : BitVec 3) (t : BitVec 1) (tok : Option Tok)
  | fneg (d : BitVec 5) (a : BitVec 5) (t : BitVec 1) (tok : Option Tok)
  | fabs (d : BitVec 5) (a : BitVec 5) (t : BitVec 1) (tok : Option Tok)
  | beq (a : BitVec 5) (b : BitVec 5) (j : BitVec 4) (off : BrOff) (tok : Option Tok)
  | bne (a : BitVec 5) (b : BitVec 5) (j : BitVec 4) (off : BrOff) (tok : Option Tok)
  | bltI (a : BitVec 5) (b : BitVec 5) (j : BitVec 4) (off : BrOff) (tok : Option Tok)
  | bltN (a : BitVec 5) (b : BitVec 5) (j : BitVec 4) (off : BrOff) (tok : Option Tok)
  | bgeI (a : BitVec 5) (b : BitVec 5) (j : BitVec 4) (off : BrOff) (tok : Option Tok)
  | bgeN (a : BitVec 5) (b : BitVec 5) (j : BitVec 4) (off : BrOff) (tok : Option Tok)
  | brx (a : BitVec 5) (j : BitVec 4) (tok : Option Tok)
  | loop (a : BitVec 5) (j : BitVec 4) (off : BrOff) (tok : Option Tok)
  | fold (j : BitVec 4) (tok : Option Tok)
  | join (j : BitVec 4) (tok : Option Tok)
  | seat (d : BitVec 5) (tok : Option Tok)
  | jmp (o : BitVec 24) (tok : Option Tok)
  | call (o : BitVec 24) (tok : Option Tok)
  | ret (a : BitVec 5) (tok : Option Tok)
  | ldI8 (d : BitVec 5) (a : BitVec 5) (i : BitVec 14) (tok : Option Tok)
  | ldN8 (d : BitVec 5) (a : BitVec 5) (i : BitVec 14) (tok : Option Tok)
  | ldI16 (d : BitVec 5) (a : BitVec 5) (i : BitVec 14) (tok : Option Tok)
  | ldN16 (d : BitVec 5) (a : BitVec 5) (i : BitVec 14) (tok : Option Tok)
  | ldI32 (d : BitVec 5) (a : BitVec 5) (i : BitVec 14) (tok : Option Tok)
  | ldN32 (d : BitVec 5) (a : BitVec 5) (i : BitVec 14) (tok : Option Tok)
  | ldI64 (d : BitVec 5) (a : BitVec 5) (i : BitVec 14) (tok : Option Tok)
  | stI8 (d : BitVec 5) (a : BitVec 5) (i : BitVec 14) (tok : Option Tok)
  | stI16 (d : BitVec 5) (a : BitVec 5) (i : BitVec 14) (tok : Option Tok)
  | stI32 (d : BitVec 5) (a : BitVec 5) (i : BitVec 14) (tok : Option Tok)
  | stI64 (d : BitVec 5) (a : BitVec 5) (i : BitVec 14) (tok : Option Tok)
  | amo (d : BitVec 5) (a : BitVec 5) (b : BitVec 5) (o : BitVec 4) (z : BitVec 1) (tok : Option Tok)
  | bind (a : BitVec 5) (b : BitVec 5) (s : BitVec 4) (c : BitVec 5) (tok : Option Tok)
  | unbind (a : BitVec 5) (tok : Option Tok)
  | acqX (a : BitVec 5) (tok : Option Tok)
  | acqS (a : BitVec 5) (tok : Option Tok)
  | rel (a : BitVec 5) (tok : Option Tok)
  | fence (s : BitVec 4) (tok : Option Tok)
  | bar (s : BitVec 4) (i : BitVec 4) (tok : Option Tok)
  | iflush (a : BitVec 5) (b : BitVec 5) (tok : Option Tok)
  | tlook (d : BitVec 5) (a : BitVec 5) (tok : Option Tok)
  | tset (a : BitVec 5) (b : BitVec 5) (tok : Option Tok)
  | tclr (a : BitVec 5) (tok : Option Tok)
  | rowpin (d : BitVec 5) (a : BitVec 5) (k : BitVec 1) (tok : Option Tok)
  | rowwb (d : BitVec 5) (tok : Option Tok)
  | rowrel (d : BitVec 5) (tok : Option Tok)
  | ringInit (d : BitVec 5) (a : BitVec 5) (b : BitVec 5) (tok : Option Tok)
  | ringAcq (d : BitVec 5) (a : BitVec 5) (tok : Option Tok)
  | ringRel (a : BitVec 5) (tok : Option Tok)
  | shld (d : BitVec 5) (a : BitVec 5) (tok : Option Tok)
  | shset (d : BitVec 5) (a : BitVec 5) (b : BitVec 5) (tok : Option Tok)
  | shget (d : BitVec 5) (a : BitVec 5) (b : BitVec 5) (tok : Option Tok)
  | mfs (x : BitVec 5) (n : BitVec 8) (tok : Option Tok)
  | mts (x : BitVec 5) (n : BitVec 8) (tok : Option Tok)
  | trap (i : BitVec 14) (tok : Option Tok)
  | sys (i : BitVec 14) (tok : Option Tok)
  | eret (tok : Option Tok)
  | halt (tok : Option Tok)
  | refdefer (a : BitVec 5) (b : BitVec 5) (tok : Option Tok)
  | poison (a : BitVec 5) (tok : Option Tok)
  | vNop (tok : Option Tok)
  | vAdd (d : BitVec 6) (a : BitVec 6) (b : BitVec 6) (p : BitVec 4) (n : BitVec 1) (x : Option VExt) (tok : Option Tok)
  | vSub (d : BitVec 6) (a : BitVec 6) (b : BitVec 6) (p : BitVec 4) (n : BitVec 1) (x : Option VExt) (tok : Option Tok)
  | vMul (d : BitVec 6) (a : BitVec 6) (b : BitVec 6) (p : BitVec 4) (n : BitVec 1) (x : Option VExt) (tok : Option Tok)
  | vFma (d : BitVec 6) (a : BitVec 6) (b : BitVec 6) (p : BitVec 4) (n : BitVec 1) (x : VExt) (tok : Option Tok)
  | vMin (d : BitVec 6) (a : BitVec 6) (b : BitVec 6) (p : BitVec 4) (n : BitVec 1) (x : Option VExt) (tok : Option Tok)
  | vMax (d : BitVec 6) (a : BitVec 6) (b : BitVec 6) (p : BitVec 4) (n : BitVec 1) (x : Option VExt) (tok : Option Tok)
  | vAbs (d : BitVec 6) (a : BitVec 6) (p : BitVec 4) (n : BitVec 1) (x : Option VExt) (tok : Option Tok)
  | vNeg (d : BitVec 6) (a : BitVec 6) (p : BitVec 4) (n : BitVec 1) (x : Option VExt) (tok : Option Tok)
  | vDiv (d : BitVec 6) (a : BitVec 6) (b : BitVec 6) (p : BitVec 4) (n : BitVec 1) (x : Option VExt) (tok : Option Tok)
  | vSqrt (d : BitVec 6) (a : BitVec 6) (p : BitVec 4) (n : BitVec 1) (x : Option VExt) (tok : Option Tok)
  | vRcp (d : BitVec 6) (a : BitVec 6) (p : BitVec 4) (n : BitVec 1) (x : Option VExt) (tok : Option Tok)
  | vRsqrt (d : BitVec 6) (a : BitVec 6) (p : BitVec 4) (n : BitVec 1) (x : Option VExt) (tok : Option Tok)
  | vExp2 (d : BitVec 6) (a : BitVec 6) (p : BitVec 4) (n : BitVec 1) (x : Option VExt) (tok : Option Tok)
  | vLog2 (d : BitVec 6) (a : BitVec 6) (p : BitVec 4) (n : BitVec 1) (x : Option VExt) (tok : Option Tok)
  | vTanh (d : BitVec 6) (a : BitVec 6) (p : BitVec 4) (n : BitVec 1) (x : Option VExt) (tok : Option Tok)
  | vIadd (d : BitVec 6) (a : BitVec 6) (b : BitVec 6) (p : BitVec 4) (n : BitVec 1) (x : Option VExt) (tok : Option Tok)
  | vIsub (d : BitVec 6) (a : BitVec 6) (b : BitVec 6) (p : BitVec 4) (n : BitVec 1) (x : Option VExt) (tok : Option Tok)
  | vImul (d : BitVec 6) (a : BitVec 6) (b : BitVec 6) (p : BitVec 4) (n : BitVec 1) (x : Option VExt) (tok : Option Tok)
  | vImin (d : BitVec 6) (a : BitVec 6) (b : BitVec 6) (p : BitVec 4) (n : BitVec 1) (x : Option VExt) (tok : Option Tok)
  | vNmin (d : BitVec 6) (a : BitVec 6) (b : BitVec 6) (p : BitVec 4) (n : BitVec 1) (x : Option VExt) (tok : Option Tok)
  | vImax (d : BitVec 6) (a : BitVec 6) (b : BitVec 6) (p : BitVec 4) (n : BitVec 1) (x : Option VExt) (tok : Option Tok)
  | vNmax (d : BitVec 6) (a : BitVec 6) (b : BitVec 6) (p : BitVec 4) (n : BitVec 1) (x : Option VExt) (tok : Option Tok)
  | vIabs (d : BitVec 6) (a : BitVec 6) (p : BitVec 4) (n : BitVec 1) (x : Option VExt) (tok : Option Tok)
  | vAnd (d : BitVec 6) (a : BitVec 6) (b : BitVec 6) (p : BitVec 4) (n : BitVec 1) (x : Option VExt) (tok : Option Tok)
  | vOr (d : BitVec 6) (a : BitVec 6) (b : BitVec 6) (p : BitVec 4) (n : BitVec 1) (x : Option VExt) (tok : Option Tok)
  | vXor (d : BitVec 6) (a : BitVec 6) (b : BitVec 6) (p : BitVec 4) (n : BitVec 1) (x : Option VExt) (tok : Option Tok)
  | vNot (d : BitVec 6) (a : BitVec 6) (p : BitVec 4) (n : BitVec 1) (x : Option VExt) (tok : Option Tok)
  | vShl (d : BitVec 6) (a : BitVec 6) (b : BitVec 6) (p : BitVec 4) (n : BitVec 1) (x : Option VExt) (tok : Option Tok)
  | vShr (d : BitVec 6) (a : BitVec 6) (b : BitVec 6) (p : BitVec 4) (n : BitVec 1) (x : Option VExt) (tok : Option Tok)
  | vSar (d : BitVec 6) (a : BitVec 6) (b : BitVec 6) (p : BitVec 4) (n : BitVec 1) (x : Option VExt) (tok : Option Tok)
  | vFsh (d : BitVec 6) (a : BitVec 6) (b : BitVec 6) (p : BitVec 4) (n : BitVec 1) (x : VExt) (tok : Option Tok)
  | vClz (d : BitVec 6) (a : BitVec 6) (p : BitVec 4) (n : BitVec 1) (x : Option VExt) (tok : Option Tok)
  | vPopc (d : BitVec 6) (a : BitVec 6) (p : BitVec 4) (n : BitVec 1) (x : Option VExt) (tok : Option Tok)
  | vFfs (d : BitVec 6) (a : BitVec 6) (p : BitVec 4) (n : BitVec 1) (x : Option VExt) (tok : Option Tok)
  | vShli (d : BitVec 6) (a : BitVec 6) (i : BitVec 6) (p : BitVec 4) (n : BitVec 1) (x : Option VExt) (tok : Option Tok)
  | vShri (d : BitVec 6) (a : BitVec 6) (i : BitVec 6) (p : BitVec 4) (n : BitVec 1) (x : Option VExt) (tok : Option Tok)
  | vSari (d : BitVec 6) (a : BitVec 6) (i : BitVec 6) (p : BitVec 4) (n : BitVec 1) (x : Option VExt) (tok : Option Tok)
  | vRshr (d : BitVec 6) (a : BitVec 6) (i : BitVec 6) (p : BitVec 4) (n : BitVec 1) (x : Option VExt) (tok : Option Tok)
  | vFeq (q : BitVec 4) (a : BitVec 6) (b : BitVec 6) (p : BitVec 4) (n : BitVec 1) (x : Option VExt) (tok : Option Tok)
  | vFlt (q : BitVec 4) (a : BitVec 6) (b : BitVec 6) (p : BitVec 4) (n : BitVec 1) (x : Option VExt) (tok : Option Tok)
  | vFle (q : BitVec 4) (a : BitVec 6) (b : BitVec 6) (p : BitVec 4) (n : BitVec 1) (x : Option VExt) (tok : Option Tok)
  | vIeq (q : BitVec 4) (a : BitVec 6) (b : BitVec 6) (p : BitVec 4) (n : BitVec 1) (x : Option VExt) (tok : Option Tok)
  | vIlt (q : BitVec 4) (a : BitVec 6) (b : BitVec 6) (p : BitVec 4) (n : BitVec 1) (x : Option VExt) (tok : Option Tok)
  | vNlt (q : BitVec 4) (a : BitVec 6) (b : BitVec 6) (p : BitVec 4) (n : BitVec 1) (x : Option VExt) (tok : Option Tok)
  | vSel (d : BitVec 6) (a : BitVec 6) (b : BitVec 6) (p : BitVec 4) (n : BitVec 1) (x : Option VExt) (tok : Option Tok)
  | vCvtIf (d : BitVec 6) (a : BitVec 6) (p : BitVec 4) (n : BitVec 1) (x : Option VExt) (tok : Option Tok)
  | vCvtFi (d : BitVec 6) (a : BitVec 6) (p : BitVec 4) (n : BitVec 1) (x : Option VExt) (tok : Option Tok)
  | vCvtFf (d : BitVec 6) (a : BitVec 6) (p : BitVec 4) (n : BitVec 1) (x : Option VExt) (tok : Option Tok)
  | vQnt (d : BitVec 6) (a : BitVec 6) (b : BitVec 6) (p : BitVec 4) (n : BitVec 1) (x : VExt) (tok : Option Tok)
  | vDp4 (d : BitVec 6) (a : BitVec 6) (b : BitVec 6) (p : BitVec 4) (n : BitVec 1) (x : Option VExt) (tok : Option Tok)
  | vRadd (d : BitVec 6) (a : BitVec 6) (p : BitVec 4) (n : BitVec 1) (x : Option VExt) (tok : Option Tok)
  | vRmax (d : BitVec 6) (a : BitVec 6) (p : BitVec 4) (n : BitVec 1) (x : Option VExt) (tok : Option Tok)
  | vRmin (d : BitVec 6) (a : BitVec 6) (p : BitVec 4) (n : BitVec 1) (x : Option VExt) (tok : Option Tok)
  | vScan (d : BitVec 6) (a : BitVec 6) (p : BitVec 4) (n : BitVec 1) (x : Option VExt) (tok : Option Tok)
  | vPerm (d : BitVec 6) (a : BitVec 6) (b : BitVec 6) (p : BitVec 4) (n : BitVec 1) (x : Option VExt) (tok : Option Tok)
  | vBcast (d : BitVec 6) (s : BitVec 5) (p : BitVec 4) (n : BitVec 1) (x : Option VExt) (tok : Option Tok)
  | vIns (d : BitVec 6) (a : BitVec 6) (s : BitVec 5) (p : BitVec 4) (n : BitVec 1) (x : Option VExt) (tok : Option Tok)
  | vExt (d : BitVec 6) (a : BitVec 6) (s : BitVec 5) (p : BitVec 4) (n : BitVec 1) (x : Option VExt) (tok : Option Tok)
  | vLse (d : BitVec 6) (a : BitVec 6) (b : BitVec 6) (p : BitVec 4) (n : BitVec 1) (x : Option VExt) (tok : Option Tok)
  | vCex (d : BitVec 6) (a : BitVec 6) (b : BitVec 6) (p : BitVec 4) (n : BitVec 1) (x : Option VExt) (tok : Option Tok)
  | vSeed (s : BitVec 5) (p : BitVec 4) (n : BitVec 1) (x : Option VExt) (tok : Option Tok)
  | vLd (v : BitVec 6) (s : BitVec 5) (i : BitVec 7) (p : BitVec 4) (n : BitVec 1) (x : Option VExt) (tok : Option Tok)
  | vSt (v : BitVec 6) (s : BitVec 5) (i : BitVec 7) (p : BitVec 4) (n : BitVec 1) (x : Option VExt) (tok : Option Tok)
  | vLdu (v : BitVec 6) (s : BitVec 5) (i : BitVec 7) (p : BitVec 4) (n : BitVec 1) (x : Option VExt) (tok : Option Tok)
  | vStu (v : BitVec 6) (s : BitVec 5) (i : BitVec 7) (p : BitVec 4) (n : BitVec 1) (x : Option VExt) (tok : Option Tok)
  | vStm (v : BitVec 6) (s : BitVec 5) (i : BitVec 7) (p : BitVec 4) (n : BitVec 1) (x : VExt) (tok : Option Tok)
  | vGth (d : BitVec 6) (a : BitVec 6) (s : BitVec 5) (p : BitVec 4) (n : BitVec 1) (x : Option VExt) (tok : Option Tok)
  | vSct (d : BitVec 6) (a : BitVec 6) (s : BitVec 5) (p : BitVec 4) (n : BitVec 1) (x : Option VExt) (tok : Option Tok)
  | pAnd (q : BitVec 4) (a : BitVec 4) (b : BitVec 4) (tok : Option Tok)
  | pOr (q : BitVec 4) (a : BitVec 4) (b : BitVec 4) (tok : Option Tok)
  | pXor (q : BitVec 4) (a : BitVec 4) (b : BitVec 4) (tok : Option Tok)
  | pAndn (q : BitVec 4) (a : BitVec 4) (b : BitVec 4) (tok : Option Tok)
  | pNot (q : BitVec 4) (a : BitVec 4) (tok : Option Tok)
  | pCnt (a : BitVec 4) (s : BitVec 5) (tok : Option Tok)
  | mNop (tok : Option Tok)
  | mMma (a : BitVec 4) (b : BitVec 4) (r : BitVec 6) (c : BitVec 6) (m : BitVec 3) (tok : Option Tok)
  | mMmaI (a : BitVec 4) (b : BitVec 4) (r : BitVec 6) (c : BitVec 6) (tok : Option Tok)
  | mMmaK4 (a : BitVec 4) (b : BitVec 4) (r : BitVec 6) (c : BitVec 6) (tok : Option Tok)
  | mScacc (a : BitVec 4) (b : BitVec 4) (r : BitVec 6) (c : BitVec 6) (m : BitVec 3) (tok : Option Tok)
  | mZero (tok : Option Tok)
  | mSwap (tok : Option Tok)
  | mDrain (d : BitVec 4) (m : BitVec 3) (s : BitVec 1) (r : BitVec 6) (h : BitVec 1) (tok : Option Tok)
  | mDrainAmax (d : BitVec 4) (e : BitVec 5) (m : BitVec 3) (s : BitVec 1) (r : BitVec 6) (h : BitVec 1) (tok : Option Tok)
  | mKat (id : BitVec 4) (fmt : BitVec 4) (tok : Option Tok)
  | mChk (sig : BitVec 32) (tok : Option Tok)
  | mEpi (d : BitVec 4) (m : BitVec 3) (s : BitVec 1) (r : BitVec 6) (h : BitVec 1) (tok : Option Tok)
  | mEpiLd (a : BitVec 4) (tok : Option Tok)
  | mGang (m : BitVec 4) (g : BitVec 2)
  | mAcct (t : BitVec 2) (tok : Option Tok)
  | dNop (tok : Option Tok)
  | dCopy (x : BitVec 5) (y : BitVec 5) (z : BitVec 5) (tok : Option Tok)
  | dCopyRg (y : BitVec 5) (z : BitVec 5) (r : BitVec 4) (m : BitVec 2) (tok : Option Tok)
  | dBcast (x : BitVec 5) (y : BitVec 5) (z : BitVec 5) (tok : Option Tok)
  | dStore (x : BitVec 5) (y : BitVec 5) (z : BitVec 5) (w : BitVec 2) (tok : Option Tok)
  | dSpill (x : BitVec 5) (y : BitVec 5) (t : BitVec 1) (r : BitVec 6) (tok : Option Tok)
  | dFill (x : BitVec 5) (y : BitVec 5) (t : BitVec 1) (r : BitVec 6) (tok : Option Tok)
  | dAtom (x : BitVec 5) (y : BitVec 5) (z : BitVec 5) (o : BitVec 4) (s : BitVec 1) (tok : Option Tok)
  | dAtomNr (x : BitVec 5) (y : BitVec 5) (z : BitVec 5) (o : BitVec 4) (s : BitVec 1) (tok : Option Tok)
  | dAfence (s : BitVec 4) (tok : Option Tok)
  | dQpost (x : BitVec 5) (i : BitVec 6) (tok : Option Tok)
  | dQget (x : BitVec 5) (i : BitVec 6) (tok : Option Tok)
  | dAppend (x : BitVec 5) (y : BitVec 5) (z : BitVec 5) (tok : Option Tok)
  | dPref (x : BitVec 5) (z : BitVec 5) (tok : Option Tok)
  | dTfill (x : BitVec 5) (y : BitVec 5) (tok : Option Tok)
  | fNop (tok : Option Tok)
  | fFur (d : BitVec 3) (x : BitVec 5) (y : BitVec 5) (z : BitVec 5) (tok : Option Tok)
  | fFurQm (x : BitVec 5) (y : BitVec 5) (z : BitVec 5) (m : BitVec 2) (tok : Option Tok)
  | fSys (d : BitVec 3) (x : BitVec 5) (y : BitVec 5) (z : BitVec 5) (tok : Option Tok)
  | fHead (x : BitVec 5) (y : BitVec 5) (z : BitVec 5) (tok : Option Tok)
  | fRing (x : BitVec 5) (y : BitVec 5) (z : BitVec 5) (r : BitVec 1) (tok : Option Tok)
  | fGbcast (x : BitVec 5) (y : BitVec 5) (z : BitVec 5) (m : BitVec 4) (tok : Option Tok)
  | dealerFetch (tb : TableId)
  | privateFetch (tb : TableId)
  | instructionHandOver (k : CoreId)
  | joinComplete (tb : TableId)
  | vacancyRule (tb : TableId)
  | instructionStart (k : CoreId) (e : Engine)
  | instructionRetire (k : CoreId) (e : Engine)
  | tokdead (k : CoreId) (ck : Nat)
  | tokdeadEvent (k : CoreId) (ck : Nat)
  | gangStart (tb : TableId) (q : BitVec 2)
  | gangCompletion (tb : TableId) (q : BitVec 2)
  | trapEntry (k : CoreId)
  | interruptRequest (k : CoreId) (cause : Word)
  | intr (k : CoreId)
  | automaticRefetch (k : CoreId) (off : BitVec 25)
  | subarrayRefresh (k : CoreId) (sub : BitVec 10) (age : Nat)
  | forcedRefresh (k : CoreId) (sub : BitVec 10) (age : Nat)
  | towerOverTemperature (k : CoreId)
  | acquireFill (k : CoreId) (e : Engine)
  | acquireDrain (k : CoreId) (e : Engine)
  | drillLineBeat (k : CoreId)
  | readPacket (src : CoreId) (tag : Nat) (a : BitVec 52) (il : BitVec 3) (len : Nat)
  | writePacket (src : CoreId) (tag : Nat) (a : BitVec 52) (il : BitVec 3) (bytes : List (Option (BitVec 8)))
  | atomicPacket (src : CoreId) (tag : Nat) (a : BitVec 52) (il : BitVec 3) (aop : BitVec 4) (sz : BitVec 1) (val : Word) (cmp : Word) (nr : Bool)
  | appendPacket (src : CoreId) (tag : Nat) (a : BitVec 52) (il : BitVec 3) (bytes : List (BitVec 8))
  | parityDelta (st : StackId) (n : Nat)
  | packetReply (k : CoreId) (tag : Nat)
  | spareLayerMigration (st : StackId) (layer : BitVec 4)
  | migrationRowCopy (st : StackId)
  | precharge (st : StackId) (pc : BitVec 6) (bank : BitVec 4) (row : BitVec 17)
  | criticalTemperatureRise (st : StackId)
  | criticalTemperatureFall (st : StackId)
  | thermalHold (st : StackId)
  | translationWalk (k : CoreId) (w : WalkFor)
  | tictlGo (d : DieId) (v : Word)
  | shootdownComplete (d : DieId)
  | objectGrant (obj : Nat)
  | fenceComplete (k : CoreId)
  | barrierComplete (k : CoreId) (lvl : BitVec 3) (id : BitVec 4)
  | attentionPosition (unit : BitVec 12)
  | queryPacket (st : StackId) (n : Nat)
  | tripleWrite (k : CoreId)
  | preemptionRequest (tb : TableId)
  | preemptionDrainComplete (tb : TableId)
  | taskResume (n : Nat)
  | ltrig (v : Word)
  | lgregRegister (v : Word)
  | lgregUnregister (v : Word)
  | labort (v : Word)
  | lerrClear (v : Word)
  | instanceStart (gid : BitVec 8)
  | nodePlace
  | nodeComplete (gid : BitVec 8) (node : BitVec 12)
  | powerOnReset
  | coreReset (what : ResetTarget)
  | firmwareVerify (d : DieId) (images : BootImages)
  | spdmMeasurement (first : Nat) (count : Nat)
  | spareCoreTakeover (tb : TableId) (sp : SpareSeat)
  | hostLinkTraining (host : HostEnd) (gen6 : Bool) (x16 : Bool) (x8 : Bool)
  | readyBitClear (d : DieId) (bit : BitVec 5)
  | ipost (d : DieId) (v : Word)
  | eventForward (d : DieId) (tgt : Option CoreId)
  | plim (v : Word)
  | powerCapInterval (watts : Nat)
  | hostBar4Access (off : BitVec 36) (acc : HostAccess)
  | hostMemoryRequest (off : BitVec 50) (ans : HostAnswer)
  | fmWriteRoute (v : Word)
  | fmReadRoute (v : Word)
  | fmWriteKey (v : Word)
  | fmReadKey (v : Word)
  | fmSetId (v : Word)
  | fmWritePodMember (v : Word)
  | fmWriteGraphMask (v : Word)
  | fmQuiesce (v : Word)
  | fmResume (v : Word)
  | fmlinkClear (v : Word)
  | fqtail (d : DieId) (v : Word)
  | descriptorStart (d : DieId)
  | descriptorComplete (d : DieId) (n : Nat)
  | fabricPacketSend (d : DieId) (n : Nat) (port : BitVec 5)
  | fabricPacketArrival (p : FabricPacket)
  | portLinkUp (port : BitVec 5)
  | portFailure (port : BitVec 5)
  | packetResend (dst : BitVec 14) (lane : BitVec 4) (port : BitVec 5)
  | laneTimeout (dst : BitVec 14) (lane : BitVec 4)
  | podBarrierArrival (member : BitVec 6) (id : BitVec 4)
  | registerWrite (reg : DevReg) (v : Word)
  | towerTemperatureFall (k : CoreId)
  | stackTraining (st : StackId)
  | markedFailed (st : StackId) (what : FailMark)
  | endToEndAcknowledgement (dst : BitVec 14) (lane : BitVec 4) (seq : Nat) (status : BitVec 8) (bytes : List (BitVec 8)) (poison : List Nat)
  | hostDoorbell (v : Word)
deriving DecidableEq, Repr

end Sys2Proof
end

