-- ==== Sys2Proof/Decode.lean ====
section
/-! DEFINITION. Encodings (R35 to R61): the bundle walk of R38, the decoder of each engine's first slots, every check
that depends on the bits of the bundle alone, and the encoder written from the same tables. -/

namespace Sys2Proof

/-- Bit W of `li` and `lip` (R51). -/
def Lit.wide : Lit → BitVec 1
  | .short _ => 0#1
  | .long _ _ => 1#1

/-- The literal slots, low word first (R41). -/
def Lit.slots : Lit → List (BitVec 32)
  | .short w => [w]
  | .long lo hi => [lo, hi]

/-- The literal of bit W and the two slots after the first (R71). -/
def Lit.ofSlots (w : BitVec 1) (i0 i1 : BitVec 32) : Lit := if w = 0#1 then .short i0 else .long i0 i1

/-- Bit L of format CB (R51). -/
def BrOff.bit : BrOff → BitVec 1
  | .short _ => 0#1
  | .long _ => 1#1

/-- Bits [8:0] of format CB (R51). -/
def BrOff.low : BrOff → BitVec 9
  | .short o => o
  | .long _ => 0#9

/-- The continuation of a branch with L = 1. -/
def BrOff.slots : BrOff → List (BitVec 32)
  | .short _ => []
  | .long o => [o]

/-- The offset of bit L, bits [8:0] and the continuation (R51). -/
def BrOff.ofSlots (l : BitVec 1) (o : BitVec 9) (i0 : BitVec 32) : BrOff := if l = 0#1 then .short o else .long i0

/-- A Boolean of one bit. -/
def bit1 (b : BitVec 1) : Bool := decide (b = 1#1)
/-- One bit of a Boolean. -/
def ofBool1 (b : Bool) : BitVec 1 := if b then 1#1 else 0#1

/-- The vector extension slot (R55). -/
def VExt.toWord (x : VExt) : BitVec 32 :=
  (x.c ++ x.rm ++ ofBool1 x.sat ++ x.nw ++ x.dpos ++ x.sa ++ x.sb ++ x.scf ++ x.sfmt : BitVec 32)

/-- The fields of a vector extension slot (R55). -/
def VExt.ofWord (w : BitVec 32) : VExt :=
  { c := w.extractLsb' 26 6, rm := w.extractLsb' 23 3, sat := bit1 (w.extractLsb' 22 1), nw := w.extractLsb' 18 4,
    dpos := w.extractLsb' 15 3, sa := w.extractLsb' 11 4, sb := w.extractLsb' 7 4, scf := w.extractLsb' 3 4,
    sfmt := w.extractLsb' 0 3 }

/-- Bit X (R54). -/
def VExt.bit : Option VExt → BitVec 1
  | none => 0#1
  | some _ => 1#1

/-- The extension slot of an instruction that may have one. -/
def VExt.slots : Option VExt → List (BitVec 32)
  | none => []
  | some x => [x.toWord]

/-- The extension that bit X announces (R54). -/
def VExt.read (b : BitVec 1) (i0 : BitVec 32) : Option VExt := if b = 0#1 then none else some (VExt.ofWord i0)

/-- A token word (R43). -/
def Tok.toWord (t : Tok) : BitVec 32 :=
  (t.post ++ t.wait0 ++ t.wait1 ++ t.wait2 ++ ofBool1 t.ts ++ ofBool1 t.ka ++ 0#10 : BitVec 32)

/-- The fields of a token word; none when a reserved bit is set (R43). -/
def Tok.ofWord (w : BitVec 32) : Option Tok :=
  if w.extractLsb' 0 10 = 0#10 then
    some { post := w.extractLsb' 27 5, wait0 := w.extractLsb' 22 5, wait1 := w.extractLsb' 17 5,
           wait2 := w.extractLsb' 12 5, ts := bit1 (w.extractLsb' 11 1), ka := bit1 (w.extractLsb' 10 1) }
  else none

/-- The token word an instruction carries (R43). -/
def Instr.tok? : Instr → Option Tok
  | .nop tok => tok
  | .add _ _ _ tok => tok
  | .sub _ _ _ tok => tok
  | .mul _ _ _ tok => tok
  | .mulhI _ _ _ tok => tok
  | .mulhN _ _ _ tok => tok
  | .divI _ _ _ tok => tok
  | .divN _ _ _ tok => tok
  | .remI _ _ _ tok => tok
  | .remN _ _ _ tok => tok
  | .and _ _ _ tok => tok
  | .or _ _ _ tok => tok
  | .xor _ _ _ tok => tok
  | .andn _ _ _ tok => tok
  | .sll _ _ _ tok => tok
  | .srl _ _ _ tok => tok
  | .sra _ _ _ tok => tok
  | .rol _ _ _ tok => tok
  | .fsh _ _ _ _ tok => tok
  | .clz _ _ _ tok => tok
  | .ctz _ _ _ tok => tok
  | .ffs _ _ _ tok => tok
  | .popc _ _ _ tok => tok
  | .bswap _ _ _ tok => tok
  | .minI _ _ _ tok => tok
  | .minN _ _ _ tok => tok
  | .maxI _ _ _ tok => tok
  | .maxN _ _ _ tok => tok
  | .seq _ _ _ tok => tok
  | .sne _ _ _ tok => tok
  | .sltI _ _ _ tok => tok
  | .sltN _ _ _ tok => tok
  | .sleI _ _ _ tok => tok
  | .sleN _ _ _ tok => tok
  | .sel _ _ _ _ tok => tok
  | .addi _ _ _ tok => tok
  | .andi _ _ _ tok => tok
  | .ori _ _ _ tok => tok
  | .xori _ _ _ tok => tok
  | .slli _ _ _ tok => tok
  | .srli _ _ _ tok => tok
  | .srai _ _ _ tok => tok
  | .roli _ _ _ tok => tok
  | .seqi _ _ _ tok => tok
  | .sltiI _ _ _ tok => tok
  | .sltiN _ _ _ tok => tok
  | .muli _ _ _ tok => tok
  | .li _ _ tok => tok
  | .lip _ _ tok => tok
  | .fadd _ _ _ _ _ tok => tok
  | .fsub _ _ _ _ _ tok => tok
  | .fmul _ _ _ _ _ tok => tok
  | .ffma _ _ _ _ _ _ tok => tok
  | .fdiv _ _ _ _ _ tok => tok
  | .fsqrt _ _ _ _ tok => tok
  | .fmin _ _ _ _ tok => tok
  | .fmax _ _ _ _ tok => tok
  | .feq _ _ _ _ tok => tok
  | .flt _ _ _ _ tok => tok
  | .fle _ _ _ _ tok => tok
  | .fcvt _ _ _ _ _ tok => tok
  | .fneg _ _ _ tok => tok
  | .fabs _ _ _ tok => tok
  | .beq _ _ _ _ tok => tok
  | .bne _ _ _ _ tok => tok
  | .bltI _ _ _ _ tok => tok
  | .bltN _ _ _ _ tok => tok
  | .bgeI _ _ _ _ tok => tok
  | .bgeN _ _ _ _ tok => tok
  | .brx _ _ tok => tok
  | .loop _ _ _ tok => tok
  | .fold _ tok => tok
  | .join _ tok => tok
  | .seat _ tok => tok
  | .jmp _ tok => tok
  | .call _ tok => tok
  | .ret _ tok => tok
  | .ldI8 _ _ _ tok => tok
  | .ldN8 _ _ _ tok => tok
  | .ldI16 _ _ _ tok => tok
  | .ldN16 _ _ _ tok => tok
  | .ldI32 _ _ _ tok => tok
  | .ldN32 _ _ _ tok => tok
  | .ldI64 _ _ _ tok => tok
  | .stI8 _ _ _ tok => tok
  | .stI16 _ _ _ tok => tok
  | .stI32 _ _ _ tok => tok
  | .stI64 _ _ _ tok => tok
  | .amo _ _ _ _ _ tok => tok
  | .bind _ _ _ _ tok => tok
  | .unbind _ tok => tok
  | .acqX _ tok => tok
  | .acqS _ tok => tok
  | .rel _ tok => tok
  | .fence _ tok => tok
  | .bar _ _ tok => tok
  | .iflush _ _ tok => tok
  | .tlook _ _ tok => tok
  | .tset _ _ tok => tok
  | .tclr _ tok => tok
  | .rowpin _ _ _ tok => tok
  | .rowwb _ tok => tok
  | .rowrel _ tok => tok
  | .ringInit _ _ _ tok => tok
  | .ringAcq _ _ tok => tok
  | .ringRel _ tok => tok
  | .shld _ _ tok => tok
  | .shset _ _ _ tok => tok
  | .shget _ _ _ tok => tok
  | .mfs _ _ tok => tok
  | .mts _ _ tok => tok
  | .trap _ tok => tok
  | .sys _ tok => tok
  | .eret tok => tok
  | .halt tok => tok
  | .refdefer _ _ tok => tok
  | .poison _ tok => tok
  | .vNop tok => tok
  | .vAdd _ _ _ _ _ _ tok => tok
  | .vSub _ _ _ _ _ _ tok => tok
  | .vMul _ _ _ _ _ _ tok => tok
  | .vFma _ _ _ _ _ _ tok => tok
  | .vMin _ _ _ _ _ _ tok => tok
  | .vMax _ _ _ _ _ _ tok => tok
  | .vAbs _ _ _ _ _ tok => tok
  | .vNeg _ _ _ _ _ tok => tok
  | .vDiv _ _ _ _ _ _ tok => tok
  | .vSqrt _ _ _ _ _ tok => tok
  | .vRcp _ _ _ _ _ tok => tok
  | .vRsqrt _ _ _ _ _ tok => tok
  | .vExp2 _ _ _ _ _ tok => tok
  | .vLog2 _ _ _ _ _ tok => tok
  | .vTanh _ _ _ _ _ tok => tok
  | .vIadd _ _ _ _ _ _ tok => tok
  | .vIsub _ _ _ _ _ _ tok => tok
  | .vImul _ _ _ _ _ _ tok => tok
  | .vImin _ _ _ _ _ _ tok => tok
  | .vNmin _ _ _ _ _ _ tok => tok
  | .vImax _ _ _ _ _ _ tok => tok
  | .vNmax _ _ _ _ _ _ tok => tok
  | .vIabs _ _ _ _ _ tok => tok
  | .vAnd _ _ _ _ _ _ tok => tok
  | .vOr _ _ _ _ _ _ tok => tok
  | .vXor _ _ _ _ _ _ tok => tok
  | .vNot _ _ _ _ _ tok => tok
  | .vShl _ _ _ _ _ _ tok => tok
  | .vShr _ _ _ _ _ _ tok => tok
  | .vSar _ _ _ _ _ _ tok => tok
  | .vFsh _ _ _ _ _ _ tok => tok
  | .vClz _ _ _ _ _ tok => tok
  | .vPopc _ _ _ _ _ tok => tok
  | .vFfs _ _ _ _ _ tok => tok
  | .vShli _ _ _ _ _ _ tok => tok
  | .vShri _ _ _ _ _ _ tok => tok
  | .vSari _ _ _ _ _ _ tok => tok
  | .vRshr _ _ _ _ _ _ tok => tok
  | .vFeq _ _ _ _ _ _ tok => tok
  | .vFlt _ _ _ _ _ _ tok => tok
  | .vFle _ _ _ _ _ _ tok => tok
  | .vIeq _ _ _ _ _ _ tok => tok
  | .vIlt _ _ _ _ _ _ tok => tok
  | .vNlt _ _ _ _ _ _ tok => tok
  | .vSel _ _ _ _ _ _ tok => tok
  | .vCvtIf _ _ _ _ _ tok => tok
  | .vCvtFi _ _ _ _ _ tok => tok
  | .vCvtFf _ _ _ _ _ tok => tok
  | .vQnt _ _ _ _ _ _ tok => tok
  | .vDp4 _ _ _ _ _ _ tok => tok
  | .vRadd _ _ _ _ _ tok => tok
  | .vRmax _ _ _ _ _ tok => tok
  | .vRmin _ _ _ _ _ tok => tok
  | .vScan _ _ _ _ _ tok => tok
  | .vPerm _ _ _ _ _ _ tok => tok
  | .vBcast _ _ _ _ _ tok => tok
  | .vIns _ _ _ _ _ _ tok => tok
  | .vExt _ _ _ _ _ _ tok => tok
  | .vLse _ _ _ _ _ _ tok => tok
  | .vCex _ _ _ _ _ _ tok => tok
  | .vSeed _ _ _ _ tok => tok
  | .vLd _ _ _ _ _ _ tok => tok
  | .vSt _ _ _ _ _ _ tok => tok
  | .vLdu _ _ _ _ _ _ tok => tok
  | .vStu _ _ _ _ _ _ tok => tok
  | .vStm _ _ _ _ _ _ tok => tok
  | .vGth _ _ _ _ _ _ tok => tok
  | .vSct _ _ _ _ _ _ tok => tok
  | .pAnd _ _ _ tok => tok
  | .pOr _ _ _ tok => tok
  | .pXor _ _ _ tok => tok
  | .pAndn _ _ _ tok => tok
  | .pNot _ _ tok => tok
  | .pCnt _ _ tok => tok
  | .mNop tok => tok
  | .mMma _ _ _ _ _ tok => tok
  | .mMmaI _ _ _ _ tok => tok
  | .mMmaK4 _ _ _ _ tok => tok
  | .mScacc _ _ _ _ _ tok => tok
  | .mZero tok => tok
  | .mSwap tok => tok
  | .mDrain _ _ _ _ _ tok => tok
  | .mDrainAmax _ _ _ _ _ _ tok => tok
  | .mKat _ _ tok => tok
  | .mChk _ tok => tok
  | .mEpi _ _ _ _ _ tok => tok
  | .mEpiLd _ tok => tok
  | .mGang _ _ => none
  | .mAcct _ tok => tok
  | .dNop tok => tok
  | .dCopy _ _ _ tok => tok
  | .dCopyRg _ _ _ _ tok => tok
  | .dBcast _ _ _ tok => tok
  | .dStore _ _ _ _ tok => tok
  | .dSpill _ _ _ _ tok => tok
  | .dFill _ _ _ _ tok => tok
  | .dAtom _ _ _ _ _ tok => tok
  | .dAtomNr _ _ _ _ _ tok => tok
  | .dAfence _ tok => tok
  | .dQpost _ _ tok => tok
  | .dQget _ _ tok => tok
  | .dAppend _ _ _ tok => tok
  | .dPref _ _ tok => tok
  | .dTfill _ _ tok => tok
  | .fNop tok => tok
  | .fFur _ _ _ _ tok => tok
  | .fFurQm _ _ _ _ tok => tok
  | .fSys _ _ _ _ tok => tok
  | .fHead _ _ _ tok => tok
  | .fRing _ _ _ _ tok => tok
  | .fGbcast _ _ _ _ tok => tok
  | _ => none

/-- The engine whose opcode space an instruction stands in; none for an event of the package. -/
def Instr.engine? : Instr → Option Engine
  | .nop .. => some .c
  | .add .. => some .c
  | .sub .. => some .c
  | .mul .. => some .c
  | .mulhI .. => some .c
  | .mulhN .. => some .c
  | .divI .. => some .c
  | .divN .. => some .c
  | .remI .. => some .c
  | .remN .. => some .c
  | .and .. => some .c
  | .or .. => some .c
  | .xor .. => some .c
  | .andn .. => some .c
  | .sll .. => some .c
  | .srl .. => some .c
  | .sra .. => some .c
  | .rol .. => some .c
  | .fsh .. => some .c
  | .clz .. => some .c
  | .ctz .. => some .c
  | .ffs .. => some .c
  | .popc .. => some .c
  | .bswap .. => some .c
  | .minI .. => some .c
  | .minN .. => some .c
  | .maxI .. => some .c
  | .maxN .. => some .c
  | .seq .. => some .c
  | .sne .. => some .c
  | .sltI .. => some .c
  | .sltN .. => some .c
  | .sleI .. => some .c
  | .sleN .. => some .c
  | .sel .. => some .c
  | .addi .. => some .c
  | .andi .. => some .c
  | .ori .. => some .c
  | .xori .. => some .c
  | .slli .. => some .c
  | .srli .. => some .c
  | .srai .. => some .c
  | .roli .. => some .c
  | .seqi .. => some .c
  | .sltiI .. => some .c
  | .sltiN .. => some .c
  | .muli .. => some .c
  | .li .. => some .c
  | .lip .. => some .c
  | .fadd .. => some .c
  | .fsub .. => some .c
  | .fmul .. => some .c
  | .ffma .. => some .c
  | .fdiv .. => some .c
  | .fsqrt .. => some .c
  | .fmin .. => some .c
  | .fmax .. => some .c
  | .feq .. => some .c
  | .flt .. => some .c
  | .fle .. => some .c
  | .fcvt .. => some .c
  | .fneg .. => some .c
  | .fabs .. => some .c
  | .beq .. => some .c
  | .bne .. => some .c
  | .bltI .. => some .c
  | .bltN .. => some .c
  | .bgeI .. => some .c
  | .bgeN .. => some .c
  | .brx .. => some .c
  | .loop .. => some .c
  | .fold .. => some .c
  | .join .. => some .c
  | .seat .. => some .c
  | .jmp .. => some .c
  | .call .. => some .c
  | .ret .. => some .c
  | .ldI8 .. => some .c
  | .ldN8 .. => some .c
  | .ldI16 .. => some .c
  | .ldN16 .. => some .c
  | .ldI32 .. => some .c
  | .ldN32 .. => some .c
  | .ldI64 .. => some .c
  | .stI8 .. => some .c
  | .stI16 .. => some .c
  | .stI32 .. => some .c
  | .stI64 .. => some .c
  | .amo .. => some .c
  | .bind .. => some .c
  | .unbind .. => some .c
  | .acqX .. => some .c
  | .acqS .. => some .c
  | .rel .. => some .c
  | .fence .. => some .c
  | .bar .. => some .c
  | .iflush .. => some .c
  | .tlook .. => some .c
  | .tset .. => some .c
  | .tclr .. => some .c
  | .rowpin .. => some .c
  | .rowwb .. => some .c
  | .rowrel .. => some .c
  | .ringInit .. => some .c
  | .ringAcq .. => some .c
  | .ringRel .. => some .c
  | .shld .. => some .c
  | .shset .. => some .c
  | .shget .. => some .c
  | .mfs .. => some .c
  | .mts .. => some .c
  | .trap .. => some .c
  | .sys .. => some .c
  | .eret .. => some .c
  | .halt .. => some .c
  | .refdefer .. => some .c
  | .poison .. => some .c
  | .vNop .. => some .v
  | .vAdd .. => some .v
  | .vSub .. => some .v
  | .vMul .. => some .v
  | .vFma .. => some .v
  | .vMin .. => some .v
  | .vMax .. => some .v
  | .vAbs .. => some .v
  | .vNeg .. => some .v
  | .vDiv .. => some .v
  | .vSqrt .. => some .v
  | .vRcp .. => some .v
  | .vRsqrt .. => some .v
  | .vExp2 .. => some .v
  | .vLog2 .. => some .v
  | .vTanh .. => some .v
  | .vIadd .. => some .v
  | .vIsub .. => some .v
  | .vImul .. => some .v
  | .vImin .. => some .v
  | .vNmin .. => some .v
  | .vImax .. => some .v
  | .vNmax .. => some .v
  | .vIabs .. => some .v
  | .vAnd .. => some .v
  | .vOr .. => some .v
  | .vXor .. => some .v
  | .vNot .. => some .v
  | .vShl .. => some .v
  | .vShr .. => some .v
  | .vSar .. => some .v
  | .vFsh .. => some .v
  | .vClz .. => some .v
  | .vPopc .. => some .v
  | .vFfs .. => some .v
  | .vShli .. => some .v
  | .vShri .. => some .v
  | .vSari .. => some .v
  | .vRshr .. => some .v
  | .vFeq .. => some .v
  | .vFlt .. => some .v
  | .vFle .. => some .v
  | .vIeq .. => some .v
  | .vIlt .. => some .v
  | .vNlt .. => some .v
  | .vSel .. => some .v
  | .vCvtIf .. => some .v
  | .vCvtFi .. => some .v
  | .vCvtFf .. => some .v
  | .vQnt .. => some .v
  | .vDp4 .. => some .v
  | .vRadd .. => some .v
  | .vRmax .. => some .v
  | .vRmin .. => some .v
  | .vScan .. => some .v
  | .vPerm .. => some .v
  | .vBcast .. => some .v
  | .vIns .. => some .v
  | .vExt .. => some .v
  | .vLse .. => some .v
  | .vCex .. => some .v
  | .vSeed .. => some .v
  | .vLd .. => some .v
  | .vSt .. => some .v
  | .vLdu .. => some .v
  | .vStu .. => some .v
  | .vStm .. => some .v
  | .vGth .. => some .v
  | .vSct .. => some .v
  | .pAnd .. => some .v
  | .pOr .. => some .v
  | .pXor .. => some .v
  | .pAndn .. => some .v
  | .pNot .. => some .v
  | .pCnt .. => some .v
  | .mNop .. => some .m
  | .mMma .. => some .m
  | .mMmaI .. => some .m
  | .mMmaK4 .. => some .m
  | .mScacc .. => some .m
  | .mZero .. => some .m
  | .mSwap .. => some .m
  | .mDrain .. => some .m
  | .mDrainAmax .. => some .m
  | .mKat .. => some .m
  | .mChk .. => some .m
  | .mEpi .. => some .m
  | .mEpiLd .. => some .m
  | .mGang .. => some .m
  | .mAcct .. => some .m
  | .dNop .. => some .d
  | .dCopy .. => some .d
  | .dCopyRg .. => some .d
  | .dBcast .. => some .d
  | .dStore .. => some .d
  | .dSpill .. => some .d
  | .dFill .. => some .d
  | .dAtom .. => some .d
  | .dAtomNr .. => some .d
  | .dAfence .. => some .d
  | .dQpost .. => some .d
  | .dQget .. => some .d
  | .dAppend .. => some .d
  | .dPref .. => some .d
  | .dTfill .. => some .d
  | .fNop .. => some .f
  | .fFur .. => some .f
  | .fFurQm .. => some .f
  | .fSys .. => some .f
  | .fHead .. => some .f
  | .fRing .. => some .f
  | .fGbcast .. => some .f
  | _ => none

/-- The control-transfer instructions (R29). -/
def Instr.isTransfer : Instr → Bool
  | .beq .. => true
  | .bne .. => true
  | .bltI .. => true
  | .bltN .. => true
  | .bgeI .. => true
  | .bgeN .. => true
  | .brx .. => true
  | .loop .. => true
  | .fold .. => true
  | .join .. => true
  | .jmp .. => true
  | .call .. => true
  | .ret .. => true
  | .eret .. => true
  | .halt .. => true
  | _ => false

/-- `trap` and `sys`, which R88 keeps apart from transfers and from each other. -/
def Instr.isTrapSys : Instr → Bool
  | .trap .. => true
  | .sys .. => true
  | _ => false

/-- The instructions a `m.gang` prefix may precede (R58). -/
def Instr.isGangable : Instr → Bool
  | .mMma .. => true
  | .mMmaI .. => true
  | .mMmaK4 .. => true
  | _ => false

/-! ## Checks on the bits -/

/-- A rounding field of a scalar instruction (R75). -/
def scalarRmOk (r : BitVec 3) : Bool := decide (r.toNat ≤ 3 ∨ r.toNat = 7)
/-- A rounding field of a vector or matrix instruction (R50). -/
def rmOk (r : BitVec 3) : Bool := decide (r.toNat ≤ 4 ∨ r.toNat = 7)
/-- An atomic operation and its size (R50). -/
def aopOk (o : BitVec 4) (z : BitVec 1) : Bool := decide (o.toNat ≤ 10 ∧ ¬(o.toNat = 10 ∧ z = 1#1))

/-- The field values of the first slot that depend on its bits alone and are not reserved (R50 to R60, R70, R75, R77). -/
def Instr.fieldsOk : Instr → Bool
  | .bswap _ _ w _ => decide (w ≠ 0#2)
  | .slli _ _ i _ => decide (i.toNat < 64)
  | .srli _ _ i _ => decide (i.toNat < 64)
  | .srai _ _ i _ => decide (i.toNat < 64)
  | .roli _ _ i _ => decide (i.toNat < 64)
  | .fadd _ _ _ r _ _ => scalarRmOk r
  | .fsub _ _ _ r _ _ => scalarRmOk r
  | .fmul _ _ _ r _ _ => scalarRmOk r
  | .ffma _ _ _ r _ _ _ => scalarRmOk r
  | .fdiv _ _ _ r _ _ => scalarRmOk r
  | .fsqrt _ _ r _ _ => scalarRmOk r
  | .fcvt _ _ k r _ _ => scalarRmOk r && decide (k.toNat ≤ 8)
  | .amo _ _ _ o z _ => aopOk o z
  | .bind _ _ s _ _ => decide (1 ≤ s.toNat ∧ s.toNat ≤ 8)
  | .fence s _ => decide (s.toNat ≤ 8)
  | .bar s _ _ => decide (s.toNat = 2 ∨ s.toNat = 3 ∨ s.toNat = 4 ∨ s.toNat = 5 ∨ s.toNat = 7)
  | .ringInit d _ _ _ => decide (d.toNat < 16)
  | .ringAcq _ a _ => decide (a.toNat < 16)
  | .ringRel a _ => decide (a.toNat < 16)
  | .shld d _ _ => decide (d.toNat < 16)
  | .shset d _ b _ => decide (d.toNat < 16 ∧ b.toNat ≤ 13)
  | .shget _ a b _ => decide (a.toNat < 16 ∧ b.toNat ≤ 13)
  | .mfs _ n _ => decide (n.toNat ≤ 0x0D)
  | .mts _ n _ => decide (n.toNat ≤ 0x0D)
  | .mMma _ _ _ _ m _ => rmOk m
  | .mScacc _ _ _ _ m _ => rmOk m
  | .mDrain _ m _ _ _ _ => rmOk m
  | .mDrainAmax _ _ m _ _ _ _ => rmOk m
  | .mEpi _ m _ _ _ _ => rmOk m
  | .mKat _ fmt _ => decide (fmt.toNat < 8)
  | .mGang m _ => decide (m ≠ 0#4)
  | .dAtom _ _ _ o s _ => aopOk o s
  | .dAtomNr _ _ _ o s _ => aopOk o s
  | .dAfence s _ => decide (s.toNat ≤ 8)
  | .fFur d _ _ _ _ => decide (d.toNat ≤ 3)
  | .fSys d _ _ _ _ => decide (d.toNat ≤ 3)
  | _ => true

/-- The class of a vector instruction: float, integer, bit pattern, typed by sfmt, bit move, `v.lse` (R160). -/
inductive VClass where
  | f | i | b | t | m | l
deriving DecidableEq, Repr

/-- The nw column of R164. -/
inductive NwKind where
  | any | integer | float | zero | nonzero
deriving DecidableEq, Repr

/-- One row of R164: class, number of subfields, nw column, whether rm, sat and c are honoured. -/
structure VHonour where
  cls : VClass
  subs : Nat
  nw : NwKind
  rm : Bool
  sat : Bool
  c : Bool
deriving DecidableEq, Repr

/-- What a vector instruction honours of its extension, and the extension it carries (R164, R269). -/
def Instr.ext? : Instr → Option (VHonour × Option VExt)
  | .vAdd _ _ _ _ _ x _ => some (⟨.f, 2, .any, true, true, false⟩, x)
  | .vSub _ _ _ _ _ x _ => some (⟨.f, 2, .any, true, true, false⟩, x)
  | .vMul _ _ _ _ _ x _ => some (⟨.f, 2, .any, true, true, false⟩, x)
  | .vFma _ _ _ _ _ x _ => some (⟨.f, 3, .any, true, true, true⟩, some x)
  | .vMin _ _ _ _ _ x _ => some (⟨.f, 2, .any, true, true, false⟩, x)
  | .vMax _ _ _ _ _ x _ => some (⟨.f, 2, .any, true, true, false⟩, x)
  | .vAbs _ _ _ _ x _ => some (⟨.f, 1, .any, true, true, false⟩, x)
  | .vNeg _ _ _ _ x _ => some (⟨.f, 1, .any, true, true, false⟩, x)
  | .vDiv _ _ _ _ _ x _ => some (⟨.f, 2, .any, true, true, false⟩, x)
  | .vSqrt _ _ _ _ x _ => some (⟨.f, 1, .any, true, true, false⟩, x)
  | .vRcp _ _ _ _ x _ => some (⟨.f, 1, .any, true, true, false⟩, x)
  | .vRsqrt _ _ _ _ x _ => some (⟨.f, 1, .any, true, true, false⟩, x)
  | .vExp2 _ _ _ _ x _ => some (⟨.f, 1, .any, true, true, false⟩, x)
  | .vLog2 _ _ _ _ x _ => some (⟨.f, 1, .any, true, true, false⟩, x)
  | .vTanh _ _ _ _ x _ => some (⟨.f, 1, .any, true, true, false⟩, x)
  | .vIadd _ _ _ _ _ x _ => some (⟨.i, 2, .any, true, true, false⟩, x)
  | .vIsub _ _ _ _ _ x _ => some (⟨.i, 2, .any, true, true, false⟩, x)
  | .vImul _ _ _ _ _ x _ => some (⟨.i, 2, .any, true, true, false⟩, x)
  | .vImin _ _ _ _ _ x _ => some (⟨.i, 2, .any, true, true, false⟩, x)
  | .vNmin _ _ _ _ _ x _ => some (⟨.i, 2, .any, true, true, false⟩, x)
  | .vImax _ _ _ _ _ x _ => some (⟨.i, 2, .any, true, true, false⟩, x)
  | .vNmax _ _ _ _ _ x _ => some (⟨.i, 2, .any, true, true, false⟩, x)
  | .vIabs _ _ _ _ x _ => some (⟨.i, 1, .any, true, true, false⟩, x)
  | .vAnd _ _ _ _ _ x _ => some (⟨.b, 2, .any, true, true, false⟩, x)
  | .vOr _ _ _ _ _ x _ => some (⟨.b, 2, .any, true, true, false⟩, x)
  | .vXor _ _ _ _ _ x _ => some (⟨.b, 2, .any, true, true, false⟩, x)
  | .vNot _ _ _ _ x _ => some (⟨.b, 1, .any, true, true, false⟩, x)
  | .vShl _ _ _ _ _ x _ => some (⟨.b, 2, .any, true, true, false⟩, x)
  | .vShr _ _ _ _ _ x _ => some (⟨.b, 2, .any, true, true, false⟩, x)
  | .vSar _ _ _ _ _ x _ => some (⟨.b, 2, .any, true, true, false⟩, x)
  | .vFsh _ _ _ _ _ x _ => some (⟨.b, 3, .any, true, true, true⟩, some x)
  | .vClz _ _ _ _ x _ => some (⟨.b, 1, .any, true, true, false⟩, x)
  | .vPopc _ _ _ _ x _ => some (⟨.b, 1, .any, true, true, false⟩, x)
  | .vFfs _ _ _ _ x _ => some (⟨.b, 1, .any, true, true, false⟩, x)
  | .vShli _ _ _ _ _ x _ => some (⟨.b, 1, .any, true, true, false⟩, x)
  | .vShri _ _ _ _ _ x _ => some (⟨.b, 1, .any, true, true, false⟩, x)
  | .vSari _ _ _ _ _ x _ => some (⟨.b, 1, .any, true, true, false⟩, x)
  | .vRshr _ _ _ _ _ x _ => some (⟨.i, 1, .integer, true, false, false⟩, x)
  | .vFeq _ _ _ _ _ x _ => some (⟨.f, 2, .zero, false, false, false⟩, x)
  | .vFlt _ _ _ _ _ x _ => some (⟨.f, 2, .zero, false, false, false⟩, x)
  | .vFle _ _ _ _ _ x _ => some (⟨.f, 2, .zero, false, false, false⟩, x)
  | .vIeq _ _ _ _ _ x _ => some (⟨.i, 2, .zero, false, false, false⟩, x)
  | .vIlt _ _ _ _ _ x _ => some (⟨.i, 2, .zero, false, false, false⟩, x)
  | .vNlt _ _ _ _ _ x _ => some (⟨.i, 2, .zero, false, false, false⟩, x)
  | .vSel _ _ _ _ _ x _ => some (⟨.m, 0, .zero, false, false, false⟩, x)
  | .vCvtIf _ _ _ _ x _ => some (⟨.i, 1, .float, true, true, false⟩, x)
  | .vCvtFi _ _ _ _ x _ => some (⟨.f, 1, .integer, true, false, false⟩, x)
  | .vCvtFf _ _ _ _ x _ => some (⟨.f, 1, .float, true, true, false⟩, x)
  | .vQnt _ _ _ _ _ x _ => some (⟨.f, 2, .nonzero, true, false, false⟩, some x)
  | .vDp4 _ _ _ _ _ x _ => some (⟨.i, 0, .zero, false, true, false⟩, x)
  | .vRadd _ _ _ _ x _ => some (⟨.t, 1, .zero, true, true, false⟩, x)
  | .vRmax _ _ _ _ x _ => some (⟨.t, 1, .zero, true, true, false⟩, x)
  | .vRmin _ _ _ _ x _ => some (⟨.t, 1, .zero, true, true, false⟩, x)
  | .vScan _ _ _ _ x _ => some (⟨.t, 1, .zero, true, true, false⟩, x)
  | .vPerm _ _ _ _ _ x _ => some (⟨.m, 0, .zero, false, false, false⟩, x)
  | .vBcast _ _ _ _ x _ => some (⟨.m, 0, .zero, false, false, false⟩, x)
  | .vIns _ _ _ _ _ x _ => some (⟨.m, 0, .zero, false, false, false⟩, x)
  | .vExt _ _ _ _ _ x _ => some (⟨.m, 0, .zero, false, false, false⟩, x)
  | .vLse _ _ _ _ _ x _ => some (⟨.l, 0, .zero, false, false, false⟩, x)
  | .vCex _ _ _ _ _ x _ => some (⟨.t, 0, .zero, false, false, false⟩, x)
  | .vSeed _ _ _ x _ => some (⟨.m, 0, .zero, false, false, false⟩, x)
  | .vLd _ _ _ _ _ x _ => some (⟨.m, 0, .zero, false, false, false⟩, x)
  | .vSt _ _ _ _ _ x _ => some (⟨.m, 0, .zero, false, false, false⟩, x)
  | .vLdu _ _ _ _ _ x _ => some (⟨.m, 0, .zero, false, false, false⟩, x)
  | .vStu _ _ _ _ _ x _ => some (⟨.m, 0, .zero, false, false, false⟩, x)
  | .vStm _ _ _ _ _ x _ => some (⟨.m, 0, .zero, false, false, true⟩, some x)
  | .vGth _ _ _ _ _ x _ => some (⟨.m, 0, .zero, false, false, false⟩, x)
  | .vSct _ _ _ _ _ x _ => some (⟨.m, 0, .zero, false, false, false⟩, x)
  | _ => none

/-- An nw code that names an integer type (R164). -/
def nwInteger (n : BitVec 4) : Bool := decide (n.toNat ∈ [1, 2, 5, 6, 9, 10])
/-- An nw code that names a float type (R164). -/
def nwFloat (n : BitVec 4) : Bool := decide (n.toNat ∈ [3, 4, 7, 8, 11, 12, 13])

/-- A subfield code allowed at decode: 7 is reserved, and a nibble under sfmt 3 is refused (R55, R161). -/
def subOk (honoured : Bool) (s : BitVec 4) (sfmt : BitVec 3) : Bool :=
  if honoured then decide (s ≠ 7#4) && !(decide (8 ≤ s.toNat) && decide (sfmt = 3#3)) else decide (s = 0#4)

/-- The extension field checks of R55, R160, R164 and R269. -/
def VExt.ok (h : VHonour) (x : VExt) : Bool :=
  (h.c || decide (x.c = 0#6))
  && (if h.rm then rmOk x.rm else decide (x.rm = 7#3))
  && (h.sat || !x.sat)
  && (match h.nw with
      | .any => decide (x.nw.toNat ≤ 13)
      | .integer => decide (x.nw = 0#4) || nwInteger x.nw
      | .float => decide (x.nw = 0#4) || nwFloat x.nw
      | .zero => decide (x.nw = 0#4) && decide (x.dpos = 0#3)
      | .nonzero => nwInteger x.nw || nwFloat x.nw)
  && subOk (decide (1 ≤ h.subs)) x.sa x.sfmt
  && subOk (decide (2 ≤ h.subs)) x.sb x.sfmt
  && subOk (decide (3 ≤ h.subs)) x.scf x.sfmt
  && (match h.cls with
      | .f => decide (x.sfmt.toNat ≤ 3)
      | .t => decide (x.sfmt.toNat ≤ 3)
      | .i => decide (x.sfmt.toNat ≤ 1)
      | .b => decide (x.sfmt.toNat ≤ 1)
      | .m => decide (x.sfmt = 0#3)
      | .l => decide (x.sfmt = 0#3))

/-- The field values of the extension slots (R38's `ext_valid`). -/
def Instr.extOk (i : Instr) : Bool :=
  match i.ext? with
  | some (h, some x) => x.ok h
  | _ => true

/-- The producing engine of a pair queue (R44); none for 0, the gang queues and the reserved ids. -/
def queueProducer (q : BitVec 5) : Option Engine :=
  match q.toNat with
  | 1 | 2 | 3 | 4 => some .c
  | 5 | 6 | 7 | 8 => some .v
  | 9 | 10 | 11 | 12 => some .m
  | 13 | 14 | 15 | 16 => some .d
  | 17 | 18 | 19 | 20 => some .f
  | _ => none

/-- The consuming engine of a pair queue (R44). -/
def queueConsumer (q : BitVec 5) : Option Engine :=
  match q.toNat with
  | 5 | 9 | 13 | 17 => some .c
  | 1 | 10 | 14 | 18 => some .v
  | 2 | 6 | 15 | 19 => some .m
  | 3 | 7 | 11 | 20 => some .d
  | 4 | 8 | 12 | 16 => some .f
  | _ => none

/-- The gang queue a queue id names (R44). -/
def gangQueue? (q : BitVec 5) : Option (BitVec 2) :=
  match q.toNat with
  | 21 => some 0#2
  | 22 => some 1#2
  | 23 => some 2#2
  | 24 => some 3#2
  | _ => none

/-- A POST field an engine's instruction may carry (R45). -/
def postOk (e : Engine) (q : BitVec 5) : Bool :=
  decide (q = 0#5) || decide (queueProducer q = some e) || (decide (e = .m) && (gangQueue? q).isSome)

/-- A WAIT field an engine's instruction may carry (R45). -/
def waitOk (e : Engine) (q : BitVec 5) : Bool :=
  decide (q = 0#5) || decide (queueConsumer q = some e) || (gangQueue? q).isSome

/-- `m.kat` and `m.chk`, which must carry a token word with KA = 1 (R45). -/
def Instr.isKat : Instr → Bool
  | .mKat .. => true
  | .mChk .. => true
  | _ => false

/-- A token word's validity on an instruction of an engine (R45). -/
def Tok.ok (e : Engine) (kat : Bool) (t : Tok) : Bool :=
  postOk e t.post && waitOk e t.wait0 && waitOk e t.wait1 && waitOk e t.wait2
  && (!t.ts || decide (e = .m)) && (t.ka == kat)

/-- The token word of an instruction is valid, and a known-answer command has one (R45). -/
def Instr.tokOk (i : Instr) : Bool :=
  match i.engine?, i.tok? with
  | some e, some t => t.ok e i.isKat
  | _, none => !i.isKat
  | none, some _ => false

/-! ## Decoding -/

/-- The control instruction of a first slot, its immediate slots and its token word (R51 to R60); none for an unassigned opcode or
a nonzero field that must be zero. -/
def buildC (w i0 i1 : BitVec 32) (tok : Option Tok) : Option Instr :=
  match (w.extractLsb' 24 8).toNat with
  | 0x00 => if w.extractLsb' 0 24 = 0#24 then some (.nop tok) else none
  | 0x01 => if w.extractLsb' 0 9 = 0#9 then some (.add (w.extractLsb' 19 5) (w.extractLsb' 14 5) (w.extractLsb' 9 5) tok) else none
  | 0x02 => if w.extractLsb' 0 9 = 0#9 then some (.sub (w.extractLsb' 19 5) (w.extractLsb' 14 5) (w.extractLsb' 9 5) tok) else none
  | 0x03 => if w.extractLsb' 0 9 = 0#9 then some (.mul (w.extractLsb' 19 5) (w.extractLsb' 14 5) (w.extractLsb' 9 5) tok) else none
  | 0x04 => if w.extractLsb' 0 9 = 0#9 then some (.mulhI (w.extractLsb' 19 5) (w.extractLsb' 14 5) (w.extractLsb' 9 5) tok) else none
  | 0x05 => if w.extractLsb' 0 9 = 0#9 then some (.mulhN (w.extractLsb' 19 5) (w.extractLsb' 14 5) (w.extractLsb' 9 5) tok) else none
  | 0x06 => if w.extractLsb' 0 9 = 0#9 then some (.divI (w.extractLsb' 19 5) (w.extractLsb' 14 5) (w.extractLsb' 9 5) tok) else none
  | 0x07 => if w.extractLsb' 0 9 = 0#9 then some (.divN (w.extractLsb' 19 5) (w.extractLsb' 14 5) (w.extractLsb' 9 5) tok) else none
  | 0x08 => if w.extractLsb' 0 9 = 0#9 then some (.remI (w.extractLsb' 19 5) (w.extractLsb' 14 5) (w.extractLsb' 9 5) tok) else none
  | 0x09 => if w.extractLsb' 0 9 = 0#9 then some (.remN (w.extractLsb' 19 5) (w.extractLsb' 14 5) (w.extractLsb' 9 5) tok) else none
  | 0x0A => if w.extractLsb' 0 9 = 0#9 then some (.and (w.extractLsb' 19 5) (w.extractLsb' 14 5) (w.extractLsb' 9 5) tok) else none
  | 0x0B => if w.extractLsb' 0 9 = 0#9 then some (.or (w.extractLsb' 19 5) (w.extractLsb' 14 5) (w.extractLsb' 9 5) tok) else none
  | 0x0C => if w.extractLsb' 0 9 = 0#9 then some (.xor (w.extractLsb' 19 5) (w.extractLsb' 14 5) (w.extractLsb' 9 5) tok) else none
  | 0x0D => if w.extractLsb' 0 9 = 0#9 then some (.andn (w.extractLsb' 19 5) (w.extractLsb' 14 5) (w.extractLsb' 9 5) tok) else none
  | 0x0E => if w.extractLsb' 0 9 = 0#9 then some (.sll (w.extractLsb' 19 5) (w.extractLsb' 14 5) (w.extractLsb' 9 5) tok) else none
  | 0x0F => if w.extractLsb' 0 9 = 0#9 then some (.srl (w.extractLsb' 19 5) (w.extractLsb' 14 5) (w.extractLsb' 9 5) tok) else none
  | 0x10 => if w.extractLsb' 0 9 = 0#9 then some (.sra (w.extractLsb' 19 5) (w.extractLsb' 14 5) (w.extractLsb' 9 5) tok) else none
  | 0x11 => if w.extractLsb' 0 9 = 0#9 then some (.rol (w.extractLsb' 19 5) (w.extractLsb' 14 5) (w.extractLsb' 9 5) tok) else none
  | 0x12 => if w.extractLsb' 0 4 = 0#4 then some (.fsh (w.extractLsb' 19 5) (w.extractLsb' 14 5) (w.extractLsb' 9 5) (w.extractLsb' 4 5) tok) else none
  | 0x13 => if w.extractLsb' 2 12 = 0#12 then some (.clz (w.extractLsb' 19 5) (w.extractLsb' 14 5) (w.extractLsb' 0 2) tok) else none
  | 0x14 => if w.extractLsb' 2 12 = 0#12 then some (.ctz (w.extractLsb' 19 5) (w.extractLsb' 14 5) (w.extractLsb' 0 2) tok) else none
  | 0x15 => if w.extractLsb' 2 12 = 0#12 then some (.ffs (w.extractLsb' 19 5) (w.extractLsb' 14 5) (w.extractLsb' 0 2) tok) else none
  | 0x16 => if w.extractLsb' 2 12 = 0#12 then some (.popc (w.extractLsb' 19 5) (w.extractLsb' 14 5) (w.extractLsb' 0 2) tok) else none
  | 0x17 => if w.extractLsb' 2 12 = 0#12 then some (.bswap (w.extractLsb' 19 5) (w.extractLsb' 14 5) (w.extractLsb' 0 2) tok) else none
  | 0x18 => if w.extractLsb' 0 9 = 0#9 then some (.minI (w.extractLsb' 19 5) (w.extractLsb' 14 5) (w.extractLsb' 9 5) tok) else none
  | 0x19 => if w.extractLsb' 0 9 = 0#9 then some (.minN (w.extractLsb' 19 5) (w.extractLsb' 14 5) (w.extractLsb' 9 5) tok) else none
  | 0x1A => if w.extractLsb' 0 9 = 0#9 then some (.maxI (w.extractLsb' 19 5) (w.extractLsb' 14 5) (w.extractLsb' 9 5) tok) else none
  | 0x1B => if w.extractLsb' 0 9 = 0#9 then some (.maxN (w.extractLsb' 19 5) (w.extractLsb' 14 5) (w.extractLsb' 9 5) tok) else none
  | 0x1C => if w.extractLsb' 0 9 = 0#9 then some (.seq (w.extractLsb' 19 5) (w.extractLsb' 14 5) (w.extractLsb' 9 5) tok) else none
  | 0x1D => if w.extractLsb' 0 9 = 0#9 then some (.sne (w.extractLsb' 19 5) (w.extractLsb' 14 5) (w.extractLsb' 9 5) tok) else none
  | 0x1E => if w.extractLsb' 0 9 = 0#9 then some (.sltI (w.extractLsb' 19 5) (w.extractLsb' 14 5) (w.extractLsb' 9 5) tok) else none
  | 0x1F => if w.extractLsb' 0 9 = 0#9 then some (.sltN (w.extractLsb' 19 5) (w.extractLsb' 14 5) (w.extractLsb' 9 5) tok) else none
  | 0x20 => if w.extractLsb' 0 9 = 0#9 then some (.sleI (w.extractLsb' 19 5) (w.extractLsb' 14 5) (w.extractLsb' 9 5) tok) else none
  | 0x21 => if w.extractLsb' 0 9 = 0#9 then some (.sleN (w.extractLsb' 19 5) (w.extractLsb' 14 5) (w.extractLsb' 9 5) tok) else none
  | 0x22 => if w.extractLsb' 0 4 = 0#4 then some (.sel (w.extractLsb' 19 5) (w.extractLsb' 14 5) (w.extractLsb' 9 5) (w.extractLsb' 4 5) tok) else none
  | 0x30 => some (.addi (w.extractLsb' 19 5) (w.extractLsb' 14 5) (w.extractLsb' 0 14) tok)
  | 0x31 => some (.andi (w.extractLsb' 19 5) (w.extractLsb' 14 5) (w.extractLsb' 0 14) tok)
  | 0x32 => some (.ori (w.extractLsb' 19 5) (w.extractLsb' 14 5) (w.extractLsb' 0 14) tok)
  | 0x33 => some (.xori (w.extractLsb' 19 5) (w.extractLsb' 14 5) (w.extractLsb' 0 14) tok)
  | 0x34 => some (.slli (w.extractLsb' 19 5) (w.extractLsb' 14 5) (w.extractLsb' 0 14) tok)
  | 0x35 => some (.srli (w.extractLsb' 19 5) (w.extractLsb' 14 5) (w.extractLsb' 0 14) tok)
  | 0x36 => some (.srai (w.extractLsb' 19 5) (w.extractLsb' 14 5) (w.extractLsb' 0 14) tok)
  | 0x37 => some (.roli (w.extractLsb' 19 5) (w.extractLsb' 14 5) (w.extractLsb' 0 14) tok)
  | 0x38 => some (.seqi (w.extractLsb' 19 5) (w.extractLsb' 14 5) (w.extractLsb' 0 14) tok)
  | 0x39 => some (.sltiI (w.extractLsb' 19 5) (w.extractLsb' 14 5) (w.extractLsb' 0 14) tok)
  | 0x3A => some (.sltiN (w.extractLsb' 19 5) (w.extractLsb' 14 5) (w.extractLsb' 0 14) tok)
  | 0x3B => some (.muli (w.extractLsb' 19 5) (w.extractLsb' 14 5) (w.extractLsb' 0 14) tok)
  | 0x3C => if w.extractLsb' 0 18 = 0#18 then some (.li (w.extractLsb' 19 5) (Lit.ofSlots (w.extractLsb' 18 1) i0 i1) tok) else none
  | 0x3D => if w.extractLsb' 0 18 = 0#18 then some (.lip (w.extractLsb' 19 5) (Lit.ofSlots (w.extractLsb' 18 1) i0 i1) tok) else none
  | 0x40 => if w.extractLsb' 0 5 = 0#5 then some (.fadd (w.extractLsb' 19 5) (w.extractLsb' 14 5) (w.extractLsb' 9 5) (w.extractLsb' 6 3) (w.extractLsb' 5 1) tok) else none
  | 0x41 => if w.extractLsb' 0 5 = 0#5 then some (.fsub (w.extractLsb' 19 5) (w.extractLsb' 14 5) (w.extractLsb' 9 5) (w.extractLsb' 6 3) (w.extractLsb' 5 1) tok) else none
  | 0x42 => if w.extractLsb' 0 5 = 0#5 then some (.fmul (w.extractLsb' 19 5) (w.extractLsb' 14 5) (w.extractLsb' 9 5) (w.extractLsb' 6 3) (w.extractLsb' 5 1) tok) else none
  | 0x43 => some (.ffma (w.extractLsb' 19 5) (w.extractLsb' 14 5) (w.extractLsb' 9 5) (w.extractLsb' 6 3) (w.extractLsb' 5 1) (w.extractLsb' 0 5) tok)
  | 0x44 => if w.extractLsb' 0 5 = 0#5 then some (.fdiv (w.extractLsb' 19 5) (w.extractLsb' 14 5) (w.extractLsb' 9 5) (w.extractLsb' 6 3) (w.extractLsb' 5 1) tok) else none
  | 0x45 => if w.extractLsb' 9 5 = 0#5 ∧ w.extractLsb' 0 5 = 0#5 then some (.fsqrt (w.extractLsb' 19 5) (w.extractLsb' 14 5) (w.extractLsb' 6 3) (w.extractLsb' 5 1) tok) else none
  | 0x46 => if w.extractLsb' 6 3 = 0#3 ∧ w.extractLsb' 0 5 = 0#5 then some (.fmin (w.extractLsb' 19 5) (w.extractLsb' 14 5) (w.extractLsb' 9 5) (w.extractLsb' 5 1) tok) else none
  | 0x47 => if w.extractLsb' 6 3 = 0#3 ∧ w.extractLsb' 0 5 = 0#5 then some (.fmax (w.extractLsb' 19 5) (w.extractLsb' 14 5) (w.extractLsb' 9 5) (w.extractLsb' 5 1) tok) else none
  | 0x48 => if w.extractLsb' 6 3 = 0#3 ∧ w.extractLsb' 0 5 = 0#5 then some (.feq (w.extractLsb' 19 5) (w.extractLsb' 14 5) (w.extractLsb' 9 5) (w.extractLsb' 5 1) tok) else none
  | 0x49 => if w.extractLsb' 6 3 = 0#3 ∧ w.extractLsb' 0 5 = 0#5 then some (.flt (w.extractLsb' 19 5) (w.extractLsb' 14 5) (w.extractLsb' 9 5) (w.extractLsb' 5 1) tok) else none
  | 0x4A => if w.extractLsb' 6 3 = 0#3 ∧ w.extractLsb' 0 5 = 0#5 then some (.fle (w.extractLsb' 19 5) (w.extractLsb' 14 5) (w.extractLsb' 9 5) (w.extractLsb' 5 1) tok) else none
  | 0x4B => if w.extractLsb' 0 5 = 0#5 then some (.fcvt (w.extractLsb' 19 5) (w.extractLsb' 14 5) (w.extractLsb' 9 5) (w.extractLsb' 6 3) (w.extractLsb' 5 1) tok) else none
  | 0x4C => if w.extractLsb' 6 8 = 0#8 ∧ w.extractLsb' 0 5 = 0#5 then some (.fneg (w.extractLsb' 19 5) (w.extractLsb' 14 5) (w.extractLsb' 5 1) tok) else none
  | 0x4D => if w.extractLsb' 6 8 = 0#8 ∧ w.extractLsb' 0 5 = 0#5 then some (.fabs (w.extractLsb' 19 5) (w.extractLsb' 14 5) (w.extractLsb' 5 1) tok) else none
  | 0x50 => if (w.extractLsb' 9 1 = 0#1 ∨ w.extractLsb' 0 9 = 0#9) then some (.beq (w.extractLsb' 19 5) (w.extractLsb' 14 5) (w.extractLsb' 10 4) (BrOff.ofSlots (w.extractLsb' 9 1) (w.extractLsb' 0 9) i0) tok) else none
  | 0x51 => if (w.extractLsb' 9 1 = 0#1 ∨ w.extractLsb' 0 9 = 0#9) then some (.bne (w.extractLsb' 19 5) (w.extractLsb' 14 5) (w.extractLsb' 10 4) (BrOff.ofSlots (w.extractLsb' 9 1) (w.extractLsb' 0 9) i0) tok) else none
  | 0x52 => if (w.extractLsb' 9 1 = 0#1 ∨ w.extractLsb' 0 9 = 0#9) then some (.bltI (w.extractLsb' 19 5) (w.extractLsb' 14 5) (w.extractLsb' 10 4) (BrOff.ofSlots (w.extractLsb' 9 1) (w.extractLsb' 0 9) i0) tok) else none
  | 0x53 => if (w.extractLsb' 9 1 = 0#1 ∨ w.extractLsb' 0 9 = 0#9) then some (.bltN (w.extractLsb' 19 5) (w.extractLsb' 14 5) (w.extractLsb' 10 4) (BrOff.ofSlots (w.extractLsb' 9 1) (w.extractLsb' 0 9) i0) tok) else none
  | 0x54 => if (w.extractLsb' 9 1 = 0#1 ∨ w.extractLsb' 0 9 = 0#9) then some (.bgeI (w.extractLsb' 19 5) (w.extractLsb' 14 5) (w.extractLsb' 10 4) (BrOff.ofSlots (w.extractLsb' 9 1) (w.extractLsb' 0 9) i0) tok) else none
  | 0x55 => if (w.extractLsb' 9 1 = 0#1 ∨ w.extractLsb' 0 9 = 0#9) then some (.bgeN (w.extractLsb' 19 5) (w.extractLsb' 14 5) (w.extractLsb' 10 4) (BrOff.ofSlots (w.extractLsb' 9 1) (w.extractLsb' 0 9) i0) tok) else none
  | 0x56 => if w.extractLsb' 14 5 = 0#5 ∧ w.extractLsb' 0 10 = 0#10 then some (.brx (w.extractLsb' 19 5) (w.extractLsb' 10 4) tok) else none
  | 0x57 => if w.extractLsb' 14 5 = 0#5 ∧ (w.extractLsb' 9 1 = 0#1 ∨ w.extractLsb' 0 9 = 0#9) then some (.loop (w.extractLsb' 19 5) (w.extractLsb' 10 4) (BrOff.ofSlots (w.extractLsb' 9 1) (w.extractLsb' 0 9) i0) tok) else none
  | 0x58 => if w.extractLsb' 14 10 = 0#10 ∧ w.extractLsb' 0 10 = 0#10 then some (.fold (w.extractLsb' 10 4) tok) else none
  | 0x59 => if w.extractLsb' 14 10 = 0#10 ∧ w.extractLsb' 0 10 = 0#10 then some (.join (w.extractLsb' 10 4) tok) else none
  | 0x5A => if w.extractLsb' 0 19 = 0#19 then some (.seat (w.extractLsb' 19 5) tok) else none
  | 0x5B => some (.jmp (w.extractLsb' 0 24) tok)
  | 0x5C => some (.call (w.extractLsb' 0 24) tok)
  | 0x5D => if w.extractLsb' 19 5 = 0#5 ∧ w.extractLsb' 0 14 = 0#14 then some (.ret (w.extractLsb' 14 5) tok) else none
  | 0x60 => some (.ldI8 (w.extractLsb' 19 5) (w.extractLsb' 14 5) (w.extractLsb' 0 14) tok)
  | 0x61 => some (.ldN8 (w.extractLsb' 19 5) (w.extractLsb' 14 5) (w.extractLsb' 0 14) tok)
  | 0x62 => some (.ldI16 (w.extractLsb' 19 5) (w.extractLsb' 14 5) (w.extractLsb' 0 14) tok)
  | 0x63 => some (.ldN16 (w.extractLsb' 19 5) (w.extractLsb' 14 5) (w.extractLsb' 0 14) tok)
  | 0x64 => some (.ldI32 (w.extractLsb' 19 5) (w.extractLsb' 14 5) (w.extractLsb' 0 14) tok)
  | 0x65 => some (.ldN32 (w.extractLsb' 19 5) (w.extractLsb' 14 5) (w.extractLsb' 0 14) tok)
  | 0x66 => some (.ldI64 (w.extractLsb' 19 5) (w.extractLsb' 14 5) (w.extractLsb' 0 14) tok)
  | 0x68 => some (.stI8 (w.extractLsb' 19 5) (w.extractLsb' 14 5) (w.extractLsb' 0 14) tok)
  | 0x69 => some (.stI16 (w.extractLsb' 19 5) (w.extractLsb' 14 5) (w.extractLsb' 0 14) tok)
  | 0x6A => some (.stI32 (w.extractLsb' 19 5) (w.extractLsb' 14 5) (w.extractLsb' 0 14) tok)
  | 0x6B => some (.stI64 (w.extractLsb' 19 5) (w.extractLsb' 14 5) (w.extractLsb' 0 14) tok)
  | 0x6C => if w.extractLsb' 0 4 = 0#4 then some (.amo (w.extractLsb' 19 5) (w.extractLsb' 14 5) (w.extractLsb' 9 5) (w.extractLsb' 5 4) (w.extractLsb' 4 1) tok) else none
  | 0x70 => if w.extractLsb' 19 5 = 0#5 then some (.bind (w.extractLsb' 14 5) (w.extractLsb' 9 5) (w.extractLsb' 5 4) (w.extractLsb' 0 5) tok) else none
  | 0x71 => if w.extractLsb' 19 5 = 0#5 ∧ w.extractLsb' 0 14 = 0#14 then some (.unbind (w.extractLsb' 14 5) tok) else none
  | 0x72 => if w.extractLsb' 19 5 = 0#5 ∧ w.extractLsb' 0 14 = 0#14 then some (.acqX (w.extractLsb' 14 5) tok) else none
  | 0x73 => if w.extractLsb' 19 5 = 0#5 ∧ w.extractLsb' 0 14 = 0#14 then some (.acqS (w.extractLsb' 14 5) tok) else none
  | 0x74 => if w.extractLsb' 19 5 = 0#5 ∧ w.extractLsb' 0 14 = 0#14 then some (.rel (w.extractLsb' 14 5) tok) else none
  | 0x75 => if w.extractLsb' 9 15 = 0#15 ∧ w.extractLsb' 0 5 = 0#5 then some (.fence (w.extractLsb' 5 4) tok) else none
  | 0x76 => if w.extractLsb' 9 15 = 0#15 ∧ w.extractLsb' 0 1 = 0#1 then some (.bar (w.extractLsb' 5 4) (w.extractLsb' 1 4) tok) else none
  | 0x77 => if w.extractLsb' 19 5 = 0#5 ∧ w.extractLsb' 0 9 = 0#9 then some (.iflush (w.extractLsb' 14 5) (w.extractLsb' 9 5) tok) else none
  | 0x78 => if w.extractLsb' 0 14 = 0#14 then some (.tlook (w.extractLsb' 19 5) (w.extractLsb' 14 5) tok) else none
  | 0x79 => if w.extractLsb' 19 5 = 0#5 ∧ w.extractLsb' 0 9 = 0#9 then some (.tset (w.extractLsb' 14 5) (w.extractLsb' 9 5) tok) else none
  | 0x7A => if w.extractLsb' 19 5 = 0#5 ∧ w.extractLsb' 0 14 = 0#14 then some (.tclr (w.extractLsb' 14 5) tok) else none
  | 0x7B => if w.extractLsb' 1 13 = 0#13 then some (.rowpin (w.extractLsb' 19 5) (w.extractLsb' 14 5) (w.extractLsb' 0 1) tok) else none
  | 0x7C => if w.extractLsb' 0 19 = 0#19 then some (.rowwb (w.extractLsb' 19 5) tok) else none
  | 0x7D => if w.extractLsb' 0 19 = 0#19 then some (.rowrel (w.extractLsb' 19 5) tok) else none
  | 0x80 => if w.extractLsb' 0 9 = 0#9 then some (.ringInit (w.extractLsb' 19 5) (w.extractLsb' 14 5) (w.extractLsb' 9 5) tok) else none
  | 0x81 => if w.extractLsb' 0 14 = 0#14 then some (.ringAcq (w.extractLsb' 19 5) (w.extractLsb' 14 5) tok) else none
  | 0x82 => if w.extractLsb' 19 5 = 0#5 ∧ w.extractLsb' 0 14 = 0#14 then some (.ringRel (w.extractLsb' 14 5) tok) else none
  | 0x83 => if w.extractLsb' 0 14 = 0#14 then some (.shld (w.extractLsb' 19 5) (w.extractLsb' 14 5) tok) else none
  | 0x84 => if w.extractLsb' 0 9 = 0#9 then some (.shset (w.extractLsb' 19 5) (w.extractLsb' 14 5) (w.extractLsb' 9 5) tok) else none
  | 0x85 => if w.extractLsb' 0 9 = 0#9 then some (.shget (w.extractLsb' 19 5) (w.extractLsb' 14 5) (w.extractLsb' 9 5) tok) else none
  | 0x88 => if w.extractLsb' 0 11 = 0#11 then some (.mfs (w.extractLsb' 19 5) (w.extractLsb' 11 8) tok) else none
  | 0x89 => if w.extractLsb' 0 11 = 0#11 then some (.mts (w.extractLsb' 19 5) (w.extractLsb' 11 8) tok) else none
  | 0x8A => if w.extractLsb' 14 10 = 0#10 then some (.trap (w.extractLsb' 0 14) tok) else none
  | 0x8B => if w.extractLsb' 14 10 = 0#10 then some (.sys (w.extractLsb' 0 14) tok) else none
  | 0x8C => if w.extractLsb' 0 24 = 0#24 then some (.eret tok) else none
  | 0x8D => if w.extractLsb' 0 24 = 0#24 then some (.halt tok) else none
  | 0x8E => if w.extractLsb' 19 5 = 0#5 ∧ w.extractLsb' 0 9 = 0#9 then some (.refdefer (w.extractLsb' 14 5) (w.extractLsb' 9 5) tok) else none
  | 0x8F => if w.extractLsb' 19 5 = 0#5 ∧ w.extractLsb' 0 14 = 0#14 then some (.poison (w.extractLsb' 14 5) tok) else none
  | _ => none

/-- The vector instruction of a first slot, its immediate slots and its token word (R51 to R60); none for an unassigned opcode or
a nonzero field that must be zero. -/
def buildV (w i0 i1 : BitVec 32) (tok : Option Tok) : Option Instr :=
  match (w.extractLsb' 24 8).toNat with
  | 0x00 => if w.extractLsb' 0 24 = 0#24 then some (.vNop tok) else none
  | 0x01 => some (.vAdd (w.extractLsb' 18 6) (w.extractLsb' 12 6) (w.extractLsb' 6 6) (w.extractLsb' 2 4) (w.extractLsb' 1 1) (VExt.read (w.extractLsb' 0 1) i0) tok)
  | 0x02 => some (.vSub (w.extractLsb' 18 6) (w.extractLsb' 12 6) (w.extractLsb' 6 6) (w.extractLsb' 2 4) (w.extractLsb' 1 1) (VExt.read (w.extractLsb' 0 1) i0) tok)
  | 0x03 => some (.vMul (w.extractLsb' 18 6) (w.extractLsb' 12 6) (w.extractLsb' 6 6) (w.extractLsb' 2 4) (w.extractLsb' 1 1) (VExt.read (w.extractLsb' 0 1) i0) tok)
  | 0x04 => if w.extractLsb' 0 1 = 1#1 then some (.vFma (w.extractLsb' 18 6) (w.extractLsb' 12 6) (w.extractLsb' 6 6) (w.extractLsb' 2 4) (w.extractLsb' 1 1) (VExt.ofWord i0) tok) else none
  | 0x05 => some (.vMin (w.extractLsb' 18 6) (w.extractLsb' 12 6) (w.extractLsb' 6 6) (w.extractLsb' 2 4) (w.extractLsb' 1 1) (VExt.read (w.extractLsb' 0 1) i0) tok)
  | 0x06 => some (.vMax (w.extractLsb' 18 6) (w.extractLsb' 12 6) (w.extractLsb' 6 6) (w.extractLsb' 2 4) (w.extractLsb' 1 1) (VExt.read (w.extractLsb' 0 1) i0) tok)
  | 0x07 => if w.extractLsb' 6 6 = 0#6 then some (.vAbs (w.extractLsb' 18 6) (w.extractLsb' 12 6) (w.extractLsb' 2 4) (w.extractLsb' 1 1) (VExt.read (w.extractLsb' 0 1) i0) tok) else none
  | 0x08 => if w.extractLsb' 6 6 = 0#6 then some (.vNeg (w.extractLsb' 18 6) (w.extractLsb' 12 6) (w.extractLsb' 2 4) (w.extractLsb' 1 1) (VExt.read (w.extractLsb' 0 1) i0) tok) else none
  | 0x09 => some (.vDiv (w.extractLsb' 18 6) (w.extractLsb' 12 6) (w.extractLsb' 6 6) (w.extractLsb' 2 4) (w.extractLsb' 1 1) (VExt.read (w.extractLsb' 0 1) i0) tok)
  | 0x0A => if w.extractLsb' 6 6 = 0#6 then some (.vSqrt (w.extractLsb' 18 6) (w.extractLsb' 12 6) (w.extractLsb' 2 4) (w.extractLsb' 1 1) (VExt.read (w.extractLsb' 0 1) i0) tok) else none
  | 0x0B => if w.extractLsb' 6 6 = 0#6 then some (.vRcp (w.extractLsb' 18 6) (w.extractLsb' 12 6) (w.extractLsb' 2 4) (w.extractLsb' 1 1) (VExt.read (w.extractLsb' 0 1) i0) tok) else none
  | 0x0C => if w.extractLsb' 6 6 = 0#6 then some (.vRsqrt (w.extractLsb' 18 6) (w.extractLsb' 12 6) (w.extractLsb' 2 4) (w.extractLsb' 1 1) (VExt.read (w.extractLsb' 0 1) i0) tok) else none
  | 0x0D => if w.extractLsb' 6 6 = 0#6 then some (.vExp2 (w.extractLsb' 18 6) (w.extractLsb' 12 6) (w.extractLsb' 2 4) (w.extractLsb' 1 1) (VExt.read (w.extractLsb' 0 1) i0) tok) else none
  | 0x0E => if w.extractLsb' 6 6 = 0#6 then some (.vLog2 (w.extractLsb' 18 6) (w.extractLsb' 12 6) (w.extractLsb' 2 4) (w.extractLsb' 1 1) (VExt.read (w.extractLsb' 0 1) i0) tok) else none
  | 0x0F => if w.extractLsb' 6 6 = 0#6 then some (.vTanh (w.extractLsb' 18 6) (w.extractLsb' 12 6) (w.extractLsb' 2 4) (w.extractLsb' 1 1) (VExt.read (w.extractLsb' 0 1) i0) tok) else none
  | 0x10 => some (.vIadd (w.extractLsb' 18 6) (w.extractLsb' 12 6) (w.extractLsb' 6 6) (w.extractLsb' 2 4) (w.extractLsb' 1 1) (VExt.read (w.extractLsb' 0 1) i0) tok)
  | 0x11 => some (.vIsub (w.extractLsb' 18 6) (w.extractLsb' 12 6) (w.extractLsb' 6 6) (w.extractLsb' 2 4) (w.extractLsb' 1 1) (VExt.read (w.extractLsb' 0 1) i0) tok)
  | 0x12 => some (.vImul (w.extractLsb' 18 6) (w.extractLsb' 12 6) (w.extractLsb' 6 6) (w.extractLsb' 2 4) (w.extractLsb' 1 1) (VExt.read (w.extractLsb' 0 1) i0) tok)
  | 0x13 => some (.vImin (w.extractLsb' 18 6) (w.extractLsb' 12 6) (w.extractLsb' 6 6) (w.extractLsb' 2 4) (w.extractLsb' 1 1) (VExt.read (w.extractLsb' 0 1) i0) tok)
  | 0x14 => some (.vNmin (w.extractLsb' 18 6) (w.extractLsb' 12 6) (w.extractLsb' 6 6) (w.extractLsb' 2 4) (w.extractLsb' 1 1) (VExt.read (w.extractLsb' 0 1) i0) tok)
  | 0x15 => some (.vImax (w.extractLsb' 18 6) (w.extractLsb' 12 6) (w.extractLsb' 6 6) (w.extractLsb' 2 4) (w.extractLsb' 1 1) (VExt.read (w.extractLsb' 0 1) i0) tok)
  | 0x16 => some (.vNmax (w.extractLsb' 18 6) (w.extractLsb' 12 6) (w.extractLsb' 6 6) (w.extractLsb' 2 4) (w.extractLsb' 1 1) (VExt.read (w.extractLsb' 0 1) i0) tok)
  | 0x17 => if w.extractLsb' 6 6 = 0#6 then some (.vIabs (w.extractLsb' 18 6) (w.extractLsb' 12 6) (w.extractLsb' 2 4) (w.extractLsb' 1 1) (VExt.read (w.extractLsb' 0 1) i0) tok) else none
  | 0x18 => some (.vAnd (w.extractLsb' 18 6) (w.extractLsb' 12 6) (w.extractLsb' 6 6) (w.extractLsb' 2 4) (w.extractLsb' 1 1) (VExt.read (w.extractLsb' 0 1) i0) tok)
  | 0x19 => some (.vOr (w.extractLsb' 18 6) (w.extractLsb' 12 6) (w.extractLsb' 6 6) (w.extractLsb' 2 4) (w.extractLsb' 1 1) (VExt.read (w.extractLsb' 0 1) i0) tok)
  | 0x1A => some (.vXor (w.extractLsb' 18 6) (w.extractLsb' 12 6) (w.extractLsb' 6 6) (w.extractLsb' 2 4) (w.extractLsb' 1 1) (VExt.read (w.extractLsb' 0 1) i0) tok)
  | 0x1B => if w.extractLsb' 6 6 = 0#6 then some (.vNot (w.extractLsb' 18 6) (w.extractLsb' 12 6) (w.extractLsb' 2 4) (w.extractLsb' 1 1) (VExt.read (w.extractLsb' 0 1) i0) tok) else none
  | 0x1C => some (.vShl (w.extractLsb' 18 6) (w.extractLsb' 12 6) (w.extractLsb' 6 6) (w.extractLsb' 2 4) (w.extractLsb' 1 1) (VExt.read (w.extractLsb' 0 1) i0) tok)
  | 0x1D => some (.vShr (w.extractLsb' 18 6) (w.extractLsb' 12 6) (w.extractLsb' 6 6) (w.extractLsb' 2 4) (w.extractLsb' 1 1) (VExt.read (w.extractLsb' 0 1) i0) tok)
  | 0x1E => some (.vSar (w.extractLsb' 18 6) (w.extractLsb' 12 6) (w.extractLsb' 6 6) (w.extractLsb' 2 4) (w.extractLsb' 1 1) (VExt.read (w.extractLsb' 0 1) i0) tok)
  | 0x1F => if w.extractLsb' 0 1 = 1#1 then some (.vFsh (w.extractLsb' 18 6) (w.extractLsb' 12 6) (w.extractLsb' 6 6) (w.extractLsb' 2 4) (w.extractLsb' 1 1) (VExt.ofWord i0) tok) else none
  | 0x20 => if w.extractLsb' 6 6 = 0#6 then some (.vClz (w.extractLsb' 18 6) (w.extractLsb' 12 6) (w.extractLsb' 2 4) (w.extractLsb' 1 1) (VExt.read (w.extractLsb' 0 1) i0) tok) else none
  | 0x21 => if w.extractLsb' 6 6 = 0#6 then some (.vPopc (w.extractLsb' 18 6) (w.extractLsb' 12 6) (w.extractLsb' 2 4) (w.extractLsb' 1 1) (VExt.read (w.extractLsb' 0 1) i0) tok) else none
  | 0x22 => if w.extractLsb' 6 6 = 0#6 then some (.vFfs (w.extractLsb' 18 6) (w.extractLsb' 12 6) (w.extractLsb' 2 4) (w.extractLsb' 1 1) (VExt.read (w.extractLsb' 0 1) i0) tok) else none
  | 0x23 => some (.vShli (w.extractLsb' 18 6) (w.extractLsb' 12 6) (w.extractLsb' 6 6) (w.extractLsb' 2 4) (w.extractLsb' 1 1) (VExt.read (w.extractLsb' 0 1) i0) tok)
  | 0x24 => some (.vShri (w.extractLsb' 18 6) (w.extractLsb' 12 6) (w.extractLsb' 6 6) (w.extractLsb' 2 4) (w.extractLsb' 1 1) (VExt.read (w.extractLsb' 0 1) i0) tok)
  | 0x25 => some (.vSari (w.extractLsb' 18 6) (w.extractLsb' 12 6) (w.extractLsb' 6 6) (w.extractLsb' 2 4) (w.extractLsb' 1 1) (VExt.read (w.extractLsb' 0 1) i0) tok)
  | 0x26 => some (.vRshr (w.extractLsb' 18 6) (w.extractLsb' 12 6) (w.extractLsb' 6 6) (w.extractLsb' 2 4) (w.extractLsb' 1 1) (VExt.read (w.extractLsb' 0 1) i0) tok)
  | 0x28 => if w.extractLsb' 18 2 = 0#2 then some (.vFeq (w.extractLsb' 20 4) (w.extractLsb' 12 6) (w.extractLsb' 6 6) (w.extractLsb' 2 4) (w.extractLsb' 1 1) (VExt.read (w.extractLsb' 0 1) i0) tok) else none
  | 0x29 => if w.extractLsb' 18 2 = 0#2 then some (.vFlt (w.extractLsb' 20 4) (w.extractLsb' 12 6) (w.extractLsb' 6 6) (w.extractLsb' 2 4) (w.extractLsb' 1 1) (VExt.read (w.extractLsb' 0 1) i0) tok) else none
  | 0x2A => if w.extractLsb' 18 2 = 0#2 then some (.vFle (w.extractLsb' 20 4) (w.extractLsb' 12 6) (w.extractLsb' 6 6) (w.extractLsb' 2 4) (w.extractLsb' 1 1) (VExt.read (w.extractLsb' 0 1) i0) tok) else none
  | 0x2B => if w.extractLsb' 18 2 = 0#2 then some (.vIeq (w.extractLsb' 20 4) (w.extractLsb' 12 6) (w.extractLsb' 6 6) (w.extractLsb' 2 4) (w.extractLsb' 1 1) (VExt.read (w.extractLsb' 0 1) i0) tok) else none
  | 0x2C => if w.extractLsb' 18 2 = 0#2 then some (.vIlt (w.extractLsb' 20 4) (w.extractLsb' 12 6) (w.extractLsb' 6 6) (w.extractLsb' 2 4) (w.extractLsb' 1 1) (VExt.read (w.extractLsb' 0 1) i0) tok) else none
  | 0x2D => if w.extractLsb' 18 2 = 0#2 then some (.vNlt (w.extractLsb' 20 4) (w.extractLsb' 12 6) (w.extractLsb' 6 6) (w.extractLsb' 2 4) (w.extractLsb' 1 1) (VExt.read (w.extractLsb' 0 1) i0) tok) else none
  | 0x2E => some (.vSel (w.extractLsb' 18 6) (w.extractLsb' 12 6) (w.extractLsb' 6 6) (w.extractLsb' 2 4) (w.extractLsb' 1 1) (VExt.read (w.extractLsb' 0 1) i0) tok)
  | 0x30 => if w.extractLsb' 6 6 = 0#6 then some (.vCvtIf (w.extractLsb' 18 6) (w.extractLsb' 12 6) (w.extractLsb' 2 4) (w.extractLsb' 1 1) (VExt.read (w.extractLsb' 0 1) i0) tok) else none
  | 0x31 => if w.extractLsb' 6 6 = 0#6 then some (.vCvtFi (w.extractLsb' 18 6) (w.extractLsb' 12 6) (w.extractLsb' 2 4) (w.extractLsb' 1 1) (VExt.read (w.extractLsb' 0 1) i0) tok) else none
  | 0x32 => if w.extractLsb' 6 6 = 0#6 then some (.vCvtFf (w.extractLsb' 18 6) (w.extractLsb' 12 6) (w.extractLsb' 2 4) (w.extractLsb' 1 1) (VExt.read (w.extractLsb' 0 1) i0) tok) else none
  | 0x33 => if w.extractLsb' 0 1 = 1#1 then some (.vQnt (w.extractLsb' 18 6) (w.extractLsb' 12 6) (w.extractLsb' 6 6) (w.extractLsb' 2 4) (w.extractLsb' 1 1) (VExt.ofWord i0) tok) else none
  | 0x34 => some (.vDp4 (w.extractLsb' 18 6) (w.extractLsb' 12 6) (w.extractLsb' 6 6) (w.extractLsb' 2 4) (w.extractLsb' 1 1) (VExt.read (w.extractLsb' 0 1) i0) tok)
  | 0x38 => if w.extractLsb' 6 6 = 0#6 then some (.vRadd (w.extractLsb' 18 6) (w.extractLsb' 12 6) (w.extractLsb' 2 4) (w.extractLsb' 1 1) (VExt.read (w.extractLsb' 0 1) i0) tok) else none
  | 0x39 => if w.extractLsb' 6 6 = 0#6 then some (.vRmax (w.extractLsb' 18 6) (w.extractLsb' 12 6) (w.extractLsb' 2 4) (w.extractLsb' 1 1) (VExt.read (w.extractLsb' 0 1) i0) tok) else none
  | 0x3A => if w.extractLsb' 6 6 = 0#6 then some (.vRmin (w.extractLsb' 18 6) (w.extractLsb' 12 6) (w.extractLsb' 2 4) (w.extractLsb' 1 1) (VExt.read (w.extractLsb' 0 1) i0) tok) else none
  | 0x3B => if w.extractLsb' 6 6 = 0#6 then some (.vScan (w.extractLsb' 18 6) (w.extractLsb' 12 6) (w.extractLsb' 2 4) (w.extractLsb' 1 1) (VExt.read (w.extractLsb' 0 1) i0) tok) else none
  | 0x3C => some (.vPerm (w.extractLsb' 18 6) (w.extractLsb' 12 6) (w.extractLsb' 6 6) (w.extractLsb' 2 4) (w.extractLsb' 1 1) (VExt.read (w.extractLsb' 0 1) i0) tok)
  | 0x3D => if w.extractLsb' 11 7 = 0#7 then some (.vBcast (w.extractLsb' 18 6) (w.extractLsb' 6 5) (w.extractLsb' 2 4) (w.extractLsb' 1 1) (VExt.read (w.extractLsb' 0 1) i0) tok) else none
  | 0x3E => if w.extractLsb' 11 1 = 0#1 then some (.vIns (w.extractLsb' 18 6) (w.extractLsb' 12 6) (w.extractLsb' 6 5) (w.extractLsb' 2 4) (w.extractLsb' 1 1) (VExt.read (w.extractLsb' 0 1) i0) tok) else none
  | 0x3F => if w.extractLsb' 11 1 = 0#1 then some (.vExt (w.extractLsb' 18 6) (w.extractLsb' 12 6) (w.extractLsb' 6 5) (w.extractLsb' 2 4) (w.extractLsb' 1 1) (VExt.read (w.extractLsb' 0 1) i0) tok) else none
  | 0x40 => some (.vLse (w.extractLsb' 18 6) (w.extractLsb' 12 6) (w.extractLsb' 6 6) (w.extractLsb' 2 4) (w.extractLsb' 1 1) (VExt.read (w.extractLsb' 0 1) i0) tok)
  | 0x41 => some (.vCex (w.extractLsb' 18 6) (w.extractLsb' 12 6) (w.extractLsb' 6 6) (w.extractLsb' 2 4) (w.extractLsb' 1 1) (VExt.read (w.extractLsb' 0 1) i0) tok)
  | 0x42 => if w.extractLsb' 11 13 = 0#13 then some (.vSeed (w.extractLsb' 6 5) (w.extractLsb' 2 4) (w.extractLsb' 1 1) (VExt.read (w.extractLsb' 0 1) i0) tok) else none
  | 0x48 => some (.vLd (w.extractLsb' 18 6) (w.extractLsb' 13 5) (w.extractLsb' 6 7) (w.extractLsb' 2 4) (w.extractLsb' 1 1) (VExt.read (w.extractLsb' 0 1) i0) tok)
  | 0x49 => some (.vSt (w.extractLsb' 18 6) (w.extractLsb' 13 5) (w.extractLsb' 6 7) (w.extractLsb' 2 4) (w.extractLsb' 1 1) (VExt.read (w.extractLsb' 0 1) i0) tok)
  | 0x4A => some (.vLdu (w.extractLsb' 18 6) (w.extractLsb' 13 5) (w.extractLsb' 6 7) (w.extractLsb' 2 4) (w.extractLsb' 1 1) (VExt.read (w.extractLsb' 0 1) i0) tok)
  | 0x4B => some (.vStu (w.extractLsb' 18 6) (w.extractLsb' 13 5) (w.extractLsb' 6 7) (w.extractLsb' 2 4) (w.extractLsb' 1 1) (VExt.read (w.extractLsb' 0 1) i0) tok)
  | 0x4C => if w.extractLsb' 0 1 = 1#1 then some (.vStm (w.extractLsb' 18 6) (w.extractLsb' 13 5) (w.extractLsb' 6 7) (w.extractLsb' 2 4) (w.extractLsb' 1 1) (VExt.ofWord i0) tok) else none
  | 0x4D => if w.extractLsb' 11 1 = 0#1 then some (.vGth (w.extractLsb' 18 6) (w.extractLsb' 12 6) (w.extractLsb' 6 5) (w.extractLsb' 2 4) (w.extractLsb' 1 1) (VExt.read (w.extractLsb' 0 1) i0) tok) else none
  | 0x4E => if w.extractLsb' 11 1 = 0#1 then some (.vSct (w.extractLsb' 18 6) (w.extractLsb' 12 6) (w.extractLsb' 6 5) (w.extractLsb' 2 4) (w.extractLsb' 1 1) (VExt.read (w.extractLsb' 0 1) i0) tok) else none
  | 0x50 => if w.extractLsb' 0 12 = 0#12 then some (.pAnd (w.extractLsb' 20 4) (w.extractLsb' 16 4) (w.extractLsb' 12 4) tok) else none
  | 0x51 => if w.extractLsb' 0 12 = 0#12 then some (.pOr (w.extractLsb' 20 4) (w.extractLsb' 16 4) (w.extractLsb' 12 4) tok) else none
  | 0x52 => if w.extractLsb' 0 12 = 0#12 then some (.pXor (w.extractLsb' 20 4) (w.extractLsb' 16 4) (w.extractLsb' 12 4) tok) else none
  | 0x53 => if w.extractLsb' 0 12 = 0#12 then some (.pAndn (w.extractLsb' 20 4) (w.extractLsb' 16 4) (w.extractLsb' 12 4) tok) else none
  | 0x54 => if w.extractLsb' 0 16 = 0#16 then some (.pNot (w.extractLsb' 20 4) (w.extractLsb' 16 4) tok) else none
  | 0x55 => if w.extractLsb' 20 4 = 0#4 ∧ w.extractLsb' 12 4 = 0#4 ∧ w.extractLsb' 0 7 = 0#7 then some (.pCnt (w.extractLsb' 16 4) (w.extractLsb' 7 5) tok) else none
  | _ => none

/-- The matrix instruction of a first slot, its immediate slots and its token word (R51 to R60); none for an unassigned opcode or
a nonzero field that must be zero. -/
def buildM (w i0 i1 : BitVec 32) (tok : Option Tok) : Option Instr :=
  match (w.extractLsb' 24 8).toNat with
  | 0x00 => if w.extractLsb' 0 24 = 0#24 then some (.mNop tok) else none
  | 0x01 => if w.extractLsb' 0 1 = 0#1 then some (.mMma (w.extractLsb' 20 4) (w.extractLsb' 16 4) (w.extractLsb' 10 6) (w.extractLsb' 4 6) (w.extractLsb' 1 3) tok) else none
  | 0x02 => if w.extractLsb' 0 4 = 0#4 then some (.mMmaI (w.extractLsb' 20 4) (w.extractLsb' 16 4) (w.extractLsb' 10 6) (w.extractLsb' 4 6) tok) else none
  | 0x03 => if w.extractLsb' 0 4 = 0#4 then some (.mMmaK4 (w.extractLsb' 20 4) (w.extractLsb' 16 4) (w.extractLsb' 10 6) (w.extractLsb' 4 6) tok) else none
  | 0x04 => if w.extractLsb' 0 1 = 0#1 then some (.mScacc (w.extractLsb' 20 4) (w.extractLsb' 16 4) (w.extractLsb' 10 6) (w.extractLsb' 4 6) (w.extractLsb' 1 3) tok) else none
  | 0x05 => if w.extractLsb' 0 24 = 0#24 then some (.mZero tok) else none
  | 0x06 => if w.extractLsb' 0 24 = 0#24 then some (.mSwap tok) else none
  | 0x07 => if w.extractLsb' 11 9 = 0#9 then some (.mDrain (w.extractLsb' 20 4) (w.extractLsb' 8 3) (w.extractLsb' 7 1) (w.extractLsb' 1 6) (w.extractLsb' 0 1) tok) else none
  | 0x08 => if w.extractLsb' 16 4 = 0#4 then some (.mDrainAmax (w.extractLsb' 20 4) (w.extractLsb' 11 5) (w.extractLsb' 8 3) (w.extractLsb' 7 1) (w.extractLsb' 1 6) (w.extractLsb' 0 1) tok) else none
  | 0x09 => if w.extractLsb' 0 16 = 0#16 then some (.mKat (w.extractLsb' 20 4) (w.extractLsb' 16 4) tok) else none
  | 0x0A => if w.extractLsb' 0 24 = 0#24 then some (.mChk i0 tok) else none
  | 0x0B => if w.extractLsb' 11 9 = 0#9 then some (.mEpi (w.extractLsb' 20 4) (w.extractLsb' 8 3) (w.extractLsb' 7 1) (w.extractLsb' 1 6) (w.extractLsb' 0 1) tok) else if w.extractLsb' 0 20 = 32768#20 then some (.mEpiLd (w.extractLsb' 20 4) tok) else none
  | 0x0C => if w.extractLsb' 0 18 = 0#18 then some (.mGang (w.extractLsb' 20 4) (w.extractLsb' 18 2)) else none
  | 0x0D => if w.extractLsb' 2 22 = 0#22 then some (.mAcct (w.extractLsb' 0 2) tok) else none
  | _ => none

/-- The drill instruction of a first slot, its immediate slots and its token word (R51 to R60); none for an unassigned opcode or
a nonzero field that must be zero. -/
def buildD (w i0 i1 : BitVec 32) (tok : Option Tok) : Option Instr :=
  match (w.extractLsb' 24 8).toNat with
  | 0x00 => if w.extractLsb' 0 24 = 0#24 then some (.dNop tok) else none
  | 0x01 => if w.extractLsb' 0 9 = 0#9 then some (.dCopy (w.extractLsb' 19 5) (w.extractLsb' 14 5) (w.extractLsb' 9 5) tok) else if w.extractLsb' 19 5 = 0#5 ∧ w.extractLsb' 8 1 = 1#1 ∧ w.extractLsb' 0 2 = 0#2 then some (.dCopyRg (w.extractLsb' 14 5) (w.extractLsb' 9 5) (w.extractLsb' 4 4) (w.extractLsb' 2 2) tok) else none
  | 0x02 => if w.extractLsb' 0 9 = 0#9 then some (.dBcast (w.extractLsb' 19 5) (w.extractLsb' 14 5) (w.extractLsb' 9 5) tok) else none
  | 0x03 => if w.extractLsb' 2 7 = 0#7 then some (.dStore (w.extractLsb' 19 5) (w.extractLsb' 14 5) (w.extractLsb' 9 5) (w.extractLsb' 0 2) tok) else none
  | 0x04 => if w.extractLsb' 9 5 = 0#5 ∧ w.extractLsb' 0 2 = 0#2 then some (.dSpill (w.extractLsb' 19 5) (w.extractLsb' 14 5) (w.extractLsb' 8 1) (w.extractLsb' 2 6) tok) else none
  | 0x05 => if w.extractLsb' 9 5 = 0#5 ∧ w.extractLsb' 0 2 = 0#2 then some (.dFill (w.extractLsb' 19 5) (w.extractLsb' 14 5) (w.extractLsb' 8 1) (w.extractLsb' 2 6) tok) else none
  | 0x06 => if w.extractLsb' 0 4 = 0#4 then some (.dAtom (w.extractLsb' 19 5) (w.extractLsb' 14 5) (w.extractLsb' 9 5) (w.extractLsb' 5 4) (w.extractLsb' 4 1) tok) else none
  | 0x07 => if w.extractLsb' 0 4 = 0#4 then some (.dAtomNr (w.extractLsb' 19 5) (w.extractLsb' 14 5) (w.extractLsb' 9 5) (w.extractLsb' 5 4) (w.extractLsb' 4 1) tok) else none
  | 0x08 => if w.extractLsb' 9 15 = 0#15 ∧ w.extractLsb' 0 5 = 0#5 then some (.dAfence (w.extractLsb' 5 4) tok) else none
  | 0x09 => if w.extractLsb' 9 10 = 0#10 ∧ w.extractLsb' 0 3 = 0#3 then some (.dQpost (w.extractLsb' 19 5) (w.extractLsb' 3 6) tok) else none
  | 0x0A => if w.extractLsb' 9 10 = 0#10 ∧ w.extractLsb' 0 3 = 0#3 then some (.dQget (w.extractLsb' 19 5) (w.extractLsb' 3 6) tok) else none
  | 0x0B => if w.extractLsb' 0 9 = 0#9 then some (.dAppend (w.extractLsb' 19 5) (w.extractLsb' 14 5) (w.extractLsb' 9 5) tok) else none
  | 0x0C => if w.extractLsb' 14 5 = 0#5 ∧ w.extractLsb' 0 9 = 0#9 then some (.dPref (w.extractLsb' 19 5) (w.extractLsb' 9 5) tok) else none
  | 0x0D => if w.extractLsb' 0 14 = 0#14 then some (.dTfill (w.extractLsb' 19 5) (w.extractLsb' 14 5) tok) else none
  | _ => none

/-- The furrow instruction of a first slot, its immediate slots and its token word (R51 to R60); none for an unassigned opcode or
a nonzero field that must be zero. -/
def buildF (w i0 i1 : BitVec 32) (tok : Option Tok) : Option Instr :=
  match (w.extractLsb' 24 8).toNat with
  | 0x00 => if w.extractLsb' 0 24 = 0#24 then some (.fNop tok) else none
  | 0x01 => if w.extractLsb' 0 6 = 0#6 then some (.fFur (w.extractLsb' 21 3) (w.extractLsb' 16 5) (w.extractLsb' 11 5) (w.extractLsb' 6 5) tok) else if w.extractLsb' 21 3 = 0#3 ∧ w.extractLsb' 5 1 = 1#1 ∧ w.extractLsb' 0 3 = 0#3 then some (.fFurQm (w.extractLsb' 16 5) (w.extractLsb' 11 5) (w.extractLsb' 6 5) (w.extractLsb' 3 2) tok) else none
  | 0x02 => if w.extractLsb' 0 6 = 0#6 then some (.fSys (w.extractLsb' 21 3) (w.extractLsb' 16 5) (w.extractLsb' 11 5) (w.extractLsb' 6 5) tok) else none
  | 0x03 => if w.extractLsb' 21 3 = 0#3 ∧ w.extractLsb' 0 6 = 0#6 then some (.fHead (w.extractLsb' 16 5) (w.extractLsb' 11 5) (w.extractLsb' 6 5) tok) else none
  | 0x04 => if w.extractLsb' 21 3 = 0#3 ∧ w.extractLsb' 1 5 = 0#5 then some (.fRing (w.extractLsb' 16 5) (w.extractLsb' 11 5) (w.extractLsb' 6 5) (w.extractLsb' 0 1) tok) else none
  | 0x05 => if w.extractLsb' 21 3 = 0#3 ∧ w.extractLsb' 4 2 = 0#2 then some (.fGbcast (w.extractLsb' 16 5) (w.extractLsb' 11 5) (w.extractLsb' 6 5) (w.extractLsb' 0 4) tok) else none
  | _ => none


/-- The instruction of a first slot in an engine's opcode space. -/
def build (e : Engine) (w i0 i1 : BitVec 32) (tok : Option Tok) : Option Instr :=
  match e with
  | .c => buildC w i0 i1 tok
  | .v => buildV w i0 i1 tok
  | .m => buildM w i0 i1 tok
  | .d => buildD w i0 i1 tok
  | .f => buildF w i0 i1 tok

/-! ## Encoding -/

/-- The first slot of an instruction (R51 to R60); zero for an event, which has no encoding. -/
def encodeFirst : Instr → BitVec 32
  | .nop _ => (0x00#8 ++ 0#24 : BitVec 32)
  | .add d a b _ => (0x01#8 ++ d ++ a ++ b ++ 0#9 : BitVec 32)
  | .sub d a b _ => (0x02#8 ++ d ++ a ++ b ++ 0#9 : BitVec 32)
  | .mul d a b _ => (0x03#8 ++ d ++ a ++ b ++ 0#9 : BitVec 32)
  | .mulhI d a b _ => (0x04#8 ++ d ++ a ++ b ++ 0#9 : BitVec 32)
  | .mulhN d a b _ => (0x05#8 ++ d ++ a ++ b ++ 0#9 : BitVec 32)
  | .divI d a b _ => (0x06#8 ++ d ++ a ++ b ++ 0#9 : BitVec 32)
  | .divN d a b _ => (0x07#8 ++ d ++ a ++ b ++ 0#9 : BitVec 32)
  | .remI d a b _ => (0x08#8 ++ d ++ a ++ b ++ 0#9 : BitVec 32)
  | .remN d a b _ => (0x09#8 ++ d ++ a ++ b ++ 0#9 : BitVec 32)
  | .and d a b _ => (0x0A#8 ++ d ++ a ++ b ++ 0#9 : BitVec 32)
  | .or d a b _ => (0x0B#8 ++ d ++ a ++ b ++ 0#9 : BitVec 32)
  | .xor d a b _ => (0x0C#8 ++ d ++ a ++ b ++ 0#9 : BitVec 32)
  | .andn d a b _ => (0x0D#8 ++ d ++ a ++ b ++ 0#9 : BitVec 32)
  | .sll d a b _ => (0x0E#8 ++ d ++ a ++ b ++ 0#9 : BitVec 32)
  | .srl d a b _ => (0x0F#8 ++ d ++ a ++ b ++ 0#9 : BitVec 32)
  | .sra d a b _ => (0x10#8 ++ d ++ a ++ b ++ 0#9 : BitVec 32)
  | .rol d a b _ => (0x11#8 ++ d ++ a ++ b ++ 0#9 : BitVec 32)
  | .fsh d a b c _ => (0x12#8 ++ d ++ a ++ b ++ c ++ 0#4 : BitVec 32)
  | .clz d a w _ => (0x13#8 ++ d ++ a ++ 0#12 ++ w : BitVec 32)
  | .ctz d a w _ => (0x14#8 ++ d ++ a ++ 0#12 ++ w : BitVec 32)
  | .ffs d a w _ => (0x15#8 ++ d ++ a ++ 0#12 ++ w : BitVec 32)
  | .popc d a w _ => (0x16#8 ++ d ++ a ++ 0#12 ++ w : BitVec 32)
  | .bswap d a w _ => (0x17#8 ++ d ++ a ++ 0#12 ++ w : BitVec 32)
  | .minI d a b _ => (0x18#8 ++ d ++ a ++ b ++ 0#9 : BitVec 32)
  | .minN d a b _ => (0x19#8 ++ d ++ a ++ b ++ 0#9 : BitVec 32)
  | .maxI d a b _ => (0x1A#8 ++ d ++ a ++ b ++ 0#9 : BitVec 32)
  | .maxN d a b _ => (0x1B#8 ++ d ++ a ++ b ++ 0#9 : BitVec 32)
  | .seq d a b _ => (0x1C#8 ++ d ++ a ++ b ++ 0#9 : BitVec 32)
  | .sne d a b _ => (0x1D#8 ++ d ++ a ++ b ++ 0#9 : BitVec 32)
  | .sltI d a b _ => (0x1E#8 ++ d ++ a ++ b ++ 0#9 : BitVec 32)
  | .sltN d a b _ => (0x1F#8 ++ d ++ a ++ b ++ 0#9 : BitVec 32)
  | .sleI d a b _ => (0x20#8 ++ d ++ a ++ b ++ 0#9 : BitVec 32)
  | .sleN d a b _ => (0x21#8 ++ d ++ a ++ b ++ 0#9 : BitVec 32)
  | .sel d a b c _ => (0x22#8 ++ d ++ a ++ b ++ c ++ 0#4 : BitVec 32)
  | .addi d a i _ => (0x30#8 ++ d ++ a ++ i : BitVec 32)
  | .andi d a i _ => (0x31#8 ++ d ++ a ++ i : BitVec 32)
  | .ori d a i _ => (0x32#8 ++ d ++ a ++ i : BitVec 32)
  | .xori d a i _ => (0x33#8 ++ d ++ a ++ i : BitVec 32)
  | .slli d a i _ => (0x34#8 ++ d ++ a ++ i : BitVec 32)
  | .srli d a i _ => (0x35#8 ++ d ++ a ++ i : BitVec 32)
  | .srai d a i _ => (0x36#8 ++ d ++ a ++ i : BitVec 32)
  | .roli d a i _ => (0x37#8 ++ d ++ a ++ i : BitVec 32)
  | .seqi d a i _ => (0x38#8 ++ d ++ a ++ i : BitVec 32)
  | .sltiI d a i _ => (0x39#8 ++ d ++ a ++ i : BitVec 32)
  | .sltiN d a i _ => (0x3A#8 ++ d ++ a ++ i : BitVec 32)
  | .muli d a i _ => (0x3B#8 ++ d ++ a ++ i : BitVec 32)
  | .li d lit _ => (0x3C#8 ++ d ++ lit.wide ++ 0#18 : BitVec 32)
  | .lip d lit _ => (0x3D#8 ++ d ++ lit.wide ++ 0#18 : BitVec 32)
  | .fadd d a b r t _ => (0x40#8 ++ d ++ a ++ b ++ r ++ t ++ 0#5 : BitVec 32)
  | .fsub d a b r t _ => (0x41#8 ++ d ++ a ++ b ++ r ++ t ++ 0#5 : BitVec 32)
  | .fmul d a b r t _ => (0x42#8 ++ d ++ a ++ b ++ r ++ t ++ 0#5 : BitVec 32)
  | .ffma d a b r t c _ => (0x43#8 ++ d ++ a ++ b ++ r ++ t ++ c : BitVec 32)
  | .fdiv d a b r t _ => (0x44#8 ++ d ++ a ++ b ++ r ++ t ++ 0#5 : BitVec 32)
  | .fsqrt d a r t _ => (0x45#8 ++ d ++ a ++ 0#5 ++ r ++ t ++ 0#5 : BitVec 32)
  | .fmin d a b t _ => (0x46#8 ++ d ++ a ++ b ++ 0#3 ++ t ++ 0#5 : BitVec 32)
  | .fmax d a b t _ => (0x47#8 ++ d ++ a ++ b ++ 0#3 ++ t ++ 0#5 : BitVec 32)
  | .feq d a b t _ => (0x48#8 ++ d ++ a ++ b ++ 0#3 ++ t ++ 0#5 : BitVec 32)
  | .flt d a b t _ => (0x49#8 ++ d ++ a ++ b ++ 0#3 ++ t ++ 0#5 : BitVec 32)
  | .fle d a b t _ => (0x4A#8 ++ d ++ a ++ b ++ 0#3 ++ t ++ 0#5 : BitVec 32)
  | .fcvt d a k r t _ => (0x4B#8 ++ d ++ a ++ k ++ r ++ t ++ 0#5 : BitVec 32)
  | .fneg d a t _ => (0x4C#8 ++ d ++ a ++ 0#8 ++ t ++ 0#5 : BitVec 32)
  | .fabs d a t _ => (0x4D#8 ++ d ++ a ++ 0#8 ++ t ++ 0#5 : BitVec 32)
  | .beq a b j off _ => (0x50#8 ++ a ++ b ++ j ++ off.bit ++ off.low : BitVec 32)
  | .bne a b j off _ => (0x51#8 ++ a ++ b ++ j ++ off.bit ++ off.low : BitVec 32)
  | .bltI a b j off _ => (0x52#8 ++ a ++ b ++ j ++ off.bit ++ off.low : BitVec 32)
  | .bltN a b j off _ => (0x53#8 ++ a ++ b ++ j ++ off.bit ++ off.low : BitVec 32)
  | .bgeI a b j off _ => (0x54#8 ++ a ++ b ++ j ++ off.bit ++ off.low : BitVec 32)
  | .bgeN a b j off _ => (0x55#8 ++ a ++ b ++ j ++ off.bit ++ off.low : BitVec 32)
  | .brx a j _ => (0x56#8 ++ a ++ 0#5 ++ j ++ 0#10 : BitVec 32)
  | .loop a j off _ => (0x57#8 ++ a ++ 0#5 ++ j ++ off.bit ++ off.low : BitVec 32)
  | .fold j _ => (0x58#8 ++ 0#10 ++ j ++ 0#10 : BitVec 32)
  | .join j _ => (0x59#8 ++ 0#10 ++ j ++ 0#10 : BitVec 32)
  | .seat d _ => (0x5A#8 ++ d ++ 0#19 : BitVec 32)
  | .jmp o _ => (0x5B#8 ++ o : BitVec 32)
  | .call o _ => (0x5C#8 ++ o : BitVec 32)
  | .ret a _ => (0x5D#8 ++ 0#5 ++ a ++ 0#14 : BitVec 32)
  | .ldI8 d a i _ => (0x60#8 ++ d ++ a ++ i : BitVec 32)
  | .ldN8 d a i _ => (0x61#8 ++ d ++ a ++ i : BitVec 32)
  | .ldI16 d a i _ => (0x62#8 ++ d ++ a ++ i : BitVec 32)
  | .ldN16 d a i _ => (0x63#8 ++ d ++ a ++ i : BitVec 32)
  | .ldI32 d a i _ => (0x64#8 ++ d ++ a ++ i : BitVec 32)
  | .ldN32 d a i _ => (0x65#8 ++ d ++ a ++ i : BitVec 32)
  | .ldI64 d a i _ => (0x66#8 ++ d ++ a ++ i : BitVec 32)
  | .stI8 d a i _ => (0x68#8 ++ d ++ a ++ i : BitVec 32)
  | .stI16 d a i _ => (0x69#8 ++ d ++ a ++ i : BitVec 32)
  | .stI32 d a i _ => (0x6A#8 ++ d ++ a ++ i : BitVec 32)
  | .stI64 d a i _ => (0x6B#8 ++ d ++ a ++ i : BitVec 32)
  | .amo d a b o z _ => (0x6C#8 ++ d ++ a ++ b ++ o ++ z ++ 0#4 : BitVec 32)
  | .bind a b s c _ => (0x70#8 ++ 0#5 ++ a ++ b ++ s ++ c : BitVec 32)
  | .unbind a _ => (0x71#8 ++ 0#5 ++ a ++ 0#14 : BitVec 32)
  | .acqX a _ => (0x72#8 ++ 0#5 ++ a ++ 0#14 : BitVec 32)
  | .acqS a _ => (0x73#8 ++ 0#5 ++ a ++ 0#14 : BitVec 32)
  | .rel a _ => (0x74#8 ++ 0#5 ++ a ++ 0#14 : BitVec 32)
  | .fence s _ => (0x75#8 ++ 0#15 ++ s ++ 0#5 : BitVec 32)
  | .bar s i _ => (0x76#8 ++ 0#15 ++ s ++ i ++ 0#1 : BitVec 32)
  | .iflush a b _ => (0x77#8 ++ 0#5 ++ a ++ b ++ 0#9 : BitVec 32)
  | .tlook d a _ => (0x78#8 ++ d ++ a ++ 0#14 : BitVec 32)
  | .tset a b _ => (0x79#8 ++ 0#5 ++ a ++ b ++ 0#9 : BitVec 32)
  | .tclr a _ => (0x7A#8 ++ 0#5 ++ a ++ 0#14 : BitVec 32)
  | .rowpin d a k _ => (0x7B#8 ++ d ++ a ++ 0#13 ++ k : BitVec 32)
  | .rowwb d _ => (0x7C#8 ++ d ++ 0#19 : BitVec 32)
  | .rowrel d _ => (0x7D#8 ++ d ++ 0#19 : BitVec 32)
  | .ringInit d a b _ => (0x80#8 ++ d ++ a ++ b ++ 0#9 : BitVec 32)
  | .ringAcq d a _ => (0x81#8 ++ d ++ a ++ 0#14 : BitVec 32)
  | .ringRel a _ => (0x82#8 ++ 0#5 ++ a ++ 0#14 : BitVec 32)
  | .shld d a _ => (0x83#8 ++ d ++ a ++ 0#14 : BitVec 32)
  | .shset d a b _ => (0x84#8 ++ d ++ a ++ b ++ 0#9 : BitVec 32)
  | .shget d a b _ => (0x85#8 ++ d ++ a ++ b ++ 0#9 : BitVec 32)
  | .mfs x n _ => (0x88#8 ++ x ++ n ++ 0#11 : BitVec 32)
  | .mts x n _ => (0x89#8 ++ x ++ n ++ 0#11 : BitVec 32)
  | .trap i _ => (0x8A#8 ++ 0#10 ++ i : BitVec 32)
  | .sys i _ => (0x8B#8 ++ 0#10 ++ i : BitVec 32)
  | .eret _ => (0x8C#8 ++ 0#24 : BitVec 32)
  | .halt _ => (0x8D#8 ++ 0#24 : BitVec 32)
  | .refdefer a b _ => (0x8E#8 ++ 0#5 ++ a ++ b ++ 0#9 : BitVec 32)
  | .poison a _ => (0x8F#8 ++ 0#5 ++ a ++ 0#14 : BitVec 32)
  | .vNop _ => (0x00#8 ++ 0#24 : BitVec 32)
  | .vAdd d a b p n x _ => (0x01#8 ++ d ++ a ++ b ++ p ++ n ++ VExt.bit x : BitVec 32)
  | .vSub d a b p n x _ => (0x02#8 ++ d ++ a ++ b ++ p ++ n ++ VExt.bit x : BitVec 32)
  | .vMul d a b p n x _ => (0x03#8 ++ d ++ a ++ b ++ p ++ n ++ VExt.bit x : BitVec 32)
  | .vFma d a b p n x _ => (0x04#8 ++ d ++ a ++ b ++ p ++ n ++ 1#1 : BitVec 32)
  | .vMin d a b p n x _ => (0x05#8 ++ d ++ a ++ b ++ p ++ n ++ VExt.bit x : BitVec 32)
  | .vMax d a b p n x _ => (0x06#8 ++ d ++ a ++ b ++ p ++ n ++ VExt.bit x : BitVec 32)
  | .vAbs d a p n x _ => (0x07#8 ++ d ++ a ++ 0#6 ++ p ++ n ++ VExt.bit x : BitVec 32)
  | .vNeg d a p n x _ => (0x08#8 ++ d ++ a ++ 0#6 ++ p ++ n ++ VExt.bit x : BitVec 32)
  | .vDiv d a b p n x _ => (0x09#8 ++ d ++ a ++ b ++ p ++ n ++ VExt.bit x : BitVec 32)
  | .vSqrt d a p n x _ => (0x0A#8 ++ d ++ a ++ 0#6 ++ p ++ n ++ VExt.bit x : BitVec 32)
  | .vRcp d a p n x _ => (0x0B#8 ++ d ++ a ++ 0#6 ++ p ++ n ++ VExt.bit x : BitVec 32)
  | .vRsqrt d a p n x _ => (0x0C#8 ++ d ++ a ++ 0#6 ++ p ++ n ++ VExt.bit x : BitVec 32)
  | .vExp2 d a p n x _ => (0x0D#8 ++ d ++ a ++ 0#6 ++ p ++ n ++ VExt.bit x : BitVec 32)
  | .vLog2 d a p n x _ => (0x0E#8 ++ d ++ a ++ 0#6 ++ p ++ n ++ VExt.bit x : BitVec 32)
  | .vTanh d a p n x _ => (0x0F#8 ++ d ++ a ++ 0#6 ++ p ++ n ++ VExt.bit x : BitVec 32)
  | .vIadd d a b p n x _ => (0x10#8 ++ d ++ a ++ b ++ p ++ n ++ VExt.bit x : BitVec 32)
  | .vIsub d a b p n x _ => (0x11#8 ++ d ++ a ++ b ++ p ++ n ++ VExt.bit x : BitVec 32)
  | .vImul d a b p n x _ => (0x12#8 ++ d ++ a ++ b ++ p ++ n ++ VExt.bit x : BitVec 32)
  | .vImin d a b p n x _ => (0x13#8 ++ d ++ a ++ b ++ p ++ n ++ VExt.bit x : BitVec 32)
  | .vNmin d a b p n x _ => (0x14#8 ++ d ++ a ++ b ++ p ++ n ++ VExt.bit x : BitVec 32)
  | .vImax d a b p n x _ => (0x15#8 ++ d ++ a ++ b ++ p ++ n ++ VExt.bit x : BitVec 32)
  | .vNmax d a b p n x _ => (0x16#8 ++ d ++ a ++ b ++ p ++ n ++ VExt.bit x : BitVec 32)
  | .vIabs d a p n x _ => (0x17#8 ++ d ++ a ++ 0#6 ++ p ++ n ++ VExt.bit x : BitVec 32)
  | .vAnd d a b p n x _ => (0x18#8 ++ d ++ a ++ b ++ p ++ n ++ VExt.bit x : BitVec 32)
  | .vOr d a b p n x _ => (0x19#8 ++ d ++ a ++ b ++ p ++ n ++ VExt.bit x : BitVec 32)
  | .vXor d a b p n x _ => (0x1A#8 ++ d ++ a ++ b ++ p ++ n ++ VExt.bit x : BitVec 32)
  | .vNot d a p n x _ => (0x1B#8 ++ d ++ a ++ 0#6 ++ p ++ n ++ VExt.bit x : BitVec 32)
  | .vShl d a b p n x _ => (0x1C#8 ++ d ++ a ++ b ++ p ++ n ++ VExt.bit x : BitVec 32)
  | .vShr d a b p n x _ => (0x1D#8 ++ d ++ a ++ b ++ p ++ n ++ VExt.bit x : BitVec 32)
  | .vSar d a b p n x _ => (0x1E#8 ++ d ++ a ++ b ++ p ++ n ++ VExt.bit x : BitVec 32)
  | .vFsh d a b p n x _ => (0x1F#8 ++ d ++ a ++ b ++ p ++ n ++ 1#1 : BitVec 32)
  | .vClz d a p n x _ => (0x20#8 ++ d ++ a ++ 0#6 ++ p ++ n ++ VExt.bit x : BitVec 32)
  | .vPopc d a p n x _ => (0x21#8 ++ d ++ a ++ 0#6 ++ p ++ n ++ VExt.bit x : BitVec 32)
  | .vFfs d a p n x _ => (0x22#8 ++ d ++ a ++ 0#6 ++ p ++ n ++ VExt.bit x : BitVec 32)
  | .vShli d a i p n x _ => (0x23#8 ++ d ++ a ++ i ++ p ++ n ++ VExt.bit x : BitVec 32)
  | .vShri d a i p n x _ => (0x24#8 ++ d ++ a ++ i ++ p ++ n ++ VExt.bit x : BitVec 32)
  | .vSari d a i p n x _ => (0x25#8 ++ d ++ a ++ i ++ p ++ n ++ VExt.bit x : BitVec 32)
  | .vRshr d a i p n x _ => (0x26#8 ++ d ++ a ++ i ++ p ++ n ++ VExt.bit x : BitVec 32)
  | .vFeq q a b p n x _ => (0x28#8 ++ q ++ 0#2 ++ a ++ b ++ p ++ n ++ VExt.bit x : BitVec 32)
  | .vFlt q a b p n x _ => (0x29#8 ++ q ++ 0#2 ++ a ++ b ++ p ++ n ++ VExt.bit x : BitVec 32)
  | .vFle q a b p n x _ => (0x2A#8 ++ q ++ 0#2 ++ a ++ b ++ p ++ n ++ VExt.bit x : BitVec 32)
  | .vIeq q a b p n x _ => (0x2B#8 ++ q ++ 0#2 ++ a ++ b ++ p ++ n ++ VExt.bit x : BitVec 32)
  | .vIlt q a b p n x _ => (0x2C#8 ++ q ++ 0#2 ++ a ++ b ++ p ++ n ++ VExt.bit x : BitVec 32)
  | .vNlt q a b p n x _ => (0x2D#8 ++ q ++ 0#2 ++ a ++ b ++ p ++ n ++ VExt.bit x : BitVec 32)
  | .vSel d a b p n x _ => (0x2E#8 ++ d ++ a ++ b ++ p ++ n ++ VExt.bit x : BitVec 32)
  | .vCvtIf d a p n x _ => (0x30#8 ++ d ++ a ++ 0#6 ++ p ++ n ++ VExt.bit x : BitVec 32)
  | .vCvtFi d a p n x _ => (0x31#8 ++ d ++ a ++ 0#6 ++ p ++ n ++ VExt.bit x : BitVec 32)
  | .vCvtFf d a p n x _ => (0x32#8 ++ d ++ a ++ 0#6 ++ p ++ n ++ VExt.bit x : BitVec 32)
  | .vQnt d a b p n x _ => (0x33#8 ++ d ++ a ++ b ++ p ++ n ++ 1#1 : BitVec 32)
  | .vDp4 d a b p n x _ => (0x34#8 ++ d ++ a ++ b ++ p ++ n ++ VExt.bit x : BitVec 32)
  | .vRadd d a p n x _ => (0x38#8 ++ d ++ a ++ 0#6 ++ p ++ n ++ VExt.bit x : BitVec 32)
  | .vRmax d a p n x _ => (0x39#8 ++ d ++ a ++ 0#6 ++ p ++ n ++ VExt.bit x : BitVec 32)
  | .vRmin d a p n x _ => (0x3A#8 ++ d ++ a ++ 0#6 ++ p ++ n ++ VExt.bit x : BitVec 32)
  | .vScan d a p n x _ => (0x3B#8 ++ d ++ a ++ 0#6 ++ p ++ n ++ VExt.bit x : BitVec 32)
  | .vPerm d a b p n x _ => (0x3C#8 ++ d ++ a ++ b ++ p ++ n ++ VExt.bit x : BitVec 32)
  | .vBcast d s p n x _ => (0x3D#8 ++ d ++ 0#7 ++ s ++ p ++ n ++ VExt.bit x : BitVec 32)
  | .vIns d a s p n x _ => (0x3E#8 ++ d ++ a ++ 0#1 ++ s ++ p ++ n ++ VExt.bit x : BitVec 32)
  | .vExt d a s p n x _ => (0x3F#8 ++ d ++ a ++ 0#1 ++ s ++ p ++ n ++ VExt.bit x : BitVec 32)
  | .vLse d a b p n x _ => (0x40#8 ++ d ++ a ++ b ++ p ++ n ++ VExt.bit x : BitVec 32)
  | .vCex d a b p n x _ => (0x41#8 ++ d ++ a ++ b ++ p ++ n ++ VExt.bit x : BitVec 32)
  | .vSeed s p n x _ => (0x42#8 ++ 0#13 ++ s ++ p ++ n ++ VExt.bit x : BitVec 32)
  | .vLd v s i p n x _ => (0x48#8 ++ v ++ s ++ i ++ p ++ n ++ VExt.bit x : BitVec 32)
  | .vSt v s i p n x _ => (0x49#8 ++ v ++ s ++ i ++ p ++ n ++ VExt.bit x : BitVec 32)
  | .vLdu v s i p n x _ => (0x4A#8 ++ v ++ s ++ i ++ p ++ n ++ VExt.bit x : BitVec 32)
  | .vStu v s i p n x _ => (0x4B#8 ++ v ++ s ++ i ++ p ++ n ++ VExt.bit x : BitVec 32)
  | .vStm v s i p n x _ => (0x4C#8 ++ v ++ s ++ i ++ p ++ n ++ 1#1 : BitVec 32)
  | .vGth d a s p n x _ => (0x4D#8 ++ d ++ a ++ 0#1 ++ s ++ p ++ n ++ VExt.bit x : BitVec 32)
  | .vSct d a s p n x _ => (0x4E#8 ++ d ++ a ++ 0#1 ++ s ++ p ++ n ++ VExt.bit x : BitVec 32)
  | .pAnd q a b _ => (0x50#8 ++ q ++ a ++ b ++ 0#12 : BitVec 32)
  | .pOr q a b _ => (0x51#8 ++ q ++ a ++ b ++ 0#12 : BitVec 32)
  | .pXor q a b _ => (0x52#8 ++ q ++ a ++ b ++ 0#12 : BitVec 32)
  | .pAndn q a b _ => (0x53#8 ++ q ++ a ++ b ++ 0#12 : BitVec 32)
  | .pNot q a _ => (0x54#8 ++ q ++ a ++ 0#16 : BitVec 32)
  | .pCnt a s _ => (0x55#8 ++ 0#4 ++ a ++ 0#4 ++ s ++ 0#7 : BitVec 32)
  | .mNop _ => (0x00#8 ++ 0#24 : BitVec 32)
  | .mMma a b r c m _ => (0x01#8 ++ a ++ b ++ r ++ c ++ m ++ 0#1 : BitVec 32)
  | .mMmaI a b r c _ => (0x02#8 ++ a ++ b ++ r ++ c ++ 0#4 : BitVec 32)
  | .mMmaK4 a b r c _ => (0x03#8 ++ a ++ b ++ r ++ c ++ 0#4 : BitVec 32)
  | .mScacc a b r c m _ => (0x04#8 ++ a ++ b ++ r ++ c ++ m ++ 0#1 : BitVec 32)
  | .mZero _ => (0x05#8 ++ 0#24 : BitVec 32)
  | .mSwap _ => (0x06#8 ++ 0#24 : BitVec 32)
  | .mDrain d m s r h _ => (0x07#8 ++ d ++ 0#9 ++ m ++ s ++ r ++ h : BitVec 32)
  | .mDrainAmax d e m s r h _ => (0x08#8 ++ d ++ 0#4 ++ e ++ m ++ s ++ r ++ h : BitVec 32)
  | .mKat id fmt _ => (0x09#8 ++ id ++ fmt ++ 0#16 : BitVec 32)
  | .mChk sig _ => (0x0A#8 ++ 0#24 : BitVec 32)
  | .mEpi d m s r h _ => (0x0B#8 ++ d ++ 0#9 ++ m ++ s ++ r ++ h : BitVec 32)
  | .mEpiLd a _ => (0x0B#8 ++ a ++ 32768#20 : BitVec 32)
  | .mGang m g => (0x0C#8 ++ m ++ g ++ 0#18 : BitVec 32)
  | .mAcct t _ => (0x0D#8 ++ 0#22 ++ t : BitVec 32)
  | .dNop _ => (0x00#8 ++ 0#24 : BitVec 32)
  | .dCopy x y z _ => (0x01#8 ++ x ++ y ++ z ++ 0#9 : BitVec 32)
  | .dCopyRg y z r m _ => (0x01#8 ++ 0#5 ++ y ++ z ++ 1#1 ++ r ++ m ++ 0#2 : BitVec 32)
  | .dBcast x y z _ => (0x02#8 ++ x ++ y ++ z ++ 0#9 : BitVec 32)
  | .dStore x y z w _ => (0x03#8 ++ x ++ y ++ z ++ 0#7 ++ w : BitVec 32)
  | .dSpill x y t r _ => (0x04#8 ++ x ++ y ++ 0#5 ++ t ++ r ++ 0#2 : BitVec 32)
  | .dFill x y t r _ => (0x05#8 ++ x ++ y ++ 0#5 ++ t ++ r ++ 0#2 : BitVec 32)
  | .dAtom x y z o s _ => (0x06#8 ++ x ++ y ++ z ++ o ++ s ++ 0#4 : BitVec 32)
  | .dAtomNr x y z o s _ => (0x07#8 ++ x ++ y ++ z ++ o ++ s ++ 0#4 : BitVec 32)
  | .dAfence s _ => (0x08#8 ++ 0#15 ++ s ++ 0#5 : BitVec 32)
  | .dQpost x i _ => (0x09#8 ++ x ++ 0#10 ++ i ++ 0#3 : BitVec 32)
  | .dQget x i _ => (0x0A#8 ++ x ++ 0#10 ++ i ++ 0#3 : BitVec 32)
  | .dAppend x y z _ => (0x0B#8 ++ x ++ y ++ z ++ 0#9 : BitVec 32)
  | .dPref x z _ => (0x0C#8 ++ x ++ 0#5 ++ z ++ 0#9 : BitVec 32)
  | .dTfill x y _ => (0x0D#8 ++ x ++ y ++ 0#14 : BitVec 32)
  | .fNop _ => (0x00#8 ++ 0#24 : BitVec 32)
  | .fFur d x y z _ => (0x01#8 ++ d ++ x ++ y ++ z ++ 0#6 : BitVec 32)
  | .fFurQm x y z m _ => (0x01#8 ++ 0#3 ++ x ++ y ++ z ++ 1#1 ++ m ++ 0#3 : BitVec 32)
  | .fSys d x y z _ => (0x02#8 ++ d ++ x ++ y ++ z ++ 0#6 : BitVec 32)
  | .fHead x y z _ => (0x03#8 ++ 0#3 ++ x ++ y ++ z ++ 0#6 : BitVec 32)
  | .fRing x y z r _ => (0x04#8 ++ 0#3 ++ x ++ y ++ z ++ 0#5 ++ r : BitVec 32)
  | .fGbcast x y z m _ => (0x05#8 ++ 0#3 ++ x ++ y ++ z ++ 0#2 ++ m : BitVec 32)
  | .dealerFetch .. => 0#32
  | .privateFetch .. => 0#32
  | .instructionHandOver .. => 0#32
  | .joinComplete .. => 0#32
  | .vacancyRule .. => 0#32
  | .instructionStart .. => 0#32
  | .instructionRetire .. => 0#32
  | .tokdead .. => 0#32
  | .tokdeadEvent .. => 0#32
  | .gangStart .. => 0#32
  | .gangCompletion .. => 0#32
  | .trapEntry .. => 0#32
  | .interruptRequest .. => 0#32
  | .intr .. => 0#32
  | .automaticRefetch .. => 0#32
  | .subarrayRefresh .. => 0#32
  | .forcedRefresh .. => 0#32
  | .towerOverTemperature .. => 0#32
  | .acquireFill .. => 0#32
  | .acquireDrain .. => 0#32
  | .drillLineBeat .. => 0#32
  | .readPacket .. => 0#32
  | .writePacket .. => 0#32
  | .atomicPacket .. => 0#32
  | .appendPacket .. => 0#32
  | .parityDelta .. => 0#32
  | .packetReply .. => 0#32
  | .spareLayerMigration .. => 0#32
  | .migrationRowCopy .. => 0#32
  | .precharge .. => 0#32
  | .criticalTemperatureRise .. => 0#32
  | .criticalTemperatureFall .. => 0#32
  | .thermalHold .. => 0#32
  | .translationWalk .. => 0#32
  | .tictlGo .. => 0#32
  | .shootdownComplete .. => 0#32
  | .objectGrant .. => 0#32
  | .fenceComplete .. => 0#32
  | .barrierComplete .. => 0#32
  | .attentionPosition .. => 0#32
  | .queryPacket .. => 0#32
  | .tripleWrite .. => 0#32
  | .preemptionRequest .. => 0#32
  | .preemptionDrainComplete .. => 0#32
  | .taskResume .. => 0#32
  | .ltrig .. => 0#32
  | .lgregRegister .. => 0#32
  | .lgregUnregister .. => 0#32
  | .labort .. => 0#32
  | .lerrClear .. => 0#32
  | .instanceStart .. => 0#32
  | .nodePlace => 0#32
  | .nodeComplete .. => 0#32
  | .powerOnReset => 0#32
  | .coreReset .. => 0#32
  | .firmwareVerify .. => 0#32
  | .spdmMeasurement .. => 0#32
  | .spareCoreTakeover .. => 0#32
  | .hostLinkTraining .. => 0#32
  | .readyBitClear .. => 0#32
  | .ipost .. => 0#32
  | .eventForward .. => 0#32
  | .plim .. => 0#32
  | .powerCapInterval .. => 0#32
  | .hostBar4Access .. => 0#32
  | .hostMemoryRequest .. => 0#32
  | .fmWriteRoute .. => 0#32
  | .fmReadRoute .. => 0#32
  | .fmWriteKey .. => 0#32
  | .fmReadKey .. => 0#32
  | .fmSetId .. => 0#32
  | .fmWritePodMember .. => 0#32
  | .fmWriteGraphMask .. => 0#32
  | .fmQuiesce .. => 0#32
  | .fmResume .. => 0#32
  | .fmlinkClear .. => 0#32
  | .fqtail .. => 0#32
  | .descriptorStart .. => 0#32
  | .descriptorComplete .. => 0#32
  | .fabricPacketSend .. => 0#32
  | .fabricPacketArrival .. => 0#32
  | .portLinkUp .. => 0#32
  | .portFailure .. => 0#32
  | .packetResend .. => 0#32
  | .laneTimeout .. => 0#32
  | .podBarrierArrival .. => 0#32
  | .registerWrite .. => 0#32
  | .towerTemperatureFall .. => 0#32
  | .stackTraining .. => 0#32
  | .markedFailed .. => 0#32
  | .endToEndAcknowledgement .. => 0#32
  | .hostDoorbell .. => 0#32

/-- The immediate slots of an instruction, in order (R38, R41). -/
def encodeImms : Instr → List (BitVec 32)
  | .li _ lit _ => lit.slots
  | .lip _ lit _ => lit.slots
  | .beq _ _ _ off _ => off.slots
  | .bne _ _ _ off _ => off.slots
  | .bltI _ _ _ off _ => off.slots
  | .bltN _ _ _ off _ => off.slots
  | .bgeI _ _ _ off _ => off.slots
  | .bgeN _ _ _ off _ => off.slots
  | .loop _ _ off _ => off.slots
  | .vAdd _ _ _ _ _ x _ => VExt.slots x
  | .vSub _ _ _ _ _ x _ => VExt.slots x
  | .vMul _ _ _ _ _ x _ => VExt.slots x
  | .vFma _ _ _ _ _ x _ => [x.toWord]
  | .vMin _ _ _ _ _ x _ => VExt.slots x
  | .vMax _ _ _ _ _ x _ => VExt.slots x
  | .vAbs _ _ _ _ x _ => VExt.slots x
  | .vNeg _ _ _ _ x _ => VExt.slots x
  | .vDiv _ _ _ _ _ x _ => VExt.slots x
  | .vSqrt _ _ _ _ x _ => VExt.slots x
  | .vRcp _ _ _ _ x _ => VExt.slots x
  | .vRsqrt _ _ _ _ x _ => VExt.slots x
  | .vExp2 _ _ _ _ x _ => VExt.slots x
  | .vLog2 _ _ _ _ x _ => VExt.slots x
  | .vTanh _ _ _ _ x _ => VExt.slots x
  | .vIadd _ _ _ _ _ x _ => VExt.slots x
  | .vIsub _ _ _ _ _ x _ => VExt.slots x
  | .vImul _ _ _ _ _ x _ => VExt.slots x
  | .vImin _ _ _ _ _ x _ => VExt.slots x
  | .vNmin _ _ _ _ _ x _ => VExt.slots x
  | .vImax _ _ _ _ _ x _ => VExt.slots x
  | .vNmax _ _ _ _ _ x _ => VExt.slots x
  | .vIabs _ _ _ _ x _ => VExt.slots x
  | .vAnd _ _ _ _ _ x _ => VExt.slots x
  | .vOr _ _ _ _ _ x _ => VExt.slots x
  | .vXor _ _ _ _ _ x _ => VExt.slots x
  | .vNot _ _ _ _ x _ => VExt.slots x
  | .vShl _ _ _ _ _ x _ => VExt.slots x
  | .vShr _ _ _ _ _ x _ => VExt.slots x
  | .vSar _ _ _ _ _ x _ => VExt.slots x
  | .vFsh _ _ _ _ _ x _ => [x.toWord]
  | .vClz _ _ _ _ x _ => VExt.slots x
  | .vPopc _ _ _ _ x _ => VExt.slots x
  | .vFfs _ _ _ _ x _ => VExt.slots x
  | .vShli _ _ _ _ _ x _ => VExt.slots x
  | .vShri _ _ _ _ _ x _ => VExt.slots x
  | .vSari _ _ _ _ _ x _ => VExt.slots x
  | .vRshr _ _ _ _ _ x _ => VExt.slots x
  | .vFeq _ _ _ _ _ x _ => VExt.slots x
  | .vFlt _ _ _ _ _ x _ => VExt.slots x
  | .vFle _ _ _ _ _ x _ => VExt.slots x
  | .vIeq _ _ _ _ _ x _ => VExt.slots x
  | .vIlt _ _ _ _ _ x _ => VExt.slots x
  | .vNlt _ _ _ _ _ x _ => VExt.slots x
  | .vSel _ _ _ _ _ x _ => VExt.slots x
  | .vCvtIf _ _ _ _ x _ => VExt.slots x
  | .vCvtFi _ _ _ _ x _ => VExt.slots x
  | .vCvtFf _ _ _ _ x _ => VExt.slots x
  | .vQnt _ _ _ _ _ x _ => [x.toWord]
  | .vDp4 _ _ _ _ _ x _ => VExt.slots x
  | .vRadd _ _ _ _ x _ => VExt.slots x
  | .vRmax _ _ _ _ x _ => VExt.slots x
  | .vRmin _ _ _ _ x _ => VExt.slots x
  | .vScan _ _ _ _ x _ => VExt.slots x
  | .vPerm _ _ _ _ _ x _ => VExt.slots x
  | .vBcast _ _ _ _ x _ => VExt.slots x
  | .vIns _ _ _ _ _ x _ => VExt.slots x
  | .vExt _ _ _ _ _ x _ => VExt.slots x
  | .vLse _ _ _ _ _ x _ => VExt.slots x
  | .vCex _ _ _ _ _ x _ => VExt.slots x
  | .vSeed _ _ _ x _ => VExt.slots x
  | .vLd _ _ _ _ _ x _ => VExt.slots x
  | .vSt _ _ _ _ _ x _ => VExt.slots x
  | .vLdu _ _ _ _ _ x _ => VExt.slots x
  | .vStu _ _ _ _ _ x _ => VExt.slots x
  | .vStm _ _ _ _ _ x _ => [x.toWord]
  | .vGth _ _ _ _ _ x _ => VExt.slots x
  | .vSct _ _ _ _ _ x _ => VExt.slots x
  | .mChk sig _ => [sig]
  | _ => []

/-- The number of slots an instruction spans: first slot, immediate slots, token word (R38). -/
def Instr.slots (i : Instr) : Nat := 1 + (encodeImms i).length + (if i.tok?.isSome then 1 else 0)

/-- The routing code of a first slot (R37). -/
def Engine.code : Engine → BitVec 4
  | .c => 1#4
  | .v => 2#4
  | .m => 3#4
  | .d => 4#4
  | .f => 5#4

/-- The engine of a routing code (R37). -/
def engineOfCode (c : BitVec 4) : Option Engine :=
  match c.toNat with
  | 1 => some .c
  | 2 => some .v
  | 3 => some .m
  | 4 => some .d
  | 5 => some .f
  | _ => none

/-- The routing code that an instruction's immediate slots need (R38, R42). -/
def Instr.immCode : Instr → BitVec 4
  | .lip .. => 7#4
  | _ => 6#4

/-- The slots of an instruction with their routing codes, in order (R38). -/
def encode (i : Instr) : List (BitVec 4 × BitVec 32) :=
  match i.engine? with
  | none => []
  | some e =>
    (e.code, encodeFirst i) :: ((encodeImms i).map (fun w => (i.immCode, w)) ++
      (match i.tok? with
       | some t => [(8#4, t.toWord)]
       | none => []))

/-! ## Bundles -/

/-- One instruction of a decoded bundle: the slot it begins at, the slots it spans, its engine. -/
structure Item where
  slot : Nat
  len : Nat
  eng : Engine
  ins : Instr
deriving DecidableEq, Repr

/-- The outcome of decoding a bundle (R38): its instructions in slot order, or the slot passed to `illenc`. -/
inductive Decoded where
  | ok (items : List Item)
  | illenc (slot : Nat)
deriving DecidableEq, Repr

/-- Slot k of a bundle (R35). -/
def bundleSlot (b : BitVec 256) (k : Nat) : BitVec 32 := b.extractLsb' (32 * k) 32
/-- The routing code of slot k (R36). -/
def bundleCode (b : BitVec 256) (k : Nat) : BitVec 4 := b.extractLsb' (4 * k) 4

/-- The token word at slot k, if that slot has routing code 8: `some none` when its reserved bits are set. -/
def tokenAt (b : BitVec 256) (k : Nat) : Option (Option Tok) :=
  if k ≤ 7 ∧ bundleCode b k = 8#4 then some (Tok.ofWord (bundleSlot b k)) else none

/-- A gang prefix at slot k is followed directly by a command it may precede (R58). -/
def gangFollowed (b : BitVec 256) (k : Nat) : Bool :=
  decide (k + 1 ≤ 7) && decide (bundleCode b (k + 1) = 3#4) &&
    decide ((bundleSlot b (k + 1)).extractLsb' 24 8 ∈ [0x01#8, 0x02#8, 0x03#8])

/-- `m.gang`, the prefix of R58. -/
def Instr.isGang : Instr → Bool
  | .mGang .. => true
  | _ => false

/-- The instruction that begins at slot k of engine e (R38's loop body): its item, or the faulty slot. DESIGN CHOICE, log
entry 77: an `m.kat` or `m.chk` without its token word (R45) names its first slot; a bad gang prefix (R58) names its token
word's slot when it carries one, and its own slot when no command it may precede follows. -/
def decodeAt (b : BitVec 256) (k : Nat) (e : Engine) : Except Nat Item :=
  let w := bundleSlot b k
  match build e w 0#32 0#32 none with
  | none => .error k
  | some i0 =>
    if !i0.fieldsOk then .error k
    else
      let n := (encodeImms i0).length
      if 1 ≤ n ∧ (7 < k + 1 ∨ bundleCode b (k + 1) ≠ i0.immCode) then .error k
      else if 2 ≤ n ∧ (7 < k + 2 ∨ bundleCode b (k + 2) ≠ i0.immCode) then .error k
      else
        let im0 := if 1 ≤ n then bundleSlot b (k + 1) else 0#32
        let im1 := if 2 ≤ n then bundleSlot b (k + 2) else 0#32
        match build e w im0 im1 none with
        | none => .error k
        | some i1 =>
          if !i1.extOk then .error (k + 1)
          else
            match tokenAt b (k + n + 1) with
            | none =>
              if i0.isKat then .error k
              else if i0.isGang && !gangFollowed b k then .error k
              else .ok ⟨k, 1 + n, e, i1⟩
            | some none => .error (k + n + 1)
            | some (some t) =>
              if i0.isGang then .error (k + n + 1)
              else if !t.ok e i0.isKat then .error (k + n + 1)
              else if 3 < 1 + n + 1 then .error k
              else
                match build e w im0 im1 (some t) with
                | none => .error k
                | some i2 => .ok ⟨k, 2 + n, e, i2⟩

/-- The walk of R38 from slot k, with fuel. -/
def decodeFrom (b : BitVec 256) : Nat → Nat → Decoded
  | 0, _ => .ok []
  | fuel + 1, k =>
    if 7 < k then .ok []
    else
      let c := bundleCode b k
      if c = 0#4 then
        if bundleSlot b k ≠ 0#32 then .illenc k else decodeFrom b fuel (k + 1)
      else
        match engineOfCode c with
        | none => .illenc k
        | some e =>
          match decodeAt b k e with
          | .error s => .illenc s
          | .ok it =>
            match decodeFrom b fuel (k + it.len) with
            | .illenc s => .illenc s
            | .ok rest => .ok (it :: rest)

/-- The slots of the control transfers, and of `trap` and `sys` (R29, R88). -/
def transferSlots (items : List Item) : List Nat :=
  (items.filter (fun it => it.ins.isTransfer || it.ins.isTrapSys)).map (fun it => it.slot)

/-- Decode a bundle (R36 to R39, R29, R58, R88). DESIGN CHOICE, log entry 77: a bundle that breaks the rule of R88 names the
first slot among its control transfers and its `trap` and `sys` together. -/
def decodeBundle (b : BitVec 256) : Decoded :=
  if b.extractLsb' 0 4 ≠ 0#4 then .illenc 0
  else
    match decodeFrom b 8 1 with
    | .illenc s => .illenc s
    | .ok items =>
      match transferSlots items with
      | s :: _ :: _ => .illenc s
      | _ => .ok items

/-- A bundle of slots with their routing codes, laid out from slot 1 (R35, R36); further slots are empty. -/
def bundleOf (l : List (BitVec 4 × BitVec 32)) : BitVec 256 :=
  let at' (k : Nat) : BitVec 4 × BitVec 32 := l.getD k (0#4, 0#32)
  ((at' 6).2 ++ (at' 5).2 ++ (at' 4).2 ++ (at' 3).2 ++ (at' 2).2 ++ (at' 1).2 ++ (at' 0).2 ++
    ((at' 6).1 ++ (at' 5).1 ++ (at' 4).1 ++ (at' 3).1 ++ (at' 2).1 ++ (at' 1).1 ++ (at' 0).1 ++ 0#4 : BitVec 32) : BitVec 256)

/-- The bundle in which an opcode-table word stands as the first slot of an engine's instruction at slot 1: the
immediate slots its format asks for are zero, and a gang prefix, which R58 never lets stand alone, is followed by the
word of `m.mma sh0, sh0, 0, 0`. None when the engine's decoder refuses the bundle. -/
def tableBundle (e : Engine) (w : BitVec 32) : Option (BitVec 256) :=
  match build e w 0#32 0#32 none with
  | none => none
  | some i =>
    let b := bundleOf ((e.code, w) :: ((encodeImms i).map (fun _ => (i.immCode, 0#32)) ++
      (if i.isGang then [(3#4, 0x01000000#32)] else [])))
    match decodeBundle b with
    | .ok _ => some b
    | .illenc _ => none

/-- The first engine, in the order C, V, M, D, F, whose decoder takes the word. The table's words do not carry the
routing code that names their engine (R37), so one word can stand in several opcode spaces.
DESIGN CHOICE, log entry 6. -/
def tableEngine (w : BitVec 32) : Option (BitVec 256) :=
  match tableBundle .c w with
  | some b => some b
  | none =>
    match tableBundle .v w with
    | some b => some b
    | none =>
      match tableBundle .m w with
      | some b => some b
      | none =>
        match tableBundle .d w with
        | some b => some b
        | none => tableBundle .f w

/-- The instruction the decoder reads from an opcode-table word (bit 0 the least significant bit of the first slot). -/
def decodeTableWord (nbits w : Nat) : Option Instr :=
  if nbits ≤ 32 then
    match tableEngine (BitVec.ofNat 32 w) with
    | none => none
    | some b =>
      match decodeBundle b with
      | .ok (it :: _) => some it.ins
      | _ => none
  else none

end Sys2Proof
end

