-- ==== Sys2Proof/Config.lean ====
section
/-! DEFINITION. What an implementation fixes and the spec leaves open: free values, constants without a body (log
entries 4, 8 and 11). -/

namespace Sys2Proof.Config

/-- A free natural number for each value of the model's counter `tick`: cycles elapsed in a step (R22, R317). -/
opaque freeNat : Nat → Nat
/-- A free word for each value of the counter. -/
opaque freeWord : Nat → Word
/-- A free choice between two members of an "any one of" set (R7), for each value of the counter and index. -/
opaque freeBool : Nat → Nat → Bool
/-- PKGID.NK: the kind of the near stacks (R440). -/
opaque nearIsHbm4 : Bool
/-- The saturation value of the activation counters (R234), which the spec does not print. -/
opaque actSaturation : Nat
/-- SHA-384 digest of a measured object (R443): a function of what is measured, not printed by the spec. -/
opaque digest : List (Nat × BitVec 8) → BitVec 384
/-- The device's RSA-3072 signature over a measurement (R443). -/
opaque rsaSignature : BitVec 384 → List (BitVec 8)
/-- The device's SLH-DSA-SHA2-192s signature over a measurement (R443). -/
opaque slhSignature : BitVec 384 → List (BitVec 8)
/-- Whether an RSA-3072 signature over a digest verifies under the key whose hash the boot ROM holds (R443). -/
opaque rsaVerifies : List (Nat × BitVec 8) → BitVec 384 → List (BitVec 8) → Bool
/-- Whether an SLH-DSA-SHA2-192s signature over a digest verifies under the key whose hash the boot ROM holds (R443). -/
opaque slhVerifies : List (Nat × BitVec 8) → BitVec 384 → List (BitVec 8) → Bool
/-- The known-bad rows that a configuration blob lists for a core's place, its table's spare core apart (R209). -/
opaque knownBad : List (Nat × BitVec 8) → CoreId → List (BitVec 11 × BitVec 32)
/-- The known-bad rows that a configuration blob lists for a table's spare core (R209). -/
opaque knownBadSpare : List (Nat × BitVec 8) → TableId → List (BitVec 11 × BitVec 32)

end Sys2Proof.Config
end

