-- ==== Sys2Proof/Machine/State.lean ====
section
/-! DEFINITION. The state of the package as plain data, and the state after reset. An unlisted key of a bank has the
reset value its accessor names (Machine/Ops.lean); a memory lists its bytes in ascending order and no zero byte. -/

namespace Sys2Proof.Machine

/-- Bytes by address: addresses strictly rising, no byte equal to zero, which an unlisted address reads as. -/
abbrev Memory := List Host.Cell

/-- The canonical form of a memory (log entry 2 says what an unlisted byte reads as). -/
def Memory.wf : Memory → Bool
  | [] => true
  | [(_, b)] => decide (b ≠ 0#8)
  | (a, b) :: (a', b') :: rest => decide (a < a') && decide (b ≠ 0#8) && Memory.wf ((a', b') :: rest)

/-- A set of numbered things (poisoned sectors, deferred subarrays): the listed numbers belong. -/
abbrev Marks := List Nat

/-- What a trap writes: code, engine number (7: none), `xaddr`, and the WL and RF bits of `xcause` (R385, R386). -/
structure TrapInfo where
  code : BitVec 8
  eng : BitVec 3 := 0#3
  addr : Word := 0#64
  wl : Bool := false
  rf : Bool := false
deriving DecidableEq, Repr

/-- The captures of a handed-over instruction (R47, R82, R409). -/
structure Cap where
  x : Word := 0#64
  y : Word := 0#64
  z : Word := 0#64
  vrb : BitVec 5 := 0#5
  prb : BitVec 3 := 0#3
  rm : BitVec 3 := 0#3
  asid : BitVec 16 := 0#16
  xe : Bool := false
  sha : BitVec 512 := 0#512
  shb : BitVec 512 := 0#512
  /-- of a spill or fill that has started: it moves acc1, or acc0, to its end (R316) -/
  tile : Option Bool := none
deriving DecidableEq, Repr

/-- A ganged command: its mask, its gang queue, and the stream index and slot it was routed from (none: private fetch)
(R153). -/
structure Gang where
  mask : BitVec 4
  gq : BitVec 2
  index : Option (Nat × Nat)
deriving DecidableEq, Repr

/-- A ganged command that has started: its quad, its gang queue, its fault mask, the members present whose token is to come,
and the members whose slices have ended, finished or faulted (R312). -/
structure GangRun where
  quad : BitVec 2
  gq : BitVec 2
  mask : BitVec 4
  members : List (BitVec 2)
  ended : BitVec 4 := 0#4
deriving DecidableEq, Repr

/-- An instruction in an engine's queue (R299, R300, R409). -/
structure QEntry where
  ins : Instr
  /-- queue entries it occupies -/
  slots : Nat
  cap : Cap := {}
  /-- tokens popped -/
  started : Bool := false
  /-- effects complete; it waits to retire -/
  finished : Bool := false
  /-- freeze level, 0 when not frozen (R389) -/
  flev : BitVec 8 := 0#8
  /-- a fault not yet taken (R388) -/
  fault : Option TrapInfo := none
  /-- the fault that was taken and whose handler's `eret` disposes of it (R393) -/
  faulted : Option TrapInfo := none
  /-- resume point (R345, R364, R409): byte offset, element or entry index, or the next chunk or row; of an `m.chk`, 1 once
  it has compared; in the retained window: 1 when no slice was computed (R153) -/
  resume : Word := 0#64
  gang : Option Gang := none
  /-- the gang has started: a slice that starts again runs by itself (R314) -/
  ganged : Bool := false
  /-- the window is replayed before the command, which is not in it, goes on (R393, R397) -/
  replay : Bool := false
  /-- MODEL: a matrix command that has run and is still writing (R261) -/
  landed : Bool := false
deriving DecidableEq, Repr

/-- What the end of the current bundle does (R30, R89, R90, R149). -/
inductive Transfer where
  | none
  /-- a taken or untaken transfer to a bundle address; `j` is the join id a fold records (R83) -/
  | goto (pc : Pc) (j : BitVec 4) (taken : Bool)
  | fold
  | join
  | eret
  | halt
deriving DecidableEq, Repr

/-- The control unit's place as a trap entry freezes it: the bundle and slot that `xpc` names, the marks of the
instruction that waited there (R303, R409), and the transfer of an earlier slot, which keeps its effect (R30, R31). -/
structure CEntry where
  pc : Pc
  slot : Nat
  started : Bool
  done : Bool
  flev : BitVec 8
  ins : Option Instr := none
  /-- what the end of the bundle does, noted by the transfer at slot `pendAt` -/
  pend : Transfer := .none
  pendAt : Nat := 0
  /-- the first slot not executed -/
  at_ : Nat := 1
deriving DecidableEq, Repr

/-- The control unit's place in its code (R28, R30, R408). -/
structure Front where
  /-- it fetches and executes; false after `halt`, reset or a double trap (R90, R391) -/
  run : Bool := false
  /-- address of the current bundle, or of the next one when none is held -/
  pc : Pc := 0#51
  /-- the current bundle, as dealt or fetched after patching -/
  bundle : Option (BitVec 256) := none
  /-- the first slot not yet executed -/
  slot : Nat := 1
  /-- the slot after the instruction being executed (set by the step that executes it) -/
  next : Nat := 1
  pend : Transfer := .none
  /-- the slot that noted `pend`, while the bundle it came back to is still to be fetched (R31) -/
  pendAt : Nat := 1
  /-- the instruction at `slot` has popped its tokens (R301) -/
  started : Bool := false
  /-- the instruction at `slot` has taken effect and waits to push (R303) -/
  done : Bool := false
  /-- a gang prefix waits for its command (R58) -/
  pfx : Option (BitVec 4 × BitVec 2) := none
  /-- the next bundle is the first of a handler, none of whose slots has taken effect (R391) -/
  vec : Bool := false
  /-- the control unit's places frozen by traps (R389) -/
  frozen : List CEntry := []
deriving DecidableEq, Repr

/-- The scalar side of a core (R11, R17, R21). -/
structure Ctl where
  s : Bank (BitVec 5) Word := []
  cst : Word := 0x800#64
  xpc : BitVec 54 := 0#54
  xcause : Word := 0#64
  xaddr : Word := 0#64
  xvec : BitVec 51 := 0#51
  asid : BitVec 16 := 0#16
  cyc : Word := 0#64
  stbank : Word := 0#64
  sttok : Word := 0#64
  stfetch : Word := 0#64
  vrb : BitVec 5 := 0#5
  prb : BitVec 3 := 0#3
  sscr : Word := 0#64
deriving DecidableEq, Repr

/-- The seat states of R138. -/
inductive SeatState where
  | out | seated | folded | waiting
deriving DecidableEq, Repr

/-- An entry of the join stack: a join id, or the any-join entry (R145). -/
inductive JoinEntry where
  | id (j : BitVec 4)
  | any
deriving DecidableEq, Repr

/-- The seat record of a core (R138, R141, R145, R389): state, next index, join stack (bottom first), handler depth. -/
structure Seat where
  st : SeatState := .out
  n : Nat := 0
  stack : List JoinEntry := []
  depth : BitVec 8 := 0#8
deriving DecidableEq, Repr

/-- The vector unit: the two tiles, which is exposed, predicates, generators (R133, R135, R122). -/
structure Vec where
  acc0 : Bank (BitVec 6) (BitVec 1024) := []
  acc1 : Bank (BitVec 6) (BitVec 1024) := []
  /-- false: acc0 is exposed; true: acc1 is -/
  exposed : Bool := false
  preds : Bank (BitVec 4) Word := []
  gens : Bank (BitVec 5) (BitVec 32) := []
deriving DecidableEq, Repr

/-- The state of the retained window (R309). -/
inductive WindowState where
  | none | anchored | overflowed
deriving DecidableEq, Repr

/-- The tiles as they stood before a matrix command that is still writing (R134, R261), and where it writes: `rows` rows of
the engaged tile from `row0`, their bits from `lo` up to `hi`. -/
structure Before where
  exposed : Bool
  acc0 : Bank (BitVec 6) (BitVec 1024)
  acc1 : Bank (BitVec 6) (BitVec 1024)
  row0 : Nat
  rows : Nat
  lo : Nat
  hi : Nat
deriving DecidableEq, Repr

/-- The matrix engine beside the tiles: partial planes (R326), retained window with the index of its faulting
command (R309, R408), check tile (R315), epilogue words in the image layout of R339, working values e0 to e3 (R338). -/
structure Mtx where
  plane0 : Bank Nat (BitVec 32) := []
  plane1 : Bank Nat (BitVec 32) := []
  window : WindowState := .none
  cmds : List QEntry := []
  faultAt : Option Nat := none
  /-- an automatic refetch of the running command waits for a stack: the sectors refetched in this replay (R397, R398) -/
  retry : Option (List Nat) := none
  check : Bank Nat (BitVec 32) := []
  checkInt : Bool := false
  epi : Bank Nat (BitVec 32) := []
  work : Bank (BitVec 2) (BitVec 32) := []
  /-- MODEL: what vector, spill and fill accesses may still find in place of the writes of commands, newest first -/
  before : List Before := []
deriving DecidableEq, Repr

/-- Token counts and gang queues, oldest mask first (R301, R302). -/
structure Toks where
  counts : Bank (BitVec 5) (BitVec 4) := []
  gq : Bank (BitVec 2) (List (BitVec 4)) := []
deriving DecidableEq, Repr

/-- A pinned line: its line number o[24:9], its fate, its 512 bytes, its poisoned sectors and words in error (R196,
R205). -/
structure Line where
  row : BitVec 16
  keep : Bool
  data : Memory
  poison : Marks
  err1 : Marks := []
  err2 : Marks := []
deriving DecidableEq, Repr

/-- A core's tower (R190 to R211). Cells are keyed by serving row: `subarray * 33792 + row * 512 + byte`, where rows 64
and 65 are the spares. Poison is keyed by cell / 32, error marks by cell / 8. -/
structure Tower where
  cells : Memory := []
  poison : Marks := []
  /-- words with one bit in error, their corrected value being in `cells` -/
  err1 : Marks := []
  /-- words with two or more bits in error -/
  err2 : Marks := []
  lines : Bank (BitVec 5) (Option Line) := []
  remap : Bank (BitVec 11) (BitVec 32) := []
  defer : Marks := []
  /-- bits of cells that read as 0 whatever is written: `cell * 8 + bit` (R295) -/
  stuck : Marks := []
  /-- the age at which a subarray's last pinned line was released (R200) -/
  freed : Bank (BitVec 10) Nat := []
  /-- age of each subarray since its last refresh, in ms -/
  age : Bank (BitVec 10) Nat := []
  hot : Bool := false
deriving DecidableEq, Repr

/-- A hold of a binding (R253). -/
inductive Hold where
  | none | shared | exclusive
deriving DecidableEq, Repr

/-- A binding table entry (R253). -/
structure Binding where
  obj : BitVec 56
  base : BitVec 56
  len : Word
  scope : BitVec 4
  hold : Hold
deriving DecidableEq, Repr

/-- A ring: descriptor word (R215) and slot states [5] BSY [4] FE [3:0] OWNER (R408). -/
structure Ring where
  desc : Word := 0#64
  slots : Bank (BitVec 6) (BitVec 6) := []
deriving DecidableEq, Repr

/-- A triple of an attention unit on its way to the core (R372). -/
structure Triple where
  id : BitVec 6
  m : BitVec 32
  s : BitVec 32
  nkey : BitVec 32
  emask : BitVec 4
  epos : List (BitVec 32)
  unit : BitVec 12
  frow : BitVec 52
  acc : List (BitVec 32)
  /-- the unit's last triple of the query -/
  last : Bool
deriving DecidableEq, Repr

/-- The captured query of a query packet (R369, R370): posting core and id, dims, scale, query vector, and the positions
to scan with the home of each key row and value row. -/
structure QueryPacket where
  core : CoreId
  id : BitVec 6
  pc : Nat
  /-- keys and values are BF16; E4M3 otherwise -/
  bf16 : Bool
  scale : BitVec 32
  q : List (BitVec 16)
  dv : Nat
  /-- position, key row address, value row address (physical, IL7) -/
  rows : List (Nat × BitVec 52 × BitVec 52)
  /-- the suspended context that posted it: its order (R413) -/
  ctx : Option Nat := none
  /-- false once its core was reset (R34) -/
  reply : Bool := true
deriving DecidableEq, Repr

/-- An outstanding query of a core (R369, R374, R413): ring, units still to end, triples written, spilled, FIN seen, and the
captured packets that wait to be sent, each with its stack (R224). -/
structure Query where
  rid : BitVec 4
  open_ : Nat
  written : BitVec 32 := 0#32
  spilled : Nat := 0
  fin : Bool := false
  unsent : List (StackId × QueryPacket) := []
deriving DecidableEq, Repr

/-- A reply or acknowledgement on its way to a core (R224). -/
structure Reply where
  tag : Nat
  bytes : List (BitVec 8) := []
  poison : List Bool := []
  old : Option Word := none
deriving DecidableEq, Repr

/-- A cached word of code: the address space it was read under, its slot number (byte address over 4), the word (R278). -/
structure CodeWord where
  asid : BitVec 16
  xe : Bool
  slot : Nat
  word : BitVec 32
deriving DecidableEq, Repr

/-- Where an access lands: the executing core's own tower window, or a physical address with its interleave. -/
inductive Place where
  | window (off : Nat)
  | phys (pa : Nat) (il : BitVec 3)
  /-- its translation waits for a stack (R232, R235) -/
  | held
deriving DecidableEq, Repr

/-- A piece of an access within one 4 KiB page: its first address, its length, its place, and the words of page tables
that its translation reads (R238). -/
structure Piece where
  a : Nat
  len : Nat
  at_ : Place
  walk : List Nat := []
deriving DecidableEq, Repr

/-- MODEL: a byte of a control store that the core's own engines may not yet see (R248, R260): where it lies, what stands
there without the store, the byte stored, and a number that the bytes of one store share (R245). -/
structure Late where
  core : CoreId
  at_ : Piece
  old : BitVec 8
  new : BitVec 8
  group : Nat
deriving DecidableEq, Repr

/-- MODEL: a location that a core's control unit has read ahead of a load to come (R248): its pieces and the bytes read. -/
structure Early where
  core : CoreId
  ps : List Piece
  bytes : List (BitVec 8)
deriving DecidableEq, Repr

/-- A cached translation (R241): the virtual range it covers, in bytes, what it maps to, and the last address of the leaf
page or range it is a piece of (R228). -/
structure TlbEntry where
  asid : BitVec 16
  first : Nat
  last : Nat
  pageLast : Nat
  pa : Nat
  il : BitVec 3
  t : Bool
  x : Bool
  w : Bool
  range : Bool
deriving DecidableEq, Repr

/-- The refusal record of return-free atomics (R358, R408), with the issue order of the refused element. -/
structure Refused where
  tower : Bool
  addr : BitVec 56
  order : Nat := 0
deriving DecidableEq, Repr

/-- One core of the package. -/
structure Core where
  ctl : Ctl := {}
  front : Front := {}
  seat : Seat := {}
  vec : Vec := {}
  mtx : Mtx := {}
  tok : Toks := {}
  vq : List QEntry := []
  mq : List QEntry := []
  dq : List QEntry := []
  fq : List QEntry := []
  tower : Tower := {}
  binds : Bank (BitVec 4) (Option Binding) := []
  rings : Bank (BitVec 4) Ring := []
  tags : Bank (BitVec 10) (BitVec 128) := []
  shapes : Bank (BitVec 4) (BitVec 512) := []
  queries : Bank (BitVec 6) (Option Query) := []
  /-- triples in the return path and the base-die queues, in arrival order (R373) -/
  inbox : List Triple := []
  /-- triples written to the triple spill of the suspended context (R413) -/
  spill : List Triple := []
  replies : List Reply := []
  refused : Option Refused := none
  irq : List Word := []
  tlb : List TlbEntry := []
  /-- MODEL: the words its private fetch buffer holds (R278) -/
  icache : List CodeWord := []
  /-- barriers at which the core has arrived: level and id (R157, R408) -/
  arrived : List (BitVec 3 × BitVec 4) := []
  /-- barriers whose completion releases the core (R157) -/
  released : List (BitVec 3 × BitVec 4) := []
  /-- consecutive ck in which the core was token-deadlocked (R305) -/
  deadCk : Nat := 0
deriving DecidableEq, Repr

/-- What the launch unit gave a table to run (R429): graph, instance, node, the table's rank in its plot, the plot, the
kernel's first bundle and length, its patch list (slot number, parameter word), the instance's parameter block, the
footprint of the kernel in tower lines (first line, count), its class, the placement that started it, and its place in
the readiness order (R427, R432, R433). -/
structure Task where
  gid : BitVec 8
  instance_ : BitVec 32
  node : BitVec 12
  rank : Nat
  plot : List TableId
  entry : Pc
  nbnd : Nat
  patch : List (Nat × Nat)
  params : Memory
  foot : List (Nat × Nat)
  cls : BitVec 2
  started : Nat
  ready : Nat
deriving DecidableEq, Repr

/-- A table: its dealer's stream, its join, its private fetch port, its task and its pre-emption (R139 to R147). -/
structure Table where
  /-- stream bundles fetched -/
  f : Nat := 0
  /-- address of bundle F - 1 -/
  spc : Pc := 0#51
  /-- the successor of bundle F - 1, once fixed -/
  succ : Option Pc := none
  /-- the replay buffer, newest first, at most 64 bundles with their addresses -/
  buf : List (Pc × BitVec 256) := []
  /-- a stream join that the head has executed and that has not completed: address and id -/
  join : Option (Pc × BitVec 4) := none
  /-- the seat the private fetch port served last -/
  port : BitVec 4 := 15#4
  task : Option Task := none
  /-- a pre-emption was requested -/
  stop : Bool := false
  /-- ganged commands that have started and whose completion is to come, oldest first -/
  gangs : List GangRun := []
  tlb : List TlbEntry := []
  /-- MODEL: the words the table's instruction cache holds (R278) -/
  icache : List CodeWord := []
  /-- ranges of `iflush` by the head seat that await its next taken transfer: first byte, length (R277) -/
  flushes : List (Nat × Nat) := []
deriving DecidableEq, Repr

/-- A fabric descriptor in progress (R452, R453). -/
structure FabDesc where
  /-- MODEL: a number of its own, by which its packets name it -/
  num : Nat
  /-- where the descriptor was read, to which its STATUS goes -/
  home : Nat
  write : Bool
  cls : BitVec 2
  dst : BitVec 14
  raddr : BitVec 52
  laddr : BitVec 52
  len : Nat
  /-- bytes already sent or asked for -/
  sent : Nat := 0
  /-- packets sent and not acknowledged -/
  open_ : Nat := 0
  /-- of a read: the bytes, counted from its first, that came clean in a packet which did not cover their local sector
  whole (R346) -/
  clean : List Nat := []
  status : BitVec 8 := 1#8
deriving DecidableEq, Repr

/-- A translation invalidation in progress (R243). -/
structure Shootdown where
  asid : BitVec 16
  all : Bool
  first : Nat
  last : Nat
deriving DecidableEq, Repr

/-- An event collected by a die controller (R444): source, detail, and the words it carries (R306, R391). -/
structure DieEvent where
  source : Nat
  detail : Nat
  data : List Word := []
deriving DecidableEq, Repr

/-- A die controller's registers and events (R242, R440, R441, R444, R452). -/
structure Die where
  tiva : Word := 0#64
  tilen : Word := 0#64
  tictl : Word := 0#64
  busy : Option Shootdown := none
  asdt : Word := 0#64
  dready : BitVec 24 := 0#24
  seatmap : Bank (BitVec 4) (BitVec 8) := []
  /-- the remap tables of the cores whose seat a spare took over, by table (R211, R442) -/
  retired : Bank (BitVec 4) (Bank (BitVec 11) (BitVec 32)) := []
  /-- tables that have used their spare and failed again: their TBL bit never sets (R442) -/
  spent : Marks := []
  /-- events collected and not forwarded -/
  events : List DieEvent := []
  verified : Bool := false
  /-- a signature did not verify: the die stays in recovery (R443) -/
  recovery : Bool := false
  /-- the firmware and the configuration blob that were verified (R443) -/
  firmware : List (Nat × BitVec 8) := []
  blob : List (Nat × BitVec 8) := []
  /-- tables that run the boot march test (R442) -/
  booting : Marks := []
  /-- seats whose march test failed and that no spare has taken over: `table * 16 + seat` (R297, R442) -/
  faulty : Marks := []
  fqbase : Word := 0#64
  fqtail : BitVec 7 := 0#7
  fqhead : BitVec 7 := 0#7
  descs : List FabDesc := []
  /-- MODEL: descriptors started so far -/
  started : Nat := 0
deriving DecidableEq, Repr

/-- A packet held at a base die (R224). -/
inductive Packet where
  | read (src : CoreId) (tag : Nat) (a : BitVec 52) (il : BitVec 3) (len : Nat)
  | write (src : CoreId) (tag : Nat) (a : BitVec 52) (il : BitVec 3) (bytes : List (Option (BitVec 8)))
  | atomic (src : CoreId) (tag : Nat) (a : BitVec 52) (il : BitVec 3) (aop : BitVec 4) (sz : BitVec 1)
      (val cmp : Word) (nr : Bool)
  | append (src : CoreId) (tag : Nat) (a : BitVec 52) (il : BitVec 3) (bytes : List (BitVec 8))
deriving DecidableEq, Repr

/-- A packet accepted by a base die and not performed; its reply is discarded once its core was reset (R34). -/
structure Queued where
  pkt : Packet
  reply : Bool := true
deriving DecidableEq, Repr

/-- A return-free atomic that was sent and not performed: the packet, the address as the instruction formed it, and its
issue order (R263, R358, R471). -/
structure Sent where
  pkt : Packet
  named : BitVec 56
  order : Nat
  /-- false once its core was reset (R34) -/
  reply : Bool := true
deriving DecidableEq, Repr

/-- A parity delta on its way to the parity base die (R231): pseudo-channel, unit position, first byte, old XOR new,
XOR of the sectors' poison bits, and the write to acknowledge once it is applied. -/
structure Delta where
  pc : Nat
  r : Nat
  y : Nat
  bytes : List (BitVec 8)
  poison : List Bool
  src : CoreId
  tag : Nat
  old : Option Word := none
  reply : Bool := true
  /-- of a return-free atomic, which only `d.afence` awaits (R263) -/
  nr : Bool := false
deriving DecidableEq, Repr

/-- The migration of a failed layer into the spare layer (R233): layer, pointer M. -/
structure Migration where
  layer : BitVec 4
  next : Nat
deriving DecidableEq, Repr

/-- A scan in progress in one attention unit (R370, R371). -/
structure Scan where
  unit : BitVec 12
  qp : QueryPacket
  left : List (Nat × BitVec 52 × BitVec 52)
  /-- the sectors read so far of the next position's key row and value row, by number, each on its own (R264) -/
  got : List (Nat × List (BitVec 8)) := []
  m : BitVec 32
  s : BitVec 32
  acc : List (BitVec 32)
  nkey : BitVec 32
  emask : BitVec 4 := 0#4
  epos : List (BitVec 32) := []
  frow : BitVec 52 := 0#52
deriving DecidableEq, Repr

/-- A stack (R222 to R235). Cells are keyed by `(pc * 2^22 + r) * 256 + y`; poison by cell / 32; units that on-die ECC
reports uncorrectable by cell / 256. -/
structure Stack where
  cells : Memory := []
  poison : Marks := []
  bad : Marks := []
  failed : List FailMark := []
  /-- unit positions whose parity unit, held here, no longer covers their group (R232) -/
  stale : Marks := []
  migration : Option Migration := none
  /-- the layer whose whole address space the spare layer serves -/
  spare : Option (BitVec 4) := none
  /-- activation counters by row (pc, bank group and bank, layer and row of the layer) -/
  act : Bank Nat Nat := []
  /-- rows whose counter parity disagrees -/
  actBad : Marks := []
  /-- the stack is in self-refresh -/
  selfRefresh : Bool := false
  hold : Bool := false
  trained : Bool := false
  queue : List Queued := []
  sent : List Sent := []
  deltas : List Delta := []
  queryq : List QueryPacket := []
  scans : List Scan := []
deriving DecidableEq, Repr

/-- The memory of the tiers' controllers as one field of the machine: sixteen stacks. -/
abbrev Stacks := Bank StackId Stack

/-- What a die goes by since its last invalidation under ALL: ASDT, and the memory in which it read the descriptors and
range entries that ASDT points to (R243). -/
structure Spaces where
  asdt : Word := 0#64
  hbm : Stacks := []
deriving DecidableEq, Repr

/-- A node of a registered graph, as copied at registration (R422, R423); its master parameter block is the `pbytes` bytes
of scheduler memory at `poff`. -/
structure Node where
  asid : BitVec 16
  xe : Bool
  pl : Bool
  rm : BitVec 3
  cls : BitVec 2
  plot : Nat
  npred : Nat
  succs : List Nat
  entry : Pc
  nbnd : Nat
  pbytes : Nat
  patch : List (Nat × Nat)
  foot : List (Nat × Nat)
  poff : Nat
deriving DecidableEq, Repr

/-- The progress of a node in the running instance (R426, R431). -/
inductive NodeState where
  | waiting | ready | running | done
deriving DecidableEq, Repr

/-- An accepted trigger: generation if any, and its patches (node, word, S8, value) (R424, R425). -/
structure Trigger where
  gen : Option (BitVec 6)
  patches : List (Nat × Nat × Bool × Word)
  /-- where its patch list lies (0: none), and the words read there when it was accepted (R424) -/
  list : Nat := 0
  words : List Word := []
deriving DecidableEq, Repr

/-- A running instance (R426): number, generation, parameter blocks, node states and the predecessors each still waits
for; a context error was reported; it was aborted and waits for what its tasks had sent (R435). -/
structure Inst where
  num : BitVec 32
  gen : BitVec 6
  params : List Memory
  nodes : List NodeState
  preds : List Nat
  ctxErr : Bool := false
  aborted : Bool := false
deriving DecidableEq, Repr

/-- A registered graph (R421 to R426). -/
structure Graph where
  nodes : List Node
  caddr : BitVec 52
  vec : Option (BitVec 11)
  pending : List Trigger := []
  gen : BitVec 6 := 0#6
  count : BitVec 32 := 0#32
  inst : Option Inst := none
deriving DecidableEq, Repr

/-- A ready node in the readiness order (R427). -/
structure ReadyItem where
  gid : BitVec 8
  node : BitVec 12
  cls : BitVec 2
  order : Nat
deriving DecidableEq, Repr

/-- A suspended context of one table (R406, R410, R433): what it ran, where it was saved, the lines of each seat saved
so far with their place (seat, first line, count, address), the pool blocks it holds. -/
structure Suspended where
  table : TableId
  task : Task
  order : Nat
  base : Nat
  size : Nat
  blocks : List (Nat × Nat) := []
  saved : List (Nat × Nat × Nat × Nat) := []
  failed : Bool := false
  /-- its cores that are not out, each with the barriers at which it has arrived (R157) -/
  bars : List (CoreId × List (BitVec 3 × BitVec 4)) := []
  /-- barriers that completed meanwhile: their cores are released on resume -/
  freed : List (CoreId × BitVec 3 × BitVec 4) := []
  /-- the cores as they stood at the save, their towers too (R410): what a save area that nobody edits restores, and the parts
  of the machine for which the area has no place -/
  cores : List (CoreId × Core) := []
  /-- the table as it stood -/
  tab : Table := {}
deriving DecidableEq, Repr

/-- The launch unit (R420 to R435). -/
structure Launch where
  mem : Memory := []
  lgstat : Word := 0#64
  lspbase : Word := 0#64
  lspsize : Word := 0#64
  lerr : Word := 0#64
  graphs : Bank (BitVec 8) (Option Graph) := []
  ready : List ReadyItem := []
  suspended : List Suspended := []
  /-- blocks of the save-area pool in use: base and size -/
  pool : List (Nat × Nat) := []
  /-- readiness order numbers handed out -/
  clock : Nat := 0
  /-- nodes that have started a pre-emption and wait for their tables: gid, node, tables -/
  claims : List (BitVec 8 × BitVec 12 × List TableId) := []
  /-- the LGREG write being performed while BUSY (R423) -/
  lgop : Option Word := none
  /-- completion records that a stack holds back: address, word, vector (R431) -/
  records : List (BitVec 52 × Nat × Option (BitVec 11)) := []
deriving DecidableEq, Repr

/-- A pair of destination and hash lane on the fabric (R449). -/
structure Pair where
  port : BitVec 5
  /-- packets sent and not acknowledged, oldest first, with their die and descriptor -/
  inflight : List FabricPacket := []
  /-- packets of a failed port, waiting to be resent -/
  retry : List FabricPacket := []
deriving DecidableEq, Repr

/-- The reply to a packet that arrived (R448, R453): its source, lane and number, a status of R453, and for a read the
bytes with the sectors, counted from the packet's first, that carry poison. -/
structure FabricReply where
  src : BitVec 14
  lane : BitVec 4
  seq : Nat
  status : BitVec 8
  bytes : List (BitVec 8) := []
  poison : List Nat := []
deriving DecidableEq, Repr

/-- The scale-up fabric (R446 to R458). -/
structure Fabric where
  id : BitVec 14 := 0#14
  routes : Bank (BitVec 14) Word := []
  keys : Bank (BitVec 4) Word := []
  fmdata : Word := 0#64
  /-- FMSTAT.RESULT; BUSY and QUIESCED are the two marks below (R451) -/
  result : BitVec 8 := 0#8
  up : BitVec 24 := 0#24
  fail : BitVec 24 := 0#24
  members : Bank (BitVec 6) Word := []
  mask : Bank (BitVec 2) Word := []
  quiesced : Bool := false
  /-- OP 7 has been accepted and QUIESCED is not yet set -/
  quiescing : Bool := false
  pairs : Bank (BitVec 14 × BitVec 4) Pair := []
  /-- the next sequence number of a source, destination and lane (R447) -/
  seqs : Bank (BitVec 14 × BitVec 14 × BitVec 4) Nat := []
  /-- the sequence numbers performed: source, destination, lane, number (R447) -/
  performed : List (BitVec 14 × BitVec 14 × BitVec 4 × Nat) := []
  /-- packets that arrived and that a stack holds back, oldest first, each with whether its key was accepted when it
  arrived (R235, R258, R450) -/
  inbound : List (FabricPacket × Bool) := []
  /-- replies to arriving packets -/
  outbox : List FabricReply := []
  /-- arrivals received from members and not yet consumed: member, barrier id, count -/
  arrivals : Bank (BitVec 6 × BitVec 4) Nat := []
  /-- the ids whose instance in progress has completed locally -/
  announced : List (BitVec 4) := []
  /-- class 0 arrivals put out, in order: member, barrier id (R457) -/
  podOut : List (BitVec 6 × BitVec 4) := []
deriving DecidableEq, Repr

/-- The host link as it trained (R437): PCIe generation, width, and what kind of host stands behind it. -/
structure HostLink where
  gen : Nat
  width : Nat
  host : HostKind
deriving DecidableEq, Repr

/-- A request of the host that waits behind a write that a stack holds back (R430): through BAR0, BAR2 or BAR4 (R439). -/
inductive HostReq where
  | bar0 (off : BitVec 20) (acc : HostAccess)
  | bar2 (off : BitVec 23) (acc : HostAccess)
  | bar4 (off : BitVec 36) (acc : HostAccess)
deriving DecidableEq, Repr

/-- The package outside its dies (R437 to R445). -/
structure Package where
  hwbase : Word := 0#64
  plim : BitVec 12 := 3200#12
  /-- clock in units of 100 MHz -/
  clock : Nat := 20
  /-- the last change of the clock was downwards -/
  slowing : Bool := false
  /-- the host link, once trained -/
  link : Option HostLink := none
  /-- host requests in order, the first held back by a stack -/
  posted : List HostReq := []
  /-- MSI-X vectors raised -/
  msix : List Nat := []
  /-- completions of host accesses: bytes read, or none for Unsupported Request -/
  hostReplies : List (Option (List (BitVec 8))) := []
  /-- SPDM responses: the measurement and its two signatures -/
  spdm : List (BitVec 384 × List (BitVec 8) × List (BitVec 8)) := []
deriving DecidableEq, Repr

/-- Host memory as requests see it (R438): its bytes, the 32-byte sectors whose requests do not complete with data, and the
ranges (first sector, count) that memory devices behind the host's switches hold (R437). -/
structure HostMem where
  cells : Memory := []
  bad : Bank Nat (Option HostAnswer) := []
  devices : List (Nat × Nat) := []
deriving DecidableEq, Repr

/-- What comes to the package from outside that no row of the opcode table names: requests of the host, faults of its parts,
and the firmware's steps of a boot (log entry 57). -/
inductive Outside where
  /-- the host reads or writes BAR0, BAR2 or BAR4 (R439) -/
  | host (r : HostReq)
  /-- memory devices behind the host's switches hold these sectors (R437) -/
  | hostMap (devices : List (Nat × Nat))
  /-- on-die ECC reports a unit uncorrectable (R232) -/
  | unitLost (st : StackId) (pc : BitVec 6) (r : BitVec 22)
  /-- a DRAM row is refreshed at its time (R234) -/
  | rowRefresh (st : StackId) (pc : BitVec 6) (bank : BitVec 4) (row : BitVec 17)
  /-- the parity of an activation counter disagrees (R234) -/
  | counterUpset (st : StackId) (pc : BitVec 6) (bank : BitVec 4) (row : BitVec 17)
  /-- a tower word comes to have one bit in error, or more (R205) -/
  | wordUpset (k : CoreId) (off : BitVec 25) (two : Bool)
  /-- a bit of a tower cell comes to be stuck at 0: subarray, serving row, byte, bit (R295) -/
  | cellStuck (k : CoreId) (sub : BitVec 10) (row : BitVec 7) (byte : BitVec 9) (bit : BitVec 3)
  /-- a table's cores are seated at the boot ROM under their dealer (R295, R442) -/
  | bootTable (tb : TableId)
  /-- a table's march test has ended, and the die controller reads its summary words (R297, R442) -/
  | marchDone (tb : TableId)
  /-- the launch unit comes to accept registers (R441) -/
  | launchReady
deriving DecidableEq, Repr

/-- Who moves at a step: a core's control unit, the n-th entry of an engine's queue in one of its ways, an instruction cache,
or an event of the package. -/
inductive Turn where
  | control (k : CoreId)
  | engine (k : CoreId) (e : Engine) (n : Nat)
  /-- a turn that goes on for some units and is stopped there by a pre-emption (R403) -/
  | part (k : CoreId) (e : Engine) (n : Nat) (units : Nat)
  /-- a matrix command runs and is still writing (R261) -/
  | land (k : CoreId) (n : Nat)
  /-- a turn whose fault is only found (R389) -/
  | found (k : CoreId) (e : Engine) (n : Nat)
  /-- a control instruction whose fault is found in the same ck as those that are only found (R389) -/
  | same (k : CoreId)
  /-- a bundle comes into the cache that a core fetches through (R278) -/
  | prefetch (k : CoreId) (pc : Pc)
  /-- a control unit reads an aligned location of 2^sz bytes ahead of a load to come (R248) -/
  | early (k : CoreId) (a : Nat) (sz : BitVec 2)
  | event (i : Instr)
  | outside (o : Outside)
deriving DecidableEq, Repr

/-- The package. -/
structure State where
  cores : Bank CoreId Core := []
  tables : Bank TableId Table := []
  dies : Bank DieId Die := []
  hbm : Stacks := []
  /-- the address spaces each die goes by (R243) -/
  spaces : Bank DieId Spaces := []
  /-- queues of waiting acquirers by the object's home (R254); true: exclusive -/
  objects : Bank Nat (List (CoreId × Bool)) := []
  launch : Launch := {}
  pkg : Package := {}
  fabric : Fabric := {}
  host : HostMem := {}
  /-- boot ROM contents of each die, at `die * 2^20 + offset` (R221) -/
  rom : Memory := []
  /-- MODEL: control stores not yet seen by the engines of their core, newest first (R260) -/
  late : List Late := []
  /-- MODEL: locations read ahead of the loads to come, newest first (R248) -/
  early : List Early := []
  /-- MODEL: who moves next; empty, the focused core's own work goes on -/
  agenda : List Turn := []
  /-- MODEL: the core whose work goes on when the agenda is empty -/
  focus : CoreId := 0#11
  /-- MODEL: the core that executes the current instruction -/
  exe : CoreId := 0#11
  /-- MODEL: the counter to which the free values of Config are applied -/
  tick : Nat := 0
deriving DecidableEq, Repr

/-- Why a run stops with a fault. The spec gives every instruction a next state, so no step raises one. Safe: a run
that stopped here would prove nothing about the device. -/
inductive Fault where
  /-- never raised by this model -/
  | none
deriving DecidableEq, Repr

/-- Why an instruction has no meaning. Safe: a run that stops here proves nothing about the device. -/
inductive Refusal where
  /-- raised by an arm of `exec` whose instruction is not modelled yet; safe -/
  | notModelled (mnemonic : String)
deriving DecidableEq, Repr

/-- The machine right after power-on reset (R32, R33): every bank unlisted, so every register at its reset value; every
core out and idle at supervisor level; towers zero; log entries 2 and 3 name the values the spec does not give. -/
def State.reset : State := {}

end Sys2Proof.Machine
end

