-- ==== Sys2Proof/Machine/Ops.lean ====
section
/-! DEFINITION. The named operations over memory, registers and tokens; taking an exception; the two wrappers that pop
an instruction's tokens, run its body and push its token. -/

namespace Sys2Proof

/-- The nonzero WAIT fields of a token word, in order. -/
def Tok.waits (t : Tok) : List (BitVec 5) := [t.wait0, t.wait1, t.wait2].filter (fun q => decide (q ≠ 0#5))

/-- The queue slots of an engine (R299). -/
def Engine.depth : Engine → Nat
  | .c => 8
  | .v => 16
  | .m => 16
  | .d => 16
  | .f => 8

/-- An engine's number in `xcause.ENG` (R386). -/
def Engine.num : Engine → BitVec 3
  | .c => 0#3
  | .v => 1#3
  | .m => 2#3
  | .d => 3#3
  | .f => 4#3

end Sys2Proof

namespace Sys2Proof.Machine

/-! ## Bytes and bit fields -/

/-- A number whose fields of w bits, the lowest first, are given. -/
def packNat (w : Nat) (xs : List Nat) : Nat := xs.foldr (fun x hi => hi <<< w ||| x % 2 ^ w) 0

/-- A little-endian number of bytes (R3). -/
def bytesToNat (bs : List (BitVec 8)) : Nat := packNat 8 (bs.map BitVec.toNat)

/-- The n low bytes of a number, little-endian (R3). -/
def natToBytes (n v : Nat) : List (BitVec 8) := (List.range n).map (fun j => BitVec.ofNat 8 (v >>> (8 * j)))

/-- The bit field of `len` bits at `lo` (R2). -/
def field (w : Word) (lo len : Nat) : Word := (w >>> lo) &&& BitVec.ofNat 64 (2 ^ len - 1)

/-- Replace the bit field of `len` bits at `lo`. -/
def setField (w : Word) (lo len : Nat) (v : Word) : Word :=
  let m : Word := BitVec.ofNat 64 (2 ^ len - 1) <<< lo
  (w &&& ~~~m) ||| ((v <<< lo) &&& m)

/-- One bit of a word (R2). -/
def bit (w : Word) (i : Nat) : Bool := w.getLsbD i

/-- Set or clear one bit of a word. -/
def setBit (w : Word) (i : Nat) (b : Bool) : Word := setField w i 1 (if b then 1#64 else 0#64)

/-! ## Memory: one byte, many bytes -/

/-- The byte at an address; an unlisted address reads zero (log entry 2). -/
def Memory.get (m : Memory) (a : Nat) : BitVec 8 :=
  match m with
  | [] => 0#8
  | (a', b) :: rest => if a' = a then b else Memory.get rest a

/-- Put a byte in its place among rising addresses. -/
def Memory.insert (m : Memory) (a : Nat) (b : BitVec 8) : Memory :=
  match m with
  | [] => [(a, b)]
  | (a', b') :: rest => if a < a' then (a, b) :: (a', b') :: rest else (a', b') :: Memory.insert rest a b

/-- Write one byte, keeping the canonical form: a zero byte is not listed. -/
def Memory.set (m : Memory) (a : Nat) (b : BitVec 8) : Memory :=
  let m' := m.filter (fun c => decide (c.1 ≠ a))
  if b = 0#8 then m' else Memory.insert m' a b

/-- n bytes from an address upward. -/
def Memory.read (m : Memory) (a : Nat) : Nat → List (BitVec 8)
  | 0 => []
  | n + 1 => Memory.get m a :: Memory.read m (a + 1) n

/-- Write bytes from an address upward. -/
def Memory.write (m : Memory) (a : Nat) : List (BitVec 8) → Memory
  | [] => m
  | b :: rest => Memory.write (Memory.set m a b) (a + 1) rest

/-- Clear the n bytes from an address upward to zero. -/
def Memory.clear (m : Memory) (a n : Nat) : Memory := m.filter (fun c => !(decide (a ≤ c.1) && decide (c.1 < a + n)))

/-- Read an n-byte little-endian number. -/
def Memory.readNat (m : Memory) (a n : Nat) : Nat := bytesToNat (Memory.read m a n)
/-- Write an n-byte little-endian number. -/
def Memory.writeNat (m : Memory) (a n v : Nat) : Memory := Memory.write m a (natToBytes n v)

/-- Membership of a set of numbered things. -/
def Marks.has (m : Marks) (n : Nat) : Bool := m.any (fun k => decide (k = n))
/-- Add or remove a number. -/
def Marks.put (m : Marks) (n : Nat) (b : Bool) : Marks :=
  if b then (if Marks.has m n then m else n :: m) else m.filter (fun k => decide (k ≠ n))

/-! ## The parts of the package -/

/-- A core's state; an unlisted core is as reset left it. -/
def State.core (s : State) (k : CoreId) : Core := s.cores.get {} k
/-- Replace a core's state. -/
def State.setCore (s : State) (k : CoreId) (c : Core) : State := { s with cores := s.cores.set k c }
/-- Change a core's state. -/
def State.modCore (s : State) (k : CoreId) (f : Core → Core) : State := s.setCore k (f (s.core k))
/-- A table's state. -/
def State.table (s : State) (tb : TableId) : Table := s.tables.get {} tb
/-- Replace a table's state. -/
def State.setTable (s : State) (tb : TableId) (t : Table) : State := { s with tables := s.tables.set tb t }
/-- Change a table's state. -/
def State.modTable (s : State) (tb : TableId) (f : Table → Table) : State := s.setTable tb (f (s.table tb))
/-- A die controller's state. -/
def State.die (s : State) (d : DieId) : Die := s.dies.get {} d
/-- Replace a die controller's state. -/
def State.setDie (s : State) (d : DieId) (x : Die) : State := { s with dies := s.dies.set d x }
/-- Change a die controller's state. -/
def State.modDie (s : State) (d : DieId) (f : Die → Die) : State := s.setDie d (f (s.die d))
/-- A stack's state. -/
def State.stack (s : State) (n : StackId) : Stack := s.hbm.get {} n
/-- Replace a stack's state. -/
def State.setStack (s : State) (n : StackId) (x : Stack) : State := { s with hbm := s.hbm.set n x }
/-- Change a stack's state. -/
def State.modStack (s : State) (n : StackId) (f : Stack → Stack) : State := s.setStack n (f (s.stack n))
/-- Use up one free value: the counter advances. -/
def State.advanceTick (s : State) : State := { s with tick := s.tick + 1 }

/-- The die of a core (R23). -/
def dieOf (k : CoreId) : DieId := k.extractLsb' 8 3
/-- The table of a core. -/
def tableOf (k : CoreId) : TableId := k.extractLsb' 4 7
/-- The seat number of a core. -/
def seatOf (k : CoreId) : BitVec 4 := k.extractLsb' 0 4
/-- The quad of a core within its table. -/
def quadOf (k : CoreId) : BitVec 2 := k.extractLsb' 2 2
/-- The member number of a core within its quad. -/
def memberOf (k : CoreId) : BitVec 2 := k.extractLsb' 0 2
/-- The core that holds a seat of a table. -/
def coreAt (tb : TableId) (seat : BitVec 4) : CoreId := tb ++ seat
/-- A member of a core's quad. -/
def quadMember (k : CoreId) (m : BitVec 2) : CoreId := k.extractLsb' 2 9 ++ m
/-- The die of a table. -/
def tableDie (tb : TableId) : DieId := tb.extractLsb' 4 3
/-- The sixteen cores of a table, in seat order. -/
def tableCores (tb : TableId) : List CoreId := (List.range 16).map (fun i => coreAt tb (BitVec.ofNat 4 i))
/-- The four cores of a quad, in member order. -/
def quadCores (tb : TableId) (q : BitVec 2) : List CoreId :=
  (List.range 4).map (fun i => tb ++ (q ++ BitVec.ofNat 2 i))
/-- All tables of the package, in (die, table) order. -/
def allTables : List TableId := (List.range 128).map (fun i => BitVec.ofNat 7 i)

/-- The source of a packet. -/
def Packet.src : Packet → CoreId
  | .read k _ _ _ _ => k
  | .write k _ _ _ _ => k
  | .atomic k _ _ _ _ _ _ _ _ => k
  | .append k _ _ _ _ => k

/-- A return-free atomic of a core was sent and is not performed (R263). -/
def State.anySent (s : State) (k : CoreId) : Bool := s.hbm.any (fun e => e.2.sent.any (fun x => decide (x.pkt.src = k)))

/-! ## Scalar registers -/

/-- A scalar register; s0 reads as zero (R11). -/
def Ctl.reg (c : Ctl) (r : BitVec 5) : Word := if r = 0#5 then 0#64 else c.s.get 0#64 r
/-- Write a scalar register; a write to s0 is discarded (R11). -/
def Ctl.setReg (c : Ctl) (r : BitVec 5) (v : Word) : Ctl := if r = 0#5 then c else { c with s := c.s.set r v }
/-- A core's scalar register. -/
def Core.reg (c : Core) (r : BitVec 5) : Word := c.ctl.reg r
/-- Write a core's scalar register. -/
def Core.setReg (c : Core) (r : BitVec 5) (v : Word) : Core := { c with ctl := c.ctl.setReg r v }
/-- A scalar register of a core of the package. -/
def State.reg (s : State) (k : CoreId) (r : BitVec 5) : Word := (s.core k).reg r
/-- Write a scalar register of a core of the package. -/
def State.setReg (s : State) (k : CoreId) (r : BitVec 5) (v : Word) : State := s.modCore k (fun c => c.setReg r v)

/-- `cst.PL`: true at supervisor level (R15, R17). -/
def Ctl.sup (c : Ctl) : Bool := bit c.cst 11
/-- `cst.XE` (R17). -/
def Ctl.xe (c : Ctl) : Bool := bit c.cst 15
/-- `cst.IE` (R17). -/
def Ctl.ie (c : Ctl) : Bool := bit c.cst 13
/-- `cst.RM` (R17). -/
def Ctl.rm (c : Ctl) : BitVec 3 := c.cst.extractLsb' 2 3
/-- `cst.ACCT` (R17). -/
def Ctl.acct (c : Ctl) : BitVec 2 := c.cst.extractLsb' 0 2

/-! ## Tokens (R301, R302) -/

/-- The tokens a queue holds. -/
def Toks.held (tk : Toks) (q : BitVec 5) : Nat :=
  match gangQueue? q with
  | some g => (tk.gq.get [] g).length
  | none => (tk.counts.get 0#4 q).toNat

/-- Every queue named holds at least as many tokens as it is named (R301). -/
def Toks.ready (tk : Toks) (t : Option Tok) : Bool :=
  match t with
  | none => true
  | some t => t.waits.all (fun q => decide (t.waits.count q ≤ tk.held q))

/-- Pop one token of a queue; the oldest of a gang queue. -/
def Toks.pop1 (tk : Toks) (q : BitVec 5) : Toks :=
  match gangQueue? q with
  | some g => { tk with gq := tk.gq.set g ((tk.gq.get [] g).drop 1) }
  | none => { tk with counts := tk.counts.set q (tk.counts.get 0#4 q - 1#4) }

/-- Pop every WAIT field of a token word (R301). -/
def Toks.pop (tk : Toks) (t : Option Tok) : Toks :=
  match t with
  | none => tk
  | some t => t.waits.foldl Toks.pop1 tk

/-- The POST queue of an instruction has room (R301). -/
def Toks.room (tk : Toks) (t : Option Tok) : Bool :=
  match t with
  | none => true
  | some t => decide (t.post = 0#5) || decide (tk.held t.post < 15)

/-- Push a token with a fault mask into a queue (R301, R302). -/
def Toks.push1 (tk : Toks) (q : BitVec 5) (mask : BitVec 4) : Toks :=
  match gangQueue? q with
  | some g => { tk with gq := tk.gq.set g (tk.gq.get [] g ++ [mask]) }
  | none => { tk with counts := tk.counts.set q (tk.counts.get 0#4 q + 1#4) }

/-- Push an instruction's POST token; its own token carries mask 0 (R302). -/
def Toks.push (tk : Toks) (t : Option Tok) : Toks :=
  match t with
  | none => tk
  | some t => if t.post = 0#5 then tk else tk.push1 t.post 0#4

/-- The first gang token with a nonzero mask that an instruction's pops would take: its queue, its place, its mask
(R313). -/
def Toks.gangFault (tk : Toks) (t : Option Tok) : Option (BitVec 2 × Nat × BitVec 4) :=
  match t with
  | none => none
  | some t =>
    let gs := t.waits.filterMap gangQueue?
    (gs.eraseDups.flatMap (fun g =>
      ((tk.gq.get [] g).take (gs.count g)).zipIdx.filterMap (fun p =>
        if p.1 = 0#4 then none else some (g, p.2, p.1)))).head?

/-- Clear the mask of one gang token (R313). -/
def Toks.clearMask (tk : Toks) (g : BitVec 2) (n : Nat) : Toks :=
  { tk with gq := tk.gq.set g ((tk.gq.get [] g).set n 0#4) }

/-- The `GANGFAULT` trap of a token (R313). -/
def gangTrap (e : BitVec 3) (g : BitVec 2) (mask : BitVec 4) : TrapInfo :=
  { code := 0x1A#8, eng := e, addr := (g ++ mask : BitVec 6).zeroExtend 64 }

/-! ## Queues -/

/-- A core's queue of an engine; the control unit has none (R299). -/
def Core.queue (c : Core) : Engine → List QEntry
  | .c => []
  | .v => c.vq
  | .m => c.mq
  | .d => c.dq
  | .f => c.fq

/-- Replace a core's queue. -/
def Core.setQueue (c : Core) (e : Engine) (q : List QEntry) : Core :=
  match e with
  | .c => c
  | .v => { c with vq := q }
  | .m => { c with mq := q }
  | .d => { c with dq := q }
  | .f => { c with fq := q }

/-- The slots a queue's entries occupy (R46, R299). -/
def queueUsed (q : List QEntry) : Nat := q.foldl (fun n e => n + e.slots) 0

/-- Freeze the entries that are not frozen, at a level (R389). -/
def freezeQueue (lvl : BitVec 8) (q : List QEntry) : List QEntry :=
  q.map (fun e => if e.flev = 0#8 then { e with flev := lvl } else e)

/-- Change all four queues of a core. -/
def Core.mapQueues (c : Core) (f : List QEntry → List QEntry) : Core :=
  { c with vq := f c.vq, mq := f c.mq, dq := f c.dq, fq := f c.fq }

/-- What the retirement of an instruction does beside its push: a `d.qget` frees its query id (R374). -/
def retireEffect (i : Instr) (c : Core) : Core :=
  match i with
  | .dQget _ id _ => { c with queries := c.queries.erase id }
  | _ => c

/-- Retire finished entries in queue order while their tokens have room, frozen ones apart (R300, R392): the entries that
stay, and the core. -/
def retireList : List QEntry → Core → List QEntry × Core
  | [], c => ([], c)
  | e :: rest, c =>
    if e.flev ≠ 0#8 then let r := retireList rest c; (e :: r.1, r.2)
    else if e.finished && c.tok.room e.ins.tok? then
      retireList rest (retireEffect e.ins { c with tok := c.tok.push e.ins.tok? })
    else (e :: rest, c)

/-- Retire what an engine of a core can retire. -/
def Core.retire (c : Core) (e : Engine) : Core := let r := retireList (c.queue e) c; r.2.setQueue e r.1

/-! ## Taking an exception and returning (R387 to R394) -/

/-- A core's entry is a ganged command whose gang has not started. -/
def QEntry.unformed (e : QEntry) : Bool := e.gang.isSome && !e.ganged

/-- An entry's instruction is at work: it has started, and neither finished nor met a fault; a ganged command that waits for
its partners has not begun (R153). -/
def QEntry.atWork (q : QEntry) : Bool :=
  decide (q.flev = 0#8) && q.started && !q.finished && !q.landed && q.fault.isNone && !q.unformed

/-- A matrix command is at work: its tile is neither as it was before the command nor as it will be (R261). -/
def Core.midMul (c : Core) : Bool := c.mq.any QEntry.atWork

/-- A vector instruction or a matrix command is at work, which runs to its end before a trap is taken (R388). -/
def Core.midway (c : Core) : Bool := c.midMul || c.vq.any QEntry.atWork

/-- Cancel a core's queues; packets captured and not yet sent are not sent, and no refetch waits (R306, R391). -/
def Core.cancelQueues (c : Core) : Core :=
  { (c.mapQueues (fun _ => [])) with
      mtx := { c.mtx with retry := none }
      queries := c.queries.map (fun e => (e.1, e.2.map (fun q => { q with unsent := [] }))) }

/-- Take the core off its control unit: it stops fetching and is idle (R90, R391). -/
def Front.stop (f : Front) : Front :=
  { f with run := false, bundle := none, slot := 1, pend := .none, pendAt := 1, started := false, done := false, pfx := none,
           vec := false, frozen := [] }

/-- An event collected by the die controller of a core (R444). -/
def State.event (s : State) (d : DieId) (source detail : Nat) (data : List Word := []) : State :=
  s.modDie d (fun x => { x with events := x.events ++ [{ source := source, detail := detail, data := data }] })

/-- The word trap entry writes to `xcause` (R386, R390). -/
def causeWord (t : TrapInfo) : Word :=
  t.code.zeroExtend 64 ||| (t.eng.zeroExtend 64 <<< 8) ||| (if t.wl then 0x800#64 else 0#64)
    ||| (if t.rf then 0x1000#64 else 0#64)

/-- The double trap of R391: the core stops, cancels its queues, raises its event with `xcause` and `xaddr` as they
stand, and leaves its seat. -/
def doubleTrap (k : CoreId) (s : State) : State :=
  let s1 := s.modCore k (fun c =>
    { c.cancelQueues with
        front := c.front.stop
        seat := { c.seat with st := .out, stack := [] } })
  s1.event (dieOf k) 6 (k.toNat % 256) [(s.core k).ctl.xcause, (s.core k).ctl.xaddr]

/-- A resume point as `xpc` holds it (R21). -/
def xpcWord (pc : Pc) (slot : Nat) : BitVec 54 := pc ++ BitVec.ofNat 3 slot

/-- Push onto a join stack of eight: a full stack loses its bottom entry (R145). -/
def pushJoin (st : List JoinEntry) (j : JoinEntry) : List JoinEntry :=
  (if 8 ≤ st.length then st.drop 1 else st) ++ [j]

/-- The status register at trap entry: PPL and PIE save PL and IE; PL is set and IE cleared (R390). -/
def trapCst (cst : Word) : Word :=
  setBit (setBit (setBit (setBit cst 12 (bit cst 11)) 14 (bit cst 13)) 11 true) 13 false

/-- The instructions of the bundle at hand. -/
def Front.items (f : Front) : List Item :=
  match f.bundle with
  | none => []
  | some b =>
    match decodeBundle b with
    | .illenc _ => []
    | .ok items => items

/-- The instruction at which the control unit stands. -/
def Front.item (f : Front) : Option Item := f.items.find? (fun it => decide (f.slot ≤ it.slot))

/-- The first slot not executed; a gang prefix whose command has not followed counts as not executed (R58). -/
def Front.place (f : Front) : Nat := if f.pfx.isSome then f.slot - 1 else f.slot

/-- The slot of the bundle's transfer, 1 when it has none. -/
def Front.transferSlot (f : Front) : Nat :=
  if f.bundle.isNone then f.pendAt else ((f.items.find? (fun it => it.ins.isTransfer)).map (fun it => it.slot)).getD 1

/-- Where the control unit stands: the first slot that begins an instruction not yet executed, or, past the last
instruction, where the bundle's end leads (R388, R394); an `eret` or `halt` whose end of bundle is still to come is named
by its own slot. -/
def Front.resume (f : Front) : Pc × Nat :=
  match f.bundle with
  | none => (f.pc, if f.slot ≤ 7 then f.slot else f.pendAt)
  | some b =>
    match decodeBundle b with
    | .illenc _ => (f.pc, 1)
    | .ok items =>
      match items.find? (fun it => decide (f.place ≤ it.slot)) with
      | some it => (f.pc, it.slot)
      | none =>
        match f.pend with
        | .goto p _ _ => (p, 1)
        | .eret => (f.pc, f.transferSlot)
        | .halt => (f.pc, f.transferSlot)
        | _ => (f.pc + 1#51, 1)

/-- The bundle's transfer, noted at an earlier slot, is still to take effect when the control unit comes back to this
bundle (R30, R31). -/
def Front.pendKept (f : Front) : Bool :=
  match f.pend with
  | .none => false
  | .eret => true
  | .halt => true
  | _ => f.bundle.isNone || f.item.isSome

/-- The control unit's place as a trap or a save finds it, when it holds more than `xpc` says: the instruction at the slot
has popped its tokens or waits to push (R303, R409), or a transfer of the bundle has been noted (R31). DEDUCED, log
entry 12. -/
def Front.centry (f : Front) (lvl : BitVec 8) : List CEntry :=
  if f.started || f.done || f.pendKept then
    [{ pc := f.pc, slot := f.resume.2, started := f.started, done := f.done, flev := lvl
       ins := if f.started || f.done then f.item.map (fun it => it.ins) else none
       pend := f.pend, pendAt := f.transferSlot, at_ := f.place }]
  else []

/-- A matrix command that is still writing finishes (R261, R388). -/
def Core.land (c : Core) : Core :=
  { c with mq := c.mq.map (fun e => if e.landed then { e with landed := false, finished := true } else e)
           mtx := { c.mtx with before := [] } }

/-- The core at trap entry (R390): folded with the any-join entry if it was seated, every unfrozen queue entry frozen
at the new depth, the trap registers written, supervisor level, next fetch at `xvec`. DESIGN CHOICE, log entry 78: of a
core that has halted and whose queue still drains (R90), the same, but it goes on fetching nothing: no handler runs. -/
def trapCore (t : TrapInfo) (pc : Pc) (slot : Nat) (c : Core) : Core :=
  let lvl := c.seat.depth + 1#8
  let c1 := c.land.retire .v
  let held := c.front.centry lvl
  { (c1.mapQueues (freezeQueue lvl)) with
      ctl := { c.ctl with cst := trapCst c.ctl.cst, xcause := causeWord t, xaddr := t.addr, xpc := xpcWord pc slot }
      front :=
        { c.front with pc := c.ctl.xvec, bundle := none, slot := 1, pend := .none, started := false, done := false,
                       pfx := none, vec := true, frozen := held ++ c.front.frozen }
      seat :=
        { c.seat with
            st := if c.seat.st = .seated then .folded else if c.seat.st = .waiting then .folded else c.seat.st
            stack := if c.seat.st = .seated then pushJoin c.seat.stack .any else c.seat.stack
            depth := lvl }
      deadCk := 0 }

/-- A core leaves every object queue in which it waits (R254). -/
def State.leaveQueues (s : State) (k : CoreId) : State :=
  { s with objects := s.objects.map (fun e => (e.1, e.2.filter (fun w => decide (w.1 ≠ k)))) }

/-- Taking an exception: the one operation of R390; or the double trap of R391, at a handler depth of 255 or when the
handler's first bundle has not been fetched and decoded. DEDUCED, log entry 63. -/
def takeTrap (k : CoreId) (t : TrapInfo) (pc : Pc) (slot : Nat) (s : State) : State :=
  let s := s.leaveQueues k
  if (s.core k).seat.depth = 255#8 ∨ (s.core k).front.vec then doubleTrap k s else s.modCore k (trapCore t pc slot)

/-- The status register after `eret` (R89). -/
def eretCst (cst : Word) : Word := setBit (setBit cst 11 (bit cst 12)) 13 (bit cst 14)

/-- A trap of an engine other than C, or of no engine: the control unit stops where it stands (R388). -/
def takeEngineTrap (k : CoreId) (t : TrapInfo) (s : State) : State :=
  let r := (s.core k).front.resume
  takeTrap k t r.1 r.2 s

/-! ## Running an instruction -/

/-- What an instruction's body does. -/
inductive Eff where
  /-- it takes effect and finishes -/
  | done (s : State)
  /-- it traps before it starts: nothing popped, nothing posted -/
  | trap (t : TrapInfo) (s : State)
  /-- it traps after it started, at a resume point (R345) -/
  | fault (t : TrapInfo) (resume : Word) (s : State)
  /-- it has started, its tokens popped, and can do nothing yet -/
  | wait (s : State)
  /-- it has started, its tokens popped, and waits at a resume point -/
  | hold (resume : Word) (s : State)
  /-- it takes effect, and its effect is a trap that resumes after it (`trap`, `sys`) -/
  | after (t : TrapInfo) (s : State)

/-- A word of code lies in a range of bytes, which does not go on from address 0 where it passes 2^64 (R277): DESIGN CHOICE,
log entry 90. -/
def CodeWord.meets (w : CodeWord) (a n : Nat) : Bool := decide (a < 4 * w.slot + 4) && decide (4 * w.slot < a + n)

/-- Every control store of a core is performed: its engines see it (R247). -/
def State.stored (s : State) (k : CoreId) : State := { s with late := s.late.filter (fun l => decide (l.core ≠ k)) }

/-- The loads to come of a core read what is there now, or later (R246, R247). -/
def State.awaited (s : State) (k : CoreId) : State := { s with early := s.early.filter (fun e => decide (e.core ≠ k)) }

/-- A fence of a core: its control stores are performed, and no later load of it reads ahead of the fence (R246, R251). -/
def State.performed (s : State) (k : CoreId) : State := (s.stored k).awaited k

/-- The control stream's accesses about a token: a control instruction pushes one after the earlier stores of its core are
performed, and no load that follows a pop of the control unit reads ahead of the pop (R247). DESIGN CHOICE, log entry 83. -/
def performedBy (k : CoreId) (t : Option Tok) (s : State) : State :=
  match t with
  | none => s
  | some t =>
    let s1 := if t.post = 0#5 then s else s.stored k
    if t.waits.isEmpty then s1 else s1.awaited k

/-- A control instruction leaves its slot: the next one is the slot after it. -/
def Front.advance (f : Front) : Front := { f with slot := f.next, started := false, done := false, vec := false }

/-- The control instruction of a core finishes: pop (unless done before), push, go on (R301); a full POST queue
leaves the DONE mark (R303). -/
def finishC (k : CoreId) (t : Option Tok) (started : Bool) (s : State) : State :=
  (performedBy k t s).modCore k (fun c =>
    let tk := if started then c.tok else c.tok.pop t
    if tk.room t then { c with tok := tk.push t, front := c.front.advance }
    else { c with tok := tk, front := { c.front with started := true, done := true, vec := false } })

/-- The resume point after the instruction at the current slot: a later instruction of the bundle, or the next bundle
(R87). -/
def Front.after (f : Front) : Pc × Nat := ({ f with slot := f.next } : Front).resume

/-- A control instruction of a core has started and waits: its tokens are popped, once (R301). -/
def startC (k : CoreId) (t : Option Tok) (started : Bool) (s : State) : State :=
  s.modCore k (fun c =>
    { c with tok := if started then c.tok else c.tok.pop t, front := { c.front with started := true, vec := false } })

/-- Push the POST token of a control instruction that was DONE, and leave its slot (R303). -/
def pushC (k : CoreId) (t : Option Tok) (s : State) : State :=
  s.modCore k (fun c => { c with tok := c.tok.push t, front := c.front.advance })

/-- Run a control instruction of the executing core (R28, R301, R303, R313): wait for its tokens, trap on a gang
token's mask, run its body, pop, push and advance; a trap takes nothing and posts nothing. The trap of `trap` and `sys`
is taken when the POST token is pushed (DEDUCED, log entry 64). -/
def runC (t : Option Tok) (body : CoreId → State → Eff) (s : State) : Host.Outcome State Fault Refusal :=
  let k := s.exe
  let c := s.core k
  if c.front.done then
    if c.tok.room t then
      match body k s with
      | .after tr _ => .next (takeTrap k tr c.front.after.1 c.front.after.2 (pushC k t s))
      | _ => .next (pushC k t s)
    else .next s
  else if !c.front.started && !c.tok.ready t then .next s
  else
    match (if c.front.started then none else c.tok.gangFault t) with
    | some (g, n, mask) =>
      .next (takeTrap k (gangTrap 0#3 g mask) c.front.pc c.front.slot
        (s.modCore k (fun c => { c with tok := c.tok.clearMask g n })))
    | none =>
      match body k s with
      | .done s' => .next (finishC k t c.front.started s')
      | .trap tr s' => .next (takeTrap k tr c.front.pc c.front.slot s')
      | .fault tr _ s' => .next (takeTrap k tr c.front.pc c.front.slot s')
      | .wait s' => .next (startC k t c.front.started s')
      | .hold _ s' => .next (startC k t c.front.started s')
      | .after tr s' =>
        let s1 := finishC k t c.front.started s'
        if (s1.core k).front.done then .next s1
        else .next (takeTrap k tr c.front.after.1 c.front.after.2 s1)

/-- A body that only changes the scalar side of the core and always takes effect. -/
def ctlBody (f : Ctl → Ctl) (k : CoreId) (s : State) : Eff :=
  .done (s.modCore k (fun c => { c with ctl := f c.ctl }))

/-- Run a control instruction whose whole effect is on the scalar side of its core. -/
def runCtl (t : Option Tok) (f : Ctl → Ctl) (s : State) : Host.Outcome State Fault Refusal := runC t (ctlBody f) s

/-- A body of an engine instruction: the executing core, the captures, the resume point it starts from. -/
abbrev Body := CoreId → Cap → Word → State → Eff

/-- Put an entry behind the core's entries of its engine; handler entries stand behind frozen ones (R392). -/
def enqueue (k : CoreId) (e : Engine) (q : QEntry) (s : State) : State :=
  s.modCore k (fun c => c.setQueue e (c.queue e ++ [q]))

/-- The tile that is exposed, true for acc1: beside an `m.swap` that is still at work, either (R134, R316). -/
def Core.exposedNow (c : Core) (tick : Nat) : Bool :=
  match c.mtx.before.zipIdx.find? (fun p => Config.freeBool tick (2 ^ 48 + p.2)) with
  | some (b, _) => b.exposed
  | none => c.vec.exposed

/-- The captures of an instruction that starts: a spill or fill takes the tile that its role names now (R316). -/
def startCap (i : Instr) (c : Core) (tick : Nat) (cap : Cap) : Cap :=
  match i with
  | .dSpill _ _ t _ _ => { cap with tile := some (c.exposedNow tick != decide (t = 1#1)) }
  | .dFill _ _ t _ _ => { cap with tile := some (c.exposedNow tick != decide (t = 1#1)) }
  | _ => cap

/-- The control unit leaves the slot of an instruction it handed over. -/
def leaveSlot (k : CoreId) (s : State) : State := s.modCore k (fun c => { c with front := c.front.advance })

/-- Hand an instruction over to its queue (R46): it waits at the slot until the queue has room for its slots. -/
def handOver (k : CoreId) (e : Engine) (q : QEntry) (s : State) : State :=
  if queueUsed ((s.core k).queue e) + q.slots ≤ e.depth then leaveSlot k (enqueue k e q s) else s

/-- Run an engine instruction at the control unit's slot. When its queue is empty, its tokens are there and its POST
queue has room, it is handed over, started, performed and retired in this one step; otherwise it is handed over and
waits in its queue (R46, R299, R300). A trap leaves it at its place in the queue (R387). -/
def runE (e : Engine) (i : Instr) (cap : Cap) (body : Body) (s : State) : Host.Outcome State Fault Refusal :=
  let k := s.exe
  let c := s.core k
  let t := i.tok?
  let q : QEntry := { ins := i, slots := i.slots, cap := cap }
  if (c.queue e).isEmpty && c.tok.ready t && (c.tok.gangFault t).isNone && (c.tok.pop t).room t
      && !(s.late.any (fun l => decide (l.core = k))) && c.mtx.before.isEmpty && !c.midMul && !(s.table (tableOf k)).stop
      && !(decide (e = .d) && s.anySent k) then
    match body k cap 0#64 s with
    | .done s' => .next (leaveSlot k (s'.modCore k (fun c' => retireEffect i { c' with tok := (c'.tok.pop t).push t })))
    | .trap tr s' =>
      .next (takeEngineTrap k { tr with eng := e.num } (leaveSlot k (enqueue k e { q with faulted := some tr } s')))
    | .fault tr r s' =>
      .next (takeEngineTrap k { tr with eng := e.num }
        (leaveSlot k (enqueue k e { q with cap := startCap i c s.tick cap, faulted := some tr, started := true, resume := r }
          (s'.modCore k (fun c' => { c' with tok := c'.tok.pop t })))))
    | .wait _ => .next (handOver k e q s)
    | .hold r s' =>
      .next (leaveSlot k (enqueue k e { q with cap := startCap i c s.tick cap, started := true, resume := r }
        (s'.modCore k (fun c' => { c' with tok := c'.tok.pop t }))))
    | .after _ _ => .next (handOver k e q s)
  else .next (handOver k e q s)

end Sys2Proof.Machine
end

