-- ==== Sys2Proof/Machine/Float.lean ====
section
/-! DEFINITION. Number formats and rounding (R110 to R130): exact values, one rounding step, delivery into a format. -/

namespace Sys2Proof.Machine

/-- The floating-point formats (R110). -/
inductive Fmt where
  | fp32 | bf16 | fp16 | e4m3 | e5m2 | e3m2 | e2m3 | e2m1
deriving DecidableEq, Repr

/-- Width of a format. -/
def Fmt.width : Fmt → Nat
  | .fp32 => 32 | .bf16 => 16 | .fp16 => 16 | .e4m3 => 8 | .e5m2 => 8 | .e3m2 => 6 | .e2m3 => 6 | .e2m1 => 4
/-- Width of the fraction field. -/
def Fmt.frac : Fmt → Nat
  | .fp32 => 23 | .bf16 => 7 | .fp16 => 10 | .e4m3 => 3 | .e5m2 => 2 | .e3m2 => 2 | .e2m3 => 3 | .e2m1 => 1
/-- Exponent bias. -/
def Fmt.bias : Fmt → Int
  | .fp32 => 127 | .bf16 => 127 | .fp16 => 15 | .e4m3 => 7 | .e5m2 => 15 | .e3m2 => 3 | .e2m3 => 1 | .e2m1 => 1
/-- The magnitude bits of the largest finite value. -/
def Fmt.maxBits : Fmt → Nat
  | .fp32 => 0x7F7FFFFF | .bf16 => 0x7F7F | .fp16 => 0x7BFF | .e4m3 => 0x7E | .e5m2 => 0x7B | .e3m2 => 0x1F
  | .e2m3 => 0x1F | .e2m1 => 0x7
/-- The magnitude bits of infinity, in the formats that have it. -/
def Fmt.infBits : Fmt → Option Nat
  | .fp32 => some 0x7F800000 | .bf16 => some 0x7F80 | .fp16 => some 0x7C00 | .e5m2 => some 0x7C | _ => none
/-- The canonical NaN, in the formats that have one (R112). -/
def Fmt.nanBits : Fmt → Option Nat
  | .fp32 => some 0x7FC00000 | .bf16 => some 0x7FC0 | .fp16 => some 0x7E00 | .e4m3 => some 0x7F | .e5m2 => some 0x7E
  | _ => none
/-- The exponent of the least bit of a subnormal. -/
def Fmt.qmin (f : Fmt) : Int := 1 - f.bias - f.frac

/-- A value: NaN, an infinity, or (-1)^neg × (m + ε) × 2^e with 0 ≤ ε < 1, where `st` says ε > 0. A value with `st` set
carries at least 64 leading bits in m. -/
inductive Val where
  | nan
  | inf (neg : Bool)
  | fin (neg : Bool) (m : Nat) (e : Int) (st : Bool)
deriving DecidableEq, Repr

/-- The value +0. -/
def Val.zero : Val := .fin false 0 0 false
/-- An integer as a value; 0 is +0. -/
def Val.ofInt (n : Int) : Val := .fin (decide (n < 0)) n.natAbs 0 false
/-- Is the value a zero. -/
def Val.isZero : Val → Bool
  | .fin _ m _ st => decide (m = 0) && !st
  | _ => false
/-- Is the value NaN. -/
def Val.isNan : Val → Bool
  | .nan => true
  | _ => false
/-- Is the value an infinity. -/
def Val.isInf : Val → Bool
  | .inf _ => true
  | _ => false
/-- The sign of a value; NaN counts as positive. -/
def Val.neg? : Val → Bool
  | .nan => false
  | .inf n => n
  | .fin n _ _ _ => n
/-- The negated value. -/
def Val.negate : Val → Val
  | .nan => .nan
  | .inf n => .inf (!n)
  | .fin n m e st => .fin (!n) m e st
/-- The magnitude. -/
def Val.abs : Val → Val
  | .nan => .nan
  | .inf _ => .inf false
  | .fin _ m e st => .fin false m e st

/-- The value of an encoding (R111). -/
def Fmt.decode (f : Fmt) (bits : Nat) : Val :=
  let mag := bits % 2 ^ (f.width - 1)
  let neg := decide ((bits / 2 ^ (f.width - 1)) % 2 = 1)
  if f.infBits = some mag then .inf neg
  else if f.maxBits < mag ∧ f.nanBits.isSome then .nan
  else
    let e := mag / 2 ^ f.frac
    let fr := mag % 2 ^ f.frac
    if e = 0 then .fin neg fr f.qmin false else .fin neg (fr + 2 ^ f.frac) (f.qmin + (e : Int) - 1) false

/-- Raised flags, as bits [10:5] of `cst`: NV, DZ, OF, UF, NX, SAT (R17, R130). -/
abbrev Fl := BitVec 6
/-- Invalid operation. -/
def Fl.nv : Fl := 0x01#6
/-- Division by zero. -/
def Fl.dz : Fl := 0x02#6
/-- Overflow. -/
def Fl.of : Fl := 0x04#6
/-- Underflow. -/
def Fl.uf : Fl := 0x08#6
/-- Inexact. -/
def Fl.nx : Fl := 0x10#6
/-- Saturated. -/
def Fl.sat : Fl := 0x20#6
/-- A flag raised on a condition. -/
def Fl.when (b : Bool) (f : Fl) : Fl := if b then f else 0#6

/-- Rounding modes (R119); RS carries its draw (R121). -/
inductive Mode where
  | rne | rz | ru | rd
  | rs (draw : BitVec 32)
deriving DecidableEq, Repr

/-- Whether a magnitude with integer part n, remainder rem of 2^sh and sticky bit rounds away from zero (R119, R121). -/
def roundsUp (mode : Mode) (neg : Bool) (n rem sh : Nat) (st : Bool) : Bool :=
  let inexact := decide (rem ≠ 0) || st
  match mode with
  | .rne => decide (2 ^ sh < 2 * rem) || (decide (2 * rem = 2 ^ sh ∧ sh ≠ 0) && (st || decide (n % 2 = 1)))
  | .rz => false
  | .ru => !neg && inexact
  | .rd => neg && inexact
  | .rs r => inexact && decide (2 ^ 32 ≤ rem * 2 ^ 32 / 2 ^ sh + r.toNat)

/-- Round a magnitude to a multiple of 2^q: the multiple and whether it is inexact. -/
def roundAt (mode : Mode) (neg : Bool) (m : Nat) (e : Int) (st : Bool) (q : Int) : Nat × Bool :=
  if q ≤ e then (m * 2 ^ (e - q).toNat + (if roundsUp mode neg (m * 2 ^ (e - q).toNat) 0 0 st then 1 else 0), st)
  else
    let sh := (q - e).toNat
    let n := m / 2 ^ sh
    let rem := m % 2 ^ sh
    (n + (if roundsUp mode neg n rem sh st then 1 else 0), decide (rem ≠ 0) || st)

/-- The sign bit of a format. -/
def Fmt.signBit (f : Fmt) (neg : Bool) : Nat := if neg then 2 ^ (f.width - 1) else 0

/-- The delivered value on overflow (R120). -/
def Fmt.overflow (f : Fmt) (mode : Mode) (sat neg : Bool) : Nat :=
  match f.infBits with
  | some i =>
    if sat then f.signBit neg + f.maxBits
    else
      match mode with
      | .rne => f.signBit neg + i
      | .rs _ => f.signBit neg + i
      | .rz => f.signBit neg + f.maxBits
      | .ru => if neg then f.signBit true + f.maxBits else i
      | .rd => if neg then f.signBit true + i else f.maxBits
  | none =>
    match f with
    | .e4m3 => if sat then f.signBit neg + f.maxBits else 0x7F
    | _ => f.signBit neg + f.maxBits

/-- Deliver a value into a format with one rounding: bits and flags (R119, R120, R124, R162). `conv` marks a conversion,
in which a source that is itself infinite is converted (R124). DESIGN CHOICE, log entry 80: under RS a value between max
and max plus one step follows the pseudocode of R121, which may choose max, with NX alone, and not the table of R120, by
which the chosen value always exceeds max. -/
def Fmt.deliver (f : Fmt) (mode : Mode) (sat conv : Bool) (v : Val) : Nat × Fl :=
  match v with
  | .nan =>
    match f.nanBits with
    | some n => (n, 0#6)
    | none => (0, Fl.nv)
  | .inf neg =>
    match f.infBits with
    | some i => if conv && sat then (f.overflow mode sat neg, Fl.nv) else (f.signBit neg + i, 0#6)
    | none => (f.overflow mode sat neg, if conv then Fl.nv else 0#6)
  | .fin neg m e st =>
    if m = 0 ∧ ¬ st then (f.signBit neg, 0#6)
    else
      let top := (Nat.log2 m : Int) + e
      let q := max (top - f.frac) f.qmin
      let (n, inexact) := roundAt mode neg m e st q
      let bits := n + (q - f.qmin).toNat * 2 ^ f.frac
      if f.maxBits < bits then (f.overflow mode sat neg, Fl.of ||| Fl.nx)
      else
        (f.signBit neg + bits,
          Fl.when inexact Fl.nx ||| Fl.when (inexact && decide (top < f.qmin + f.frac)) Fl.uf)

/-- Deliver an arithmetic result without saturation. -/
def Fmt.round (f : Fmt) (mode : Mode) (v : Val) : Nat × Fl := f.deliver mode false false v

/-- Round a value to an integer: the integer and whether it is inexact; NaN and infinities have none (R77, R124). -/
def Val.toIntegral (mode : Mode) : Val → Option (Int × Bool)
  | .fin neg m e st =>
    let (n, inexact) := roundAt mode neg m e st 0
    some (if neg then -(n : Int) else n, inexact)
  | _ => none

/-! ## Exact arithmetic -/

/-- The exact sum of two values; an exact zero takes the sign IEEE 754 gives for the mode (R119). -/
def Val.add (mode : Mode) (a b : Val) : Val × Fl :=
  match a, b with
  | .nan, _ => (.nan, 0#6)
  | _, .nan => (.nan, 0#6)
  | .inf x, .inf y => if x = y then (.inf x, 0#6) else (.nan, Fl.nv)
  | .inf x, _ => (.inf x, 0#6)
  | _, .inf y => (.inf y, 0#6)
  | .fin n1 m1 e1 s1, .fin n2 m2 e2 s2 =>
    if m1 = 0 ∧ m2 = 0 then
      (.fin (if n1 = n2 then n1 else decide (mode = .rd)) 0 0 (s1 || s2), 0#6)
    else if m1 = 0 then (b, 0#6)
    else if m2 = 0 then (a, 0#6)
    else
      let e := min e1 e2
      let x : Int := (if n1 then -1 else 1) * (m1 : Int) * 2 ^ (e1 - e).toNat
      let y : Int := (if n2 then -1 else 1) * (m2 : Int) * 2 ^ (e2 - e).toNat
      if x + y = 0 then (.fin (decide (mode = .rd)) 0 0 false, 0#6)
      else (.fin (decide (x + y < 0)) (x + y).natAbs e (s1 || s2), 0#6)

/-- The exact product. -/
def Val.mul (a b : Val) : Val × Fl :=
  match a, b with
  | .nan, _ => (.nan, 0#6)
  | _, .nan => (.nan, 0#6)
  | .inf x, .inf y => (.inf (x != y), 0#6)
  | .inf x, .fin n m _ _ => if m = 0 then (.nan, Fl.nv) else (.inf (x != n), 0#6)
  | .fin n m _ _, .inf y => if m = 0 then (.nan, Fl.nv) else (.inf (n != y), 0#6)
  | .fin n1 m1 e1 s1, .fin n2 m2 e2 s2 => (.fin (n1 != n2) (m1 * m2) (e1 + e2) (s1 || s2), 0#6)

/-- The fused product and sum, the product exact; 0 × ∞ raises NV even when c is a NaN (R74). DEDUCED, log entry 19. -/
def Val.fma (mode : Mode) (a b c : Val) : Val × Fl :=
  let (p, f1) := Val.mul a b
  if f1 ≠ 0#6 then (.nan, f1)
  else Val.add mode p c

/-- The exact quotient, to more bits than any rounding reads (R129). -/
def Val.div (a b : Val) : Val × Fl :=
  match a, b with
  | .nan, _ => (.nan, 0#6)
  | _, .nan => (.nan, 0#6)
  | .inf _, .inf _ => (.nan, Fl.nv)
  | .inf x, .fin n _ _ _ => (.inf (x != n), 0#6)
  | .fin n _ _ _, .inf y => (.fin (n != y) 0 0 false, 0#6)
  | .fin n1 m1 e1 _, .fin n2 m2 e2 _ =>
    if m2 = 0 then (if m1 = 0 then (.nan, Fl.nv) else (.inf (n1 != n2), Fl.dz))
    else if m1 = 0 then (.fin (n1 != n2) 0 0 false, 0#6)
    else
      let k := 100 + Nat.log2 m2
      let num := m1 * 2 ^ k
      (.fin (n1 != n2) (num / m2) (e1 - e2 - k) (decide (num % m2 ≠ 0)), 0#6)

/-- Integer square root from above, one bit at a time. -/
def isqrtBits (n : Nat) : Nat → Nat → Nat
  | 0, r => r
  | k + 1, r => if (r + 2 ^ k) * (r + 2 ^ k) ≤ n then isqrtBits n k (r + 2 ^ k) else isqrtBits n k r

/-- The integer square root, rounded down. -/
def isqrt (n : Nat) : Nat := isqrtBits n (Nat.log2 n / 2 + 1) 0

/-- The exact square root, to more bits than any rounding reads: √−0 = −0; a value below zero gives NaN and NV. -/
def Val.sqrt (a : Val) : Val × Fl :=
  match a with
  | .nan => (.nan, 0#6)
  | .inf n => if n then (.nan, Fl.nv) else (.inf false, 0#6)
  | .fin n m e _ =>
    if m = 0 then (.fin n 0 0 false, 0#6)
    else if n then (.nan, Fl.nv)
    else
      let k : Nat := if (e % 2 = 0) then 200 else 201
      let m' := m * 2 ^ k
      let r := isqrt m'
      (.fin false r ((e - k) / 2) (decide (r * r ≠ m')), 0#6)

/-- Order of two values that are not NaN: -1, 0 or 1; the zeros are equal. -/
def Val.cmp (a b : Val) : Int :=
  match a, b with
  | .inf x, .inf y => if x = y then 0 else if x then -1 else 1
  | .inf x, _ => if x then -1 else 1
  | _, .inf y => if y then 1 else -1
  | .fin n1 m1 e1 _, .fin n2 m2 e2 _ =>
    let e := min e1 e2
    let x : Int := (if n1 then -1 else 1) * (m1 : Int) * 2 ^ (e1 - e).toNat
    let y : Int := (if n2 then -1 else 1) * (m2 : Int) * 2 ^ (e2 - e).toNat
    if x < y then -1 else if y < x then 1 else 0
  | _, _ => 0

/-- The smaller value: −0 below +0, a NaN yields to a number (R76). DEDUCED, log entry 35. -/
def Val.min (a b : Val) : Val :=
  match a, b with
  | .nan, _ => b
  | _, .nan => a
  | _, _ =>
    let c := Val.cmp a b
    if c < 0 then a else if 0 < c then b else if a.neg? then a else b

/-- The larger value, by the same rules. -/
def Val.max (a b : Val) : Val :=
  match a, b with
  | .nan, _ => b
  | _, .nan => a
  | _, _ =>
    let c := Val.cmp a b
    if 0 < c then a else if c < 0 then b else if a.neg? then b else a

/-! ## Summation and integers -/

/-- One level of the pairwise tree, `op` threading a state through its nodes in ascending order (R126). -/
def pairLevel {α σ : Type} (op : Nat → α → α → σ → α × σ) : Nat → List α → σ → List α × σ
  | i, a :: b :: rest, st =>
    let (x, st1) := op i a b st
    let (xs, st2) := pairLevel op (i + 1) rest st1
    (x :: xs, st2)
  | _, [a], st => ([a], st)
  | _, [], st => ([], st)

/-- The levels of the pairwise tree, with fuel; `op` is told the level and the node. -/
def pairTree {α σ : Type} (op : Nat → Nat → α → α → σ → α × σ) : Nat → Nat → List α → σ → List α × σ
  | 0, _, xs, st => (xs, st)
  | fuel + 1, lvl, xs, st =>
    if xs.length ≤ 1 then (xs, st)
    else
      let (ys, st') := pairLevel (op lvl) 0 xs st
      pairTree op fuel (lvl + 1) ys st'

/-- Pad a list to the next power of two (R126). -/
def padPow2 {α : Type} (pad : α) (xs : List α) : List α :=
  let n := xs.length
  let m := if n ≤ 1 then n else 2 ^ (Nat.log2 (n - 1) + 1)
  xs ++ List.replicate (m - n) pad

/-- The pairwise tree of R126. -/
def pairwise {α σ : Type} (op : Nat → Nat → α → α → σ → α × σ) (pad : α) (xs : List α) (st : σ) : α × σ :=
  let (ys, st') := pairTree op (xs.length + 1) 1 (padPow2 pad xs) st
  (ys.headD pad, st')

/-- The exact sum of values by the pairwise tree: NaN on opposite infinities (R127). -/
def exactSum (xs : List Val) : Val × Fl :=
  pairwise (fun _ _ a b (fl : Fl) => let (v, f) := Val.add .rne a b; (v, fl ||| f)) (.fin true 0 0 false) xs 0#6

/-- Convert an integer into a signed or unsigned type of width w (R124). -/
def intDeliver (signed : Bool) (w : Nat) (sat : Bool) (n : Int) : Nat × Fl :=
  let lo : Int := if signed then -(2 ^ (w - 1) : Int) else 0
  let hi : Int := if signed then 2 ^ (w - 1) - 1 else 2 ^ w - 1
  if sat && (decide (n < lo) || decide (hi < n)) then
    (((if n < lo then lo else hi) % (2 ^ w : Int)).toNat, Fl.sat)
  else ((n % (2 ^ w : Int)).toNat, 0#6)

/-- Convert a float into an integer type: rounded once; out of range and infinities clamp with NV; NaN gives 0 with NV
(R77, R124). -/
def floatToInt (mode : Mode) (lo hi : Int) (v : Val) : Int × Fl :=
  match v with
  | .nan => (0, Fl.nv)
  | .inf neg => (if neg then lo else hi, Fl.nv)
  | .fin .. =>
    match v.toIntegral mode with
    | none => (0, Fl.nv)
    | some (q, inexact) =>
      if q < lo then (lo, Fl.nv) else if hi < q then (hi, Fl.nv) else (q, Fl.when inexact Fl.nx)

/-- The sign-extended value of the low w bits. -/
def sextInt (w : Nat) (n : Nat) : Int :=
  let x := n % 2 ^ w
  if 2 ^ (w - 1) ≤ x then (x : Int) - 2 ^ w else x

/-- `advance`: the next state of a stochastic generator (R122). -/
def rsAdvance (x : BitVec 32) : BitVec 32 :=
  let x1 := x ^^^ (x <<< 13)
  let x2 := x1 ^^^ (x1 >>> 17)
  x2 ^^^ (x2 <<< 5)

/-- `seed_lane`: the state a seed gives a lane (R122). -/
def seedLane (lane : BitVec 5) (s : BitVec 32) : BitVec 32 :=
  let x := s ^^^ (lane.zeroExtend 32 * 0x9E3779B9#32)
  if x = 0#32 then 0x6C078965#32 else x

end Sys2Proof.Machine
end

