-- ==== Sys2Proof/Machine/Flags.lean ====
section
/-! DEFINITION. The sticky flags of `cst` and the rounding mode in force (R17, R19, R20, R123, R130). -/

namespace Sys2Proof.Machine

/-- Set sticky flags: bits [10:5] of `cst` (R17, R20). -/
def Ctl.raise (c : Ctl) (f : Fl) : Ctl := { c with cst := c.cst ||| (f.zeroExtend 64 <<< 5) }
/-- Set sticky flags of a core. -/
def Core.raise (c : Core) (f : Fl) : Core := { c with ctl := c.ctl.raise f }

/-- The rounding mode of a control, matrix or drill instruction: rm, or the mode of `cst.RM` under rm 7; RS acts as RNE
(R19, R75, R123). -/
def modeOf (rm : BitVec 3) (cstRm : BitVec 3) : Mode :=
  match (if rm = 7#3 then cstRm else rm).toNat with
  | 1 => .rz
  | 2 => .ru
  | 3 => .rd
  | _ => .rne

end Sys2Proof.Machine
end

