-- ==== Sys2Proof/Machine/Operands.lean ====
section
/-! DEFINITION. Operand forms of the control formats (R51, R52, R62, R69), trap codes (R385), shape register fields
(R286, R288). -/

namespace Sys2Proof.Machine

/-! ## Trap codes (R385) -/

/-- `ILLENC`. DEDUCED, log entry 60. -/
def Trap.illenc (a : Word) : TrapInfo := { code := 0x01#8, addr := a }
/-- `PRIV`; `xaddr` is 0. -/
def Trap.priv : TrapInfo := { code := 0x02#8 }
/-- `ALIGN`. -/
def Trap.align (a : Word) : TrapInfo := { code := 0x03#8, addr := a }
/-- `XLATE`. -/
def Trap.xlate (a : Word) : TrapInfo := { code := 0x04#8, addr := a }
/-- `PERM`. -/
def Trap.perm (a : Word) : TrapInfo := { code := 0x05#8, addr := a }
/-- `BANKCONF`. -/
def Trap.bankconf (a : Word) : TrapInfo := { code := 0x06#8, addr := a }
/-- `BLKAXIS`. -/
def Trap.blkaxis (a : Word) : TrapInfo := { code := 0x07#8, addr := a }
/-- `GRPWRAP`; `xaddr` is 0. -/
def Trap.grpwrap : TrapInfo := { code := 0x08#8 }
/-- `TPOISON`. -/
def Trap.tpoison (a : Word) : TrapInfo := { code := 0x10#8, addr := a }
/-- `HPOISON`. -/
def Trap.hpoison (a : Word) : TrapInfo := { code := 0x11#8, addr := a }
/-- `KATMIS`. -/
def Trap.katmis (a : Word) : TrapInfo := { code := 0x12#8, addr := a }
/-- `TOKDEAD`. -/
def Trap.tokdead (a : Word) : TrapInfo := { code := 0x18#8, addr := a }
/-- `JOINMIS`. -/
def Trap.joinmis (a : Word) : TrapInfo := { code := 0x19#8, addr := a }
/-- `SYS`. -/
def Trap.sys (a : Word) : TrapInfo := { code := 0x20#8, addr := a }
/-- `BKPT`. -/
def Trap.bkpt (a : Word) : TrapInfo := { code := 0x21#8, addr := a }
/-- `INTR`, which no engine raises. -/
def Trap.intr (a : Word) : TrapInfo := { code := 0x30#8, eng := 7#3, addr := a }

/-! ## Register and immediate forms -/

/-- d := f a b (format CR). -/
def binC (d a b : BitVec 5) (f : Word → Word → Word) (c : Ctl) : Ctl := c.setReg d (f (c.reg a) (c.reg b))
/-- d := f a (format CR). -/
def unC (d a : BitVec 5) (f : Word → Word) (c : Ctl) : Ctl := c.setReg d (f (c.reg a))
/-- d := f a i with i the sign-extended immediate (format CI, R69). -/
def immC (d a : BitVec 5) (i : BitVec 14) (f : Word → Word → Word) (c : Ctl) : Ctl :=
  c.setReg d (f (c.reg a) (i.signExtend 64))
/-- d := f a b with the flags f raises. -/
def binFlC (d a b : BitVec 5) (f : Word → Word → Word × Fl) (c : Ctl) : Ctl :=
  let r := f (c.reg a) (c.reg b)
  (c.setReg d r.1).raise r.2
/-- 1 when a comparison holds, else 0 (R68). -/
def flagWord (b : Bool) : Word := if b then 1#64 else 0#64
/-- The width named by wd: 8, 16, 32 or 64 bits (R50). -/
def wdBits (w : BitVec 2) : Nat := 8 * 2 ^ w.toNat

/-- Run a control instruction whose whole effect is on the scalar side and the control unit of its core. -/
def runCF (t : Option Tok) (f : Ctl → Front → Ctl × Front) (s : State) : Host.Outcome State Fault Refusal :=
  runC t (fun k s => .done (s.modCore k (fun c => { c with ctl := (f c.ctl c.front).1, front := (f c.ctl c.front).2 }))) s

/-! ## Shape registers (R286, R288) -/

/-- Word n of a shape register. -/
def shWord (x : BitVec 512) (n : Nat) : Word := x.extractLsb' (64 * n) 64
/-- Replace word n of a shape register. -/
def shSetWord (x : BitVec 512) (n : Nat) (w : Word) : BitVec 512 :=
  (x &&& ~~~((BitVec.ofNat 512 (2 ^ 64 - 1)) <<< (64 * n))) ||| (w.zeroExtend 512 <<< (64 * n))
/-- Where a field code's field lies: word, low bit, width, signed (R286, R288). -/
def shField (code : Nat) : Nat × Nat × Nat × Bool :=
  match code with
  | 0 => (0, 0, 56, false)
  | 1 => (0, 56, 1, false)
  | 2 => (1, 0, 5, false)
  | 3 => (1, 5, 3, false)
  | 4 => (1, 8, 2, false)
  | 5 => (1, 10, 3, false)
  | 6 => (2, 0, 56, false)
  | 7 => (3, 0, 16, false)
  | 8 => (3, 16, 16, false)
  | 9 => (3, 32, 16, false)
  | 10 => (3, 48, 16, false)
  | 11 => (4, 0, 48, true)
  | 12 => (5, 0, 48, true)
  | _ => (6, 0, 48, true)
/-- The raw bits of a shape field. -/
def shGet (x : BitVec 512) (code : Nat) : Word := let (n, lo, len, _) := shField code; field (shWord x n) lo len
/-- Write a shape field. -/
def shPut (x : BitVec 512) (code : Nat) (v : Word) : BitVec 512 :=
  let (n, lo, len, _) := shField code
  shSetWord x n (setField (shWord x n) lo len v)
/-- BASE (R286). -/
def shBase (x : BitVec 512) : Nat := (shGet x 0).toNat
/-- LN (R286). -/
def shLn (x : BitVec 512) : Bool := bit (shWord x 0) 56
/-- FMT (R287). -/
def shFmt (x : BitVec 512) : Nat := (shGet x 2).toNat
/-- RANK. -/
def shRank (x : BitVec 512) : Nat := (shGet x 3).toNat
/-- BAX. -/
def shBax (x : BitVec 512) : Nat := (shGet x 4).toNat
/-- SCB. -/
def shScb (x : BitVec 512) : Nat := (shGet x 6).toNat
/-- The extent of dimension i, DIMi + 1. -/
def shDim (x : BitVec 512) (i : Nat) : Nat := (shGet x (7 + i)).toNat + 1
/-- The signed stride of dimension i, for i from 1. -/
def shStr (x : BitVec 512) (i : Nat) : Int := sextInt 48 (shGet x (10 + i)).toNat

end Sys2Proof.Machine
end

