-- ==== Sys2Proof/Machine/Branch.lean ====
section
/-! DEFINITION. Branches, calls, loops and halt (R78 to R83, R90); the end of the bundle carries the transfer out. -/

namespace Sys2Proof.Machine

/-- A branch offset in bundles (R78). -/
def BrOff.value : BrOff → Pc
  | .short o => o.signExtend 51
  | .long o => o.signExtend 51

/-- Note the bundle's transfer: its next bundle, the join id a fold records, and whether it is taken (R30, R83, R277). -/
def Front.goto (f : Front) (pc : Pc) (j : BitVec 4) (taken : Bool := true) : Front := { f with pend := .goto pc j taken }

/-- A conditional branch (R78). -/
def branchCF (a b : BitVec 5) (j : BitVec 4) (off : BrOff) (p : Word → Word → Bool) (c : Ctl) (f : Front) : Ctl × Front :=
  (c, f.goto (if p (c.reg a) (c.reg b) then f.pc + BrOff.value off else f.pc + 1#51) j (p (c.reg a) (c.reg b)))

/-- A transfer to the bundle address in a register: `XLATE` when bits [63:51] are not zero (R80). -/
def jumpReg (a : BitVec 5) (j : BitVec 4) (k : CoreId) (s : State) : Eff :=
  let v := s.reg k a
  if field v 51 13 ≠ 0#64 then .trap (Trap.xlate v) s
  else .done (s.modCore k (fun c => { c with front := c.front.goto (v.truncate 51) j }))

/-- `loop`: the count, the rotating bases and the branch (R81). -/
def loopCF (a : BitVec 5) (j : BitVec 4) (off : BrOff) (c : Ctl) (f : Front) : Ctl × Front :=
  let cnt := c.reg a - 1#64
  ({ (c.setReg a cnt) with vrb := c.vrb - 1#5, prb := c.prb - 1#3 },
    f.goto (if cnt ≠ 0#64 then f.pc + BrOff.value off else f.pc + 1#51) j (decide (cnt ≠ 0#64)))

/-- `beq` (R78). -/
def execBeq (a b : BitVec 5) (j : BitVec 4) (off : BrOff) (t : Option Tok) (s : State) : Host.Outcome State Fault Refusal :=
  runCF t (branchCF a b j off (fun x y => x == y)) s

/-- `bne` (R78). -/
def execBne (a b : BitVec 5) (j : BitVec 4) (off : BrOff) (t : Option Tok) (s : State) : Host.Outcome State Fault Refusal :=
  runCF t (branchCF a b j off (fun x y => x != y)) s

/-- `blt.i` (R78). -/
def execBltI (a b : BitVec 5) (j : BitVec 4) (off : BrOff) (t : Option Tok) (s : State) : Host.Outcome State Fault Refusal :=
  runCF t (branchCF a b j off (fun x y => x.slt y)) s

/-- `blt.n` (R78). -/
def execBltN (a b : BitVec 5) (j : BitVec 4) (off : BrOff) (t : Option Tok) (s : State) : Host.Outcome State Fault Refusal :=
  runCF t (branchCF a b j off (fun x y => x.ult y)) s

/-- `bge.i` (R78). -/
def execBgeI (a b : BitVec 5) (j : BitVec 4) (off : BrOff) (t : Option Tok) (s : State) : Host.Outcome State Fault Refusal :=
  runCF t (branchCF a b j off (fun x y => y.sle x)) s

/-- `bge.n` (R78). -/
def execBgeN (a b : BitVec 5) (j : BitVec 4) (off : BrOff) (t : Option Tok) (s : State) : Host.Outcome State Fault Refusal :=
  runCF t (branchCF a b j off (fun x y => y.ule x)) s

/-- `brx` (R80). -/
def execBrx (a : BitVec 5) (j : BitVec 4) (t : Option Tok) (s : State) : Host.Outcome State Fault Refusal :=
  runC t (jumpReg a j) s

/-- `loop` (R81). -/
def execLoop (a : BitVec 5) (j : BitVec 4) (off : BrOff) (t : Option Tok) (s : State) : Host.Outcome State Fault Refusal :=
  runCF t (loopCF a j off) s

/-- `jmp` (R79). -/
def execJmp (o : BitVec 24) (t : Option Tok) (s : State) : Host.Outcome State Fault Refusal :=
  runCF t (fun c f => (c, f.goto (f.pc + o.signExtend 51) 0#4)) s

/-- `call`: lk takes the next bundle address (R79). -/
def execCall (o : BitVec 24) (t : Option Tok) (s : State) : Host.Outcome State Fault Refusal :=
  runCF t (fun c f => (c.setReg 31#5 ((f.pc + 1#51).zeroExtend 64), f.goto (f.pc + o.signExtend 51) 0#4)) s

/-- `ret`: a fold records join id 0 (R80, R83). -/
def execRet (a : BitVec 5) (t : Option Tok) (s : State) : Host.Outcome State Fault Refusal :=
  runC t (jumpReg a 0#4) s

/-- `halt`: the core stops at the end of its bundle (R90). -/
def execHalt  (t : Option Tok) (s : State) : Host.Outcome State Fault Refusal :=
  runCF t (fun c f => (c, { f with pend := .halt })) s

end Sys2Proof.Machine
end

