-- ==== Sys2Proof/Machine/Fmath.lean ====
section
/-! DEFINITION. The elementary functions of R170: the exact value to hundreds of bits, with a mark for what lies below, so
that one rounding delivers it (log entry 20 says why that is the exactly rounded value). -/

namespace Sys2Proof.Machine

/-- Fraction bits of the fixed-point working values. -/
def fmP : Nat := 640
/-- One in fixed point. -/
def fmOne : Nat := 2 ^ fmP

/-- Sum of the terms t^k / k! from a term on, in fixed point. -/
def expSum (t : Nat) : Nat → Nat → Nat → Nat → Nat
  | 0, _, _, acc => acc
  | fuel + 1, k, term, acc =>
    let term' := term * t / fmOne / k
    expSum t fuel (k + 1) term' (acc + term')

/-- e^t for a fixed-point t in [0, 1). -/
def expFx (t : Nat) : Nat := expSum t 150 1 fmOne fmOne

/-- Sum of the terms s^(2k+1) / (2k+1) from a power on, in fixed point. -/
def atanhSum (s2 : Nat) : Nat → Nat → Nat → Nat → Nat
  | 0, _, _, acc => acc
  | fuel + 1, d, pow, acc => atanhSum s2 fuel (d + 2) (pow * s2 / fmOne) (acc + pow / d)

/-- atanh s for a fixed-point s in [0, 1/3]. -/
def atanhFx (s : Nat) : Nat := atanhSum (s * s / fmOne) 210 1 s 0

/-- ln 2 = 2 atanh (1/3), in fixed point. -/
def ln2Fx : Nat := 2 * atanhFx (fmOne / 3)

/-- The magnitude of a number m × 2^e, in fixed point; bits below the point of the fixed-point format are cut off. -/
def toFx (m : Nat) (e : Int) : Nat := if 0 ≤ e + fmP then m * 2 ^ (e + fmP).toNat else m / 2 ^ (-(e + fmP)).toNat

/-- 2^a (R170). -/
def Val.exp2 (a : Val) : Val :=
  match a with
  | .nan => .nan
  | .inf n => if n then Val.zero else .inf false
  | .fin neg m e _ =>
    if m = 0 then .fin false 1 0 false
    else if 12 ≤ (Nat.log2 m : Int) + e then .fin false (2 ^ 64) (if neg then -6000 else 6000) true
    else
      let x : Int := (if neg then -1 else 1) * (toFx m e : Int)
      let n := x / (fmOne : Int)
      let f := (x % (fmOne : Int)).toNat
      if f = 0 then .fin false 1 n false
      else .fin false (expFx (f * ln2Fx / fmOne) / 2 ^ 40) (n - 600) true

/-- log₂ a (R170). -/
def Val.log2 (a : Val) : Val × Fl :=
  match a with
  | .nan => (.nan, 0#6)
  | .inf n => if n then (.nan, Fl.nv) else (.inf false, 0#6)
  | .fin neg m e _ =>
    if m = 0 then (.inf true, Fl.dz)
    else if neg then (.nan, Fl.nv)
    else
      let l := Nat.log2 m
      let ex : Int := (l : Int) + e
      if m = 2 ^ l then (Val.ofInt ex, 0#6)
      else
        let s := (m - 2 ^ l) * fmOne / (m + 2 ^ l)
        let v : Int := ex * (fmOne : Int) + (2 * atanhFx s * fmOne / ln2Fx : Nat)
        if v < 0 then (.fin true ((v.natAbs - 2 ^ 20) / 2 ^ 40) (-600) true, 0#6)
        else (.fin false (v.natAbs / 2 ^ 40) (-600) true, 0#6)

/-- tanh a (R170). -/
def Val.tanh (a : Val) : Val :=
  match a with
  | .nan => .nan
  | .inf n => .fin n 1 0 false
  | .fin neg m e _ =>
    let top := (Nat.log2 m : Int) + e
    if m = 0 then a
    else if top < -70 then .fin neg (m * 2 ^ 100 - 1) (e - 100) true
    else if 6 ≤ top then .fin neg (2 ^ 100 - 1) (-100) true
    else
      let t := 2 * toFx m e
      let n := t / ln2Fx
      let x := expFx (t - n * ln2Fx) * 2 ^ n
      .fin neg ((x - fmOne) * fmOne / (x + fmOne) / 2 ^ 60) (-580) true

/-- 1 / √a (R170). -/
def Val.rsqrt (a : Val) : Val × Fl :=
  match a with
  | .nan => (.nan, 0#6)
  | .inf n => if n then (.nan, Fl.nv) else (Val.zero, 0#6)
  | .fin neg m e _ =>
    if m = 0 then (.inf neg, Fl.dz)
    else if neg then (.nan, Fl.nv)
    else
      let m' := if e % 2 = 0 then m else 2 * m
      let e' := if e % 2 = 0 then e else e - 1
      let r := isqrt (2 ^ 400 / m')
      (.fin false r (-200 - e' / 2) (decide (r * r * m' ≠ 2 ^ 400)), 0#6)

/-- 2^u of an FP32 value, delivered as FP32 under RNE: the exponential of the attention units and of `v.lse` (R170). -/
def exp2Rne (u : Nat) : Nat × Fl := Fmt.fp32.round .rne (Val.exp2 (Fmt.fp32.decode u))

end Sys2Proof.Machine
end

