-- ==== Sys2Proof/Machine/Tower.lean ====
section
/-! DEFINITION. A core's tower: where an offset lies, lines, poison and check bits, spares, pins, refresh, tags and rings
(R190 to R217). -/

namespace Sys2Proof.Machine

/-- Bytes of a tower as seen through its window (R24). -/
def towerSize : Nat := 2 ^ 25
/-- The tower window's first virtual address (R24). -/
def windowBase : Nat := 0xFFFFFFFE000000
/-- The window address of a tower offset. -/
def windowAddr (off : Nat) : Nat := windowBase + off
/-- The subarray of an offset, o[18:9] (R190). -/
def subOf (off : Nat) : Nat := off / 512 % 1024
/-- The row of an offset within its subarray, o[24:19] (R190). -/
def rowOf (off : Nat) : Nat := off / 2 ^ 19 % 64
/-- The bank group of an offset, o[10:9] (R190). -/
def bankGroup (off : Nat) : Nat := off / 512 % 4

/-- The row that serves row r of subarray S: a valid spare that names r, or r itself (R208). -/
def Tower.servRow (t : Tower) (sub r : Nat) : Nat :=
  let e (x : Nat) : BitVec 32 := t.remap.get 0#32 (BitVec.ofNat 11 (2 * sub + x))
  let hit (w : BitVec 32) : Bool := w.getLsbD 31 && decide ((w.extractLsb' 0 6).toNat = r)
  if hit (e 0) then 64 else if hit (e 1) then 65 else r

/-- The cell key of a serving row's byte. -/
def rowKey (sub serv : Nat) : Nat := sub * 33792 + serv * 512
/-- The cell key of an offset. -/
def Tower.key (t : Tower) (off : Nat) : Nat := rowKey (subOf off) (t.servRow (subOf off) (rowOf off)) + off % 512

/-- The name and contents of the pinned line that holds an offset's row (R197). -/
def Tower.lineAt (t : Tower) (off : Nat) : Option (BitVec 5 × Line) :=
  ((List.range 32).map (BitVec.ofNat 5)).findSome? (fun k =>
    match t.lines.get none k with
    | some l => if l.row.toNat = off / 512 % 65536 then some (k, l) else none
    | none => none)

/-- One byte of a tower: of the line while its row is pinned, of the cells otherwise (R197). -/
def Tower.byte (t : Tower) (off : Nat) : BitVec 8 :=
  match t.lineAt off with
  | some (_, l) => Memory.get l.data (off % 512)
  | none => Memory.get t.cells (t.key off)

/-- The poison bit of an offset's sector, a word of two or more bits in error counting as poisoned (R205). -/
def Tower.poisoned (t : Tower) (off : Nat) : Bool :=
  match t.lineAt off with
  | some (_, l) => Marks.has l.poison (off % 512 / 32) || l.err2.any (fun w => decide (w / 4 = off % 512 / 32))
  | none => Marks.has t.poison (t.key off / 32) || t.err2.any (fun w => decide (w / 4 = t.key off / 32))

/-- Set or clear the poison bit of an offset's sector. -/
def Tower.setPoison (t : Tower) (off : Nat) (b : Bool) : Tower :=
  match t.lineAt off with
  | some (k, l) => { t with lines := t.lines.set k (some { l with poison := Marks.put l.poison (off % 512 / 32) b }) }
  | none => { t with poison := Marks.put t.poison (t.key off / 32) b }

/-- What a cell holds once a byte is written to it: bits stuck at 0 stay 0 (R295). DEDUCED, log entry 73. -/
def Tower.takes (t : Tower) (key : Nat) (b : BitVec 8) : BitVec 8 :=
  t.stuck.foldl (fun b m => if m / 8 = key then b &&& ~~~(1#8 <<< (m % 8)) else b) b

/-- Write one byte; its word gets fresh check bits (R207). -/
def Tower.setByte (t : Tower) (off : Nat) (b : BitVec 8) : Tower :=
  match t.lineAt off with
  | some (k, l) =>
    { t with lines := t.lines.set k (some
        { l with data := Memory.set l.data (off % 512) b
                 err1 := Marks.put l.err1 (off % 512 / 8) false
                 err2 := Marks.put l.err2 (off % 512 / 8) false }) }
  | none =>
    { t with cells := Memory.set t.cells (t.key off) (t.takes (t.key off) b)
             err1 := Marks.put t.err1 (t.key off / 8) false
             err2 := Marks.put t.err2 (t.key off / 8) false }

/-- n bytes of a tower. -/
def Tower.read (t : Tower) (off n : Nat) : List (BitVec 8) := (List.range n).map (fun i => t.byte (off + i))

/-- The offsets of the sectors that n bytes from an offset touch. -/
def sectorsOf (off n : Nat) : List Nat :=
  if n = 0 then [] else (List.range ((off + n - 1) / 32 - off / 32 + 1)).map (fun i => 32 * (off / 32 + i))

/-- Some sector that n bytes touch is poisoned: the first such sector's offset. -/
def Tower.firstPoison (t : Tower) (off n : Nat) : Option Nat := (sectorsOf off n).find? (fun o => t.poisoned o)

/-- Write bytes from an offset upward. -/
def Tower.writeBytes (t : Tower) (off : Nat) : List (BitVec 8) → Tower
  | [] => t
  | b :: rest => Tower.writeBytes (t.setByte off b) (off + 1) rest

/-- The sectors that n bytes from an offset cover whole. -/
def wholeSectors (off n : Nat) : List Nat :=
  (sectorsOf off n).filter (fun o => decide (off ≤ o) && decide (o + 32 ≤ off + n))

/-- A write: the bytes, and a clear poison bit in each sector it covers whole (R207). -/
def Tower.write (t : Tower) (off : Nat) (bs : List (BitVec 8)) : Tower :=
  (wholeSectors off bs.length).foldl (fun t o => t.setPoison o false) (t.writeBytes off bs)

/-- What a read finds in the sectors it touches (R205): single-bit errors are corrected, worse ones poison their sector.
The counts are of corrected and uncorrectable words. -/
def Tower.scrub (t : Tower) (off n : Nat) : Tower × Nat × Nat :=
  (sectorsOf off n).foldl (fun (acc : Tower × Nat × Nat) o =>
    let (t, c, u) := acc
    match t.lineAt o with
    | some (k, l) =>
      let one := l.err1.filter (fun w => decide (w / 4 = o % 512 / 32))
      let two := l.err2.filter (fun w => decide (w / 4 = o % 512 / 32))
      let l' : Line :=
        { l with err1 := l.err1.filter (fun w => decide (w / 4 ≠ o % 512 / 32))
                 err2 := l.err2.filter (fun w => decide (w / 4 ≠ o % 512 / 32))
                 poison := if two.isEmpty then l.poison else Marks.put l.poison (o % 512 / 32) true }
      ({ t with lines := t.lines.set k (some l') }, c + one.length, u + two.length)
    | none =>
      let sec := t.key o / 32
      let one := t.err1.filter (fun w => decide (w / 4 = sec))
      let two := t.err2.filter (fun w => decide (w / 4 = sec))
      ({ t with err1 := t.err1.filter (fun w => decide (w / 4 ≠ sec))
                err2 := t.err2.filter (fun w => decide (w / 4 ≠ sec))
                poison := if two.isEmpty then t.poison else Marks.put t.poison sec true },
        c + one.length, u + two.length)) (t, 0, 0)

/-! ## Lines (R196 to R198) -/

/-- The line a name is pinned to. -/
def Tower.line (t : Tower) (k : BitVec 5) : Option Line := t.lines.get none k

/-- Sixteen sector marks of a row, relative to its first. -/
def rowMarks (m : Marks) (base n : Nat) : Marks := (m.filter (fun x => decide (base ≤ x) && decide (x < base + n))).map (fun x => x - base)
/-- Replace the marks of a row of n things by those of a line. -/
def putRowMarks (m : Marks) (base n : Nat) (r : Marks) : Marks :=
  m.filter (fun x => !(decide (base ≤ x) && decide (x < base + n)))
    ++ (r.filter (fun x => decide (x < n))).map (fun x => x + base)

/-- Write a line back to the row that serves its address now: contents, check bits and poison (R196, R208). -/
def Tower.writeBack (t : Tower) (l : Line) : Tower :=
  let off := l.row.toNat * 512
  let key := rowKey (subOf off) (t.servRow (subOf off) (rowOf off))
  { t with cells := Memory.write (Memory.clear t.cells key 512) key
             ((Memory.read l.data 0 512).zipIdx.map (fun b => t.takes (key + b.2) b.1))
           poison := putRowMarks t.poison (key / 32) 16 l.poison
           err1 := putRowMarks t.err1 (key / 8) 64 l.err1
           err2 := putRowMarks t.err2 (key / 8) 64 l.err2 }

/-- The contents of a row as a line captures them from its serving row (R198, R208). -/
def Tower.capture (t : Tower) (row : BitVec 16) (keep : Bool) : Line :=
  let off := row.toNat * 512
  let key := rowKey (subOf off) (t.servRow (subOf off) (rowOf off))
  { row := row, keep := keep, data := Memory.write [] 0 (Memory.read t.cells key 512)
    poison := rowMarks t.poison (key / 32) 16, err1 := rowMarks t.err1 (key / 8) 64, err2 := rowMarks t.err2 (key / 8) 64 }

/-- A line leaves a subarray: the age at which it was released counts for its refresh (R200). -/
def Tower.noteFree (t : Tower) (row : BitVec 16) : Tower :=
  let sub := BitVec.ofNat 10 (subOf (row.toNat * 512))
  { t with freed := t.freed.set sub (t.age.get 0 sub) }

/-- `rowrel`: written back, then free; nothing on a free line (R196). -/
def Tower.release (t : Tower) (k : BitVec 5) : Tower :=
  match t.line k with
  | some l => let t' := (t.writeBack l).noteFree l.row; { t' with lines := t'.lines.set k none }
  | none => t

/-- `rowwb`: the pin stays (R196). -/
def Tower.rowwb (t : Tower) (k : BitVec 5) : Tower :=
  match t.line k with
  | some l => t.writeBack l
  | none => t

/-- Some other line is pinned in the subarray of a row (R196). -/
def Tower.subPinned (t : Tower) (k : BitVec 5) (row : BitVec 16) : Bool :=
  t.lines.any (fun e => match e.2 with
    | some l => decide (e.1 ≠ k) && decide (subOf (l.row.toNat * 512) = subOf (row.toNat * 512))
    | none => false)

/-- `rowpin`: the old row is written back and released, then the new one is pinned; none when another line holds the
subarray (R196). -/
def Tower.pin (t : Tower) (k : BitVec 5) (row : BitVec 16) (keep : Bool) : Option Tower :=
  if t.subPinned k row then none
  else
    let t' := t.release k
    some { t' with lines := t'.lines.set k (some (t'.capture row keep)) }

/-! ## Tag table (R212 to R214) -/

/-- V, CLEAN, LINE, SZ and BLOCK of a tag entry (R212). -/
def tagV (e : BitVec 128) : Bool := e.getLsbD 0
/-- CLEAN. -/
def tagClean (e : BitVec 128) : Bool := e.getLsbD 1
/-- LINE. -/
def tagLine (e : BitVec 128) : Nat := (e.extractLsb' 2 16).toNat
/-- SZ. -/
def tagSz (e : BitVec 128) : Nat := (e.extractLsb' 64 3).toNat
/-- BLOCK: bits [55:9] of the block's virtual address. -/
def tagBlock (e : BitVec 128) : Nat := (e.extractLsb' 67 47).toNat
/-- An entry of its fields (R212). -/
def tagMake (v clean : Bool) (line sz block : Nat) : BitVec 128 :=
  BitVec.ofNat 128 ((if v then 1 else 0) + (if clean then 2 else 0) + line * 4 + sz * 2 ^ 64 + block * 2 ^ 67)
/-- A valid entry's slot covers a tower offset (R213). -/
def tagCovers (e : BitVec 128) (off : Nat) : Bool :=
  tagV e && decide (512 * tagLine e ≤ off) && decide (off < 512 * tagLine e + 512 * 2 ^ tagSz e)
/-- A virtual address hits an entry (R213). -/
def tagHits (e : BitVec 128) (va : Nat) : Bool :=
  tagV e && decide (va / 512 / 2 ^ tagSz e = tagBlock e / 2 ^ tagSz e)
/-- The lowest entry that satisfies a condition. -/
def Core.tagFind (c : Core) (p : BitVec 128 → Bool) : Option (BitVec 10 × BitVec 128) :=
  ((List.range 1024).map (BitVec.ofNat 10)).findSome? (fun i =>
    if p (c.tags.get 0#128 i) then some (i, c.tags.get 0#128 i) else none)

/-- A write to a byte of a clean slot clears CLEAN (R214). `spare` names the entry whose own `d.tfill` writes. -/
def Core.dirty (c : Core) (off n : Nat) (spare : Option (BitVec 10)) : Core :=
  { c with tags := c.tags.map (fun e =>
      if tagV e.2 && tagClean e.2 && decide (512 * tagLine e.2 < off + n)
          && decide (off < 512 * tagLine e.2 + 512 * 2 ^ tagSz e.2) && decide (spare ≠ some e.1) then
        (e.1, e.2 &&& ~~~2#128) else e) }

/-- A write to a core's tower by any party (R197, R207, R214). -/
def Core.towerWrite (c : Core) (off : Nat) (bs : List (BitVec 8)) : Core :=
  ({ c with tower := c.tower.write off bs }).dirty off bs.length none

/-! ## Rings (R215 to R217) -/

/-- VAL. -/
def Ring.val (r : Ring) : Bool := bit r.desc 63
/-- FILLED. -/
def Ring.filled (r : Ring) : Nat := (field r.desc 51 7).toNat
/-- FREE. -/
def Ring.free (r : Ring) : Nat := (field r.desc 44 7).toNat
/-- TAIL. -/
def Ring.tail (r : Ring) : Nat := (field r.desc 38 6).toNat
/-- HEAD. -/
def Ring.head (r : Ring) : Nat := (field r.desc 32 6).toNat
/-- The number of slots. -/
def Ring.count (r : Ring) : Nat := (field r.desc 26 6).toNat + 1
/-- Slot size in bytes (R215). -/
def Ring.size (r : Ring) : Nat := 32 * ((field r.desc 20 6).toNat + 1 + (if bit r.desc 19 then 64 else 0))
/-- Tower offset of slot 0. -/
def Ring.base (r : Ring) : Nat := 64 * (field r.desc 0 19).toNat
/-- Tower offset of a slot (R215). -/
def Ring.slotOff (r : Ring) (i : Nat) : Nat := r.base + i * r.size
/-- State of a slot: [5] BSY, [4] FE, [3:0] OWNER. -/
def Ring.slot (r : Ring) (i : Nat) : BitVec 6 := r.slots.get 0#6 (BitVec.ofNat 6 i)
/-- A slot is empty. -/
def Ring.isEmpty (r : Ring) (i : Nat) : Bool := decide ((r.slot i).extractLsb' 4 2 = 0#2)
/-- A slot is full. -/
def Ring.isFull (r : Ring) (i : Nat) : Bool := decide ((r.slot i).extractLsb' 4 2 = 1#2)
/-- A slot is being filled. -/
def Ring.isFilling (r : Ring) (i : Nat) : Bool := decide ((r.slot i).extractLsb' 4 2 = 2#2)
/-- A slot is being drained. -/
def Ring.isDraining (r : Ring) (i : Nat) : Bool := decide ((r.slot i).extractLsb' 4 2 = 3#2)
/-- The owner of a slot. -/
def Ring.owner (r : Ring) (i : Nat) : BitVec 4 := (r.slot i).extractLsb' 0 4
/-- Write a slot's state. -/
def Ring.setSlot (r : Ring) (i : Nat) (v : BitVec 6) : Ring := { r with slots := r.slots.set (BitVec.ofNat 6 i) v }

/-- `acquire_fill`: the slot, or none while the head slot is not empty (R216). -/
def Ring.acquireFill (r : Ring) (who : BitVec 4) : Option (Nat × Ring) :=
  if r.isEmpty r.head then
    let i := r.head
    let r' := r.setSlot i (2#2 ++ who)
    some (i, { r' with desc := setField (setField r.desc 44 7 (BitVec.ofNat 64 (r.free - 1))) 32 6
                                 (BitVec.ofNat 64 ((i + 1) % r.count)) })
  else none
/-- `release_fill`: none when the slot is not filling by this party (R215 to R217). -/
def Ring.releaseFill (r : Ring) (who : BitVec 4) (i : Nat) : Option Ring :=
  if r.isFilling i ∧ r.owner i = who then
    let r' := r.setSlot i 0x10#6
    some { r' with desc := setField r.desc 51 7 (BitVec.ofNat 64 (r.filled + 1)) }
  else none
/-- `acquire_drain`: the slot, or none while the tail slot is not full (R216). -/
def Ring.acquireDrain (r : Ring) (who : BitVec 4) : Option (Nat × Ring) :=
  if r.isFull r.tail then
    let i := r.tail
    let r' := r.setSlot i (3#2 ++ who)
    some (i, { r' with desc := setField (setField r.desc 51 7 (BitVec.ofNat 64 (r.filled - 1))) 38 6
                                 (BitVec.ofNat 64 ((i + 1) % r.count)) })
  else none
/-- `release_drain`: none when the slot is not draining by this party (R215 to R217). -/
def Ring.releaseDrain (r : Ring) (who : BitVec 4) (i : Nat) : Option Ring :=
  if r.isDraining i ∧ r.owner i = who then
    let r' := r.setSlot i 0#6
    some { r' with desc := setField r.desc 44 7 (BitVec.ofNat 64 (r.free + 1)) }
  else none
/-- The oldest slot a party holds draining: slots drain in ascending order from TAIL (R216, R285). -/
def Ring.oldestDraining (r : Ring) (who : BitVec 4) : Option Nat :=
  ((List.range r.count).map (fun i => (r.tail + i) % r.count)).find? (fun i => r.isDraining i && decide (r.owner i = who))

/-- A core's ring. -/
def Core.ring (c : Core) (n : BitVec 4) : Ring := c.rings.get {} n
/-- Replace a core's ring. -/
def Core.setRing (c : Core) (n : BitVec 4) (r : Ring) : Core := { c with rings := c.rings.set n r }

end Sys2Proof.Machine
end

