-- ==== Sys2Proof/Machine/Extmem.lean ====
section
/-! DEFINITION. External memory: the physical map (R221), placement (R227), parity, rebuild and the spare layer (R230 to
R233), reads and writes with their poison bits (R226). -/

namespace Sys2Proof.Machine

/-- A packet's address, interleave and length. -/
def Packet.span : Packet → BitVec 52 × BitVec 3 × Nat
  | .read _ _ a il n => (a, il, n)
  | .write _ _ a il bs => (a, il, bs.length)
  | .atomic _ _ a il _ sz _ _ _ => (a, il, if sz = 1#1 then 8 else 4)
  | .append _ _ a il bs => (a, il, bs.length)

/-- Two packets of one source touch a common byte (R225). -/
def packetsMeet (p q : Packet) : Bool :=
  let (a, _, n) := p.span
  let (b, _, m) := q.span
  decide (p.src = q.src) && decide (a.toNat < b.toNat + m) && decide (b.toNat < a.toNat + n)

/-- What a physical address reaches (R221). -/
inductive Region where
  | rom (off : Nat)
  | near (t : Nat)
  | far (t : Nat)
  | host (off : Nat)
  | aperture (k : CoreId) (off : Nat)
  | die (d : DieId) (off : Nat)
  | config (off : Nat)
  | nothing
deriving DecidableEq, Repr

/-- Usable bytes of a tier, 448 GiB. -/
def tierSize : Nat := 448 * 2 ^ 30

/-- The physical map (R221, R191). -/
def regionOf (pa : Nat) : Region :=
  if pa < 0x100000 then .rom pa
  else if 0x1000000000000 ≤ pa ∧ pa < 0x1000000000000 + tierSize then .near (pa - 0x1000000000000)
  else if 0x2000000000000 ≤ pa ∧ pa < 0x2000000000000 + tierSize then .far (pa - 0x2000000000000)
  else if 0x4000000000000 ≤ pa ∧ pa < 0x8000000000000 then .host (pa - 0x4000000000000)
  else if 0xE000000000000 ≤ pa ∧ pa < 0xE000000000000 + 2 ^ 36 then
    .aperture (BitVec.ofNat 11 ((pa - 0xE000000000000) / 2 ^ 25)) ((pa - 0xE000000000000) % 2 ^ 25)
  else if 0xF000000000000 ≤ pa ∧ pa < 0xF000000000000 + 2 ^ 27 then
    .die (BitVec.ofNat 3 ((pa - 0xF000000000000) / 2 ^ 24)) ((pa - 0xF000000000000) % 2 ^ 24)
  else if 0xFFFFFFFFF0000 ≤ pa ∧ pa < 0x10000000000000 then .config (pa - 0xFFFFFFFFF0000)
  else .nothing

/-- The aperture address of a tower offset (R191). -/
def apertureAddr (k : CoreId) (off : Nat) : Nat := 0xE000000000000 + k.toNat * 2 ^ 25 + off

/-- A tier, near or far, and the offset of a physical address in it. -/
def tierOf (pa : Nat) : Option (Bool × Nat) :=
  match regionOf pa with
  | .near t => some (false, t)
  | .far t => some (true, t)
  | _ => none

/-- The home of a byte: stack within the tier, pseudo-channel, unit position, byte of the unit (R227). -/
structure Home where
  s : Nat
  pc : Nat
  r : Nat
  y : Nat
deriving DecidableEq, Repr

/-- The placement of tier offset t under an interleave attribute (R227). -/
def place (t : Nat) (il : BitVec 3) : Home :=
  let g : Nat := match il.toNat with | 0 => 256 | 1 => 1024 | 2 => 4096 | _ => 65536
  let gib56 : Nat := 56 * 2 ^ 30
  let s := if il.toNat ≤ 3 then t / g % 8 else t / gib56
  let b := if il.toNat ≤ 3 then t / (8 * g) * g + t % g else t % gib56
  let h : Nat := if il.toNat ≤ 3 then 256 else match il.toNat with | 4 => 256 | 5 => 4096 | _ => 65536
  let pc := if il.toNat = 7 then b / (896 * 2 ^ 20) else b / h % 64
  let o := if il.toNat = 7 then b % (896 * 2 ^ 20) else b / (64 * h) * h + b % h
  let e := o / 256
  let i := e % 7
  { s := s, pc := pc, r := 8 * (e / 7) + i + (if s ≤ i then 1 else 0), y := o % 256 }

/-- The stack of a tier's position s. -/
def tierStack (far : Bool) (s : Nat) : StackId := BitVec.ofNat 4 ((if far then 8 else 0) + s % 8)
/-- The cell of a unit byte. -/
def cellOf (pc r y : Nat) : Nat := (pc * 2 ^ 22 + r) * 256 + y
/-- The DRAM row of a unit position: r[21:6]; its layer is [15:12] (R227). -/
def dramRow (r : Nat) : Nat := r / 64
/-- The layer of a unit position. -/
def layerOf (r : Nat) : Nat := r / 2 ^ 18 % 16

/-- A unit's place is marked failed and not served by the spare layer (R232, R233). -/
def Stack.failedAt (st : Stack) (pc r : Nat) : Bool :=
  st.failed.any (fun f =>
    match f with
    | .whole => true
    | .pseudoChannel p => decide (p.toNat = pc)
    | .layer l =>
      decide (l.toNat = layerOf r) && !(decide (st.spare = some l)) &&
        !(match st.migration with
          | some m => decide (m.layer = l) && decide (dramRow r % 4096 < m.next)
          | none => false))

/-- A unit is lost: reported uncorrectable, or its place marked failed (R232). -/
def Stack.lost (st : Stack) (pc r : Nat) : Bool := Marks.has st.bad (pc * 2 ^ 22 + r) || st.failedAt pc r

/-- The byte of a unit, as held. -/
def Stack.raw (st : Stack) (pc r y : Nat) : BitVec 8 := Memory.get st.cells (cellOf pc r y)
/-- The poison bit of a unit's sector, as held. -/
def Stack.rawPoison (st : Stack) (pc r sec : Nat) : Bool := Marks.has st.poison (cellOf pc r (32 * sec) / 32)

/-- The seven other stacks of a parity group (R230). -/
def otherStacks (far : Bool) (s : Nat) : List StackId :=
  ((List.range 8).filter (fun i => decide (i ≠ s % 8))).map (fun i => tierStack far i)

/-- The stack that holds the parity unit of position r (R230). -/
def parityStack (far : Bool) (r : Nat) : StackId := tierStack far (r % 8)

/-- The parity unit of a group was left as it stood by a write that could form no delta (R232). -/
def State.parityStale (st : State) (far : Bool) (h : Home) : Bool :=
  Marks.has (st.stack (parityStack far h.r)).stale (h.pc * 2 ^ 22 + h.r)

/-- A lost unit can be rebuilt: no other unit of its group is lost, and the parity unit, where the rebuild needs it, covers
the group (R232). -/
def State.rebuildable (st : State) (far : Bool) (h : Home) : Bool :=
  (otherStacks far h.s).all (fun n => !(st.stack n).lost h.pc h.r)
    && (decide (h.s % 8 = h.r % 8) || !st.parityStale far h)

/-- One byte of a unit: as held, or rebuilt by XOR of the other seven (R230, R232). -/
def State.unitByte (st : State) (far : Bool) (h : Home) : BitVec 8 :=
  if (st.stack (tierStack far h.s)).lost h.pc h.r then
    if st.rebuildable far h then
      (otherStacks far h.s).foldl (fun acc n => acc ^^^ (st.stack n).raw h.pc h.r h.y) 0#8
    else (st.stack (tierStack far h.s)).raw h.pc h.r h.y
  else (st.stack (tierStack far h.s)).raw h.pc h.r h.y

/-- The poison bit of a unit's sector: as held, rebuilt, or set when the rebuild cannot complete (R232). -/
def State.unitPoison (st : State) (far : Bool) (h : Home) : Bool :=
  if (st.stack (tierStack far h.s)).lost h.pc h.r then
    if st.rebuildable far h then
      (otherStacks far h.s).foldl (fun acc n => acc != (st.stack n).rawPoison h.pc h.r (h.y / 32)) false
    else true
  else (st.stack (tierStack far h.s)).rawPoison h.pc h.r (h.y / 32)

/-- Write one byte as held. -/
def Stack.putRaw (st : Stack) (pc r y : Nat) (b : BitVec 8) : Stack :=
  { st with cells := Memory.set st.cells (cellOf pc r y) b }
/-- Write one sector's poison bit as held. -/
def Stack.putPoison (st : Stack) (pc r sec : Nat) (b : Bool) : Stack :=
  { st with poison := Marks.put st.poison (cellOf pc r (32 * sec) / 32) b }

/-- Write a rebuilt unit back when its location is not marked failed, with the event of R232; a rebuild that cannot
complete raises an uncorrectable event. -/
def State.repairUnit (st : State) (far : Bool) (h : Home) : State :=
  let n := tierStack far h.s
  let x := st.stack n
  let d : DieId := n.extractLsb' 0 3
  if x.lost h.pc h.r then
    if st.rebuildable far h then
      let st1 := st.event d 1 n.toNat
      if x.failedAt h.pc h.r then st1
      else
        st1.setStack n
          { x with
              cells := Memory.write x.cells (cellOf h.pc h.r 0)
                ((List.range 256).map (fun y => st.unitByte far { h with y := y }))
              poison := (List.range 8).foldl (fun m sec =>
                Marks.put m (cellOf h.pc h.r (32 * sec) / 32) (st.unitPoison far { h with y := 32 * sec })) x.poison
              bad := Marks.put x.bad (h.pc * 2 ^ 22 + h.r) false }
    else st.event d 2 n.toNat
  else st

/-- The units that n bytes from a tier offset touch. -/
def unitsOf (t n : Nat) (il : BitVec 3) : List Home :=
  if n = 0 then [] else
    ((List.range ((t + n - 1) / 256 - t / 256 + 1)).map (fun i => { place (256 * (t / 256 + i)) il with y := 0 }))

/-- What a read does to the stacks: lost units are rebuilt and written back (R232). -/
def State.extTouch (st : State) (far : Bool) (t n : Nat) (il : BitVec 3) : State :=
  (unitsOf t n il).foldl (fun s h => s.repairUnit far h) st

/-- n bytes of a tier. -/
def State.extRead (st : State) (far : Bool) (t n : Nat) (il : BitVec 3) : List (BitVec 8) :=
  (List.range n).map (fun i => st.unitByte far (place (t + i) il))

/-- The first poisoned sector that n bytes of a tier touch. -/
def State.extPoison (st : State) (far : Bool) (t n : Nat) (il : BitVec 3) : Option Nat :=
  (sectorsOf t n).find? (fun o => st.unitPoison far (place o il))

/-- A unit cannot take a write as usual: it is lost, and cannot be rebuilt (R232). -/
def State.unitBroken (st : State) (far : Bool) (h : Home) : Bool :=
  (st.stack (tierStack far h.s)).lost h.pc h.r && !st.rebuildable far h

/-- Write one byte: the data unit, and the parity delta (R231); a failed location holds its data in parity only (R232). -/
def State.putUnitByte (st : State) (far : Bool) (h : Home) (b : BitVec 8) : State :=
  let n := tierStack far h.s
  let p := parityStack far h.r
  if st.unitBroken far h then
    if (st.stack n).failedAt h.pc h.r then st else st.modStack n (fun x => x.putRaw h.pc h.r h.y b)
  else
    let old := st.unitByte far h
    let st1 := if (st.stack n).failedAt h.pc h.r then st else st.modStack n (fun x => x.putRaw h.pc h.r h.y b)
    if (st1.stack p).failedAt h.pc h.r then st1
    else st1.modStack p (fun x => x.putRaw h.pc h.r h.y (x.raw h.pc h.r h.y ^^^ old ^^^ b))

/-- Write one sector's poison bit, parity included (R230, R231). -/
def State.putUnitPoison (st : State) (far : Bool) (h : Home) (b : Bool) : State :=
  let n := tierStack far h.s
  let p := parityStack far h.r
  let sec := h.y / 32
  if st.unitBroken far h then
    if (st.stack n).failedAt h.pc h.r then st else st.modStack n (fun x => x.putPoison h.pc h.r sec b)
  else
    let old := st.unitPoison far h
    let st1 := if (st.stack n).failedAt h.pc h.r then st else st.modStack n (fun x => x.putPoison h.pc h.r sec b)
    if (st1.stack p).failedAt h.pc h.r then st1
    else st1.modStack p (fun x => x.putPoison h.pc h.r sec (x.rawPoison h.pc h.r sec != (old != b)))

/-- A write meets a unit that is lost and cannot be rebuilt, at a place not marked failed: the write stores its bytes,
the unit is no longer lost, and every sector it does not cover whole is poisoned; the parity unit no longer covers the
group (R232). -/
def State.settleBroken (st : State) (far : Bool) (h : Home) (whole : Nat → Bool) : State :=
  let n := tierStack far h.s
  if st.unitBroken far h then
    let st1 := (st.event (n.extractLsb' 0 3) 2 n.toNat).modStack (parityStack far h.r) (fun x =>
      { x with stale := Marks.put x.stale (h.pc * 2 ^ 22 + h.r) true })
    if (st.stack n).failedAt h.pc h.r then st1
    else
      st1.modStack n (fun x =>
        { (List.range 8).foldl (fun x sec => x.putPoison h.pc h.r sec (!whole sec)) x with
            bad := Marks.put x.bad (h.pc * 2 ^ 22 + h.r) false })
  else st

/-- Write bytes of a tier from offset t upward. -/
def State.extPut (st : State) (far : Bool) (t : Nat) (il : BitVec 3) : List (BitVec 8) → State
  | [] => st
  | b :: rest => State.extPut (st.putUnitByte far (place t il) b) far (t + 1) il rest

/-- A write to a tier, performed with its parity (R226, R231, R232): whole sectors become clean. -/
def State.extWrite (st : State) (far : Bool) (t : Nat) (il : BitVec 3) (bs : List (BitVec 8)) : State :=
  let n := bs.length
  let whole := wholeSectors t n
  let st0 := (unitsOf t n il).foldl (fun s h => if s.unitBroken far h then s else s.repairUnit far h) st
  let st1 := st0.extPut far t il bs
  let st2 := whole.foldl (fun s o => s.putUnitPoison far (place o il) false) st1
  (unitsOf t n il).foldl (fun s h =>
    s.settleBroken far h (fun sec => whole.any (fun o => decide (place o il = { h with y := 32 * sec })))) st2

/-- A stack is ready: the NS or FS bit of its die's DREADY is set, whatever the other bits hold (R441). -/
def State.stackReady (st : State) (n : StackId) : Bool :=
  (st.die (n.extractLsb' 0 3)).dready.getLsbD (if n.getLsbD 3 then 17 else 16)

/-- The packets of a core's query that still count: those not accepted, and those with a scan at work or a triple not
written (R369). -/
def State.queryPackets (s : State) (k : CoreId) : Nat :=
  let at_ := s.hbm.flatMap (fun e =>
    (e.2.scans.filter (fun x => x.qp.reply && decide (x.qp.core = k))).map (fun x => (x.qp.id, x.unit.toNat / 4)))
  let back := (s.core k).inbox.map (fun t => (t.id, t.unit.toNat / 4))
  (s.hbm.map (fun e => (e.2.queryq.filter (fun q => q.reply && decide (q.core = k))).length)).sum + ((at_ ++ back).eraseDups).length

/-- Packets a core has outstanding (R224, R369). -/
def State.packetsOut (s : State) (k : CoreId) : Nat :=
  (s.core k).replies.length + s.queryPackets k + (s.hbm.map (fun e =>
    (e.2.queue.filter (fun q => q.reply && decide (q.pkt.src = k))).length
      + (e.2.deltas.filter (fun d => d.reply && decide (d.src = k))).length
      + (e.2.sent.filter (fun x => x.reply && decide (x.pkt.src = k))).length)).sum

/-- A tier is usable: all eight stacks ready, or seven with the eighth marked failed (R441). -/
def State.tierUsable (st : State) (far : Bool) : Bool :=
  let ids := (List.range 8).map (fun i => tierStack far i)
  ids.all (fun n => st.stackReady n || (st.stack n).failed.any (fun f => decide (f = .whole)))
    && decide ((ids.filter (fun n => !st.stackReady n)).length ≤ 1)

/-- n bytes of a tier must wait: a stack they need is in self-refresh, for a write the parity stacks too (R235); a lost unit
has a parity delta on its way (R232); or their row is being migrated (R233). -/
def State.extBlocked (st : State) (far : Bool) (t n : Nat) (il : BitVec 3) (write : Bool) : Bool :=
  (unitsOf t n il).any (fun h =>
    (st.stack (tierStack far h.s)).selfRefresh || (write && (st.stack (parityStack far h.r)).selfRefresh)
      || ((st.stack (tierStack far h.s)).lost h.pc h.r
            && ((otherStacks far h.s).any (fun o => (st.stack o).selfRefresh)
              || (st.stack (parityStack far h.r)).deltas.any (fun d => decide (d.pc = h.pc) && decide (d.r = h.r))))
      || (match (st.stack (tierStack far h.s)).migration with
          | some m => decide (m.layer.toNat = layerOf h.r) && decide (dramRow h.r % 4096 = m.next)
          | none => false))

end Sys2Proof.Machine
end

