-- ==== Sys2Proof/Machine/Xlate.lean ====
section
/-! DEFINITION. Address translation: range entries, page tables, cached translations (R236 to R241). -/

namespace Sys2Proof.Machine

/-- The outcome of a translation. -/
inductive Xl where
  | ok (e : TlbEntry)
  | xlate
  /-- a read of the walk waits for a stack (R232, R235) -/
  | wait
deriving DecidableEq, Repr

/-- The walker's read of an 8-byte word of the tables, under IL2 (R227, R240): none outside the tiers. DESIGN CHOICE, log
entry 85: the spec names no outcome of a walk that meets poison, and the bytes are used as held. -/
def State.walkWord (s : State) (pa : Nat) : Option Word :=
  match tierOf pa with
  | some (far, t) => if s.tierUsable far then some (BitVec.ofNat 64 (bytesToNat (s.extRead far t 8 2#3))) else none
  | none => none

/-- The walker's read must wait (R232, R233, R235). -/
def State.walkWaits (s : State) (pa : Nat) : Bool :=
  match tierOf pa with
  | some (far, t) => s.tierUsable far && s.extBlocked far t 8 2#3 false
  | none => false

/-- A word of the descriptors and ranges that a die goes by (R243). -/
def State.spaceWord (s : State) (d : DieId) (pa : Nat) : Option Word :=
  ({ s with hbm := (s.spaces.get {} d).hbm } : State).walkWord pa

/-- A reader of the 8-byte words of the tables. -/
abbrev Words := Nat → Option Word

/-- A range entry's words w0 to w3 (R237). -/
def rangeWords (rd : Words) (desc k : Nat) : Option (Word × Word × Word × Word) :=
  let a := desc + 64 + 32 * k
  match rd a, rd (a + 8), rd (a + 16), rd (a + 24) with
  | some w0, some w1, some w2, some w3 => some (w0, w1, w2, w3)
  | _, _, _, _ => none

/-- The pages that a valid range entry holds: first and last; none of an entry that holds no address (R240). -/
def rangeSpan (w : Word × Word × Word × Word) : Option (Nat × Nat) :=
  let base := (field w.1 12 44).toNat
  let limit := (field w.2.1 12 44).toNat
  if bit w.1 0 && decide (base ≤ limit) then some (base, limit) else none

/-- The first valid range entry that holds a virtual address, with its number (R236, R240), from entry k on. -/
def rangeFind (rd : Words) (desc va : Nat) : Nat → Nat → Option (Nat × Word × Word × Word × Word)
  | 0, _ => none
  | fuel + 1, k =>
    match rangeWords rd desc k with
    | none => none
    | some w =>
      match rangeSpan w with
      | some (base, limit) =>
        if base ≤ va / 4096 ∧ va / 4096 ≤ limit then some (k, w) else rangeFind rd desc va fuel (k + 1)
      | none => rangeFind rd desc va fuel (k + 1)

/-- The translation of a range entry (R237, R240): malformed on a reserved bit, IL7 or a physical end beyond 52 bits. -/
def rangeXl (asid : BitVec 16) (w : Word × Word × Word × Word) : Xl :=
  let (w0, w1, w2, w3) := w
  let base := (field w0 12 44).toNat
  let limit := (field w1 12 44).toNat
  let pbase := (field w2 12 40).toNat
  let il := (field w3 5 3).truncate 3
  let reserved := decide (field w0 1 11 ≠ 0#64) || decide (field w0 56 8 ≠ 0#64) || decide (field w1 0 12 ≠ 0#64)
    || decide (field w1 56 8 ≠ 0#64) || decide (field w2 0 12 ≠ 0#64) || decide (field w2 52 12 ≠ 0#64)
    || decide (field w3 0 2 ≠ 0#64) || decide (field w3 8 56 ≠ 0#64)
  if reserved || decide (il = 7#3) || decide (2 ^ 40 ≤ pbase + (limit - base)) then .xlate
  else .ok { asid := asid, first := base * 4096, last := limit * 4096 + 4095, pageLast := limit * 4096 + 4095
             pa := pbase * 4096, il := il, t := bit w3 4, x := bit w3 3, w := bit w3 2, range := true }

/-- An entry cut back to the addresses about va that a span of pages leaves to it (R236, R241). -/
def TlbEntry.clip (va : Nat) (e : TlbEntry) (span : Nat × Nat) : TlbEntry :=
  if span.2 < va / 4096 then
    let first := max e.first ((span.2 + 1) * 4096)
    { e with first := first, pa := e.pa + (first - e.first) }
  else if va / 4096 < span.1 then { e with last := min e.last (span.1 * 4096 - 1) }
  else e

/-- The translation that the range entries give, if one holds the address; it stands where no lower-numbered valid entry
holds the address (R236, R240). -/
def rangeLook (rd : Words) (desc : Nat) (asid : BitVec 16) (va : Nat) : Option Xl :=
  (rangeFind rd desc va 32 0).map (fun (k, w) =>
    match rangeXl asid w with
    | .ok e =>
      .ok (((List.range k).filterMap (fun j => (rangeWords rd desc j).bind rangeSpan)).foldl (TlbEntry.clip va) e)
    | x => x)

/-- The index of a virtual address at a level, and the level's shift (R238). -/
def levelShift (lvl : Nat) : Nat := 12 + 9 * lvl
/-- The index bits of a level (R238). -/
def levelIndex (va lvl : Nat) : Nat := va / 2 ^ levelShift lvl % (if lvl = 4 then 256 else 512)

/-- The bytes of a leaf page size (R239). -/
def pageBytes (sz : Nat) : Nat :=
  match sz with
  | 0 => 2 ^ 12 | 1 => 2 ^ 16 | 2 => 2 ^ 21 | 3 => 2 ^ 25 | 4 => 2 ^ 29 | _ => 2 ^ 30

/-- A leaf size allowed at a level (R238). -/
def sizeAllowed (lvl sz : Nat) : Bool :=
  match lvl with
  | 0 => decide (sz = 0 ∨ sz = 1)
  | 1 => decide (sz = 2 ∨ sz = 3 ∨ sz = 4)
  | 2 => decide (sz = 5)
  | _ => false

/-- The walk of the page tables from a level down (R238 to R240). -/
def State.walk (s : State) (asid : BitVec 16) (va : Nat) : Nat → Nat → Xl
  | lvl, table =>
    if s.walkWaits (table + 8 * levelIndex va lvl) then .wait
    else
    match s.walkWord (table + 8 * levelIndex va lvl) with
    | none => .xlate
    | some e =>
      if !bit e 0 then .xlate
      else if decide (field e 52 12 ≠ 0#64) || bit e 11 then .xlate
      else if bit e 1 then
        let sz := (field e 8 3).toNat
        let il : BitVec 3 := (field e 5 3).truncate 3
        if !sizeAllowed lvl sz || (decide (il = 7#3) && decide (4 ≤ sz)) then .xlate
        else
          let n := pageBytes sz
          .ok { asid := asid, first := va / n * n, last := va / n * n + (n - 1), pageLast := va / n * n + (n - 1)
                pa := (field e 12 40).toNat * 4096 / n * n, il := il
                t := bit e 4, x := bit e 3, w := bit e 2, range := false }
      else
        if decide (field e 8 3 ≠ 0#64) || decide (field e 5 3 ≠ 0#64) then .xlate
        else
          match lvl with
          | 0 => .xlate
          | l + 1 => s.walk asid va l ((field e 12 40).toNat * 4096)

/-- The words of page tables that the walk reads, from a level down (R238). -/
def State.walkPath (s : State) (va : Nat) : Nat → Nat → List Nat
  | lvl, table =>
    let a := table + 8 * levelIndex va lvl
    match s.walkWord a, lvl with
    | some e, l + 1 => if bit e 0 && !bit e 1 then a :: s.walkPath va l ((field e 12 40).toNat * 4096) else [a]
    | _, _ => [a]

/-- The descriptor of an address space (R237), in the table that the die goes by (R243). -/
def State.descAt (s : State) (d : DieId) (asid : BitVec 16) : Nat :=
  (field (s.spaces.get {} d).asdt 12 40).toNat * 4096 + 2048 * asid.toNat

/-- A descriptor's ROOT; none when the descriptor gives `XLATE` (R237, R240). -/
def State.rootOf (s : State) (d : DieId) (asid : BitVec 16) : Option Nat :=
  let desc := s.descAt d asid
  match s.spaceWord d desc with
  | none => none
  | some w0 =>
    if !bit w0 0 then none
    else if decide (field w0 1 11 ≠ 0#64) || decide (field w0 52 12 ≠ 0#64)
        || (List.range 7).any (fun i => decide (s.spaceWord d (desc + 8 * (i + 1)) ≠ some 0#64)) then none
    else some ((field w0 12 40).toNat * 4096)

/-- A translation refuses a use of it (R240). -/
def TlbEntry.denies (e : TlbEntry) (sup : Bool) (use : Use) : Bool :=
  (!sup && !e.t) || (decide (use = .write) && !e.w) || (decide (use = .fetch) && !e.x)

/-- The translation that the range entries and page tables give as they stand (R395). -/
def State.afresh (s : State) (asid : BitVec 16) (va desc root : Nat) : Xl :=
  if (List.range 128).any (fun i => s.walkWaits (desc + 64 + 8 * i)) then .wait
  else (rangeLook s.walkWord desc asid va).getD (s.walk asid va 4 root)

/-- The translation that the tables give to a use (R236, R240): by the descriptor and the ranges that the die goes by, and
the page tables as they stand; in place of an outcome `XLATE` or `PERM`, the range entries as they stand decide (R243,
R395). DEDUCED, log entry 70. -/
def State.translate (s : State) (d : DieId) (asid : BitVec 16) (sup : Bool) (use : Use) (va : Nat) : Xl :=
  match s.rootOf d asid with
  | none => .xlate
  | some root =>
    let desc := s.descAt d asid
    match (rangeLook (s.spaceWord d) desc asid va).getD (s.walk asid va 4 root) with
    | .xlate => s.afresh asid va desc root
    | .ok e => if e.denies sup use then s.afresh asid va desc root else .ok e
    | .wait => .wait

/-- A cached translation covers a virtual address of an address space (R241). -/
def TlbEntry.covers (e : TlbEntry) (asid : BitVec 16) (va : Nat) : Bool :=
  decide (e.asid = asid) && decide (e.first ≤ va) && decide (va ≤ e.last)

/-- The cached translation of an address: the core's, else its table's (R241). -/
def State.cached (s : State) (k : CoreId) (asid : BitVec 16) (va : Nat) : Option TlbEntry :=
  ((s.core k).tlb.find? (fun e => e.covers asid va)).orElse (fun _ =>
    (s.table (tableOf k)).tlb.find? (fun e => e.covers asid va))

/-- The translation that decides an access: a cached one, or a walk of the tables; a cached one that does not permit the
access is not used (R241, R395). -/
def State.found (s : State) (k : CoreId) (asid : BitVec 16) (sup : Bool) (use : Use) (a : Nat) : Xl :=
  match s.cached k asid a with
  | some e => if e.denies sup use then s.translate (dieOf k) asid sup use a else .ok e
  | none => s.translate (dieOf k) asid sup use a

/-- The place of one virtual or physical address (R24, R27, R236, R240, R265); the trap's address is the address. -/
def State.placeOf (s : State) (k : CoreId) (asid : BitVec 16) (xe sup : Bool) (use : Use) (a : Nat) : Except TrapInfo Place :=
  if 2 ^ 56 ≤ a then .error (Trap.xlate (BitVec.ofNat 64 a))
  else if windowBase ≤ a then .ok (.window (a - windowBase))
  else if xe then
    match s.found k asid sup use a with
    | .xlate => .error (Trap.xlate (BitVec.ofNat 64 a))
    | .wait => .ok .held
    | .ok e =>
      if e.denies sup use then .error (Trap.perm (BitVec.ofNat 64 a)) else .ok (.phys (e.pa + (a - e.first)) e.il)
  else if 2 ^ 52 ≤ a then .error (Trap.xlate (BitVec.ofNat 64 a))
  else .ok (.phys a 2#3)

/-- The words that the translation of an address reads: of the descriptor and its 32 range entries, one in each unit that
they touch, and those of page tables; none when a cached one serves (R232, R237, R238, R241). -/
def State.walked (s : State) (k : CoreId) (asid : BitVec 16) (xe : Bool) (a : Nat) : List Nat :=
  if !xe || decide (windowBase ≤ a) || (s.cached k asid a).isSome then []
  else
    let d := dieOf k
    let desc := s.descAt d asid
    match s.rootOf d asid with
    | none => [desc]
    | some root =>
      (List.range 5).map (fun i => desc + 256 * i)
        ++ (if (rangeFind (s.spaceWord d) desc a 32 0).isSome then [] else s.walkPath a 4 root)

/-- The pieces of n bytes from an address, in ascending order, with fuel (R267: the first faulting byte names the trap). -/
def State.pieces (s : State) (k : CoreId) (asid : BitVec 16) (xe sup : Bool) (use : Use) :
    Nat → Nat → Nat → Except TrapInfo (List Piece)
  | 0, _, _ => .ok []
  | fuel + 1, a, n =>
    if n = 0 then .ok []
    else
      let len := min n (4096 - a % 4096)
      match s.placeOf k asid xe sup use a with
      | .error t => .error t
      | .ok p =>
        match s.pieces k asid xe sup use fuel (a + len) (n - len) with
        | .error t => .error t
        | .ok rest => .ok ({ a := a, len := len, at_ := p, walk := s.walked k asid xe a } :: rest)

/-- The pieces of an access of n bytes. -/
def State.split (s : State) (k : CoreId) (asid : BitVec 16) (xe sup : Bool) (use : Use) (a n : Nat) :
    Except TrapInfo (List Piece) :=
  s.pieces k asid xe sup use (n / 4096 + 2) a n

end Sys2Proof.Machine
end

