-- ==== Sys2Proof/Machine/DieRegs.lean ====
section
/-! DEFINITION. The registers of the die control spaces and of the core configuration space (R210, R211, R242, R243, R440,
R441, R452), and the feature vector (R460). -/

namespace Sys2Proof.Machine

/-- The bits of a word at and above a position, up to another. -/
def keepBits (w : Word) (lo len : Nat) : Word := field w lo len <<< lo

/-- A seat map register: one byte for each of eight tables (R440). -/
def Die.seatmapWord (d : Die) (first : Nat) : Word :=
  BitVec.ofNat 64 (bytesToNat ((List.range 8).map (fun i => d.seatmap.get 0#8 (BitVec.ofNat 4 (first + i)))))

/-- PKGID.NK (R440). -/
def nearKind : BitVec 1 := if Config.nearIsHbm4 then 1#1 else 0#1

/-- The feature vector that the device reports (R460): GENC, NK, EPI, KFOUR, ATTN. -/
def featureVector : BitVec 128 := 0xE08#128 ||| (nearKind.zeroExtend 128 <<< 8)

/-- A loader accepts an image that requires these features (R460). -/
def featuresAccepted (freq : BitVec 128) : Bool :=
  decide ((freq.truncate 8 : BitVec 8).toNat ≤ (featureVector.truncate 8 : BitVec 8).toNat)
    && decide (freq.extractLsb' 8 120 &&& ~~~(featureVector.extractLsb' 8 120) = 0#120)

/-- An 8-byte read of a die control space; an offset that names no register reads zero (log entry 10). -/
def State.dieRead (s : State) (d : DieId) (off : Nat) : Word :=
  let x := s.die d
  match off with
  | 0x0000 => nearKind.zeroExtend 64 ||| (d.zeroExtend 64 <<< 1)
  | 0x0008 => x.dready.zeroExtend 64
  | 0x0010 => x.seatmapWord 0
  | 0x0018 => x.seatmapWord 8
  | 0x1000 => x.tiva
  | 0x1008 => x.tilen
  | 0x1010 => x.tictl
  | 0x1018 => if x.busy.isSome then 1#64 else 0#64
  | 0x1020 => x.asdt
  | 0x100000 => x.fqbase
  | 0x100008 => x.fqtail.zeroExtend 64
  | 0x100010 => x.fqhead.zeroExtend 64
  | _ => 0#64

/-- A write to TICTL: ignored while BUSY; with GO it starts the invalidation of TIVA and TILEN (R242, R243). -/
def Die.writeTictl (x : Die) (v : Word) : Die :=
  if x.busy.isSome then x
  else
    let x' := { x with tictl := keepBits v 0 17 }
    if bit v 63 then
      let first := (field x.tiva 12 44).toNat * 4096
      let n := x.tilen.toNat
      let sd : Shootdown :=
        { asid := v.truncate 16, all := bit v 16, first := if n = 0 then 0 else first,
          last := if n = 0 then 2 ^ 56 - 1 else first + n * 4096 - 1 }
      { x' with busy := some sd }
    else x'

/-- A write to IPOST posts an interrupt to a core of the package, with the cause word of source 9 (R440, R444). -/
def State.writeIpost (s : State) (v : Word) : State :=
  s.modCore (v.extractLsb' 0 11) (fun c => { c with irq := c.irq ++ [9#64 ||| (field v 16 16 <<< 16)] })

/-- An 8-byte write of a die control space; a register without writable bits, or an offset that names none, ignores it
(R8, R242, R440, R452). -/
def State.dieWrite (s : State) (d : DieId) (off : Nat) (v : Word) : State :=
  match off with
  | 0x0020 => s.writeIpost v
  | 0x1000 => s.modDie d (fun x => { x with tiva := keepBits v 12 44 })
  | 0x1008 => s.modDie d (fun x => { x with tilen := keepBits v 0 32 })
  | 0x1010 => s.modDie d (fun x => x.writeTictl v)
  | 0x1020 => s.modDie d (fun x => { x with asdt := keepBits v 12 40 })
  | 0x100000 => s.modDie d (fun x => { x with fqbase := keepBits v 12 40 })
  | 0x100008 => s.modDie d (fun x => { x with fqtail := v.truncate 7 })
  | _ => s

/-- The 32-bit remap entry at an offset of the core configuration space; the rest reads zero (R210, R211). -/
def Core.cfgRead (c : Core) (off : Nat) : BitVec 32 :=
  if off < 0x2000 then c.tower.remap.get 0#32 (BitVec.ofNat 11 (off / 4)) else 0#32

/-- Write a remap entry: V and ROW are writable (R211). -/
def Core.cfgWrite (c : Core) (off : Nat) (v : BitVec 32) : Core :=
  if off < 0x2000 then
    { c with tower := { c.tower with remap := c.tower.remap.set (BitVec.ofNat 11 (off / 4)) (v &&& 0x8000003F#32) } }
  else c

end Sys2Proof.Machine
end

