-- ==== Sys2Proof/Machine/Access.lean ====
section
/-! DEFINITION. Accesses: where each kind may go (R266, R343), poison (R205 to R207, R226, R267), reading and writing. -/

namespace Sys2Proof.Machine

/-- What a piece of an access reaches. -/
inductive Target where
  | tower (k : CoreId) (off : Nat)
  | ext (far : Bool) (t : Nat) (il : BitVec 3)
  | host (off : Nat)
  | rom (off : Nat)
  | aperture (k : CoreId) (off : Nat)
  | die (d : DieId) (off : Nat)
  | config (off : Nat)
  | nothing
  /-- not known while the translation waits for a stack -/
  | held
deriving DecidableEq, Repr

/-- The target of a place; a tier that is not usable is treated as unpopulated (R441). -/
def State.targetOf (s : State) (k : CoreId) : Place → Target
  | .window off => .tower k off
  | .phys pa il =>
    match regionOf pa with
    | .rom off => .rom off
    | .near t => if s.tierUsable false then .ext false t il else .nothing
    | .far t => if s.tierUsable true then .ext true t il else .nothing
    | .host off => .host off
    | .aperture k' off => .aperture k' off
    | .die d off => .die d off
    | .config off => .config off
    | .nothing => .nothing
  | .held => .held

/-- The kinds of access whose regions R266, R343 and R362 give. -/
inductive Kind where
  | ld | st | amo | vld | vst | shld | row | poison | drd | dwr | datom | fetch | head
deriving DecidableEq, Repr

/-- Is the access a write for translation (R240). -/
def Kind.use : Kind → Use
  | .ld => .read | .vld => .read | .shld => .read | .drd => .read | .row => .read
  | .st => .write | .amo => .write | .vst => .write | .poison => .write | .dwr => .write | .datom => .write
  | .head => .write
  | .fetch => .fetch

/-- The region rules (R266, R343, R362, R210, R242): the trap at an address, or none. `n` is the size of the whole access. -/
def regionTrap (kind : Kind) (sup : Bool) (a n : Nat) : Target → Option TrapInfo
  | .tower _ _ => if kind = .head then some (Trap.perm (BitVec.ofNat 64 a)) else none
  | .ext _ _ _ => if kind = .row ∨ kind = .head then some (Trap.perm (BitVec.ofNat 64 a)) else none
  | .host _ =>
    match kind with
    | .ld => none | .st => none | .vld => none | .vst => none | .drd => none | .dwr => none | .fetch => none
    | _ => some (Trap.perm (BitVec.ofNat 64 a))
  | .rom _ =>
    match kind with
    | .ld => none | .vld => none | .shld => none | .drd => none | .fetch => none
    | _ => some (Trap.perm (BitVec.ofNat 64 a))
  | .aperture _ _ =>
    match kind with
    | .drd => none | .dwr => none | .head => none
    | _ => some (Trap.perm (BitVec.ofNat 64 a))
  | .die _ _ =>
    match kind with
    | .ld | .st =>
      if n ≠ 8 then some (Trap.align (BitVec.ofNat 64 a)) else if !sup then some Trap.priv else none
    | _ => some (Trap.perm (BitVec.ofNat 64 a))
  | .config _ =>
    match kind with
    | .ld | .st =>
      if n < 4 then some (Trap.align (BitVec.ofNat 64 a)) else if !sup then some Trap.priv else none
    | _ => some (Trap.perm (BitVec.ofNat 64 a))
  | .nothing => some (if kind = .head then Trap.perm (BitVec.ofNat 64 a) else Trap.xlate (BitVec.ofNat 64 a))
  | .held => none

/-- The first region trap of the pieces of an access. -/
def State.regionTraps (s : State) (k : CoreId) (kind : Kind) (sup : Bool) (n : Nat) (ps : List Piece) : Option TrapInfo :=
  ps.findSome? (fun p => regionTrap kind sup p.a n (s.targetOf k p.at_))

/-- A sector belongs to a memory device behind the host's switches, which a CXL 2.0 host's link cannot reach (R437). -/
def State.hostApart (s : State) (sec : Nat) : Bool :=
  (s.pkg.link.map (fun l => l.host)) == some .cxl20
    && s.host.devices.any (fun r => decide (r.1 ≤ sec) && decide (sec < r.1 + r.2))

/-- How the host completes a request to a sector of its memory, when not with data (R437, R438). -/
def State.hostAnswer (s : State) (sec : Nat) : Option HostAnswer :=
  if s.hostApart sec then some .unsupported else s.host.bad.get none sec

/-- The lowest of n bytes that the host refuses, counted from the first (R438). -/
def State.hostRefuses (s : State) (off n : Nat) : Option Nat :=
  ((sectorsOf off n).find? (fun o =>
    match s.hostAnswer (o / 32) with
    | some .unsupported => true
    | some .abort => true
    | _ => false)).map (fun o => o - off)

/-- The first sector of n bytes that the host completes with poison (R438). -/
def State.hostPoison (s : State) (off n : Nat) : Option Nat :=
  (sectorsOf off n).find? (fun o => decide (s.hostAnswer (o / 32) = some .poisoned))

/-- The host completes a request with anything but data. -/
def State.hostBad (s : State) (off n : Nat) : Bool := (s.hostRefuses off n).isSome || (s.hostPoison off n).isSome

/-- The address of a sector as the instruction names it (R471). -/
def namedSector (a off o : Nat) : Word := BitVec.ofNat 64 ((a / 32 + (o / 32 - off / 32)) * 32)

/-- The host refuses a byte of a piece (R438). -/
def State.pieceRefused (s : State) (k : CoreId) (p : Piece) : Option TrapInfo :=
  match s.targetOf k p.at_ with
  | .host off => (s.hostRefuses off p.len).map (fun i => Trap.xlate (BitVec.ofNat 64 (p.a + i)))
  | _ => none

/-- The poison that consuming the bytes of a piece meets (R206, R226, R438). -/
def State.piecePoison (s : State) (k : CoreId) (p : Piece) : Option TrapInfo :=
  match s.targetOf k p.at_ with
  | .tower k' off => ((s.core k').tower.firstPoison off p.len).map (fun o => Trap.tpoison (namedSector p.a off o))
  | .ext far t il => (s.extPoison far t p.len il).map (fun o => Trap.hpoison (namedSector p.a t o))
  | .host off => (s.hostPoison off p.len).map (fun o => Trap.hpoison (namedSector p.a off o))
  | _ => none

/-- What an access meets at its pieces, all checks of addresses passed: a refusal of the host, and, if it consumes the
bytes, poison (R267). -/
def State.piecesBad (s : State) (k : CoreId) (consume : Bool) (ps : List Piece) : Option TrapInfo :=
  (ps.findSome? (s.pieceRefused k)).orElse (fun _ => if consume then ps.findSome? (s.piecePoison k) else none)

/-- What a read of a tower mends and reports (R205). -/
def State.scrubTower (s : State) (k' : CoreId) (off n : Nat) : State :=
  let c := s.core k'
  let (t, n1, n2) := c.tower.scrub off n
  if n1 = 0 ∧ n2 = 0 then s
  else
    let s1 := s.setCore k' { c with tower := t }
    let s2 := if n1 = 0 then s1 else s1.event (dieOf k') 1 (tableOf k').toNat
    if n2 = 0 then s2 else s2.event (dieOf k') 2 (tableOf k').toNat

/-- What the walker's reads find and mend on their way (R232). -/
def State.touchWalk (s : State) (p : Piece) : State :=
  p.walk.foldl (fun s a =>
    match tierOf a with
    | some (far, t) => s.extTouch far t 8 2#3
    | none => s) s

/-- The errors a read finds and mends on its way: lost units of the tables, check bits in a tower, lost units in a tier
(R205, R232). -/
def State.touchPiece (s : State) (k : CoreId) (p : Piece) : State :=
  let s := s.touchWalk p
  match s.targetOf k p.at_ with
  | .tower k' off => s.scrubTower k' off p.len
  | .aperture k' off => s.scrubTower k' off p.len
  | .ext far t il => s.extTouch far t p.len il
  | _ => s

/-- The piece waits for its translation, or for a stack it needs (R232, R233, R235). -/
def State.pieceStalled (s : State) (k : CoreId) (write : Bool) (p : Piece) : Bool :=
  match s.targetOf k p.at_ with
  | .ext far t il => s.extBlocked far t p.len il write
  | .held => true
  | _ => false

/-- The piece needs a packet, and its core has 256 outstanding (R224). -/
def State.pieceFull (s : State) (k : CoreId) (p : Piece) : Bool :=
  match s.targetOf k p.at_ with
  | .ext _ _ _ => decide (256 ≤ s.packetsOut k)
  | _ => false

/-- Some bytes of memory share one with a packet's. -/
def Packet.touches (p : Packet) (a n : Nat) : Bool :=
  decide (p.span.1.toNat < a + n) && decide (a < p.span.1.toNat + p.span.2.2)

/-- The piece comes behind a packet of its own core to a common byte, sent earlier and not performed (R225, R258). -/
def State.pieceBehind (s : State) (k : CoreId) (p : Piece) : Bool :=
  match p.at_ with
  | .phys pa _ =>
    s.hbm.any (fun e =>
      e.2.queue.any (fun q => decide (q.pkt.src = k) && q.pkt.touches pa p.len)
        || e.2.sent.any (fun x => decide (x.pkt.src = k) && x.pkt.touches pa p.len))
  | _ => false

/-- The piece must wait (R224, R225, R232, R233, R235). -/
def State.pieceBlocked (s : State) (k : CoreId) (write : Bool) (p : Piece) : Bool :=
  s.pieceStalled k write p || s.pieceFull k p || s.pieceBehind k p

/-- The bytes of a target. -/
def State.readTarget (s : State) (k : CoreId) (n : Nat) : Target → List (BitVec 8)
  | .tower k' off => (s.core k').tower.read off n
  | .ext far t il => s.extRead far t n il
  | .host off => Memory.read s.host.cells off n
  | .rom off => Memory.read s.rom ((dieOf k).toNat * 2 ^ 20 + off) n
  | .aperture k' off => (s.core k').tower.read off n
  | .die d off => natToBytes n (s.dieRead d off).toNat
  | .config off =>
    if n = 4 then natToBytes 4 ((s.core k).cfgRead off).toNat
    else natToBytes 4 ((s.core k).cfgRead off).toNat ++ natToBytes 4 ((s.core k).cfgRead (off + 4)).toNat
  | .nothing => List.replicate n 0#8
  | .held => List.replicate n 0#8

/-- A write to host memory; a sector it covers whole is no longer poisoned (R207, R438). -/
def HostMem.write (m : HostMem) (off : Nat) (bs : List (BitVec 8)) : HostMem :=
  { m with
    cells := Memory.write m.cells off bs
    bad := (wholeSectors off bs.length).foldl (fun b o =>
      if b.get none (o / 32) = some .poisoned then b.set (o / 32) none else b) m.bad }

/-- Write bytes at a target. -/
def State.writeTarget (s : State) (k : CoreId) (bs : List (BitVec 8)) : Target → State
  | .tower k' off => s.modCore k' (fun c => c.towerWrite off bs)
  | .ext far t il => s.extWrite far t il bs
  | .host off => { s with host := s.host.write off bs }
  | .rom _ => s
  | .aperture k' off => s.modCore k' (fun c => c.towerWrite off bs)
  | .die d off => s.dieWrite d off (BitVec.ofNat 64 (bytesToNat bs))
  | .config off =>
    if bs.length = 4 then s.modCore k (fun c => c.cfgWrite off (BitVec.ofNat 32 (bytesToNat bs)))
    else s.modCore k (fun c => (c.cfgWrite off (BitVec.ofNat 32 (bytesToNat bs))).cfgWrite (off + 4)
      (BitVec.ofNat 32 (bytesToNat (bs.drop 4))))
  | .nothing => s
  | .held => s

/-- The bytes of an access, piece by piece. -/
def State.readPieces (s : State) (k : CoreId) (ps : List Piece) : List (BitVec 8) :=
  ps.flatMap (fun p => s.readTarget k p.len (s.targetOf k p.at_))

/-- Write the bytes of an access, piece by piece. -/
def State.writePieces (s : State) (k : CoreId) : List Piece → List (BitVec 8) → State
  | [], _ => s
  | p :: ps, bs => (s.writeTarget k (bs.take p.len) (s.targetOf k p.at_)).writePieces k ps (bs.drop p.len)

/-- The outcome of an access: what it gives, with the state after it; a trap; or it waits for a stack (R235). -/
inductive Got (α : Type) where
  | ok (v : α) (s : State)
  | trap (t : TrapInfo) (s : State)
  | wait

/-- The checks of R267 up to the region rules, in order: address bits, alignment (0: none asked), translation, region.
DEDUCED, log entry 13. -/
def State.check (s : State) (k : CoreId) (asid : BitVec 16) (xe sup : Bool) (kind : Kind) (al a n : Nat) :
    Except TrapInfo (List Piece) :=
  if 2 ^ 56 ≤ a then .error (Trap.xlate (BitVec.ofNat 64 a))
  else if al ≠ 0 ∧ a % al ≠ 0 then .error (Trap.align (BitVec.ofNat 64 a))
  else
    match s.split k asid xe sup kind.use a n with
    | .error t => .error t
    | .ok ps =>
      match s.regionTraps k kind sup n ps with
      | some t => .error t
      | none => .ok ps

/-- Read the pieces of a checked access; consuming poison traps (R206, R226). -/
def State.consume (s : State) (k : CoreId) (ps : List Piece) : Got (List (BitVec 8)) :=
  if ps.any (s.pieceBlocked k false) then .wait
  else
    let s1 := ps.foldl (fun s p => s.touchPiece k p) s
    match s1.piecesBad k true ps with
    | some t => .trap t s1
    | none => .ok (s1.readPieces k ps) s1

/-- Write the pieces of a checked access; a write never traps on poison (R267). -/
def State.deliver (s : State) (k : CoreId) (ps : List Piece) (bs : List (BitVec 8)) : Got Unit :=
  if ps.any (s.pieceBlocked k true) then .wait
  else
    match s.piecesBad k false ps with
    | some t => .trap t s
    | none => .ok () ((ps.foldl State.touchWalk s).writePieces k ps bs)

/-- The place some bytes on. -/
def Place.plus (i : Nat) : Place → Place
  | .window off => .window (off + i)
  | .phys pa il => .phys (pa + i) il
  | .held => .held

/-- The bytes of a piece, each as a piece. -/
def Piece.each (p : Piece) : List Piece :=
  (List.range p.len).map (fun i => { a := p.a + i, len := 1, at_ := p.at_.plus i })

/-- The physical bytes of a piece, the window being the core's aperture (R244). -/
def Piece.span (k : CoreId) (p : Piece) : Nat × Nat :=
  match p.at_ with
  | .window off => (apertureAddr k off, p.len)
  | .phys pa _ => (pa, p.len)
  | .held => (0, 0)

/-- Two sets of ranges share a byte. -/
def rangesMeet (xs ys : List (Nat × Nat)) : Bool :=
  xs.any (fun a => ys.any (fun b => decide (a.1 < b.1 + b.2) && decide (b.1 < a.1 + a.2)))

/-- The pieces lie in memory, not among the registers of a device. -/
def State.inMemory (s : State) (k : CoreId) (ps : List Piece) : Bool :=
  ps.all (fun p => match s.targetOf k p.at_ with
    | .tower _ _ => true | .ext _ _ _ => true | .host _ => true | _ => false)

/-- A late store takes no part in what the device's registers do; of memory, its bytes before and after are kept
(R248, R260). DESIGN CHOICE, log entry 7. -/
def State.noteLate (s : State) (k : CoreId) (ps : List Piece) (old new : List (BitVec 8)) (s' : State) : State :=
  if s.inMemory k ps then
    let group := ((s'.late.map (fun l => l.group)).foldl max 0) + 1
    { s' with late := ((ps.flatMap Piece.each).zip (old.zip new)).map (fun b =>
        { core := k, at_ := b.1, old := b.2.1, new := b.2.2, group := group }) ++ s'.late }
  else s'

/-- What an engine of a core finds in place of the late stores: each is, on its own, seen or not yet seen; of one that the
engine reads in other units than whole aligned 8-byte words, each unit is, `torn` naming the unit of a byte; a byte written
since is seen, and one under a newer store that is seen (R7, R245, R248, R260). The state with the unseen bytes taken back,
and those, newest first. -/
def State.takeBack (s : State) (k : CoreId) (torn : Nat → Option Nat) : List Place → List Late → State × List Late
  | _, [] => (s, [])
  | gone, l :: rest =>
    let pick :=
      match torn (l.at_.span k).1 with
      | some u => 2 * (u * 2 ^ 20 + l.group) + 1
      | none => 2 * l.group
    if l.core ≠ k then s.takeBack k torn gone rest
    else if !Config.freeBool s.tick pick && !gone.contains l.at_.at_ && decide (s.readPieces k [l.at_] = [l.new]) then
      let r := (s.writePieces k [l.at_] [l.old]).takeBack k torn gone rest
      (r.1, l :: r.2)
    else s.takeBack k torn (l.at_.at_ :: gone) rest

/-- The unseen bytes are performed after what an engine did, over what it left there (R249). -/
def State.putBack (s : State) (k : CoreId) : List Late → State × List Late
  | [] => (s, [])
  | l :: rest =>
    let r := s.putBack k rest
    (r.1.writePieces k [l.at_] [l.new], { l with old := (r.1.readPieces k [l.at_]).headD 0#8 } :: r.2)

/-- Run something of an engine or of a base die as it may see the late stores of core k: the unseen ones come after it. -/
def State.around (s : State) (k : CoreId) (torn : Nat → Option Nat) (f : State → State) : State :=
  if s.late.any (fun l => decide (l.core = k)) then
    let r := s.takeBack k torn [] s.late
    let s1 := f r.1
    if s1 = r.1 then s
    else
      let s2 := s1.putBack k r.2
      { s2.1 with late := s2.2 ++ s2.1.late.filter (fun (l : Late) => decide (l.core ≠ k)) }.advanceTick
  else f s

/-- The control unit of a core accesses some bytes: what it read of them ahead serves no load to come (R26, R249). -/
def State.forget (s : State) (k : CoreId) (ps : List Piece) : State :=
  { s with early := s.early.filter (fun e =>
      decide (e.core ≠ k) || !rangesMeet (e.ps.map (Piece.span k)) (ps.map (Piece.span k))) }

/-- What a load of a core read ahead of its turn (R248); none for one that pops tokens, which reads after the pop (R247). -/
def State.ahead (s : State) (k : CoreId) (t : Option Tok) (ps : List Piece) : Option (List (BitVec 8)) :=
  if (t.map (fun t => t.waits.isEmpty)).getD true then
    (s.early.find? (fun e => decide (e.core = k) && decide (e.ps = ps))).map (fun e => e.bytes)
  else none

/-- A checked read of n bytes (R267). -/
def State.load (s : State) (k : CoreId) (asid : BitVec 16) (xe sup : Bool) (kind : Kind) (al a n : Nat) :
    Got (List (BitVec 8)) :=
  match s.check k asid xe sup kind al a n with
  | .error t => .trap t s
  | .ok ps => s.consume k ps

/-- A checked write of bytes (R267). -/
def State.store (s : State) (k : CoreId) (asid : BitVec 16) (xe sup : Bool) (kind : Kind) (al a : Nat)
    (bs : List (BitVec 8)) : Got Unit :=
  match s.check k asid xe sup kind al a bs.length with
  | .error t => .trap t s
  | .ok ps => s.deliver k ps bs

/-- A checked read and write of one location, with nothing between (R262): the value f makes of what was read, and what
was read. -/
def State.rmw (s : State) (k : CoreId) (asid : BitVec 16) (xe sup : Bool) (kind : Kind) (a n : Nat) (f : Nat → Nat) :
    Got Nat :=
  match s.check k asid xe sup kind n a n with
  | .error t => .trap t s
  | .ok ps =>
    if ps.any (s.pieceBlocked k true) then .wait
    else
      match s.consume k ps with
      | .trap t s' => .trap t s'
      | .wait => .wait
      | .ok bs s' => .ok (bytesToNat bs) (s'.writePieces k ps (natToBytes n (f (bytesToNat bs))))

/-- The new value of an atomic (R272); FP32 add rounds RNE, keeps subnormals, and changes no flag. DEDUCED, log entry 62. -/
def atomicNew (aop : BitVec 4) (w : Nat) (old v e : Nat) : Nat :=
  match aop.toNat with
  | 0 => (old + v) % 2 ^ w
  | 1 => old &&& v
  | 2 => old ||| v
  | 3 => old ^^^ v
  | 4 => if sextInt w old ≤ sextInt w v then old else v
  | 5 => if sextInt w v ≤ sextInt w old then old else v
  | 6 => min old v
  | 7 => max old v
  | 8 => v
  | 9 => if old = e then v else old
  | _ => (Fmt.fp32.round .rne (Val.add .rne (Fmt.fp32.decode old) (Fmt.fp32.decode v)).1).1

/-- The old value as an atomic returns it (R272). -/
def atomicOld (aop : BitVec 4) (sz : BitVec 1) (old : Nat) : Word :=
  if sz = 1#1 then BitVec.ofNat 64 old
  else if aop = 10#4 then BitVec.ofNat 64 old
  else BitVec.ofInt 64 (sextInt 32 old)

end Sys2Proof.Machine
end

