-- ==== Sys2Proof/Machine/CtlMem.lean ====
section
/-! DEFINITION. The control unit's memory instructions: loads, stores, atomics, the tag table, rows, rings, shapes, refresh
deferral and poison (R265 to R291). -/

namespace Sys2Proof.Machine

/-- A control access of n bytes: a load under the core's own address space and level. -/
def State.ctlLoad (s : State) (k : CoreId) (kind : Kind) (al a n : Nat) : Got (List (BitVec 8)) :=
  let c := (s.core k).ctl
  s.load k c.asid c.xe c.sup kind al a n

/-- The effective address of a scalar load or store (R265). -/
def ctlEa (c : Ctl) (a : BitVec 5) (i : BitVec 14) : Nat := (c.reg a + i.signExtend 64).toNat

/-- A control unit reads an aligned location ahead of a load to come (R248): memory alone, and nothing that waits or
traps. DESIGN CHOICE, log entry 83. -/
def readAhead (k : CoreId) (a n : Nat) (s : State) : State :=
  let c := (s.core k).ctl
  match s.check k c.asid c.xe c.sup .ld n a n with
  | .error _ => s
  | .ok ps =>
    if s.inMemory k ps then
      match s.consume k ps with
      | .ok bs s' => { (s'.forget k ps) with early := { core := k, ps := ps, bytes := bs } :: (s'.forget k ps).early }
      | _ => s
    else s

/-- A scalar load of n bytes whose value `f` widens (R268); it may have been read ahead of its turn (R248). -/
def loadBody (d a : BitVec 5) (i : BitVec 14) (n : Nat) (f : Nat → Word) (t : Option Tok) (k : CoreId) (s : State) : Eff :=
  let c := (s.core k).ctl
  match s.check k c.asid c.xe c.sup .ld n (ctlEa c a i) n with
  | .error tr => .trap tr s
  | .ok ps =>
    match s.ahead k t ps with
    | some bs => .done ((s.forget k ps).setReg k d (f (bytesToNat bs)))
    | none =>
      match s.consume k ps with
      | .ok bs s' => .done ((s'.forget k ps).setReg k d (f (bytesToNat bs)))
      | .trap tr s' => .trap tr s'
      | .wait => .wait s

/-- A scalar store of the low n bytes of a register (R268); the engines of the core see it with the next token or fence
(R247, R260). -/
def storeBody (d a : BitVec 5) (i : BitVec 14) (n : Nat) (k : CoreId) (s : State) : Eff :=
  let c := (s.core k).ctl
  let bs := natToBytes n (c.reg d).toNat
  match s.check k c.asid c.xe c.sup .st n (ctlEa c a i) n with
  | .error t => .trap t s
  | .ok ps =>
    match s.deliver k ps bs with
    | .ok _ s' => .done ((s.noteLate k ps (s.readPieces k ps) bs s').forget k ps)
    | .trap t s' => .trap t s'
    | .wait => .wait s

/-- `amo` (R272, R273): d gets the old value, the location the new one. -/
def amoBody (d a b : BitVec 5) (o : BitVec 4) (z : BitVec 1) (k : CoreId) (s : State) : Eff :=
  let c := (s.core k).ctl
  let n := if z = 1#1 then 8 else 4
  let v := (c.reg b).toNat % 2 ^ (8 * n)
  let e := (c.reg d).toNat % 2 ^ (8 * n)
  match s.rmw k c.asid c.xe c.sup .amo (c.reg a).toNat n (fun old => atomicNew o (8 * n) old v e) with
  | .ok old s' =>
    .done ((match s.check k c.asid c.xe c.sup .amo n (c.reg a).toNat n with
      | .ok ps => s'.forget k ps
      | .error _ => s').setReg k d (atomicOld o z old))
  | .trap t s' => .trap t s'
  | .wait => .wait s

/-! ## The tag table (R279 to R282) -/

/-- What `tlook` finds for an address (R279). -/
def tlookWord (c : Core) (a : Nat) : Word :=
  match (if 2 ^ 56 ≤ a then none else c.tagFind (fun e => tagHits e a)) with
  | none => BitVec.allOnes 64
  | some (i, e) =>
    BitVec.ofNat 64 ((if tagClean e then 2 ^ 62 else 0) + i.toNat * 2 ^ 32
      + (512 * tagLine e + a % (512 * 2 ^ tagSz e)) % 2 ^ 25)

/-- `tlook` (R279). -/
def tlookBody (d a : BitVec 5) (k : CoreId) (s : State) : Eff :=
  .done (s.setReg k d (tlookWord (s.core k) (s.reg k a).toNat))

/-- `tset`'s second operand obeys the table of R280. -/
def tsetBok (sz : Nat) (b : Word) : Bool :=
  let line := (field b 10 16).toNat
  decide (field b 28 36 = 0#64) && decide (line % 2 ^ sz = 0) && decide (line + 2 ^ sz ≤ 65536)
/-- `tset`'s first operand obeys the table of R280. -/
def tsetAok (sz : Nat) (a : Word) : Bool :=
  decide (field a 56 8 = 0#64) && decide (field a 3 6 = 0#64) && decide ((field a 9 47).toNat % 2 ^ sz = 0)

/-- `tset`: one whole entry from two registers (R280). -/
def tsetBody (a b : BitVec 5) (k : CoreId) (s : State) : Eff :=
  let va := s.reg k a
  let vb := s.reg k b
  let sz := (field va 0 3).toNat
  if !tsetBok sz vb then .trap (Trap.illenc vb) s
  else if !tsetAok sz va then .trap (Trap.illenc va) s
  else
    let e := tagMake (bit vb 27) (bit vb 26) (field vb 10 16).toNat sz (field va 9 47).toNat
    .done (s.modCore k (fun c => { c with tags := c.tags.set (vb.truncate 10) e }))

/-- `tclr`: one entry, or every entry (R281). -/
def tclrBody (a : BitVec 5) (k : CoreId) (s : State) : Eff :=
  let va := s.reg k a
  if field va 11 53 ≠ 0#64 then .trap (Trap.illenc va) s
  else
    .done (s.modCore k (fun c => { c with tags := if bit va 10 then [] else c.tags.erase (va.truncate 10) }))

/-! ## Rows (R283, R196) -/

/-- `rowpin` (R196, R283). -/
def rowpinBody (d a : BitVec 5) (keep : BitVec 1) (k : CoreId) (s : State) : Eff :=
  let c := s.core k
  let va := c.reg a
  match s.check k c.ctl.asid c.ctl.xe c.ctl.sup .row 0 va.toNat 1 with
  | .error t => .trap t s
  | .ok ps =>
    if ps.any (s.pieceBlocked k false) then .wait s
    else
    match c.tower.pin d (BitVec.ofNat 16 ((va.toNat - windowBase) / 512)) (decide (keep = 1#1)) with
    | none => .trap (Trap.perm va) s
    | some t =>
      .done (s.setCore k { c with tower := t, ctl := { c.ctl with cst := setBit c.ctl.cst (32 + d.toNat) false } })

/-- `rowwb` and `rowrel` (R196). -/
def rowBody (f : Tower → Tower) (k : CoreId) (s : State) : Eff :=
  .done (s.modCore k (fun c => { c with tower := f c.tower }))

/-! ## Rings (R284, R285) -/

/-- The descriptor `ring.init` writes (R215, R284). -/
def ringDesc (off count size : Nat) : Word :=
  let u := size / 32 - 1
  BitVec.ofNat 64 (2 ^ 63 + count * 2 ^ 44 + (count - 1) * 2 ^ 26 + (u % 64) * 2 ^ 20
    + (if 64 ≤ u then 2 ^ 19 else 0) + off / 64)

/-- `ring.init`: the four checks in order, then the descriptor (R284). -/
def ringInitBody (d a b : BitVec 5) (k : CoreId) (s : State) : Eff :=
  let va := s.reg k a
  let vb := s.reg k b
  let off := va.toNat - windowBase
  let count := (field vb 0 7).toNat
  let size := (field vb 16 13).toNat
  if va.toNat < windowBase ∨ 2 ^ 56 ≤ va.toNat then .trap (Trap.perm va) s
  else if off % 64 ≠ 0 then .trap (Trap.illenc va) s
  else if field vb 7 9 ≠ 0#64 ∨ field vb 29 35 ≠ 0#64 ∨ count = 0 ∨ 64 < count ∨ size % 32 ≠ 0 ∨ size < 32 ∨ 4096 < size then
    .trap (Trap.illenc vb) s
  else if towerSize < off + count * size then .trap (Trap.illenc va) s
  else .done (s.modCore k (fun c => c.setRing (d.truncate 4) { desc := ringDesc off count size, slots := [] }))

/-- The control or vector side of a core as a ring owner (R215). -/
def ctlOwner (k : CoreId) : BitVec 4 := memberOf k ++ 0#2

/-- `ring.acq` (R285): the loads that follow it find what fills the slot (R216). DESIGN CHOICE, log entry 83. -/
def ringAcqBody (d a : BitVec 5) (k : CoreId) (s : State) : Eff :=
  let c := s.core k
  let n : BitVec 4 := a.truncate 4
  if !(c.ring n).val then .trap (Trap.perm (n.zeroExtend 64)) s
  else
    match (c.ring n).acquireDrain (ctlOwner k) with
    | none => .wait s
    | some (i, r) =>
      .done ((s.awaited k).setCore k ((c.setRing n r).setReg d (BitVec.ofNat 64 (windowAddr ((c.ring n).slotOff i)))))

/-- `ring.rel` (R285). -/
def ringRelBody (a : BitVec 5) (k : CoreId) (s : State) : Eff :=
  let c := s.core k
  let n : BitVec 4 := a.truncate 4
  let r := c.ring n
  match (if r.val then (r.oldestDraining (ctlOwner k)).bind (r.releaseDrain (ctlOwner k)) else none) with
  | none => .trap (Trap.perm (n.zeroExtend 64)) s
  | some r' => .done (s.setCore k (c.setRing n r'))

/-! ## Shape registers (R286 to R289) -/

/-- A core's shape register. -/
def Core.shape (c : Core) (n : BitVec 4) : BitVec 512 := c.shapes.get 0#512 n

/-- Reserved bits of a shape image are zero (R286, R289). -/
def shapeOk (x : BitVec 512) : Bool :=
  let w (n : Nat) : Word := shWord x n
  decide (field (w 0) 57 7 = 0#64) && decide (field (w 1) 13 51 = 0#64) && decide (field (w 2) 56 8 = 0#64)
    && decide (field (w 4) 48 16 = 0#64) && decide (field (w 5) 48 16 = 0#64) && decide (field (w 6) 48 16 = 0#64)
    && decide (w 7 = 0#64)

/-- `shld` (R289). -/
def shldBody (d a : BitVec 5) (k : CoreId) (s : State) : Eff :=
  let va := s.reg k a
  match s.ctlLoad k .shld 64 va.toNat 64 with
  | .ok bs s' =>
    let x : BitVec 512 := BitVec.ofNat 512 (bytesToNat bs)
    if shapeOk x then .done (s'.modCore k (fun c => { c with shapes := c.shapes.set (d.truncate 4) x }))
    else .trap (Trap.illenc va) s'
  | .trap t s' => .trap t s'
  | .wait => .wait s

/-- The value `shset` accepts for a field: sign bits equal for a stride, high bits zero for the rest (R288). -/
def shsetOk (code : Nat) (v : Word) : Bool :=
  let (_, _, len, signed) := shField code
  if signed then decide (field v 47 17 = 0#64) || decide (field v 47 17 = 0x1FFFF#64)
  else decide (v.toNat < 2 ^ len)

/-- `shset` (R288). -/
def shsetBody (d a b : BitVec 5) (k : CoreId) (s : State) : Eff :=
  let va := s.reg k a
  if shsetOk b.toNat va then
    .done (s.modCore k (fun c => { c with shapes := c.shapes.set (d.truncate 4) (shPut (c.shape (d.truncate 4)) b.toNat va) }))
  else .trap (Trap.illenc va) s

/-- `shget`: zero-extended, or sign-extended for a stride (R288). -/
def shgetWord (x : BitVec 512) (code : Nat) : Word :=
  if (shField code).2.2.2 then (shGet x code).truncate 48 |>.signExtend 64 else shGet x code

/-- `shget` (R288). -/
def shgetBody (d a b : BitVec 5) (k : CoreId) (s : State) : Eff :=
  .done (s.setReg k d (shgetWord ((s.core k).shape (a.truncate 4)) b.toNat))

/-! ## Refresh deferral and poison (R290, R291) -/

/-- Mark the subarrays of the lines from one on. -/
def deferMarks (m : Marks) (line : Nat) : Nat → Marks
  | 0 => m
  | n + 1 => deferMarks (Marks.put m (line % 1024) true) (line + 1) n

/-- `refdefer` (R266, R290): the range must begin in the window and stay in it. DEDUCED, log entry 36. -/
def refdeferBody (a b : BitVec 5) (k : CoreId) (s : State) : Eff :=
  let va := s.reg k a
  let vb := s.reg k b
  let c := (s.core k).ctl
  if vb = 0#64 then .done s
  else
    match s.check k c.asid c.xe c.sup .row 0 va.toNat 1 with
    | .error t => .trap t s
    | .ok ps =>
      if ps.any (s.pieceBlocked k false) then .wait s
      else if 2 ^ 56 < va.toNat + vb.toNat then .trap (Trap.perm va) s
      else
        let off := va.toNat - windowBase
        let n := (off + vb.toNat - 1) / 512 - off / 512 + 1
        .done (s.modCore k (fun c =>
          { c with tower := { c.tower with defer := deferMarks c.tower.defer (off / 512) (min n 1024) } }))

/-- Set the poison bit of the sector a piece lies in (R197, R226, R231, R291). -/
def State.poisonAt (s : State) (k : CoreId) (p : Piece) : State :=
  match s.targetOf k p.at_ with
  | .tower k' off => s.modCore k' (fun c => { c with tower := c.tower.setPoison off true })
  | .ext far t il => s.putUnitPoison far (place t il) true
  | _ => s

/-- `poison` (R291). -/
def poisonBody (a : BitVec 5) (k : CoreId) (s : State) : Eff :=
  let c := (s.core k).ctl
  if !c.sup then .trap Trap.priv s
  else
    match s.check k c.asid c.xe c.sup .poison 0 (c.reg a).toNat 1 with
    | .error t => .trap t s
    | .ok ps => if ps.any (s.pieceBlocked k true) then .wait s else .done (ps.foldl (fun s p => s.poisonAt k p) s)

/-- `ld.i8` (R268). -/
def execLdI8 (d a : BitVec 5) (i : BitVec 14) (t : Option Tok) (s : State) : Host.Outcome State Fault Refusal :=
  runC t (loadBody d a i 1 (fun x => BitVec.ofInt 64 (sextInt 8 x)) t) s

/-- `ld.n8` (R268). -/
def execLdN8 (d a : BitVec 5) (i : BitVec 14) (t : Option Tok) (s : State) : Host.Outcome State Fault Refusal :=
  runC t (loadBody d a i 1 (BitVec.ofNat 64) t) s

/-- `ld.i16` (R268). -/
def execLdI16 (d a : BitVec 5) (i : BitVec 14) (t : Option Tok) (s : State) : Host.Outcome State Fault Refusal :=
  runC t (loadBody d a i 2 (fun x => BitVec.ofInt 64 (sextInt 16 x)) t) s

/-- `ld.n16` (R268). -/
def execLdN16 (d a : BitVec 5) (i : BitVec 14) (t : Option Tok) (s : State) : Host.Outcome State Fault Refusal :=
  runC t (loadBody d a i 2 (BitVec.ofNat 64) t) s

/-- `ld.i32` (R268). -/
def execLdI32 (d a : BitVec 5) (i : BitVec 14) (t : Option Tok) (s : State) : Host.Outcome State Fault Refusal :=
  runC t (loadBody d a i 4 (fun x => BitVec.ofInt 64 (sextInt 32 x)) t) s

/-- `ld.n32` (R268). -/
def execLdN32 (d a : BitVec 5) (i : BitVec 14) (t : Option Tok) (s : State) : Host.Outcome State Fault Refusal :=
  runC t (loadBody d a i 4 (BitVec.ofNat 64) t) s

/-- `ld.i64` (R268). -/
def execLdI64 (d a : BitVec 5) (i : BitVec 14) (t : Option Tok) (s : State) : Host.Outcome State Fault Refusal :=
  runC t (loadBody d a i 8 (BitVec.ofNat 64) t) s

/-- `st.i8` (R268). -/
def execStI8 (d a : BitVec 5) (i : BitVec 14) (t : Option Tok) (s : State) : Host.Outcome State Fault Refusal :=
  runC t (storeBody d a i 1) s

/-- `st.i16` (R268). -/
def execStI16 (d a : BitVec 5) (i : BitVec 14) (t : Option Tok) (s : State) : Host.Outcome State Fault Refusal :=
  runC t (storeBody d a i 2) s

/-- `st.i32` (R268). -/
def execStI32 (d a : BitVec 5) (i : BitVec 14) (t : Option Tok) (s : State) : Host.Outcome State Fault Refusal :=
  runC t (storeBody d a i 4) s

/-- `st.i64` (R268). -/
def execStI64 (d a : BitVec 5) (i : BitVec 14) (t : Option Tok) (s : State) : Host.Outcome State Fault Refusal :=
  runC t (storeBody d a i 8) s

/-- `amo` (R272). -/
def execAmo (d a b : BitVec 5) (o : BitVec 4) (z : BitVec 1) (t : Option Tok) (s : State) : Host.Outcome State Fault Refusal :=
  runC t (amoBody d a b o z) s

/-- `tlook` (R279). -/
def execTlook (d a : BitVec 5) (t : Option Tok) (s : State) : Host.Outcome State Fault Refusal := runC t (tlookBody d a) s

/-- `tset` (R280). -/
def execTset (a b : BitVec 5) (t : Option Tok) (s : State) : Host.Outcome State Fault Refusal := runC t (tsetBody a b) s

/-- `tclr` (R281). -/
def execTclr (a : BitVec 5) (t : Option Tok) (s : State) : Host.Outcome State Fault Refusal := runC t (tclrBody a) s

/-- `rowpin` (R283). -/
def execRowpin (d a : BitVec 5) (keep : BitVec 1) (t : Option Tok) (s : State) : Host.Outcome State Fault Refusal :=
  runC t (rowpinBody d a keep) s

/-- `rowwb` (R283). -/
def execRowwb (d : BitVec 5) (t : Option Tok) (s : State) : Host.Outcome State Fault Refusal :=
  runC t (rowBody (fun x => x.rowwb d)) s

/-- `rowrel` (R283). -/
def execRowrel (d : BitVec 5) (t : Option Tok) (s : State) : Host.Outcome State Fault Refusal :=
  runC t (rowBody (fun x => x.release d)) s

/-- `ring.init` (R284). -/
def execRingInit (d a b : BitVec 5) (t : Option Tok) (s : State) : Host.Outcome State Fault Refusal :=
  runC t (ringInitBody d a b) s

/-- `ring.acq` (R285). -/
def execRingAcq (d a : BitVec 5) (t : Option Tok) (s : State) : Host.Outcome State Fault Refusal :=
  runC t (ringAcqBody d a) s

/-- `ring.rel` (R285). -/
def execRingRel (a : BitVec 5) (t : Option Tok) (s : State) : Host.Outcome State Fault Refusal := runC t (ringRelBody a) s

/-- `shld` (R289). -/
def execShld (d a : BitVec 5) (t : Option Tok) (s : State) : Host.Outcome State Fault Refusal := runC t (shldBody d a) s

/-- `shset` (R288). -/
def execShset (d a b : BitVec 5) (t : Option Tok) (s : State) : Host.Outcome State Fault Refusal :=
  runC t (shsetBody d a b) s

/-- `shget` (R288). -/
def execShget (d a b : BitVec 5) (t : Option Tok) (s : State) : Host.Outcome State Fault Refusal :=
  runC t (shgetBody d a b) s

/-- `refdefer` (R290). -/
def execRefdefer (a b : BitVec 5) (t : Option Tok) (s : State) : Host.Outcome State Fault Refusal :=
  runC t (refdeferBody a b) s

/-- `poison` (R291). -/
def execPoison (a : BitVec 5) (t : Option Tok) (s : State) : Host.Outcome State Fault Refusal := runC t (poisonBody a) s

end Sys2Proof.Machine
end

