-- ==== Sys2Proof/Machine/SysRegs.lean ====
section
/-! DEFINITION. System registers, software traps and `eret` at its slot (R17, R18, R21 to R23, R85 to R89, R393). -/

namespace Sys2Proof.Machine

/-- The registers of R21. -/
inductive SysReg where
  | cst | xpc | xcause | xaddr | xvec | asid | cyc | stbank | sttok | stfetch | vrb | prb | cid | sscr
deriving DecidableEq, Repr

/-- The register a number names; the other numbers are unassigned (R21). -/
def SysReg.of (n : BitVec 8) : Option SysReg :=
  match n.toNat with
  | 0 => some .cst | 1 => some .xpc | 2 => some .xcause | 3 => some .xaddr | 4 => some .xvec | 5 => some .asid
  | 6 => some .cyc | 7 => some .stbank | 8 => some .sttok | 9 => some .stfetch | 10 => some .vrb | 11 => some .prb
  | 12 => some .cid | 13 => some .sscr | _ => none

/-- The registers whose access is S-… (R21). -/
def SysReg.isS : SysReg → Bool
  | .xpc => true | .xcause => true | .xaddr => true | .xvec => true | .asid => true | .sscr => true
  | _ => false

/-- A register as it stands (R21); `cid` is the core's place (R23). -/
def SysReg.read (k : CoreId) (c : Ctl) : SysReg → Word
  | .cst => c.cst
  | .xpc => c.xpc.zeroExtend 64
  | .xcause => c.xcause
  | .xaddr => c.xaddr
  | .xvec => c.xvec.zeroExtend 64
  | .asid => c.asid.zeroExtend 64
  | .cyc => c.cyc
  | .stbank => c.stbank
  | .sttok => c.sttok
  | .stfetch => c.stfetch
  | .vrb => c.vrb.zeroExtend 64
  | .prb => c.prb.zeroExtend 64
  | .cid => k.zeroExtend 64
  | .sscr => c.sscr

/-- A stall counter that has advanced by n, saturating (R22). -/
def satAdd (w : Word) (n : Nat) : Word := BitVec.ofNat 64 (min (w.toNat + n) (2 ^ 64 - 1))

/-- The counters advance by a free amount by the time a register that counts is read (R22, R194, R141, R317; log entry 4). -/
def Ctl.elapse (c : Ctl) (n : Nat) : SysReg → Ctl
  | .cyc => { c with cyc := c.cyc + BitVec.ofNat 64 n }
  | .stbank => { c with stbank := satAdd c.stbank n }
  | .sttok => { c with sttok := satAdd c.sttok n }
  | .stfetch => { c with stfetch := satAdd c.stfetch n }
  | _ => c

/-- A register that counts time. -/
def SysReg.counts : SysReg → Bool
  | .cyc => true | .stbank => true | .sttok => true | .stfetch => true
  | _ => false

/-- `mfs` (R85). -/
def mfsBody (x : BitVec 5) (n : BitVec 8) (k : CoreId) (s : State) : Eff :=
  match SysReg.of n with
  | none => .trap (Trap.illenc 0#64) s
  | some r =>
    let c := (s.core k).ctl
    if r.isS && !c.sup then .trap Trap.priv s
    else
      let c' := c.elapse (Config.freeNat s.tick) r
      let s' := s.modCore k (fun y => { y with ctl := c'.setReg x (r.read k c') })
      .done (if r.counts then s'.advanceTick else s')

/-- The bits of `cst` that `mts` writes as given: XE, PIE, IE, PPL, the sticky flags and RM (R17, R18). -/
def cstWritable : Word := 0xF7FC#64
/-- The write-one-to-clear bits of `cst`: PDROP and SUSP (R17). -/
def cstW1c : Word := 0xFFFFFFFF001F0000#64

/-- The value of `cst` after a write (R18). -/
def cstWrite (old w : Word) : Word :=
  (old &&& ~~~(cstWritable ||| cstW1c)) ||| (w &&& cstWritable) ||| (old &&& cstW1c &&& ~~~w)

/-- The write would change an S field (R18): a written 1 counts for SUSP. -/
def cstTouchesS (old w : Word) : Bool := decide (field w 16 5 ≠ 0#64) || decide (field w 12 4 ≠ field old 12 4)

/-- Write a register (R86). -/
def SysReg.write (c : Ctl) (w : Word) : SysReg → Ctl
  | .cst => { c with cst := cstWrite c.cst w }
  | .xpc => { c with xpc := w.truncate 54 }
  | .xcause => { c with xcause := w }
  | .xaddr => { c with xaddr := w }
  | .xvec => { c with xvec := w.truncate 51 }
  | .asid => { c with asid := w.truncate 16 }
  | .cyc => c
  | .stbank => { c with stbank := w }
  | .sttok => { c with sttok := w }
  | .stfetch => { c with stfetch := w }
  | .vrb => { c with vrb := w.truncate 5 }
  | .prb => { c with prb := w.truncate 3 }
  | .cid => c
  | .sscr => { c with sscr := w }

/-- `mts` (R18, R86). -/
def mtsBody (x : BitVec 5) (n : BitVec 8) (k : CoreId) (s : State) : Eff :=
  match SysReg.of n with
  | none => .trap (Trap.illenc 0#64) s
  | some r =>
    let c := (s.core k).ctl
    let w := c.reg x
    if r.isS && !c.sup then .trap Trap.priv s
    else if decide (r = .cst) && !c.sup && cstTouchesS c.cst w then .trap Trap.priv s
    else if decide (r = .cst) && decide (5 ≤ (field w 2 3).toNat) then .trap (Trap.illenc 0#64) s
    else .done (s.modCore k (fun y => { y with ctl := r.write c w }))

/-- `eret` at its slot: the level, DISP and ENG are checked, and the bundle will end in the return (R89, R393). -/
def eretBody (k : CoreId) (s : State) : Eff :=
  let c := (s.core k).ctl
  let disp := field c.xcause 16 2
  let eng := field c.xcause 8 3
  if !c.sup then .trap Trap.priv s
  else if disp = 3#64 ∨ (disp ≠ 0#64 ∧ (eng = 0#64 ∨ eng = 7#64)) then .trap (Trap.illenc 0#64) s
  else .done (s.modCore k (fun c => { c with front := { c.front with pend := .eret } }))

/-- `mfs` (R85). -/
def execMfs (x : BitVec 5) (n : BitVec 8) (t : Option Tok) (s : State) : Host.Outcome State Fault Refusal :=
  runC t (mfsBody x n) s

/-- `mts` (R86). -/
def execMts (x : BitVec 5) (n : BitVec 8) (t : Option Tok) (s : State) : Host.Outcome State Fault Refusal :=
  runC t (mtsBody x n) s

/-- `trap` (R87). -/
def execTrap (i : BitVec 14) (t : Option Tok) (s : State) : Host.Outcome State Fault Refusal :=
  runC t (fun _ s => .after (Trap.bkpt (i.zeroExtend 64)) s) s

/-- `sys` (R87). -/
def execSys (i : BitVec 14) (t : Option Tok) (s : State) : Host.Outcome State Fault Refusal :=
  runC t (fun _ s => .after (Trap.sys (i.zeroExtend 64)) s) s

/-- `eret` (R89). -/
def execEret (t : Option Tok) (s : State) : Host.Outcome State Fault Refusal := runC t eretBody s

end Sys2Proof.Machine
end

