-- ==== Sys2Proof/Machine/Seat.lean ====
section
/-! DEFINITION. Seats, the stream's joins, the vacancy rule and the seat instructions (R138 to R151). -/

namespace Sys2Proof.Machine

/-- The seats of a table whose cores are in a state. -/
def State.seatsIn (s : State) (tb : TableId) (p : SeatState → Bool) : List CoreId :=
  (tableCores tb).filter (fun k => p (s.core k).seat.st)

/-- The seated cores of a table. -/
def State.seated (s : State) (tb : TableId) : List CoreId := s.seatsIn tb (fun x => decide (x = .seated))
/-- The waiting cores of a table, lowest first. -/
def State.waiting (s : State) (tb : TableId) : List CoreId := s.seatsIn tb (fun x => decide (x = .waiting))
/-- The folded cores of a table, waiting ones included (R138). -/
def State.folded (s : State) (tb : TableId) : List CoreId :=
  s.seatsIn tb (fun x => decide (x = .folded) || decide (x = .waiting))

/-- The head seat: the lowest-numbered seated core (R140). -/
def State.head (s : State) (tb : TableId) : Option CoreId := (s.seated tb).head?
/-- The stream is vacant (R142). -/
def State.vacant (s : State) (tb : TableId) : Bool := (s.seated tb).isEmpty && !(s.folded tb).isEmpty

/-- The top of a join stack. -/
def Seat.top (x : Seat) : Option JoinEntry := x.stack.getLast?
/-- A join entry accepts an id (R145). -/
def JoinEntry.accepts (e : JoinEntry) (j : BitVec 4) : Bool :=
  match e with
  | .id i => decide (i = j)
  | .any => true
/-- The top entry accepts an id. -/
def Seat.accepts (x : Seat) (j : BitVec 4) : Bool :=
  match x.top with
  | some e => e.accepts j
  | none => false
/-- Pop the join stack (R145). -/
def Seat.pop (x : Seat) : Seat := { x with stack := x.stack.dropLast }
/-- Pop when the top is exactly j (R150). -/
def Seat.popIf (x : Seat) (j : BitVec 4) : Seat := if x.top = some (.id j) then x.pop else x
/-- The code of the top entry (R151). -/
def Seat.topCode (x : Seat) : Nat :=
  match x.top with
  | some (.id j) => j.toNat
  | some .any => 16
  | none => 31

/-- Change a core's seat record. -/
def State.modSeat (s : State) (k : CoreId) (f : Seat → Seat) : State := s.modCore k (fun c => { c with seat := f c.seat })

/-- The pending set of a join id is empty (R146). -/
def State.noPending (s : State) (tb : TableId) (j : BitVec 4) : Bool :=
  !((s.seatsIn tb (fun x => decide (x = .folded))).any (fun k =>
    decide ((s.core k).seat.top = some (.id j)) && decide ((s.core k).seat.depth = 0#8)))

/-- The control unit stands at a `join` whose slot it has executed (R146, R150). -/
def Front.joined (f : Front) : Bool :=
  f.started && (match f.item with
    | some it => (match it.ins with | .join _ _ => true | _ => false)
    | none => false)

/-- The stream's join completes when the head seat has executed its slot and no core is pending (R146): the waiting
cores whose top accepts it pop and are re-seated after X, and X's successor is the next bundle. -/
def joinTry (tb : TableId) (s : State) : State :=
  let t := s.table tb
  match t.join, s.head tb with
  | some (x, j), some h =>
    let ch := s.core h
    if ch.front.joined && decide (ch.front.pc = x) && decide (ch.seat.n = t.f)
        && t.succ.isNone && s.noPending tb j then
      let back := (s.waiting tb).filter (fun k =>
        decide ((s.core k).front.pc = x) && (s.core k).seat.accepts j)
      let s1 := back.foldl (fun s k => s.modSeat k (fun y => { y.pop with st := .seated, n := t.f })) s
      s1.setTable tb { t with join := none, succ := some (x + 1#51) }
    else s
  | _, _ => s

/-- The join id of the `join` at which a control unit stands. -/
def Front.joinId (f : Front) : Option (BitVec 4) :=
  match f.item with
  | some it => (match it.ins with | .join j _ => some j | _ => none)
  | none => none

/-- The head seat has executed the `join` slot of the stream's latest bundle, and its join is not noted yet: the core was not
the head seat when it executed it (R146). -/
def State.joinDue (s : State) (tb : TableId) : Option (Pc × BitVec 4) :=
  let t := s.table tb
  match t.join, s.head tb with
  | none, some h =>
    let c := s.core h
    if c.front.joined && decide (c.seat.n = t.f) && t.succ.isNone then c.front.joinId.map (fun j => (c.front.pc, j)) else none
  | _, _ => none

/-- The stream's join at the bundle that the head seat has executed is noted (R146). -/
def joinNote (tb : TableId) (s : State) : State :=
  match s.joinDue tb with
  | some x => s.modTable tb (fun t => { t with join := some x })
  | none => s

/-- A folded core at a join becomes the stream: its bundle is the stream's latest, the replay buffer is empty, its entry,
the any-join entry too, is popped and it is head seat (R147); the stream's index counts on. DESIGN CHOICE, log entry 67. -/
def becomeStream (k : CoreId) (j : BitVec 4) (s : State) : State :=
  let tb := tableOf k
  let t := s.table tb
  let x := (s.core k).front.pc
  let f := t.f + 1
  ((s.modSeat k (fun y => { y.pop with st := .seated, n := f })).setTable tb
    { t with f := f, spc := x, succ := none, buf := [], join := some (x, j) })

/-- The successor of the stream bundle before index n is fixed, and what it is (R139, R141). -/
def Table.successor (t : Table) (n : Nat) : Option Pc :=
  if n = t.f then t.succ
  else if n < t.f then (t.buf[t.f - 1 - n]?).map (fun e => e.1)
  else none

/-- Mark that a core has executed the join slot it stands at. -/
def markStarted (k : CoreId) (s : State) : State :=
  s.modCore k (fun c => { c with front := { c.front with started := true } })

/-- A seated core's part of `join j` (R146, R150): its pop, the stream's join when it is the head seat, and the wait for
the completion. -/
def joinSeated (k : CoreId) (j : BitVec 4) (first : Bool) (s : State) : Eff :=
  let tb := tableOf k
  let c := s.core k
  let s1 := if first then s.modSeat k (fun y => y.popIf j) else s
  let t := s1.table tb
  let s2 :=
    if s1.head tb = some k ∧ c.seat.n = t.f ∧ t.succ = none then
      joinTry tb (markStarted k (s1.setTable tb { t with join := some (c.front.pc, j) }))
    else s1
  if ((s2.table tb).successor c.seat.n).isSome then
    .done (s2.modCore k (fun y => { y with front := { y.front with pend := .join } }))
  else .hold 0#64 s2

/-- The vacancy rule: when no seated core remains, the lowest waiting core becomes the stream (R147). -/
def vacancyTry (tb : TableId) (s : State) : State :=
  match s.vacant tb, (s.waiting tb).head? with
  | true, some k =>
    (match (s.core k).front.joinId with
     | some j => becomeStream k j s
     | none => s)
  | _, _ => s

/-- What the seats of a table do at once (R146, R147): a vacant stream takes its lowest waiting core, and a stream join
that can complete does. A table that drains for a pre-emption does neither (R403). -/
def seatsSettle (tb : TableId) (s : State) : State :=
  if (s.table tb).stop then s else joinTry tb (joinNote tb (vacancyTry tb s))

/-- The seats of a table have something to do at once: a stream join stands open, or a core waits. -/
def State.seatsOpen (s : State) (tb : TableId) : Bool :=
  (s.table tb).join.isSome || !(s.waiting tb).isEmpty || (s.joinDue tb).isSome

/-- Every table's seats do at once what they can (R146, R147: the first ck in which the conditions hold). -/
def State.settleSeats (s : State) : State :=
  (s.tables.map (fun e => e.1)).foldl (fun s tb => if s.seatsOpen tb then seatsSettle tb s else s) s

/-- `join j` (R150). -/
def joinBody (j : BitVec 4) (k : CoreId) (s : State) : Eff :=
  let c := s.core k
  let tb := tableOf k
  match c.seat.st with
  | .seated => joinSeated k j (!c.front.started) s
  | .waiting =>
    if s.vacant tb && decide ((s.waiting tb).head? = some k) then joinSeated k j false (becomeStream k j s)
    else .hold 0#64 s
  | _ =>
    if !c.seat.accepts j then
      .trap (Trap.joinmis (BitVec.ofNat 64 (j.toNat + 16 * c.seat.topCode))) s
    else if s.vacant tb && (s.waiting tb).isEmpty then joinSeated k j false (becomeStream k j s)
    else .hold 0#64 (s.modSeat k (fun y => { y with st := .waiting }))

/-- `fold j` at its slot: the push; the end of the bundle folds the core (R149). -/
def foldBody (j : BitVec 4) (k : CoreId) (s : State) : Eff :=
  .done (s.modCore k (fun c =>
    { c with seat := { c.seat with stack := pushJoin c.seat.stack (.id j) }, front := { c.front with pend := .fold } }))

/-- The bit of each seat of a list. -/
def seatMask (ks : List CoreId) : Nat := ks.foldl (fun m k => m + 2 ^ (seatOf k).toNat) 0

/-- The seat status word (R151). -/
def seatWord (s : State) (k : CoreId) : Word :=
  let tb := tableOf k
  let x := (s.core k).seat
  BitVec.ofNat 64 ((seatOf k).toNat + (if x.st = .seated then 0 else 16) + (if s.head tb = some k then 64 else 0)
    + x.stack.length * 128 + x.topCode * 2048 + seatMask (s.seated tb) * 2 ^ 16 + seatMask (s.folded tb) * 2 ^ 32)

/-- `seat` (R151). -/
def seatBody (d : BitVec 5) (k : CoreId) (s : State) : Eff := .done (s.setReg k d (seatWord s k))

/-- `fold` (R149). -/
def execFold (j : BitVec 4) (t : Option Tok) (s : State) : Host.Outcome State Fault Refusal := runC t (foldBody j) s
/-- `join` (R150). -/
def execJoin (j : BitVec 4) (t : Option Tok) (s : State) : Host.Outcome State Fault Refusal := runC t (joinBody j) s
/-- `seat` (R151). -/
def execSeat (d : BitVec 5) (t : Option Tok) (s : State) : Host.Outcome State Fault Refusal := runC t (seatBody d) s

end Sys2Proof.Machine
end

