-- ==== Sys2Proof/Machine/Sync.lean ====
section
/-! DEFINITION. Bindings, synchronisation objects, fences and barriers (R250 to R257, R274 to R277, R457). -/

namespace Sys2Proof.Machine

/-! ## Bindings (R253) -/

/-- The binding table entry of an object, with its index: entries are compared by virtual address (R274). -/
def Core.bindOf (c : Core) (a : Nat) : Option (BitVec 4 × Binding) :=
  ((List.range 16).map (BitVec.ofNat 4)).findSome? (fun i =>
    match c.binds.get none i with
    | some b => if b.obj.toNat = a then some (i, b) else none
    | none => none)

/-- A free binding table entry. -/
def Core.bindFree (c : Core) : Option (BitVec 4) :=
  ((List.range 16).map (BitVec.ofNat 4)).find? (fun i => (c.binds.get none i).isNone)

/-- Write a binding table entry. -/
def Core.setBind (c : Core) (i : BitVec 4) (b : Option Binding) : Core := { c with binds := c.binds.set i b }

/-- The checks of an object address: a write of 8 bytes where `amo` can reach; `al` asks alignment (R252, R274). -/
def State.objCheck (s : State) (k : CoreId) (al : Nat) (a : Nat) : Except TrapInfo (List Piece) :=
  let c := (s.core k).ctl
  s.check k c.asid c.xe c.sup .amo al a 8

/-- The home of an object: its physical address, the window being the core's aperture (R254). -/
def objHome (k : CoreId) : List Piece → Nat
  | p :: _ =>
    match p.at_ with
    | .window off => apertureAddr k off
    | .phys pa _ => pa
    | .held => 0
  | [] => 0

/-- The translation of an object's address waits for a stack (R235). -/
def homeHeld (ps : List Piece) : Bool := ps.any (fun p => decide (p.at_ = .held))

/-- The pieces lie in the tower window. -/
def inWindow : List Piece → Bool
  | p :: _ =>
    match p.at_ with
    | .window _ => true
    | .phys _ _ => false
    | .held => false
  | [] => false

/-- `bind` (R253). DEDUCED, log entry 37. -/
def bindBody (a b : BitVec 5) (sc : BitVec 4) (len : BitVec 5) (k : CoreId) (s : State) : Eff :=
  let c := s.core k
  let va := c.reg a
  let base := c.reg b
  let n := c.reg len
  match s.objCheck k 8 va.toNat with
  | .error t => .trap t s
  | .ok ps =>
    let e : Binding := { obj := va.truncate 56, base := base.truncate 56, len := n, scope := sc, hold := .none }
    if homeHeld ps then .wait s
    else if n = 0#64 ∨ 2 ^ 56 < base.toNat + n.toNat ∨ (inWindow ps ∧ 1 < sc.toNat) then .trap (Trap.perm va) s
    else
      match c.bindOf va.toNat with
      | some (i, old) =>
        if old.hold = .none then .done (s.setCore k (c.setBind i (some e))) else .trap (Trap.perm va) s
      | none =>
        match c.bindFree with
        | some i => .done (s.setCore k (c.setBind i (some e)))
        | none => .trap (Trap.perm va) s

/-- `unbind` (R253). -/
def unbindBody (a : BitVec 5) (k : CoreId) (s : State) : Eff :=
  let c := s.core k
  let va := c.reg a
  match s.objCheck k 0 va.toNat with
  | .error t => .trap t s
  | .ok ps =>
    if homeHeld ps then .wait s
    else
    match c.bindOf va.toNat with
    | none => .done s
    | some (i, b) => if b.hold = .none then .done (s.setCore k (c.setBind i none)) else .trap (Trap.perm va) s

/-! ## Fences (R251, R275, R277) -/

/-- A packet a core sent, other than a return-free atomic, is not performed, or its parity delta is not applied. -/
def State.outstanding (s : State) (k : CoreId) : Bool :=
  s.hbm.any (fun e =>
    e.2.queue.any (fun p =>
      p.reply &&
      match p.pkt with
      | .read src _ _ _ _ => decide (src = k)
      | .write src _ _ _ _ => decide (src = k)
      | .atomic src _ _ _ _ _ _ _ nr => decide (src = k) && !nr
      | .append src _ _ _ _ => decide (src = k))
    || e.2.deltas.any (fun d => d.reply && !d.nr && decide (d.src = k)))

/-- The stacks that lie in a core's unit of a scope: its die's two from `.die` outward, all from `.pkg` (R155, R250). -/
def scopeStacks (k : CoreId) (sc : BitVec 4) : List StackId :=
  if sc.toNat < 4 then []
  else if sc = 4#4 then [0#1 ++ dieOf k, 1#1 ++ dieOf k]
  else (List.range 16).map (fun i => BitVec.ofNat 4 i)

/-- A fence of a scope waits: an access ordered before it is not performed (R251), or a stack it covers is in self-refresh
(R235). -/
def State.fenceWaits (s : State) (k : CoreId) (sc : BitVec 4) : Bool :=
  s.outstanding k || (scopeStacks k sc).any (fun n => (s.stack n).selfRefresh)

/-! ## Object steps (R252, R254) -/

/-- GEN, XH, SHC of an object word; its reserved bits are zero. -/
def objXh (w : Nat) : Bool := w.testBit 31
/-- SHC. -/
def objShc (w : Nat) : Nat := w / 2 ^ 16 % 2 ^ 15
/-- The reserved bits are nonzero. -/
def objBad (w : Nat) : Bool := decide (w % 2 ^ 16 ≠ 0)

/-- The word lets an acquirer in: exclusive, or shared (R254). -/
def objLets (x : Bool) (w : Nat) : Bool :=
  if x then !objXh w && decide (objShc w = 0) else !objXh w && decide (objShc w < 32767)
/-- The word after an acquire. -/
def objTaken (x : Bool) (w : Nat) : Nat := if x then w + 2 ^ 31 else w + 2 ^ 16
/-- The word after a release of an exclusive or shared hold; none when SHC would leave its range. -/
def objReleased (x : Bool) (w : Nat) : Option Nat :=
  let bump (v : Nat) : Nat := v % 2 ^ 32 + (v / 2 ^ 32 + 1) % 2 ^ 32 * 2 ^ 32
  if x then some (bump (if objXh w then w - 2 ^ 31 else w))
  else if objShc w = 0 then none else some (bump (w - 2 ^ 16))

/-- The waiting acquirers of an object, oldest first. -/
def State.objQueue (s : State) (home : Nat) : List (CoreId × Bool) := s.objects.get [] home
/-- Replace an object's queue. -/
def State.setObjQueue (s : State) (home : Nat) (q : List (CoreId × Bool)) : State :=
  { s with objects := s.objects.set home q }

/-- The first acquirer's step at an object's home, with the pieces that reach the word: it takes its hold, it traps on a
malformed word, or it waits. -/
def objGrant (k : CoreId) (x : Bool) (va : Word) (i : BitVec 4) (b : Binding) (home : Nat) (ps : List Piece) (s : State) :
    Eff :=
  if ps.any (s.pieceBlocked k true) then .wait s
  else
    match s.consume k ps with
    | .wait => .wait s
    | .trap t s' => .trap t (s'.leaveQueues k)
    | .ok bs s' =>
      let w := bytesToNat bs
      if objBad w then .trap (Trap.perm va) (s'.leaveQueues k)
      else if objLets x w then
        let s1 := (s'.writePieces k ps (natToBytes 8 (objTaken x w))).setObjQueue home ((s.objQueue home).drop 1)
        .done ((s1.modCore k (fun c => c.setBind i (some { b with hold := if x then .exclusive else .shared }))).performed k)
      else .wait s'

/-- The acquirers that wait behind a shared hold just granted: consecutive `acq.s` are granted together, each core leaving
its slot (R254). -/
def grantShared (home : Nat) : Nat → State → State
  | 0, s => s
  | fuel + 1, s =>
    match (s.objQueue home).head? with
    | some (k, false) =>
      (match (s.core k).front.item with
       | some it =>
         (match it.ins with
          | .acqS a t =>
            let va := s.reg k a
            (match s.objCheck k 0 va.toNat, (s.core k).bindOf va.toNat with
             | .ok ps, some (i, b) =>
               if objHome k ps = home then
                 (match objGrant k false va i b home ps s with
                  | .done s' => grantShared home fuel (finishC k t (s.core k).front.started s')
                  | _ => s)
               else s
             | _, _ => s)
          | _ => s)
       | none => s)
    | _ => s

/-- `acq.x` and `acq.s`: a fence of the entry's scope, then join the object's queue, and take the hold when first and let
in (R246, R254). -/
def acqBody (x : Bool) (a : BitVec 5) (k : CoreId) (s : State) : Eff :=
  let c := s.core k
  let va := c.reg a
  match s.objCheck k 0 va.toNat with
  | .error t => .trap t s
  | .ok ps =>
    match c.bindOf va.toNat with
    | none => .trap (Trap.perm va) s
    | some (i, b) =>
      if b.hold ≠ .none then .trap (Trap.perm va) s
      else if homeHeld ps || s.fenceWaits k b.scope then .wait s
      else
        let home := objHome k ps
        let q := s.objQueue home
        let s1 := if q.any (fun w => decide (w.1 = k)) then s else s.setObjQueue home (q ++ [(k, x)])
        if ((s1.objQueue home).head?.map (fun w => w.1)) = some k then
          match objGrant k x va i b home ps s1 with
          | .done s2 => .done (if x then s2 else grantShared home (s2.objQueue home).length s2)
          | r => r
        else .wait s1

/-- `rel` (R246, R254, R255): a fence of the entry's scope; the hold ends and the generation counts on. -/
def relBody (a : BitVec 5) (k : CoreId) (s : State) : Eff :=
  let c := s.core k
  let va := c.reg a
  match s.objCheck k 0 va.toNat with
  | .error t => .trap t s
  | .ok ps =>
    match c.bindOf va.toNat with
    | none => .trap (Trap.perm va) s
    | some (i, b) =>
      if b.hold = .none then .trap (Trap.perm va) s
      else if ps.any (s.pieceBlocked k true) || s.fenceWaits k b.scope then .wait s
      else
        match s.consume k ps with
        | .wait => .wait s
        | .trap t s' => .trap t s'
        | .ok bs s' =>
          let w := bytesToNat bs
          match (if objBad w then none else objReleased (decide (b.hold = .exclusive)) w) with
          | none => .trap (Trap.perm va) s'
          | some w' =>
            let s1 := s'.writePieces k ps (natToBytes 8 w')
            .done ((s1.modCore k (fun c => c.setBind i (some { b with hold := .none }))).performed k)

/-- `fence`: it waits while an access ordered before it is not performed (R251). DESIGN CHOICE, log entry 7. -/
def fenceBody (sc : BitVec 4) (k : CoreId) (s : State) : Eff :=
  if s.fenceWaits k sc then .wait s else .done (s.performed k)

/-- What `iflush` reaches: a seated core's table when it is the head seat, at its next taken transfer; a folded core's own
fetch buffer at once (R277). -/
def flushCode (k : CoreId) (a n : Nat) (s : State) : State :=
  if (s.core k).seat.st = .seated then
    if s.head (tableOf k) = some k then s.modTable (tableOf k) (fun t => { t with flushes := (a, n) :: t.flushes }) else s
  else s.modCore k (fun c => { c with icache := c.icache.filter (fun w => !w.meets a n) })

/-- `iflush`: a fence of scope `.sys`, then its reach (R277). -/
def iflushBody (a b : BitVec 5) (k : CoreId) (s : State) : Eff :=
  if s.fenceWaits k 8#4 then .wait s
  else .done (flushCode k (s.reg k a).toNat (s.reg k b).toNat (s.performed k))

/-! ## Barriers (R156, R157, R257, R276, R457) -/

/-- A graph is listed in the pod graph mask (R457). -/
def State.podListed (s : State) (gid : BitVec 8) : Bool := bit (s.fabric.mask.get 0#64 (gid.extractLsb' 6 2)) (gid.toNat % 64)

/-- The plot of a core's table: its own table alone when it runs no task of the launch unit. -/
def State.plotOf (s : State) (tb : TableId) : List TableId :=
  match (s.table tb).task with
  | some t => t.plot
  | none => [tb]

/-- The two tasks are one node's placement. -/
def sameTask (a b : Task) : Bool := decide (a.gid = b.gid) && decide (a.instance_ = b.instance_) && decide (a.node = b.node)

/-- The barrier is one of the pod's instances: the level is `.pod` and the graph is listed. -/
def State.isPod (s : State) (k : CoreId) (lvl : BitVec 3) : Bool :=
  decide (lvl = 7#3) && (match (s.table (tableOf k)).task with
    | some t => s.podListed t.gid
    | none => false)

/-- The cores of a barrier's unit (R156). -/
def State.barUnit (s : State) (k : CoreId) (lvl : BitVec 3) : List CoreId :=
  let tb := tableOf k
  match lvl.toNat with
  | 2 => quadCores tb (quadOf k)
  | 3 => tableCores tb
  | 4 => ((s.plotOf tb).filter (fun t => decide (tableDie t = tableDie tb))).flatMap tableCores
  | 5 => (s.plotOf tb).flatMap tableCores
  | _ => (if s.isPod k lvl then allTables else s.plotOf tb).flatMap tableCores

/-- A task takes part in a core's barrier: its own, or any of a listed graph for a pod instance. -/
def State.barTask (s : State) (k : CoreId) (lvl : BitVec 3) (t : Task) : Bool :=
  if s.isPod k lvl then s.podListed t.gid
  else
    match (s.table (tableOf k)).task with
    | some own => sameTask own t
    | none => false

/-- Who takes part in a barrier: the cores of its unit, the tasks, and a table that does so without a task. -/
structure Parties where
  cores : List CoreId
  task : Task → Bool
  bare : Option TableId

/-- The parties of a core's barrier at a level (R156, R457). -/
def State.parties (s : State) (k : CoreId) (lvl : BitVec 3) : Parties :=
  { cores := s.barUnit k lvl, task := s.barTask k lvl
    bare := if (s.table (tableOf k)).task.isNone then some (tableOf k) else none }

/-- The local participants of the pod's instances (R457). -/
def State.podParties (s : State) : Parties :=
  { cores := allTables.flatMap tableCores, task := fun t => s.podListed t.gid, bare := none }

/-- The table of a core runs a task that takes part. -/
def Parties.here (p : Parties) (s : State) (c : CoreId) : Bool :=
  match (s.table (tableOf c)).task with
  | some t => p.task t
  | none => decide (p.bare = some (tableOf c))

/-- A suspended context of the table of a core takes part by what was saved (R157). -/
def Parties.saved (p : Parties) (c : CoreId) (u : Suspended) : Bool := decide (u.table = tableOf c) && p.task u.task

/-- Whether each participant at a core has arrived: the core as it runs, and each suspended context of its table (R157). -/
def Parties.arrivals (p : Parties) (s : State) (b : BitVec 3 × BitVec 4) (c : CoreId) : List Bool :=
  (if p.here s c && decide ((s.core c).seat.st ≠ .out) then [(s.core c).arrived.contains b] else [])
    ++ (s.launch.suspended.filter (p.saved c)).filterMap (fun u =>
      (u.bars.find? (fun e => decide (e.1 = c))).map (fun e => e.2.contains b))

/-- Every participant of a barrier has arrived. -/
def Parties.full (p : Parties) (s : State) (b : BitVec 3 × BitVec 4) : Bool :=
  p.cores.all (fun c => (p.arrivals s b c).all (fun a => a))

/-- The other members of the pod barrier group (R457). -/
def State.podMembers (s : State) : List (BitVec 6) :=
  ((List.range 64).map (BitVec.ofNat 6)).filter (fun i =>
    let w := s.fabric.members.get 0#64 i
    bit w 16 && decide (w.truncate 14 ≠ s.fabric.id))

/-- Release what has arrived at a core: the core, and the suspended contexts of its table (R157). -/
def Parties.release (p : Parties) (b : BitVec 3 × BitVec 4) (s : State) (c : CoreId) : State :=
  let s1 :=
    if p.here s c && (s.core c).arrived.contains b then
      s.modCore c (fun x => { x with arrived := x.arrived.filter (fun y => decide (y ≠ b)), released := b :: x.released })
    else s
  let upd (u : Suspended) : Suspended :=
    if p.saved c u && u.bars.any (fun e => decide (e.1 = c) && e.2.contains b) then
      { u with freed := (c, b) :: u.freed
               bars := u.bars.map (fun e => if e.1 = c then (e.1, e.2.filter (fun y => decide (y ≠ b))) else e) }
    else u
  if s1.launch.suspended.any (p.saved c) then
    { s1 with launch := { s1.launch with suspended := s1.launch.suspended.map upd } }
  else s1

/-- The device's local completion of a pod instance: once, with a class 0 arrival to every other member (R457). -/
def Fabric.announce (f : Fabric) (ms : List (BitVec 6)) (id : BitVec 4) : Fabric :=
  if f.announced.contains id then f
  else { f with announced := id :: f.announced, podOut := f.podOut ++ ms.map (fun m => (m, id)) }

/-- A pod instance ends: one arrival of each member is used up (R457). -/
def Fabric.endPod (f : Fabric) (ms : List (BitVec 6)) (id : BitVec 4) : Fabric :=
  { f with announced := f.announced.filter (fun x => decide (x ≠ id))
           arrivals := ms.foldl (fun a m => a.set (m, id) (a.get 0 (m, id) - 1)) f.arrivals }

/-- A pod instance: it completes locally when every local participant has arrived, and completes when every other member's
arrival is there too (R457). -/
def podOnce (id : BitVec 4) (s : State) : State :=
  let p := s.podParties
  let ms := s.podMembers
  if !p.full s (7#3, id) then s
  else
    let said := s.fabric.announce ms id
    if ms.all (fun m => decide (0 < s.fabric.arrivals.get 0 (m, id))) then
      let s1 := p.cores.foldl (p.release (7#3, id)) s
      { s1 with fabric := said.endPod ms id }
    else { s with fabric := said }

/-- Some member's arrival for an id is there. -/
def State.podCalled (s : State) (id : BitVec 4) : Bool :=
  s.podMembers.any (fun m => decide (0 < s.fabric.arrivals.get 0 (m, id)))

/-- The pod instances of an id one after another: while arrivals for the next instance are there, it goes as far as it can
too (R457). -/
def podTry (id : BitVec 4) (s : State) : State :=
  let most := (s.podMembers.map (fun m => s.fabric.arrivals.get 0 (m, id))).foldl max 0
  (List.range most).foldl (fun s _ => if s.podCalled id then podOnce id s else s) (podOnce id s)

/-- The barrier completes when every participant has arrived, and all are released together (R157, R457). -/
def barTry (k : CoreId) (lvl : BitVec 3) (id : BitVec 4) (s : State) : State :=
  let p := s.parties k lvl
  if s.isPod k lvl then podTry id s
  else if p.full s (lvl, id) then p.cores.foldl (p.release (lvl, id)) s
  else s

/-- The pod instances that completed locally or for which some member's arrival is there, and what a change of the local
participants or of the group brings to them (R457). -/
def podSettle (s : State) : State :=
  (((List.range 16).map (BitVec.ofNat 4)).filter (fun id =>
    s.podCalled id || s.fabric.announced.contains id)).foldl (fun s id => podTry id s) s

/-- `bar`: a fence, the arrival, and the wait for the instance (R257, R276); a core that has arrived does not arrive
again. -/
def barBody (sc : BitVec 4) (id : BitVec 4) (k : CoreId) (s : State) : Eff :=
  let lvl : BitVec 3 := sc.truncate 3
  let c := s.core k
  if c.arrived.contains (lvl, id) || c.released.contains (lvl, id) then
    let s1 := if c.released.contains (lvl, id) then s else barTry k lvl id s
    if (s1.core k).released.contains (lvl, id) then
      .done ((s1.performed k).modCore k (fun x => { x with released := x.released.filter (fun y => decide (y ≠ (lvl, id))) }))
    else .hold 0#64 s1
  else if s.fenceWaits k sc then .wait s
  else
    let s1 := barTry k lvl id ((s.performed k).modCore k (fun x => { x with arrived := (lvl, id) :: x.arrived }))
    if (s1.core k).released.contains (lvl, id) then
      .done ((s1.performed k).modCore k (fun x => { x with released := x.released.filter (fun y => decide (y ≠ (lvl, id))) }))
    else .hold 0#64 s1

/-- `bind` (R253). -/
def execBind (a b : BitVec 5) (sc : BitVec 4) (c : BitVec 5) (t : Option Tok) (s : State) : Host.Outcome State Fault Refusal :=
  runC t (bindBody a b sc c) s

/-- `unbind` (R253). -/
def execUnbind (a : BitVec 5) (t : Option Tok) (s : State) : Host.Outcome State Fault Refusal := runC t (unbindBody a) s

/-- `acq.x` (R254). -/
def execAcqX (a : BitVec 5) (t : Option Tok) (s : State) : Host.Outcome State Fault Refusal := runC t (acqBody true a) s

/-- `acq.s` (R254). -/
def execAcqS (a : BitVec 5) (t : Option Tok) (s : State) : Host.Outcome State Fault Refusal := runC t (acqBody false a) s

/-- `rel` (R254). -/
def execRel (a : BitVec 5) (t : Option Tok) (s : State) : Host.Outcome State Fault Refusal := runC t (relBody a) s

/-- `fence` (R275). -/
def execFence (sc : BitVec 4) (t : Option Tok) (s : State) : Host.Outcome State Fault Refusal := runC t (fenceBody sc) s

/-- `bar` (R276). -/
def execBar (sc id : BitVec 4) (t : Option Tok) (s : State) : Host.Outcome State Fault Refusal := runC t (barBody sc id) s

/-- `iflush` (R277). -/
def execIflush (a b : BitVec 5) (t : Option Tok) (s : State) : Host.Outcome State Fault Refusal := runC t (iflushBody a b) s

end Sys2Proof.Machine
end

