-- ==== Sys2Proof/Machine/VecBase.lean ====
section
/-! DEFINITION. Vector operand forms: rows, predicates, renaming, subfields, narrowing destinations, stochastic draws
(R131 to R137, R160 to R168). -/

namespace Sys2Proof.Machine

/-- The extension of an instruction with X = 0: rm 7, everything else zero (R55). -/
def vextDefault : VExt :=
  { c := 0#6, rm := 7#3, sat := false, nw := 0#4, dpos := 0#3, sa := 0#4, sb := 0#4, scf := 0#4, sfmt := 0#3 }

/-- Element width in bits (R131). -/
def accW (acct : BitVec 2) : Nat := if acct.toNat < 2 then 32 else 16
/-- Number of elements (R131). -/
def accN (acct : BitVec 2) : Nat := 1024 / accW acct
/-- Element float format (R160). -/
def accFmt (acct : BitVec 2) : Fmt := match acct.toNat with | 2 => .bf16 | 3 => .fp16 | _ => .fp32

/-- The row a vector register names (R136). -/
def vrow (vrb : BitVec 5) (n : BitVec 6) : BitVec 6 := if n.toNat < 32 then n else 1#1 ++ (n.truncate 5 + vrb : BitVec 5)
/-- The predicate a predicate register names (R136). -/
def ppred (prb : BitVec 3) (n : BitVec 4) : BitVec 4 := if n.toNat < 8 then n else 1#1 ++ (n.truncate 3 + prb : BitVec 3)

/-- A tile by role: exposed or engaged (R133). -/
def Vec.tile (v : Vec) (engaged : Bool) : Bank (BitVec 6) (BitVec 1024) :=
  if v.exposed != engaged then v.acc1 else v.acc0
/-- Replace a tile by role. -/
def Vec.setTile (v : Vec) (engaged : Bool) (t : Bank (BitVec 6) (BitVec 1024)) : Vec :=
  if v.exposed != engaged then { v with acc1 := t } else { v with acc0 := t }
/-- A row of the exposed tile. -/
def Vec.row (v : Vec) (r : BitVec 6) : BitVec 1024 := (v.tile false).get 0#1024 r
/-- Write a row of the exposed tile. -/
def Vec.setRow (v : Vec) (r : BitVec 6) (x : BitVec 1024) : Vec := v.setTile false ((v.tile false).set r x)
/-- A predicate register; p0 reads all ones (R135). -/
def Vec.pred (v : Vec) (p : BitVec 4) : Word := if p = 0#4 then BitVec.allOnes 64 else v.preds.get 0#64 p
/-- Write a predicate register; p0 discards (R135). -/
def Vec.setPred (v : Vec) (p : BitVec 4) (x : Word) : Vec := if p = 0#4 then v else { v with preds := v.preds.set p x }
/-- A lane's generator (R122). -/
def Vec.gen (v : Vec) (lane : Nat) : BitVec 32 := v.gens.get (seedLane (BitVec.ofNat 5 lane) 0#32) (BitVec.ofNat 5 lane)
/-- Write a lane's generator. -/
def Vec.setGen (v : Vec) (lane : Nat) (x : BitVec 32) : Vec := { v with gens := v.gens.set (BitVec.ofNat 5 lane) x }

/-- The rows of a tile by name, true for acc1. -/
def Vec.acc (v : Vec) (acc1 : Bool) : Bank (BitVec 6) (BitVec 1024) := if acc1 then v.acc1 else v.acc0
/-- Write a row of a tile by name. -/
def Vec.setAccRow (v : Vec) (acc1 : Bool) (r : BitVec 6) (x : BitVec 1024) : Vec :=
  if acc1 then { v with acc1 := v.acc1.set r x } else { v with acc0 := v.acc0.set r x }

/-- Element k of a row, as bits (R131). -/
def elemAt (row : BitVec 1024) (w k : Nat) : Nat := (row.extractLsb' (w * k) w).toNat
/-- A row of elements. -/
def packRow (w : Nat) (xs : List Nat) : BitVec 1024 := BitVec.ofNat 1024 (packNat w xs)

/-! ## Beside a matrix command that is still writing (R261, R316) -/

/-- A row of the tiles before the command. -/
def Before.row (b : Before) (acc1 : Bool) (r : BitVec 6) : BitVec 1024 :=
  if acc1 then b.acc1.get 0#1024 r else b.acc0.get 0#1024 r
/-- Write a row of the tiles before the command. -/
def Before.setRow (b : Before) (acc1 : Bool) (r : BitVec 6) (x : BitVec 1024) : Before :=
  if acc1 then { b with acc1 := b.acc1.set r x } else { b with acc0 := b.acc0.set r x }
/-- The command writes element k, of w bits, of a row: the row belongs to the tile engaged when it started. -/
def Before.writes (b : Before) (acc1 : Bool) (r : BitVec 6) (w k : Nat) : Bool :=
  (acc1 != b.exposed) && decide (b.row0 ≤ r.toNat) && decide (r.toNat < b.row0 + b.rows) && decide (b.lo ≤ w * k)
    && decide (w * k < b.hi)

/-- A row whose elements come each from one of two rows. -/
def mixRow (w : Nat) (pick : Nat → Bool) (x y : BitVec 1024) : BitVec 1024 :=
  packRow w ((List.range (1024 / w)).map (fun k => elemAt (if pick k then x else y) w k))

/-- A row of a tile as an access finds it: each element before the write of a command or after it (R261); `pick` decides for
element k and the n-th newest command at 64 n + k. -/
def Core.accSeen (c : Core) (pick : Nat → Bool) (acc1 : Bool) (r : BitVec 6) : BitVec 1024 :=
  c.mtx.before.zipIdx.foldl (fun x p => mixRow (accW c.ctl.acct) (fun k => pick (p.2 * 64 + k)) (p.1.row acc1 r) x)
    ((c.vec.acc acc1).get 0#1024 r)

/-- Write the elements `on` of a row of a tile; one that the command writes too holds either value in the end, by a free
choice of the counter (R261). -/
def Core.accPut (c : Core) (tick : Nat) (acc1 : Bool) (r : BitVec 6) (on : Nat → Bool) (x : BitVec 1024) : Core :=
  match c.mtx.before with
  | [] => { c with vec := c.vec.setAccRow acc1 r x }
  | bs =>
    let w := accW c.ctl.acct
    let first (k : Nat) : Bool := bs.any (fun b => b.writes acc1 r w k) && Config.freeBool tick (2 ^ 49 + 64 * r.toNat + k)
    let now := (c.vec.acc acc1).get 0#1024 r
    { c with vec := c.vec.setAccRow acc1 r (mixRow w (fun k => on k && !first k) x now)
             mtx := { c.mtx with before := bs.map (fun b => b.setRow acc1 r (mixRow w on x (b.row acc1 r))) } }

/-- A vector write of the elements `on` of a row of the exposed tile (R134, R261). -/
def Core.rowPut (c : Core) (tick : Nat) (r : BitVec 6) (on : Nat → Bool) (x : BitVec 1024) : Core :=
  match c.mtx.before with
  | [] => { c with vec := c.vec.setRow r x }
  | _ => c.accPut tick (c.exposedNow tick) r on x

/-- A part of an element: width and low bit (R161); code 0 is the whole. -/
def partOf (w : Nat) (code : BitVec 4) : Nat × Nat :=
  let c := code.toNat
  if c = 0 then (w, 0) else if c ≤ 4 then (8, 8 * (c - 1)) else if c ≤ 6 then (16, 16 * (c - 5)) else (4, 4 * (c - 8))
/-- A subfield code is valid at a width (R161). -/
def partOk (w : Nat) (code : BitVec 4) : Bool :=
  let c := code.toNat
  decide (c = 0) || (decide (c ≤ 4) && decide (c - 1 < w / 8)) || (decide (5 ≤ c) && decide (c ≤ 6) && decide (w = 32))
    || (decide (8 ≤ c) && decide (c - 8 < w / 4))
/-- The raw bits of a part. -/
def partBits (w : Nat) (code : BitVec 4) (el : Nat) : Nat := let (u, lo) := partOf w code; el / 2 ^ lo % 2 ^ u
/-- A source as a w-bit pattern: a part is widened with or without its sign (R160, R161). -/
def readPat (w : Nat) (sfmt : BitVec 3) (code : BitVec 4) (el : Nat) : Nat :=
  let u := (partOf w code).1
  let b := partBits w code el
  if sfmt = 0#3 then ((sextInt u b) % (2 ^ w : Int)).toNat else b
/-- A w-bit pattern as a signed or unsigned integer. -/
def readInt (signed : Bool) (w : Nat) (pat : Nat) : Int := if signed then sextInt w pat else (pat : Int)
/-- The float format of a part (R161). -/
def partFmt (sfmt : BitVec 3) (u : Nat) : Fmt :=
  match u with
  | 8 => if sfmt = 2#3 then .e4m3 else .e5m2
  | 16 => if sfmt = 2#3 then .bf16 else .fp16
  | _ => .e2m1
/-- A source as a value (R160, R161). -/
def readVal (ef : Fmt) (w : Nat) (sfmt : BitVec 3) (code : BitVec 4) (el : Nat) : Val :=
  let u := (partOf w code).1
  let b := partBits w code el
  if code = 0#4 then ef.decode b
  else if sfmt = 0#3 then Val.ofInt (sextInt u b)
  else if sfmt = 1#3 then Val.ofInt (b : Int)
  else (partFmt sfmt u).decode b

/-- A destination type. -/
inductive Ty where
  | flt (f : Fmt)
  | int (signed : Bool) (u : Nat)
deriving DecidableEq, Repr

/-- The width of a destination type. -/
def Ty.width : Ty → Nat
  | .flt f => f.width
  | .int _ u => u
/-- The type a nonzero nw names (R55). -/
def nwTy (nw : BitVec 4) : Ty :=
  match nw.toNat with
  | 1 => .int true 8 | 2 => .int false 8 | 3 => .flt .e4m3 | 4 => .flt .e5m2 | 5 => .int true 16 | 6 => .int false 16
  | 7 => .flt .bf16 | 8 => .flt .fp16 | 9 => .int true 4 | 10 => .int false 4 | 11 => .flt .e3m2 | 12 => .flt .e2m3
  | _ => .flt .e2m1
/-- The type delivered: the element's own under nw 0 (R162). -/
def destTy (own : Ty) (nw : BitVec 4) : Ty := if nw = 0#4 then own else nwTy nw
/-- Is the type a float. -/
def Ty.isFlt : Ty → Bool
  | .flt _ => true
  | .int _ _ => false

/-- dpos lies in its range (R163). DESIGN CHOICE, log entry 76: the spec gives dpos a range for the nw types only; under
nw 0, on an instruction that honours nw, every dpos is accepted and does nothing. -/
def dposOk (w : Nat) (nw : BitVec 4) (dpos : BitVec 3) : Bool :=
  if nw = 0#4 then true
  else
    match (nwTy nw).width with
    | 6 => decide (dpos.toNat < w / 8)
    | u => decide (dpos.toNat < w / u)

/-- Replace bits of an element. -/
def putBits (el lo len v : Nat) : Nat := el - el / 2 ^ lo % 2 ^ len * 2 ^ lo + v % 2 ^ len * 2 ^ lo

/-- Place a delivered value in the destination element (R163). -/
def placeNw (w : Nat) (nw : BitVec 4) (dpos : BitVec 3) (el v : Nat) : Nat :=
  if nw = 0#4 then v % 2 ^ w
  else
    let p := dpos.toNat
    match (nwTy nw).width with
    | 6 => putBits (putBits el (4 * p) 4 v) (w / 2 + 2 * p) 2 (v / 16)
    | u => putBits el (u * p) u v

/-- What an element's operation gives, before delivery (R162). -/
inductive VRes where
  | flt (v : Val) (f : Fl)
  | int (signed : Bool) (n : Int)
  /-- bits of the whole element, moved or kept -/
  | raw (b : Nat)
  /-- bits of the whole element, with the flags of forming them -/
  | bits (b : Nat) (f : Fl)

/-- Convert a value into a type (R124, R162). An exactly infinite result of an operation other than a conversion is clamped
into an integer type and raises nothing there (R124, R130). -/
def Ty.deliver (ty : Ty) (mode : Mode) (sat conv : Bool) (v : Val) : Nat × Fl :=
  match ty with
  | .flt f => f.deliver mode sat conv v
  | .int sg u =>
    let lo : Int := if sg then -(2 ^ (u - 1) : Int) else 0
    let hi : Int := if sg then 2 ^ (u - 1) - 1 else 2 ^ u - 1
    let (n, f) := floatToInt mode lo hi v
    ((n % (2 ^ u : Int)).toNat, if v.isInf && !conv then 0#6 else f)

/-- Convert an integer into a type (R124, R162). -/
def Ty.deliverInt (ty : Ty) (mode : Mode) (sat : Bool) (n : Int) : Nat × Fl :=
  match ty with
  | .flt f => f.deliver mode sat true (Val.ofInt n)
  | .int sg u => intDeliver sg u sat n

/-- Deliver a result into a destination element (R162, R163). -/
def deliverRes (w : Nat) (ef : Fmt) (x : VExt) (conv : Bool) (mode : Mode) (el : Nat) : VRes → Nat × Fl
  | .flt v f =>
    let (b, f') := (destTy (.flt ef) x.nw).deliver mode x.sat conv v
    (placeNw w x.nw x.dpos el b, f ||| f')
  | .int sg n =>
    let (b, f') := (destTy (.int sg w) x.nw).deliverInt mode x.sat n
    (placeNw w x.nw x.dpos el b, f')
  | .raw b => (b % 2 ^ w, 0#6)
  | .bits b f => (b % 2 ^ w, f)

/-- The rounding mode number in force: rm, or the captured `cst.RM` under rm 7 (R50, R82). -/
def vMode (x : VExt) (cap : Cap) : BitVec 3 := if x.rm = 7#3 then cap.rm else x.rm

/-- The lane that holds element k. -/
def laneOf (n k : Nat) : Nat := if n = 32 then k else k / 2

/-- The mode of one rounding step: under RS a draw from a lane's generator (R121). -/
def drawMode (m : BitVec 3) (lane : Nat) (v : Vec) : Mode × Vec :=
  if m = 4#3 then
    let r := rsAdvance (v.gen lane)
    (.rs r, v.setGen lane r)
  else (modeOf m m, v)

/-- What an operation reads: the core at its start, its captures, its extension; and what tells one read of an element
from another: the counter, the element being formed, the operand (R261). -/
structure VIn where
  c : Core
  cap : Cap
  x : VExt
  tick : Nat := 0
  out : Nat := 0
  slot : Nat := 0

/-- The reads of another operand. -/
def VIn.at (i : VIn) (slot : Nat) : VIn := { i with slot := slot }
/-- The reads for another element. -/
def VIn.for (i : VIn) (out : Nat) : VIn := { i with out := out }

/-- Element width. -/
def VIn.w (i : VIn) : Nat := accW i.c.ctl.acct
/-- Element count. -/
def VIn.n (i : VIn) : Nat := accN i.c.ctl.acct
/-- Element float format. -/
def VIn.ef (i : VIn) : Fmt := accFmt i.c.ctl.acct
/-- The row a register names, as this read finds it (R134, R261). -/
def VIn.row (i : VIn) (r : BitVec 6) : BitVec 1024 :=
  match i.c.mtx.before with
  | [] => i.c.vec.row (vrow i.cap.vrb r)
  | _ =>
    i.c.accSeen (fun k => Config.freeBool i.tick (((i.out * 4 + i.slot) * 64 + r.toNat) * 2048 + k)) (i.c.exposedNow i.tick)
      (vrow i.cap.vrb r)
/-- Element k of a register. -/
def VIn.el (i : VIn) (r : BitVec 6) (k : Nat) : Nat := elemAt (i.row r) i.w k
/-- Element k of a register as a value. -/
def VIn.val (i : VIn) (r : BitVec 6) (code : BitVec 4) (k : Nat) : Val := readVal i.ef i.w i.x.sfmt code (i.el r k)
/-- Element k of a register as a pattern. -/
def VIn.pat (i : VIn) (r : BitVec 6) (code : BitVec 4) (k : Nat) : Nat := readPat i.w i.x.sfmt code (i.el r k)
/-- The signedness that sfmt names. -/
def VIn.signed (i : VIn) : Bool := decide (i.x.sfmt = 0#3)
/-- Element k of a register as an integer of a signedness. -/
def VIn.int (i : VIn) (sg : Bool) (r : BitVec 6) (code : BitVec 4) (k : Nat) : Int := readInt sg i.w (i.pat r code k)
/-- Element k is active under a prefix (R135). -/
def VIn.active (i : VIn) (p : BitVec 4) (n : BitVec 1) (k : Nat) : Bool :=
  (i.c.vec.pred (ppred i.cap.prb p)).getLsbD k != bit1 n
/-- The subfields and dpos that depend on the width in force are valid (R165). -/
def VIn.ok (i : VIn) (codes : List (BitVec 4)) : Bool := codes.all (partOk i.w) && dposOk i.w i.x.nw i.x.dpos

/-- The trap of R165. -/
def vIllenc : TrapInfo := Trap.illenc 0#64

/-- Act on the elements in ascending order: an active one draws if its delivery rounds, and gives its new bits and its
flags; an inactive one keeps its bits (R135, R166). -/
def vLoop (m : BitVec 3) (n : Nat) (active draws : Nat → Bool) (old : Nat → Nat) (f : Nat → Mode → Nat × Fl) :
    List Nat → Vec → Fl → List Nat × Vec × Fl
  | [], v, fl => ([], v, fl)
  | k :: ks, v, fl =>
    if active k then
      let (mode, v1) := if draws k then drawMode m (laneOf n k) v else (modeOf m m, v)
      let (b, f1) := f k mode
      let (rest, v2, fl2) := vLoop m n active draws old f ks v1 (fl ||| f1)
      (b :: rest, v2, fl2)
    else
      let (rest, v2, fl2) := vLoop m n active draws old f ks v fl
      (old k :: rest, v2, fl2)

/-- An instruction that forms one result for each active element of vd (R162, R163). -/
def vElem (d : BitVec 6) (p : BitVec 4) (neg : BitVec 1) (x : VExt) (codes : List (BitVec 4)) (conv : Bool)
    (draws : VIn → Bool) (f : VIn → Nat → Mode → VRes) : Body := fun k cap _ s =>
  let c := s.core k
  let i : VIn := { c := c, cap := cap, x := x, tick := s.tick }
  if !i.ok codes then .trap vIllenc s
  else
    let (els, v, fl) := vLoop (vMode x cap) i.n (i.active p neg) (fun _ => draws i) (i.el d)
      (fun e m => deliverRes i.w i.ef x conv m (((i.for e).at 2).el d e) (f (i.for e) e m)) (List.range i.n) c.vec 0#6
    .done (s.setCore k (({ c with vec := v }.rowPut s.tick (vrow cap.vrb d) (i.active p neg) (packRow i.w els)).raise fl))

/-- A float delivery rounds always; an integer or pattern delivery rounds into a float nw type only (R166). -/
def drawsFlt (_ : VIn) : Bool := true
/-- See `drawsFlt`. -/
def drawsInt (i : VIn) : Bool := decide (i.x.nw ≠ 0#4) && (nwTy i.x.nw).isFlt
/-- The exact forms of R171 round only into a narrowed type. -/
def drawsNarrow (i : VIn) : Bool := decide (i.x.nw ≠ 0#4)
/-- Class M draws nothing. -/
def drawsNone (_ : VIn) : Bool := false

/-- A pattern as a result: whole under nw 0, else an integer by sfmt (R160, R162). -/
def patRes (i : VIn) (b : Nat) : VRes :=
  if i.x.nw = 0#4 then .raw b else .int i.signed (readInt i.signed i.w (b % 2 ^ i.w))

end Sys2Proof.Machine
end

