-- ==== Sys2Proof/Machine/Capture.lean ====
section
/-! DEFINITION. What the control unit captures at a hand-over (R47, R82, R409): the scalar registers and shape registers
an instruction names, `vrb`, `prb`, `cst.RM`, `asid` and `cst.XE`. -/

namespace Sys2Proof.Machine

/-- The scalar registers an engine instruction names as sources, as x, y and z (R47). -/
def capRegs : Instr → BitVec 5 × BitVec 5 × BitVec 5
  | .vBcast _ r _ _ _ _ => (r, 0#5, 0#5)
  | .vIns _ _ r _ _ _ _ => (r, 0#5, 0#5)
  | .vSeed r _ _ _ _ => (r, 0#5, 0#5)
  | .vLd _ r _ _ _ _ _ => (r, 0#5, 0#5)
  | .vSt _ r _ _ _ _ _ => (r, 0#5, 0#5)
  | .vLdu _ r _ _ _ _ _ => (r, 0#5, 0#5)
  | .vStu _ r _ _ _ _ _ => (r, 0#5, 0#5)
  | .vStm _ r _ _ _ _ _ => (r, 0#5, 0#5)
  | .vGth _ _ r _ _ _ _ => (r, 0#5, 0#5)
  | .vSct _ _ r _ _ _ _ => (r, 0#5, 0#5)
  | .mDrainAmax _ e _ _ _ _ _ => (e, 0#5, 0#5)
  | .dCopy x y z _ => (x, y, z)
  | .dCopyRg y z _ _ _ => (0#5, y, z)
  | .dBcast x y z _ => (x, y, z)
  | .dStore x y z _ _ => (x, y, z)
  | .dSpill x y _ _ _ => (x, y, 0#5)
  | .dFill x y _ _ _ => (x, y, 0#5)
  | .dAtom x y z _ _ _ => (x, y, z)
  | .dAtomNr x y z _ _ _ => (x, y, z)
  | .dQpost x _ _ => (x, 0#5, 0#5)
  | .dAppend x y z _ => (x, y, z)
  | .dPref x z _ => (x, 0#5, z)
  | .dTfill x y _ => (x, y, 0#5)
  | .fFur _ x y z _ => (x, y, z)
  | .fFurQm x y z _ _ => (x, y, z)
  | .fSys _ x y z _ => (x, y, z)
  | .fHead x y z _ => (x, y, z)
  | .fRing x y z _ _ => (x, y, z)
  | .fGbcast x y z _ _ => (x, y, z)
  | _ => (0#5, 0#5, 0#5)

/-- The shape registers a matrix command names (R47, R319). -/
def capShapes : Instr → BitVec 4 × BitVec 4
  | .mMma a b _ _ _ _ => (a, b)
  | .mMmaI a b _ _ _ => (a, b)
  | .mMmaK4 a b _ _ _ => (a, b)
  | .mScacc a b _ _ _ _ => (a, b)
  | .mDrain d _ _ _ _ _ => (d, 0#4)
  | .mDrainAmax d _ _ _ _ _ _ => (d, 0#4)
  | .mEpi d _ _ _ _ _ => (d, 0#4)
  | .mEpiLd a _ => (a, 0#4)
  | _ => (0#4, 0#4)

/-- The captures of an instruction handed over by a core (R47, R82). -/
def capOf (i : Instr) (c : Core) : Cap :=
  { x := c.reg (capRegs i).1, y := c.reg (capRegs i).2.1, z := c.reg (capRegs i).2.2
    vrb := c.ctl.vrb, prb := c.ctl.prb, rm := c.ctl.rm, asid := c.ctl.asid, xe := c.ctl.xe
    sha := c.shapes.get 0#512 (capShapes i).1, shb := c.shapes.get 0#512 (capShapes i).2 }

end Sys2Proof.Machine
end

