-- ==== Sys2Proof/Machine/Drill.lean ====
section
/-! DEFINITION. The drill engine: transfers with resume points (R342 to R348), copies, pattern stores, the drill line, tile
spill and fill, tag fill, atomics at the stacks (R349 to R358). -/

namespace Sys2Proof.Machine

/-! ## Transfers (R345, R346) -/

/-- How many bytes of a piece complete, when the host refuses one of its sectors (R438). -/
def State.hostLimit (s : State) (k : CoreId) (p : Piece) : Option Nat :=
  match s.targetOf k p.at_ with
  | .host off => s.hostRefuses off p.len
  | _ => none

/-- The pieces that an engine's access of n bytes reaches from an address, page by page, and the trap that stops it
(R345). -/
def State.reach (s : State) (k : CoreId) (cap : Cap) (kind : Kind) : Nat → Nat → Nat → List Piece × Option TrapInfo
  | 0, _, _ => ([], none)
  | fuel + 1, a, n =>
    if n = 0 then ([], none)
    else
      let len := min n (4096 - a % 4096)
      match s.check k cap.asid cap.xe (s.core k).ctl.sup kind 0 a len with
      | .error t => ([], some t)
      | .ok ps =>
        match ps.findSome? (s.hostLimit k) with
        | some m =>
          (ps.filterMap (fun p => if m = 0 then none else some { p with len := m }),
            some (Trap.xlate (BitVec.ofNat 64 (a + m))))
        | none =>
          let (rest, t) := s.reach k cap kind fuel (a + len) (n - len)
          (ps ++ rest, t)

/-- The bytes that pieces hold. -/
def piecesLen (ps : List Piece) : Nat := ps.foldl (fun n p => n + p.len) 0

/-- The first n bytes of some pieces. -/
def takePieces : List Piece → Nat → List Piece
  | [], _ => []
  | p :: ps, n => if n = 0 then [] else if n ≤ p.len then [{ p with len := n }] else p :: takePieces ps (n - p.len)

/-- The poison bit of a byte's sector at a target. -/
def State.poisonOf (s : State) (i : Nat) : Target → Bool
  | .tower k' off => (s.core k').tower.poisoned (off + i)
  | .aperture k' off => (s.core k').tower.poisoned (off + i)
  | .ext far t il => s.unitPoison far (place (t + i) il)
  | .host off => decide (s.host.bad.get none ((off + i) / 32) = some .poisoned)
  | _ => false

/-- Set the poison bit of a byte's sector at a target. -/
def State.poisonTo (s : State) (i : Nat) : Target → State
  | .tower k' off => s.modCore k' (fun c => { c with tower := c.tower.setPoison (off + i) true })
  | .aperture k' off => s.modCore k' (fun c => { c with tower := c.tower.setPoison (off + i) true })
  | .ext far t il => s.putUnitPoison far (place (t + i) il) true
  | .host off => { s with host := { s.host with bad := s.host.bad.set ((off + i) / 32) (some .poisoned) } }
  | _ => s

/-- The bytes of pieces, each with its sector's poison bit (R346). -/
def State.takeData (s : State) (k : CoreId) (ps : List Piece) : List (BitVec 8 × Bool) :=
  ps.flatMap (fun p =>
    let tg := s.targetOf k p.at_
    (s.readTarget k p.len tg).zipIdx.map (fun b => (b.1, s.poisonOf b.2 tg)))

/-- Poison the sectors that poisoned bytes reach (R346). -/
def State.spread (s : State) (k : CoreId) : List Piece → List (BitVec 8 × Bool) → State
  | [], _ => s
  | p :: ps, d =>
    let tg := s.targetOf k p.at_
    (((d.take p.len).zipIdx.foldl (fun s b => if b.1.2 then s.poisonTo b.2 tg else s) s)).spread k ps (d.drop p.len)

/-- Write bytes with their poison (R207, R346). -/
def State.putData (s : State) (k : CoreId) (ps : List Piece) (d : List (BitVec 8 × Bool)) : State :=
  (s.writePieces k ps (d.map (fun b => b.1))).spread k ps d

/-- Where in its sector the first piece of a destination begins. -/
def State.sectorOff (s : State) (k : CoreId) : List Piece → Nat
  | p :: _ =>
    match s.targetOf k p.at_ with
    | .tower _ off => off % 32
    | .aperture _ off => off % 32
    | .ext _ t _ => t % 32
    | .host off => off % 32
    | _ => 0
  | [] => 0

/-- Clear the poison bit of the sector at the start of a piece. -/
def State.cleanAt (s : State) (k : CoreId) (p : Piece) : State :=
  match s.targetOf k p.at_ with
  | .tower k' off => s.modCore k' (fun c => { c with tower := c.tower.setPoison off false })
  | .aperture k' off => s.modCore k' (fun c => { c with tower := c.tower.setPoison off false })
  | .ext far t il => s.putUnitPoison far (place t il) false
  | .host off =>
    if s.host.bad.get none (off / 32) = some .poisoned then
      { s with host := { s.host with bad := s.host.bad.set (off / 32) none } }
    else s
  | _ => s

/-- A transfer that goes on within a destination sector covers the sector whole, from clean bytes: its bit clears. `old` is
what the source holds of the sector's earlier bytes (R207, R346). DEDUCED, log entry 72. -/
def State.closeSector (s : State) (k : CoreId) (out : List Piece) (old d : List (BitVec 8 × Bool)) : State :=
  let h := s.sectorOff k out
  if h ≠ 0 ∧ old.length = h ∧ 32 ≤ h + d.length ∧ (old ++ d.take (32 - h)).all (fun b => !b.2) then
    (out.take 1).foldl (fun s p => s.cleanAt k p) s
  else s

/-- What each byte of an overlapping copy takes: what its source byte held, or what this copy wrote there (R349).
DESIGN CHOICE, log entry 8. -/
def overlapData (pick : Nat → Bool) (src dst : Nat) (d : List (BitVec 8 × Bool)) : List (BitVec 8 × Bool) :=
  let n := d.length
  let z : BitVec 8 × Bool := (0#8, false)
  if src < dst then
    (List.range n).foldl (fun w i =>
      w ++ [if dst - src ≤ i ∧ pick i then w.getD (i - (dst - src)) z else d.getD i z]) []
  else
    ((List.range n).foldl (fun w j =>
      (if j + 1 ≤ n ∧ src - dst ≤ j ∧ pick j then w.getD (src - dst - 1) z else d.getD (n - 1 - j) z) :: w) [])

/-- How a transfer ends. -/
inductive Moved where
  | wait
  | done (s : State)
  /-- it stops at an offset -/
  | stop (t : TrapInfo) (off : Nat) (s : State)

/-- Copy bytes r to z - 1 from an address to pieces that begin at byte r; the destination may stop the transfer too.
DEDUCED, log entry 21. -/
def moveTo (k : CoreId) (cap : Cap) (src r z : Nat) (out : List Piece × Option TrapInfo) (dst : Option Nat) (s : State) :
    Moved :=
  let n := z - r
  let (ps, t1) := s.reach k cap .drd (n / 4096 + 2) (src + r) n
  let len := min (piecesLen ps) (piecesLen out.1)
  let from_ := takePieces ps len
  let to_ := takePieces out.1 len
  if from_.any (s.pieceBlocked k false) || to_.any (s.pieceBlocked k true) then .wait
  else
    let s1 := to_.foldl State.touchWalk (from_.foldl (fun s p => s.touchPiece k p) s)
    let d := s1.takeData k from_
    let meets :=
      match dst with
      | some x => decide (src ≠ x) && decide (src < x + len + r) && decide (x < src + len + r)
      | none => false
    let d' := if meets then overlapData (fun i => Config.freeBool s1.tick i) (src + r) (dst.getD 0 + r) d else d
    let h := s1.sectorOff k to_
    let old := if h = 0 ∨ r < h then [] else s1.takeData k (s1.reach k cap .drd 2 (src + r - h) h).1
    let s2 := ((if meets then s1.advanceTick else s1).putData k to_ d').closeSector k to_ old d'
    if len = n then .done s2
    else if len = piecesLen ps then .stop (t1.getD vIllenc) (r + len) s2
    else .stop (out.2.getD vIllenc) (r + len) s2

/-- The drill length rule (R342). -/
def drillLong (z : Word) : Bool := decide (2 ^ 32 ≤ z.toNat)

/-- The instruction continues or finishes after a transfer. -/
def Moved.eff (m : Moved) (s : State) : Eff :=
  match m with
  | .wait => .wait s
  | .done s' => .done s'
  | .stop t off s' => .fault t (BitVec.ofNat 64 off) s'

/-! ## Copies and stores (R349 to R351) -/

/-- `d.nop` and `d.pref` (R61, R351). -/
def bodyDone : Body := fun _ _ _ s => .done s

/-- `d.copy` (R349). -/
def bodyDCopy : Body := fun k cap r s =>
  if drillLong cap.z then .trap vIllenc s
  else
    let n := cap.z.toNat - r.toNat
    let out := s.reach k cap .dwr (n / 4096 + 2) (cap.x.toNat + r.toNat) n
    (moveTo k cap cap.y.toNat r.toNat cap.z.toNat out (some cap.x.toNat) s).eff s

/-- The RESUME word of a ring transfer (R364). -/
structure RingRes where
  off : Nat
  di : Option Nat
  sj : Option Nat
deriving DecidableEq, Repr

/-- Read a RESUME word. -/
def RingRes.of (w : Word) : RingRes :=
  { off := (field w 0 32).toNat
    di := if bit w 44 then some (field w 32 6).toNat else none
    sj := if bit w 45 then some (field w 38 6).toNat else none }

/-- The RESUME word. -/
def RingRes.word (r : RingRes) : Word :=
  BitVec.ofNat 64 (r.off + (r.di.getD 0) * 2 ^ 32 + (r.sj.getD 0) * 2 ^ 38 + (if r.di.isSome then 2 ^ 44 else 0)
    + (if r.sj.isSome then 2 ^ 45 else 0))

/-- The trap of a ring operation that cannot be (R217). -/
def ringPerm (n : BitVec 4) : TrapInfo := Trap.perm (n.zeroExtend 64)

/-- The pieces of a ring slot from an offset on, in a core's tower. -/
def slotPieces (c : CoreId) (r : Ring) (i off n : Nat) : List Piece × Option TrapInfo :=
  ([{ a := 0, len := n, at_ := .phys (apertureAddr c (r.slotOff i + off)) 2#3 }], none)

/-- A party releases the slot it filled and finishes; a slot that it does not hold filling traps (R215 to R217). -/
def finishFill (dest : CoreId) (n who : BitVec 4) (res : RingRes) (s : State) : Eff :=
  match ((s.core dest).ring n).releaseFill who (res.di.getD 0) with
  | some ring => .done (s.modCore dest (fun c => c.setRing n ring))
  | none => .fault (ringPerm n) res.word s

/-- The copy into a held slot (R349, R364). -/
def rgCopy (k : CoreId) (cap : Cap) (dest : CoreId) (n : BitVec 4) (res : RingRes) (s : State) : Eff :=
  let z := cap.z.toNat
  let out := slotPieces dest ((s.core dest).ring n) (res.di.getD 0) res.off (z - res.off)
  match moveTo k cap cap.y.toNat res.off z out none s with
  | .wait => .hold res.word s
  | .stop t off s' => .fault t { res with off := off }.word s'
  | .done s' => finishFill dest n (memberOf k ++ 2#2) { res with off := z } s'

/-- `d.copy.rg` (R349, R364). -/
def bodyDCopyRg (n : BitVec 4) (m : BitVec 2) : Body := fun k cap r s =>
  let res := RingRes.of r
  let dest := quadMember k m
  let ring := (s.core dest).ring n
  if drillLong cap.z then .trap vIllenc s
  else
    match res.di with
    | some _ => rgCopy k cap dest n res s
    | none =>
      if !ring.val then .trap (ringPerm n) s
      else if ring.size < cap.z.toNat then .trap vIllenc s
      else
        match ring.acquireFill (memberOf k ++ 2#2) with
        | none => .hold r s
        | some (i, ring') => rgCopy k cap dest n { res with di := some i } (s.modCore dest (fun c => c.setRing n ring'))

/-- `d.store` (R350). -/
def bodyDStore (w : BitVec 2) : Body := fun k cap r s =>
  let b := 2 ^ w.toNat
  let x := cap.x.toNat
  let n := cap.z.toNat - r.toNat
  if drillLong cap.z then .trap vIllenc s
  else if x % b ≠ 0 then .trap (Trap.align cap.x) s
  else if cap.z.toNat % b ≠ 0 then .trap (Trap.align cap.z) s
  else
    let (ps, t) := s.reach k cap .dwr (n / 4096 + 2) (x + r.toNat) n
    let len := piecesLen ps
    if ps.any (s.pieceBlocked k true) then .wait s
    else
      let pat := natToBytes b cap.y.toNat
      let s1 := (ps.foldl State.touchWalk s).writePieces k ps ((List.range len).map (fun i => pat.getD ((r.toNat + i) % b) 0#8))
      if len = n then .done s1 else .fault (t.getD vIllenc) (BitVec.ofNat 64 (r.toNat + len)) s1

/-! ## Drill-line broadcast (R352, R353) -/

/-- A core's row in its die's mesh (R152). -/
def meshRow (k : CoreId) : Nat := 4 * ((tableOf k).toNat % 16 / 4) + 2 * ((quadOf k).toNat / 2) + (memberOf k).toNat / 2
/-- A core's column in its die's mesh (R152). -/
def meshCol (k : CoreId) : Nat := 4 * ((tableOf k).toNat % 4) + 2 * ((quadOf k).toNat % 2) + (memberOf k).toNat % 2
/-- The core at a place of a die's mesh (R152). -/
def meshCore (d : DieId) (row col : Nat) : CoreId :=
  BitVec.ofNat 11 (d.toNat * 256 + (4 * (row / 4) + col / 4) * 16 + (2 * (row % 4 / 2) + col % 4 / 2) * 4
    + (2 * (row % 2) + col % 2))

/-- The cores that RMASK names (R352). -/
def bcastCores (k : CoreId) (x : Word) : List CoreId :=
  ((List.range 16).filter (fun r => bit x (32 + r))).map (fun r => meshCore (dieOf k) r (meshCol k))

/-- `d.bcast`: each run carries one beat of 256 bytes to every named tower (R352, R353). -/
def bodyDBcast : Body := fun k cap r s =>
  let off := (field cap.x 0 25).toNat
  let y := cap.y.toNat
  let z := cap.z.toNat
  let cores := bcastCores k cap.x
  if drillLong cap.z ∨ field cap.x 48 16 ≠ 0#64 ∨ field cap.x 25 7 ≠ 0#64 then .trap vIllenc s
  else if off % 256 ≠ 0 then .trap (Trap.align (BitVec.ofNat 64 off)) s
  else if y % 256 ≠ 0 then .trap (Trap.align cap.y) s
  else if z % 256 ≠ 0 then .trap (Trap.align cap.z) s
  else if towerSize < off + z then .trap (Trap.perm cap.x) s
  else if !(cores.all (fun c => (s.plotOf (tableOf k)).contains (tableOf c))) then .trap (Trap.perm cap.x) s
  else if cores.isEmpty ∨ z ≤ r.toNat then .done s
  else
    match s.reach k cap .drd 2 (y + r.toNat) 256 with
    | (_, some t) => .fault t r s
    | (ps, none) =>
      let tier := ps.all (fun p => match s.targetOf k p.at_ with | .ext _ _ _ => true | _ => false)
      if ps.any (s.pieceBlocked k false) then .wait s
      else if !tier then .fault (Trap.perm (BitVec.ofNat 64 (y + r.toNat))) r s
      else
        let s1 := ps.foldl (fun s p => s.touchPiece k p) s
        let d := s1.takeData k ps
        let s2 := cores.foldl (fun s c =>
          s.putData k [{ a := 0, len := 256, at_ := .phys (apertureAddr c (off + r.toNat)) 2#3 }] d) s1
        let r' := BitVec.ofNat 64 (r.toNat + 256)
        if z ≤ r.toNat + 256 then .done s2 else .hold r' s2

/-! ## Tile spill and fill (R316, R354) -/

/-- The tile of a spill or fill: acc1 or acc0, as the role stood at the start (R316). -/
def tileOf (t : BitVec 1) (cap : Cap) (c : Core) : Bool := cap.tile.getD (c.vec.exposed != bit1 t)

/-- The checks of a spill or fill before it starts (R354). -/
def tileCheck (row0 : BitVec 6) (cap : Cap) : Option TrapInfo :=
  if 65 ≤ cap.y.toNat ∨ 64 < row0.toNat + cap.y.toNat then some vIllenc
  else if cap.x.toNat % 128 ≠ 0 then some (Trap.align cap.x)
  else none

/-- `d.spill` (R354). -/
def bodyDSpill (t : BitVec 1) (row0 : BitVec 6) : Body := fun k cap r s =>
  match tileCheck row0 cap with
  | some tr => .trap tr s
  | none =>
    let c := s.core k
    let acc1 := tileOf t cap c
    let o := r.toNat
    let n := 128 * cap.y.toNat - o
    let bytes := (List.range cap.y.toNat).flatMap (fun i =>
      natToBytes 128 (c.accSeen (fun e => Config.freeBool s.tick (2048 * i + e)) acc1 (row0 + BitVec.ofNat 6 i)).toNat)
    let (ps, tr) := s.reach k cap .dwr (n / 4096 + 2) (cap.x.toNat + o) n
    if ps.any (s.pieceBlocked k true) then .wait s
    else
      let s1 := (ps.foldl State.touchWalk s).writePieces k ps ((bytes.drop o).take (piecesLen ps))
      if piecesLen ps = n then .done s1 else .fault (tr.getD vIllenc) (BitVec.ofNat 64 (o + piecesLen ps)) s1

/-- `d.fill`: whole rows; poison does not travel into them (R354). -/
def bodyDFill (t : BitVec 1) (row0 : BitVec 6) : Body := fun k cap r s =>
  match tileCheck row0 cap with
  | some tr => .trap tr s
  | none =>
    let acc1 := tileOf t cap (s.core k)
    let o := r.toNat
    let n := 128 * cap.y.toNat - o
    let (ps, tr) := s.reach k cap .drd (n / 4096 + 2) (cap.x.toNat + o) n
    let rows := piecesLen ps / 128
    if ps.any (s.pieceBlocked k false) then .wait s
    else
      let s1 := ps.foldl (fun s p => s.touchPiece k p) s
      let bytes := s1.readPieces k ps
      let s2 := s1.modCore k (fun c => (List.range rows).foldl (fun c i =>
        c.accPut s.tick acc1 (row0 + BitVec.ofNat 6 (o / 128 + i)) (fun _ => true)
          (BitVec.ofNat 1024 (bytesToNat ((bytes.drop (128 * i)).take 128)))) c)
      if piecesLen ps = n then .done s2 else .fault (tr.getD vIllenc) (BitVec.ofNat 64 (o + 128 * rows)) s2

/-! ## Tag fill (R355) -/

/-- `d.tfill`: the entry is invalid until every byte of the copy is performed (R355). -/
def bodyDTfill : Body := fun k cap r s =>
  let sz := (field cap.x 0 3).toNat
  let idx : BitVec 10 := cap.y.truncate 10
  let line := (field cap.y 10 16).toNat
  if !tsetBok sz cap.y || !bit cap.y 27 then .trap (Trap.illenc cap.y) s
  else if !tsetAok sz cap.x then .trap (Trap.illenc cap.x) s
  else
    let n := 512 * 2 ^ sz
    let block := (field cap.x 9 47).toNat
    let old := (s.core k).tags.get 0#128 idx
    let s0 := s.modCore k (fun c => { c with tags := c.tags.set idx (old &&& ~~~1#128) })
    let out : List Piece × Option TrapInfo :=
      ([{ a := 0, len := n - r.toNat, at_ := .window (512 * line + r.toNat) }], none)
    match moveTo k cap (512 * block) r.toNat n out none s0 with
    | .wait => .wait s
    | .stop t off s' => .fault t (BitVec.ofNat 64 off) s'
    | .done s' => .done (s'.modCore k (fun c => { c with tags := c.tags.set idx (tagMake true (bit cap.y 26) line sz block) }))

/-! ## Atomics at the stacks (R356 to R358) -/

/-- Record a refused return-free atomic; the earliest in issue order stays (R357, R358). -/
def Core.refuse (c : Core) (x : Refused) : Core :=
  match c.refused with
  | some y => if x.order < y.order then { c with refused := some x } else c
  | none => { c with refused := some x }

/-- Perform an atomic on checked pieces, unless its sector is poisoned: the old value, or none (R262, R357). -/
def atomicAt (k : CoreId) (ps : List Piece) (n : Nat) (f : Nat → Nat) (s : State) : Option Nat × State :=
  let s1 := ps.foldl (fun s p => s.touchPiece k p) s
  match s1.piecesBad k true ps with
  | some _ => (none, s1)
  | none =>
    let old := bytesToNat (s1.readPieces k ps)
    (some old, s1.writePieces k ps (natToBytes n (f old)))

/-- What one element does, its entry read (R356, R357). -/
inductive Element where
  | wait
  | ok (s : State)
  | trap (t : TrapInfo)

/-- Send a return-free atomic: in the tower it is performed; in a tier it waits at the stack until it is performed, at the
latest for a `d.afence` (R263). DEDUCED, log entry 23. -/
def sendNr (k : CoreId) (ps : List Piece) (tva : Nat) (aop : BitVec 4) (sz : BitVec 1) (v e : Nat) (s : State) : State :=
  let n := if sz = 1#1 then 8 else 4
  let s' := s.advanceTick
  let home : Option (Bool × Nat × BitVec 3 × Nat) :=
    match ps with
    | [p] =>
      match s.targetOf k p.at_, p.at_ with
      | .ext far t il, .phys pa _ => some (far, t, il, pa)
      | _, _ => none
    | _ => none
  match home with
  | some (far, t, il, pa) =>
    let pkt : Packet := .atomic k 0 (BitVec.ofNat 52 pa) il aop sz (BitVec.ofNat 64 v) (BitVec.ofNat 64 e) true
    s'.modStack (tierStack far (place t il).s) (fun x =>
      { x with sent := x.sent ++ [{ pkt := pkt, named := BitVec.ofNat 56 tva, order := s.tick }] })
  | none =>
    match atomicAt k ps n (fun old => atomicNew aop (8 * n) old v e) s' with
    | (some _, s1) => s1
    | (none, s1) => s1.modCore k (fun c =>
        c.refuse { tower := true, addr := BitVec.ofNat 56 (tva / 32 * 32), order := s.tick })

/-- Element i of an atomic (R356, R357). -/
def atomElement (k : CoreId) (cap : Cap) (aop : BitVec 4) (sz : BitVec 1) (nr : Bool) (i : Nat) (s : State) : Element :=
  let eo := cap.y.toNat - windowBase + 32 * i
  let n := if sz = 1#1 then 8 else 4
  let s1 := s.scrubTower k eo 32
  let t := (s1.core k).tower
  if t.poisoned eo then
    if nr then
      .ok (s1.advanceTick.modCore k (fun c =>
        c.refuse { tower := true, addr := BitVec.ofNat 56 (windowAddr eo), order := s1.tick }))
    else .ok s1
  else
    let w (j : Nat) : Nat := bytesToNat (t.read (eo + 8 * j) 8)
    let tva := (cap.x.toNat + w 0) % 2 ^ 64
    match s1.check k cap.asid cap.xe (s1.core k).ctl.sup .datom n tva n with
    | .error tr => .trap tr
    | .ok ps =>
      if ps.any (fun p => s1.pieceStalled k true p || s1.pieceFull k p || (!nr && s1.pieceBehind k p)) then .wait
      else if nr then .ok (sendNr k ps tva aop sz (w 1 % 2 ^ (8 * n)) (w 2 % 2 ^ (8 * n)) s1)
      else
        match atomicAt k ps n (fun old => atomicNew aop (8 * n) old (w 1 % 2 ^ (8 * n)) (w 2 % 2 ^ (8 * n))) s1 with
        | (some old, s2) => .ok (s2.modCore k (fun c => c.towerWrite (eo + 24) (natToBytes 8 (atomicOld aop sz old).toNat)))
        | (none, s2) => .ok (s2.modCore k (fun c => { c with tower := c.tower.setPoison eo true }))

/-- The elements of an atomic from one on, in ascending order (R357). -/
def atomLoop (k : CoreId) (cap : Cap) (aop : BitVec 4) (sz : BitVec 1) (nr : Bool) : Nat → Nat → State → Eff
  | 0, _, s => .done s
  | left + 1, i, s =>
    match atomElement k cap aop sz nr i s with
    | .wait => .hold (BitVec.ofNat 64 i) s
    | .trap t => .fault t (BitVec.ofNat 64 i) s
    | .ok s' => atomLoop k cap aop sz nr left (i + 1) s'

/-- `d.atom` and `d.atom.nr` (R356). -/
def atomBody (aop : BitVec 4) (sz : BitVec 1) (nr : Bool) : Body := fun k cap r s =>
  let y := cap.y.toNat
  let z := cap.z.toNat
  if 65536 < z then .trap (Trap.illenc cap.z) s
  else if y % 32 ≠ 0 then .trap (Trap.align cap.y) s
  else if z ≠ 0 ∧ (y < windowBase ∨ 2 ^ 56 < y + 32 * z) then .trap (Trap.perm cap.y) s
  else atomLoop k cap aop sz nr (z - r.toNat) r.toNat s

/-- `d.atom` (R356). -/
def bodyDAtom (aop : BitVec 4) (sz : BitVec 1) : Body := atomBody aop sz false
/-- `d.atom.nr` (R356, R263). -/
def bodyDAtomNr (aop : BitVec 4) (sz : BitVec 1) : Body := atomBody aop sz true

/-- The core that sent a return-free atomic. -/
def Sent.src (x : Sent) : CoreId := x.pkt.src

/-- Perform a return-free atomic at its home: none while the stacks it needs are in self-refresh (R235, R262, R357), or behind
an earlier packet of its source to the same bytes (R225). -/
def performSent (x : Sent) (s : State) : Option State :=
  match x.pkt with
  | .atomic src _ a il aop sz v e _ =>
    let n := if sz = 1#1 then 8 else 4
    let ps : List Piece := [{ a := a.toNat, len := n, at_ := .phys a.toNat il }]
    if ps.any (s.pieceStalled src true) || s.hbm.any (fun e => e.2.queue.any (fun q => packetsMeet q.pkt x.pkt)) then none
    else
      match atomicAt src ps n (fun old => atomicNew aop (8 * n) old v.toNat e.toNat) s with
      | (some _, s1) => some s1
      | (none, s1) => some (if !x.reply then s1 else s1.modCore src (fun c =>
          c.refuse { tower := false, addr := BitVec.ofNat 56 (x.named.toNat / 32 * 32), order := x.order }))
  | _ => some s

/-- Perform the return-free atomics of a list that a core sent, in order, and drop them; none while one must wait. -/
def performAll (k : CoreId) (n : StackId) : List Sent → State → Option State
  | [], s => some s
  | x :: rest, s =>
    if x.src = k then
      match performSent x (s.modStack n (fun st => { st with sent := st.sent.filter (fun y => decide (y ≠ x)) })) with
      | none => none
      | some s' => performAll k n rest s'
    else performAll k n rest s

/-- Perform every return-free atomic of a core. -/
def performStacks (k : CoreId) : List StackId → State → Option State
  | [], s => some s
  | n :: rest, s =>
    match performAll k n (s.stack n).sent s with
    | none => none
    | some s' => performStacks k rest s'

/-- The stacks, in order. -/
def allStacks : List StackId := (List.range 16).map (fun i => BitVec.ofNat 4 i)

/-- `d.afence`: every covered atomic is performed, its parity with it, and no stack of its scope is in self-refresh; a refusal
traps, once (R235, R263, R358). -/
def bodyDAfence (sc : BitVec 4) : Body := fun k _ r s =>
  match performStacks k allStacks s with
  | none => .hold r s
  | some s' =>
    if s'.hbm.any (fun e => e.2.deltas.any (fun d => d.reply && decide (d.src = k)))
        || (scopeStacks k sc).any (fun n => (s'.stack n).selfRefresh) then .hold r s'
    else
      match (s'.core k).refused with
      | none => .done s'
      | some x =>
        .fault { code := if x.tower then 0x10#8 else 0x11#8, addr := x.addr.zeroExtend 64 } r
          (s'.modCore k (fun c => { c with refused := none }))

end Sys2Proof.Machine
end

