-- ==== Sys2Proof/Machine/Scalar.lean ====
section
/-! DEFINITION. The integer, literal and comparison instructions of the control unit (R61 to R72). -/

namespace Sys2Proof.Machine

/-- Bits [127:64] of the signed product (R63). -/
def mulhI (a b : Word) : Word := BitVec.ofInt 64 (a.toInt * b.toInt / 2 ^ 64)
/-- Bits [127:64] of the unsigned product (R63). -/
def mulhN (a b : Word) : Word := BitVec.ofNat 64 (a.toNat * b.toNat / 2 ^ 64)

/-- `div.n` (R64). -/
def divN (a b : Word) : Word × Fl := if b = 0#64 then (BitVec.allOnes 64, Fl.dz) else (a / b, 0#6)
/-- `rem.n` (R64). -/
def remN (a b : Word) : Word × Fl := if b = 0#64 then (a, Fl.dz) else (a % b, 0#6)
/-- `div.i` (R64). -/
def divI (a b : Word) : Word × Fl :=
  if b = 0#64 then (BitVec.allOnes 64, Fl.dz)
  else if a = 0x8000000000000000#64 ∧ b = BitVec.allOnes 64 then (0x8000000000000000#64, 0#6)
  else (BitVec.ofInt 64 (Int.tdiv a.toInt b.toInt), 0#6)
/-- `rem.i` (R64). -/
def remI (a b : Word) : Word × Fl :=
  if b = 0#64 then (a, Fl.dz)
  else if a = 0x8000000000000000#64 ∧ b = BitVec.allOnes 64 then (0#64, 0#6)
  else (BitVec.ofInt 64 (Int.tmod a.toInt b.toInt), 0#6)

/-- A shift count: bits [5:0] of a register (R65). -/
def shCount (b : Word) : Nat := b.toNat % 64
/-- `sll` (R65). -/
def sllW (a b : Word) : Word := a <<< shCount b
/-- `srl` (R65). -/
def srlW (a b : Word) : Word := a >>> shCount b
/-- `sra` (R65). -/
def sraW (a b : Word) : Word := a.sshiftRight (shCount b)
/-- `rol` (R65). -/
def rolW (a b : Word) : Word := if shCount b = 0 then a else (a <<< shCount b) ||| (a >>> (64 - shCount b))

/-- The funnel shift: the upper half of the 128-bit value a:b shifted left by c[6:0] (R66). -/
def fshW (a b c : Word) : Word := ((a ++ b : BitVec 128) <<< (c.toNat % 128)).extractLsb' 64 64

/-- The set bits of a number's w low bits, highest first. -/
def setBitsDown (w x : Nat) : List Nat := ((List.range w).filter (fun i => x.testBit i)).reverse
/-- Index of the highest set bit, w when there is none (R67). -/
def ffsN (w x : Nat) : Nat := (setBitsDown w x).headD w
/-- Zero bits above the highest set bit, w when there is none (R67). -/
def clzN (w x : Nat) : Nat := match (setBitsDown w x).head? with | some i => w - 1 - i | none => w
/-- Zero bits below the lowest set bit, w when there is none (R67). -/
def ctzN (w x : Nat) : Nat := (((List.range w).filter (fun i => x.testBit i)).head?).getD w
/-- Number of set bits (R67). -/
def popcN (w x : Nat) : Nat := ((List.range w).filter (fun i => x.testBit i)).length
/-- The w / 8 bytes in reverse order (R67). -/
def bswapN (w x : Nat) : Nat := bytesToNat (natToBytes (w / 8) x).reverse
/-- A bit-count instruction: its function on the low wd bits, zero-extended (R67). -/
def countW (w : BitVec 2) (f : Nat → Nat → Nat) (a : Word) : Word :=
  BitVec.ofNat 64 (f (wdBits w) (a.toNat % 2 ^ wdBits w))

/-- `nop`: it pops and posts its tokens (R61). -/
def execNop  (t : Option Tok) (s : State) : Host.Outcome State Fault Refusal :=
  runCtl t (fun c => c) s

/-- `add` (R63). -/
def execAdd (d a b : BitVec 5) (t : Option Tok) (s : State) : Host.Outcome State Fault Refusal :=
  runCtl t (binC d a b (fun x y => x + y)) s

/-- `sub` (R63). -/
def execSub (d a b : BitVec 5) (t : Option Tok) (s : State) : Host.Outcome State Fault Refusal :=
  runCtl t (binC d a b (fun x y => x - y)) s

/-- `mul` (R63). -/
def execMul (d a b : BitVec 5) (t : Option Tok) (s : State) : Host.Outcome State Fault Refusal :=
  runCtl t (binC d a b (fun x y => x * y)) s

/-- `mulh.i` (R63). -/
def execMulhI (d a b : BitVec 5) (t : Option Tok) (s : State) : Host.Outcome State Fault Refusal :=
  runCtl t (binC d a b mulhI) s

/-- `mulh.n` (R63). -/
def execMulhN (d a b : BitVec 5) (t : Option Tok) (s : State) : Host.Outcome State Fault Refusal :=
  runCtl t (binC d a b mulhN) s

/-- `div.i` (R64). -/
def execDivI (d a b : BitVec 5) (t : Option Tok) (s : State) : Host.Outcome State Fault Refusal :=
  runCtl t (binFlC d a b divI) s

/-- `div.n` (R64). -/
def execDivN (d a b : BitVec 5) (t : Option Tok) (s : State) : Host.Outcome State Fault Refusal :=
  runCtl t (binFlC d a b divN) s

/-- `rem.i` (R64). -/
def execRemI (d a b : BitVec 5) (t : Option Tok) (s : State) : Host.Outcome State Fault Refusal :=
  runCtl t (binFlC d a b remI) s

/-- `rem.n` (R64). -/
def execRemN (d a b : BitVec 5) (t : Option Tok) (s : State) : Host.Outcome State Fault Refusal :=
  runCtl t (binFlC d a b remN) s

/-- `and` (R63). -/
def execAnd (d a b : BitVec 5) (t : Option Tok) (s : State) : Host.Outcome State Fault Refusal :=
  runCtl t (binC d a b (fun x y => x &&& y)) s

/-- `or` (R63). -/
def execOr (d a b : BitVec 5) (t : Option Tok) (s : State) : Host.Outcome State Fault Refusal :=
  runCtl t (binC d a b (fun x y => x ||| y)) s

/-- `xor` (R63). -/
def execXor (d a b : BitVec 5) (t : Option Tok) (s : State) : Host.Outcome State Fault Refusal :=
  runCtl t (binC d a b (fun x y => x ^^^ y)) s

/-- `andn` (R63). -/
def execAndn (d a b : BitVec 5) (t : Option Tok) (s : State) : Host.Outcome State Fault Refusal :=
  runCtl t (binC d a b (fun x y => x &&& ~~~y)) s

/-- `sll` (R65). -/
def execSll (d a b : BitVec 5) (t : Option Tok) (s : State) : Host.Outcome State Fault Refusal :=
  runCtl t (binC d a b sllW) s

/-- `srl` (R65). -/
def execSrl (d a b : BitVec 5) (t : Option Tok) (s : State) : Host.Outcome State Fault Refusal :=
  runCtl t (binC d a b srlW) s

/-- `sra` (R65). -/
def execSra (d a b : BitVec 5) (t : Option Tok) (s : State) : Host.Outcome State Fault Refusal :=
  runCtl t (binC d a b sraW) s

/-- `rol` (R65). -/
def execRol (d a b : BitVec 5) (t : Option Tok) (s : State) : Host.Outcome State Fault Refusal :=
  runCtl t (binC d a b rolW) s

/-- `fsh` (R66). -/
def execFsh (d a b c : BitVec 5) (t : Option Tok) (s : State) : Host.Outcome State Fault Refusal :=
  runCtl t (fun x => x.setReg d (fshW (x.reg a) (x.reg b) (x.reg c))) s

/-- `clz` (R67). -/
def execClz (d a : BitVec 5) (w : BitVec 2) (t : Option Tok) (s : State) : Host.Outcome State Fault Refusal :=
  runCtl t (unC d a (countW w clzN)) s

/-- `ctz` (R67). -/
def execCtz (d a : BitVec 5) (w : BitVec 2) (t : Option Tok) (s : State) : Host.Outcome State Fault Refusal :=
  runCtl t (unC d a (countW w ctzN)) s

/-- `ffs` (R67). -/
def execFfs (d a : BitVec 5) (w : BitVec 2) (t : Option Tok) (s : State) : Host.Outcome State Fault Refusal :=
  runCtl t (unC d a (countW w ffsN)) s

/-- `popc` (R67). -/
def execPopc (d a : BitVec 5) (w : BitVec 2) (t : Option Tok) (s : State) : Host.Outcome State Fault Refusal :=
  runCtl t (unC d a (countW w popcN)) s

/-- `bswap` (R67). -/
def execBswap (d a : BitVec 5) (w : BitVec 2) (t : Option Tok) (s : State) : Host.Outcome State Fault Refusal :=
  runCtl t (unC d a (countW w bswapN)) s

/-- `min.i` (R68). -/
def execMinI (d a b : BitVec 5) (t : Option Tok) (s : State) : Host.Outcome State Fault Refusal :=
  runCtl t (binC d a b (fun x y => if x.sle y then x else y)) s

/-- `min.n` (R68). -/
def execMinN (d a b : BitVec 5) (t : Option Tok) (s : State) : Host.Outcome State Fault Refusal :=
  runCtl t (binC d a b (fun x y => if x.ule y then x else y)) s

/-- `max.i` (R68). -/
def execMaxI (d a b : BitVec 5) (t : Option Tok) (s : State) : Host.Outcome State Fault Refusal :=
  runCtl t (binC d a b (fun x y => if y.sle x then x else y)) s

/-- `max.n` (R68). -/
def execMaxN (d a b : BitVec 5) (t : Option Tok) (s : State) : Host.Outcome State Fault Refusal :=
  runCtl t (binC d a b (fun x y => if y.ule x then x else y)) s

/-- `seq` (R68). -/
def execSeq (d a b : BitVec 5) (t : Option Tok) (s : State) : Host.Outcome State Fault Refusal :=
  runCtl t (binC d a b (fun x y => flagWord (x == y))) s

/-- `sne` (R68). -/
def execSne (d a b : BitVec 5) (t : Option Tok) (s : State) : Host.Outcome State Fault Refusal :=
  runCtl t (binC d a b (fun x y => flagWord (x != y))) s

/-- `slt.i` (R68). -/
def execSltI (d a b : BitVec 5) (t : Option Tok) (s : State) : Host.Outcome State Fault Refusal :=
  runCtl t (binC d a b (fun x y => flagWord (x.slt y))) s

/-- `slt.n` (R68). -/
def execSltN (d a b : BitVec 5) (t : Option Tok) (s : State) : Host.Outcome State Fault Refusal :=
  runCtl t (binC d a b (fun x y => flagWord (x.ult y))) s

/-- `sle.i` (R68). -/
def execSleI (d a b : BitVec 5) (t : Option Tok) (s : State) : Host.Outcome State Fault Refusal :=
  runCtl t (binC d a b (fun x y => flagWord (x.sle y))) s

/-- `sle.n` (R68). -/
def execSleN (d a b : BitVec 5) (t : Option Tok) (s : State) : Host.Outcome State Fault Refusal :=
  runCtl t (binC d a b (fun x y => flagWord (x.ule y))) s

/-- `sel` (R68). -/
def execSel (d a b c : BitVec 5) (t : Option Tok) (s : State) : Host.Outcome State Fault Refusal :=
  runCtl t (fun x => x.setReg d (if x.reg c ≠ 0#64 then x.reg a else x.reg b)) s

/-- `addi` (R69). -/
def execAddi (d a : BitVec 5) (i : BitVec 14) (t : Option Tok) (s : State) : Host.Outcome State Fault Refusal :=
  runCtl t (immC d a i (fun x y => x + y)) s

/-- `andi` (R69). -/
def execAndi (d a : BitVec 5) (i : BitVec 14) (t : Option Tok) (s : State) : Host.Outcome State Fault Refusal :=
  runCtl t (immC d a i (fun x y => x &&& y)) s

/-- `ori` (R69). -/
def execOri (d a : BitVec 5) (i : BitVec 14) (t : Option Tok) (s : State) : Host.Outcome State Fault Refusal :=
  runCtl t (immC d a i (fun x y => x ||| y)) s

/-- `xori` (R69). -/
def execXori (d a : BitVec 5) (i : BitVec 14) (t : Option Tok) (s : State) : Host.Outcome State Fault Refusal :=
  runCtl t (immC d a i (fun x y => x ^^^ y)) s

/-- `slli`: the count is the immediate, 0 to 63 (R69, R70). -/
def execSlli (d a : BitVec 5) (i : BitVec 14) (t : Option Tok) (s : State) : Host.Outcome State Fault Refusal :=
  runCtl t (immC d a i sllW) s

/-- `srli`: the count is the immediate, 0 to 63 (R69, R70). -/
def execSrli (d a : BitVec 5) (i : BitVec 14) (t : Option Tok) (s : State) : Host.Outcome State Fault Refusal :=
  runCtl t (immC d a i srlW) s

/-- `srai`: the count is the immediate, 0 to 63 (R69, R70). -/
def execSrai (d a : BitVec 5) (i : BitVec 14) (t : Option Tok) (s : State) : Host.Outcome State Fault Refusal :=
  runCtl t (immC d a i sraW) s

/-- `roli`: the count is the immediate, 0 to 63 (R69, R70). -/
def execRoli (d a : BitVec 5) (i : BitVec 14) (t : Option Tok) (s : State) : Host.Outcome State Fault Refusal :=
  runCtl t (immC d a i rolW) s

/-- `seqi` (R69). -/
def execSeqi (d a : BitVec 5) (i : BitVec 14) (t : Option Tok) (s : State) : Host.Outcome State Fault Refusal :=
  runCtl t (immC d a i (fun x y => flagWord (x == y))) s

/-- `slti.i` (R69). -/
def execSltiI (d a : BitVec 5) (i : BitVec 14) (t : Option Tok) (s : State) : Host.Outcome State Fault Refusal :=
  runCtl t (immC d a i (fun x y => flagWord (x.slt y))) s

/-- `slti.n` (R69). -/
def execSltiN (d a : BitVec 5) (i : BitVec 14) (t : Option Tok) (s : State) : Host.Outcome State Fault Refusal :=
  runCtl t (immC d a i (fun x y => flagWord (x.ult y))) s

/-- `muli` (R69). -/
def execMuli (d a : BitVec 5) (i : BitVec 14) (t : Option Tok) (s : State) : Host.Outcome State Fault Refusal :=
  runCtl t (immC d a i (fun x y => x * y)) s

/-- The value of a literal: one slot sign-extended, or two slots (R71). -/
def Lit.value : Lit → Word
  | .short w => w.signExtend 64
  | .long lo hi => hi ++ lo

/-- `li` (R71). -/
def execLi (d : BitVec 5) (lit : Lit) (t : Option Tok) (s : State) : Host.Outcome State Fault Refusal :=
  runCtl t (fun c => c.setReg d (Lit.value lit)) s

/-- `lip`: `li` of the literal as delivered after patching (R72). -/
def execLip (d : BitVec 5) (lit : Lit) (t : Option Tok) (s : State) : Host.Outcome State Fault Refusal :=
  runCtl t (fun c => c.setReg d (Lit.value lit)) s

end Sys2Proof.Machine
end

