-- ==== Sys2Proof/Machine/VecAlu.lean ====
section
/-! DEFINITION. The vector instructions on rows (R169 to R188). -/

namespace Sys2Proof.Machine

/-- `v.min` and `v.max`: the chosen operand's bits when nothing narrows, else its value (R171). -/
def pickRes (i : VIn) (a b : BitVec 6) (k : Nat) (f : Val → Val → Val) : VRes :=
  let va := i.val a i.x.sa k
  let vb := (i.at 1).val b i.x.sb k
  let r := f va vb
  if i.x.nw = 0#4 ∧ i.x.sa = 0#4 ∧ i.x.sb = 0#4 then
    if r.isNan then .raw ((i.ef.nanBits).getD 0) else .raw (if r = va then i.el a k else (i.at 1).el b k)
  else .flt r 0#6

/-- `v.abs` and `v.neg`: only the sign bit changes when nothing narrows, else the value (R171). -/
def signRes (i : VIn) (a : BitVec 6) (k : Nat) (neg : Bool) : VRes :=
  let el := i.el a k
  let top := 2 ^ (i.w - 1)
  if i.x.nw = 0#4 ∧ i.x.sa = 0#4 then
    .raw (if neg then (if el < top then el + top else el - top) else el % top)
  else
    let v := i.val a i.x.sa k
    .flt (if neg then v.negate else v.abs) 0#6

/-- A pattern shifted left (R173). -/
def shlPat (w x n : Nat) : Nat := if w ≤ n then 0 else x * 2 ^ n % 2 ^ w
/-- A pattern shifted right (R173). -/
def shrPat (w x n : Nat) : Nat := if w ≤ n then 0 else x / 2 ^ n
/-- A pattern shifted right with copies of its top bit (R173). -/
def sarPat (w x n : Nat) : Nat := ((sextInt w x / (2 ^ (min n w) : Int)) % (2 ^ w : Int)).toNat
/-- The funnel shift of two patterns (R174). -/
def fshPat (w a b c : Nat) : Nat := (a * 2 ^ w + b) * 2 ^ (c % (2 * w)) / 2 ^ w % 2 ^ w

/-- `v.rshr`: the exact quotient, rounded once (R176). -/
def rshrInt (m : Mode) (a : Int) (n : Nat) : Int :=
  match (Val.fin (decide (a < 0)) a.natAbs (-(n : Int)) false).toIntegral m with
  | some (q, _) => q
  | none => 0

/-- Equality of two values; NaN equals nothing (R76). -/
def vEq (a b : Val) : Bool × Fl := (!(a.isNan || b.isNan) && decide (Val.cmp a b = 0), 0#6)
/-- Less-than; a NaN raises NV (R76). -/
def vLt (a b : Val) : Bool × Fl := if a.isNan || b.isNan then (false, Fl.nv) else (decide (Val.cmp a b < 0), 0#6)
/-- Less-or-equal; a NaN raises NV (R76). -/
def vLe (a b : Val) : Bool × Fl := if a.isNan || b.isNan then (false, Fl.nv) else (decide (Val.cmp a b ≤ 0), 0#6)

/-- A word of bits, bit k from its k-th entry. -/
def packBits : List Bool → Nat
  | [] => 0
  | b :: rest => (if b then 1 else 0) + 2 * packBits rest

/-- A comparison into a predicate: active bits are compared, inactive ones kept, bits from N up cleared (R177), under `?!p0`
too: DEDUCED, log entry 88. -/
def vCmp (q : BitVec 4) (p : BitVec 4) (n : BitVec 1) (x : VExt) (codes : List (BitVec 4)) (f : VIn → Nat → Bool × Fl) :
    Body := fun k cap _ s =>
  let c := s.core k
  let i : VIn := { c := c, cap := cap, x := x, tick := s.tick }
  if !i.ok codes then .trap vIllenc s
  else
    let pd := ppred cap.prb q
    let old := c.vec.pred pd
    let act := (List.range i.n).filter (i.active p n)
    let bits := (List.range i.n).map (fun k => if i.active p n k then (f i k).1 else old.getLsbD k)
    let fl := act.foldl (fun fl k => fl ||| (f i k).2) 0#6
    .done (s.setCore k ({ c with vec := c.vec.setPred pd (BitVec.ofNat 64 (packBits bits)) }.raise fl))

/-- `v.cvt.fi`: into i_w, or into the integer nw type (R179). -/
def cvtFiRes (i : VIn) (m : Mode) (v : Val) : VRes :=
  if i.x.nw = 0#4 then
    let r := floatToInt m (-(2 ^ (i.w - 1) : Int)) (2 ^ (i.w - 1) - 1) v
    .bits (r.1 % (2 ^ i.w : Int)).toNat r.2
  else .flt v 0#6

/-- The largest value of a type, with a sign: the least value of an integer type when negative (R180). -/
def maxVal (ty : Ty) (neg : Bool) : Val :=
  match ty with
  | .flt f => let v := f.decode f.maxBits; if neg then v.negate else v
  | .int sg u => Val.ofInt (if neg then (if sg then -(2 ^ (u - 1) : Int) else 0) else (if sg then 2 ^ (u - 1) - 1 else 2 ^ u - 1))

/-- `v.qnt`: the exact quotient; a division by zero gives the largest value with DZ only (R180). DEDUCED, log entry 34. -/
def qntRes (nw : BitVec 4) (a b : Val) : VRes :=
  let (v, f) := Val.div a b
  if f = Fl.dz then .flt (maxVal (nwTy nw) v.neg?) f else .flt v f

/-- The exact four-way byte dot product with the accumulator (R181). -/
def dp4Sum (sg : Bool) (acc a b : Nat) : Int :=
  (List.range 4).foldl (fun t j =>
    t + readInt sg 8 (a / 2 ^ (8 * j) % 256) * readInt sg 8 (b / 2 ^ (8 * j) % 256)) (readInt sg 32 acc)

/-- `v.dp4`; it asks w = 32 (R165, R181). -/
def vDp4 (d a b : BitVec 6) (p : BitVec 4) (n : BitVec 1) (x : VExt) : Body := fun k cap r s =>
  if accW (s.core k).ctl.acct ≠ 32 then .trap vIllenc s
  else
    vElem d p n x [] false drawsInt
      (fun i e _ => .int i.signed (dp4Sum i.signed ((i.at 2).el d e) (i.el a e) ((i.at 1).el b e))) k cap r s

/-- The operations of a reduction. -/
inductive RedOp where
  | add | max | min
deriving DecidableEq, Repr

/-- The identity of R128, as element bits. -/
def redIdent (i : VIn) (o : RedOp) : Nat :=
  if 2 ≤ i.x.sfmt.toNat then
    match o with
    | .add => 2 ^ (i.w - 1)
    | .max => 2 ^ (i.w - 1) + (i.ef.infBits).getD 0
    | .min => (i.ef.infBits).getD 0
  else
    match o with
    | .add => 0
    | .max => if i.signed then 2 ^ (i.w - 1) else 0
    | .min => if i.signed then 2 ^ (i.w - 1) - 1 else 2 ^ i.w - 1

/-- One node: the operation on two elements, delivered into the element type, with the draw of the element's lane
(R126, R128, R182). -/
def redNode (i : VIn) (o : RedOp) (elem : Nat) (l r : Nat) (st : Vec × Fl) : Nat × (Vec × Fl) :=
  if 2 ≤ i.x.sfmt.toNat then
    let vl := i.ef.decode l
    let vr := i.ef.decode r
    match o with
    | .add =>
      let (mode, v1) := drawMode (vMode i.x i.cap) (laneOf i.n elem) st.1
      let (v, f) := Val.add mode vl vr
      let (b, f') := i.ef.deliver mode i.x.sat false v
      (b, (v1, st.2 ||| f ||| f'))
    | .max => let v := Val.max vl vr; (if v.isNan then (i.ef.nanBits).getD 0 else if v = vl then l else r, st)
    | .min => let v := Val.min vl vr; (if v.isNan then (i.ef.nanBits).getD 0 else if v = vl then l else r, st)
  else
    let a := readInt i.signed i.w l
    let b := readInt i.signed i.w r
    match o with
    | .add => let (x, f) := intDeliver i.signed i.w i.x.sat (a + b); (x, (st.1, st.2 ||| f))
    | .max => (if a < b then r else l, st)
    | .min => (if b < a then r else l, st)

/-- Element k as a reduction reads it: its typed value as element bits, or the identity when inactive (R128, R182). -/
def redEl (i : VIn) (o : RedOp) (a : BitVec 6) (p : BitVec 4) (n : BitVec 1) (k : Nat) : Nat :=
  if i.active p n k then
    if 2 ≤ i.x.sfmt.toNat ∧ i.x.sa ≠ 0#4 then (i.ef.round .rne (i.val a i.x.sa k)).1 else i.pat a i.x.sa k
  else redIdent i o

/-- The prefix `?!p0`, under which no element is active and no node is formed (R167). -/
def neverActive (cap : Cap) (p : BitVec 4) (n : BitVec 1) : Bool := decide (ppred cap.prb p = 0#4) && bit1 n

/-- A float that passed no node, in canonical form; an integer as it is (R112). -/
def canonEl (i : VIn) (b : Nat) : Nat :=
  if 2 ≤ i.x.sfmt.toNat ∧ (i.ef.decode b).isNan then (i.ef.nanBits).getD 0 else b

/-- A reduction: the pairwise tree, its result in every element; the identity under `?!p0` (R167, R182). -/
def vReduce (o : RedOp) (d a : BitVec 6) (p : BitVec 4) (n : BitVec 1) (x : VExt) : Body := fun k cap _ s =>
  let c := s.core k
  let i : VIn := { c := c, cap := cap, x := x, tick := s.tick }
  if !i.ok [x.sa] then .trap vIllenc s
  else
    let els := (List.range i.n).map (redEl i o a p n)
    let (r, v, fl) :=
      if neverActive cap p n then (redIdent i o, c.vec, (0#6 : Fl))
      else pairwise (fun lvl ix l r st => redNode i o (ix * 2 ^ lvl) l r st) (redIdent i o) els (c.vec, (0#6 : Fl))
    .done (s.setCore k (({ c with vec := v }.rowPut s.tick (vrow cap.vrb d) (fun _ => true) (packRow i.w (List.replicate i.n r))).raise fl))

/-- One step of the scan at distance dist: element i takes op(e[i - dist], e[i]) (R128). -/
def scanStep (i : VIn) (dist : Nat) (els : List Nat) : List Nat → Vec × Fl → List Nat × (Vec × Fl)
  | [], st => ([], st)
  | e :: es, st =>
    if e < dist then
      let (rest, st') := scanStep i dist els es st
      (els.getD e 0 :: rest, st')
    else
      let (b, st1) := redNode i .add e (els.getD (e - dist) 0) (els.getD e 0) st
      let (rest, st') := scanStep i dist els es st1
      (b :: rest, st')

/-- The steps of the scan, dist doubling (R128). -/
def scanAll (i : VIn) : Nat → Nat → List Nat → Vec × Fl → List Nat × (Vec × Fl)
  | 0, _, els, st => (els, st)
  | fuel + 1, dist, els, st =>
    if i.n ≤ dist then (els, st)
    else
      let (els', st') := scanStep i dist els (List.range i.n) st
      scanAll i fuel (2 * dist) els' st'

/-- `v.scan`: element 0 passes no node, and its NaN is the canonical one (R112, R183); nothing happens under `?!p0`
(R167). -/
def vScan (d a : BitVec 6) (p : BitVec 4) (n : BitVec 1) (x : VExt) : Body := fun k cap _ s =>
  let c := s.core k
  let i : VIn := { c := c, cap := cap, x := x, tick := s.tick }
  if !i.ok [x.sa] then .trap vIllenc s
  else if neverActive cap p n then .done s
  else
    let (els, v, fl) := scanAll i 7 1 ((List.range i.n).map (redEl i .add a p n)) (c.vec, (0#6 : Fl))
    let out := (List.range i.n).map (fun e => if i.active p n e then canonEl i (els.getD e 0) else i.el d e)
    .done (s.setCore k (({ c with vec := v }.rowPut s.tick (vrow cap.vrb d) (i.active p n) (packRow i.w out)).raise fl))

/-- `v.ins` (R185). -/
def vIns (d a : BitVec 6) (p : BitVec 4) (n : BitVec 1) (x : VExt) : Body := fun k cap _ s =>
  let c := s.core k
  let i : VIn := { c := c, cap := cap, x := x, tick := s.tick }
  if i.n ≤ a.toNat then .trap vIllenc s
  else
    let out := (List.range i.n).map (fun e =>
      if e = a.toNat ∧ i.active p n e then cap.x.toNat % 2 ^ i.w else i.el d e)
    .done (s.setCore k (c.rowPut s.tick (vrow cap.vrb d) (fun e => decide (e = a.toNat) && i.active p n e) (packRow i.w out)))

/-- `v.ext`: field d is the lane index, s the destination (R185). -/
def vExtract (d a : BitVec 6) (sd : BitVec 5) (p : BitVec 4) (n : BitVec 1) (x : VExt) : Body := fun k cap _ s =>
  let c := s.core k
  let i : VIn := { c := c, cap := cap, x := x, tick := s.tick }
  if i.n ≤ d.toNat then .trap vIllenc s
  else if i.active p n d.toNat then .done (s.setReg k sd (BitVec.ofNat 64 (i.el a d.toNat)))
  else .done s

/-- A group of three registers from one lies in v0–v31 or in v32–v63 (R137). -/
def groupOk (r : BitVec 6) : Bool := decide (r.toNat / 32 = (r.toNat + 2) / 32)

/-- The rounding of a value into FP32 under RNE, with its flags added. -/
def rne32 (v : Val) (f fl : Fl) : Nat × Fl := let (b, f') := Fmt.fp32.round .rne v; (b, fl ||| f ||| f')

/-- `weight` (R186). -/
def lseWeight (m mx : Val) : Val × Fl :=
  if Val.cmp m mx = 0 then (.fin false 1 0 false, 0#6)
  else if m = .inf true then (Val.zero, 0#6)
  else
    let d := Val.add .rne m mx.negate
    let (t, f1) := rne32 d.1 d.2 0#6
    let u := Val.mul (Fmt.fp32.decode t) (Fmt.fp32.decode 0x3FB8AA3B)
    let (ub, f2) := rne32 u.1 u.2 f1
    let (w, f3) := exp2Rne ub
    (Fmt.fp32.decode w, f2 ||| f3)

/-- s1 × e1 + s2 × e2, the products exact, one rounding (R186). -/
def lseMix (s1 e1 s2 e2 : Val) : Nat × Fl :=
  let p := Val.mul s1 e1
  let q := Val.mul s2 e2
  let r := Val.add .rne p.1 q.1
  rne32 r.1 (p.2 ||| q.2 ||| r.2) 0#6

/-- The merge of two triples of one element: m, s, x and the flags (R186). -/
def lseMerge (m1 s1 x1 m2 s2 x2 : Nat) : (Nat × Nat × Nat) × Fl :=
  let v (b : Nat) : Val := Fmt.fp32.decode b
  if [m1, s1, x1, m2, s2, x2].any (fun b => (v b).isNan) then ((0x7FC00000, 0x7FC00000, 0x7FC00000), 0#6)
  else
    let mx := Val.max (v m1) (v m2)
    let (e1, f1) := lseWeight (v m1) mx
    let (e2, f2) := lseWeight (v m2) mx
    let (ds, f3) := lseMix (v s1) e1 (v s2) e2
    let (dx, f4) := lseMix (v x1) e1 (v x2) e2
    ((if mx = v m1 then m1 else m2, ds, dx), f1 ||| f2 ||| f3 ||| f4)

/-- `v.lse` (R165, R168, R186). At 16 bits ILLENC comes before GRPWRAP: DESIGN CHOICE, log entry 87. -/
def vLse (d a b : BitVec 6) (p : BitVec 4) (n : BitVec 1) (x : VExt) : Body := fun k cap _ s =>
  let c := s.core k
  let i : VIn := { c := c, cap := cap, x := x, tick := s.tick }
  if i.w ≠ 32 then .trap vIllenc s
  else if !(groupOk d && groupOk a && groupOk b) then .trap Trap.grpwrap s
  else
    let el (i : VIn) (r : BitVec 6) (j k : Nat) : Nat := i.el (r + BitVec.ofNat 6 j) k
    let res := (List.range 32).map (fun e =>
      if i.active p n e then
        lseMerge (el i a 0 e) (el i a 1 e) (el i a 2 e) (el (i.at 1) b 0 e) (el (i.at 1) b 1 e) (el (i.at 1) b 2 e)
      else ((el i d 0 e, el i d 1 e, el i d 2 e), 0#6))
    let row (f : (Nat × Nat × Nat) → Nat) : BitVec 1024 := packRow 32 (res.map (fun (q : (Nat × Nat × Nat) × Fl) => f q.1))
    let c1 := c.rowPut s.tick (vrow cap.vrb d) (i.active p n) (row (fun q => q.1))
    let c2 := c1.rowPut s.tick (vrow cap.vrb (d + 1#6)) (i.active p n) (row (fun q => q.2.1))
    let c3 := c2.rowPut s.tick (vrow cap.vrb (d + 2#6)) (i.active p n) (row (fun q => q.2.2))
    .done (s.setCore k (c3.raise (res.foldl (fun fl (q : (Nat × Nat × Nat) × Fl) => fl ||| q.2) 0#6)))

/-- The strict order of `v.cex` on element bits (R187). -/
def cexBefore (i : VIn) (x y : Nat) : Bool :=
  if 2 ≤ i.x.sfmt.toNat then
    let vx := i.ef.decode x
    let vy := i.ef.decode y
    if vx.isNan then false
    else if vy.isNan then true
    else if Val.cmp vx vy = 0 then vx.isZero && vx.neg? && !vy.neg?
    else decide (Val.cmp vx vy < 0)
  else decide (readInt i.signed i.w x < readInt i.signed i.w y)

/-- The bits element k takes (R187). -/
def cexBits (i : VIn) (a b : BitVec 6) (k : Nat) : Nat :=
  let bk := (i.at 1).el b k
  let p := bk % 64 % i.n
  let dir := bk.testBit 6
  let x := i.el a k
  let y := i.el a p
  let wantlow := decide (k < p) != dir
  if p ≠ k ∧ wantlow ∧ cexBefore i y x then y
  else if p ≠ k ∧ ¬ wantlow ∧ cexBefore i x y then y
  else x

/-- `v.seed`: each lane that holds an active element (R188). -/
def vSeed (p : BitVec 4) (n : BitVec 1) (x : VExt) : Body := fun k cap _ s =>
  let c := s.core k
  let i : VIn := { c := c, cap := cap, x := x, tick := s.tick }
  let on (lane : Nat) : Bool := (List.range i.n).any (fun e => decide (laneOf i.n e = lane) && i.active p n e)
  let v := (List.range 32).foldl (fun v lane =>
    if on lane then v.setGen lane (seedLane (BitVec.ofNat 5 lane) (cap.x.truncate 32)) else v) c.vec
  .done (s.setCore k { c with vec := v })

/-- `v.nop` (R61). -/
def bodyVNop : Body := fun _ _ _ s => .done s

/-- `v.nop` (R61). -/
def execVNop (t : Option Tok) (s : State) : Host.Outcome State Fault Refusal :=
  runE .v (.vNop t) (capOf (.vNop t) (s.core s.exe)) bodyVNop s

/-- `v.add` (R169). -/
def bodyVAdd (d : BitVec 6) (a : BitVec 6) (b : BitVec 6) (p : BitVec 4) (n : BitVec 1) (x : VExt) : Body :=
  vElem d p n x [x.sa, x.sb] false drawsFlt (fun i k m =>
    let r := Val.add m (i.val a x.sa k) ((i.at 1).val b x.sb k)
    .flt r.1 r.2)

/-- `v.add` (R169). -/
def execVAdd (d : BitVec 6) (a : BitVec 6) (b : BitVec 6) (p : BitVec 4) (n : BitVec 1) (x : Option VExt) (t : Option Tok) (s : State) : Host.Outcome State Fault Refusal :=
  runE .v (.vAdd d a b p n x t) (capOf (.vAdd d a b p n x t) (s.core s.exe)) (bodyVAdd d a b p n (x.getD vextDefault)) s

/-- `v.sub` (R169). -/
def bodyVSub (d : BitVec 6) (a : BitVec 6) (b : BitVec 6) (p : BitVec 4) (n : BitVec 1) (x : VExt) : Body :=
  vElem d p n x [x.sa, x.sb] false drawsFlt (fun i k m =>
    let r := Val.add m (i.val a x.sa k) ((i.at 1).val b x.sb k).negate
    .flt r.1 r.2)

/-- `v.sub` (R169). -/
def execVSub (d : BitVec 6) (a : BitVec 6) (b : BitVec 6) (p : BitVec 4) (n : BitVec 1) (x : Option VExt) (t : Option Tok) (s : State) : Host.Outcome State Fault Refusal :=
  runE .v (.vSub d a b p n x t) (capOf (.vSub d a b p n x t) (s.core s.exe)) (bodyVSub d a b p n (x.getD vextDefault)) s

/-- `v.mul` (R169). -/
def bodyVMul (d : BitVec 6) (a : BitVec 6) (b : BitVec 6) (p : BitVec 4) (n : BitVec 1) (x : VExt) : Body :=
  vElem d p n x [x.sa, x.sb] false drawsFlt (fun i k _ =>
    let r := Val.mul (i.val a x.sa k) ((i.at 1).val b x.sb k)
    .flt r.1 r.2)

/-- `v.mul` (R169). -/
def execVMul (d : BitVec 6) (a : BitVec 6) (b : BitVec 6) (p : BitVec 4) (n : BitVec 1) (x : Option VExt) (t : Option Tok) (s : State) : Host.Outcome State Fault Refusal :=
  runE .v (.vMul d a b p n x t) (capOf (.vMul d a b p n x t) (s.core s.exe)) (bodyVMul d a b p n (x.getD vextDefault)) s

/-- `v.fma` (R169). -/
def bodyVFma (d : BitVec 6) (a : BitVec 6) (b : BitVec 6) (p : BitVec 4) (n : BitVec 1) (x : VExt) : Body :=
  vElem d p n x [x.sa, x.sb, x.scf] false drawsFlt (fun i k m =>
    let r := Val.fma m (i.val a x.sa k) ((i.at 1).val b x.sb k) ((i.at 3).val x.c x.scf k)
    .flt r.1 r.2)

/-- `v.fma` (R169). -/
def execVFma (d : BitVec 6) (a : BitVec 6) (b : BitVec 6) (p : BitVec 4) (n : BitVec 1) (x : VExt) (t : Option Tok) (s : State) : Host.Outcome State Fault Refusal :=
  runE .v (.vFma d a b p n x t) (capOf (.vFma d a b p n x t) (s.core s.exe)) (bodyVFma d a b p n x) s

/-- `v.min` (R169, R171). -/
def bodyVMin (d : BitVec 6) (a : BitVec 6) (b : BitVec 6) (p : BitVec 4) (n : BitVec 1) (x : VExt) : Body :=
  vElem d p n x [x.sa, x.sb] false drawsNarrow (fun i k _ => pickRes i a b k Val.min)

/-- `v.min` (R169, R171). -/
def execVMin (d : BitVec 6) (a : BitVec 6) (b : BitVec 6) (p : BitVec 4) (n : BitVec 1) (x : Option VExt) (t : Option Tok) (s : State) : Host.Outcome State Fault Refusal :=
  runE .v (.vMin d a b p n x t) (capOf (.vMin d a b p n x t) (s.core s.exe)) (bodyVMin d a b p n (x.getD vextDefault)) s

/-- `v.max` (R169, R171). -/
def bodyVMax (d : BitVec 6) (a : BitVec 6) (b : BitVec 6) (p : BitVec 4) (n : BitVec 1) (x : VExt) : Body :=
  vElem d p n x [x.sa, x.sb] false drawsNarrow (fun i k _ => pickRes i a b k Val.max)

/-- `v.max` (R169, R171). -/
def execVMax (d : BitVec 6) (a : BitVec 6) (b : BitVec 6) (p : BitVec 4) (n : BitVec 1) (x : Option VExt) (t : Option Tok) (s : State) : Host.Outcome State Fault Refusal :=
  runE .v (.vMax d a b p n x t) (capOf (.vMax d a b p n x t) (s.core s.exe)) (bodyVMax d a b p n (x.getD vextDefault)) s

/-- `v.abs` (R169, R171). -/
def bodyVAbs (d : BitVec 6) (a : BitVec 6) (p : BitVec 4) (n : BitVec 1) (x : VExt) : Body :=
  vElem d p n x [x.sa] false drawsNarrow (fun i k _ => signRes i a k false)

/-- `v.abs` (R169, R171). -/
def execVAbs (d : BitVec 6) (a : BitVec 6) (p : BitVec 4) (n : BitVec 1) (x : Option VExt) (t : Option Tok) (s : State) : Host.Outcome State Fault Refusal :=
  runE .v (.vAbs d a p n x t) (capOf (.vAbs d a p n x t) (s.core s.exe)) (bodyVAbs d a p n (x.getD vextDefault)) s

/-- `v.neg` (R169, R171). -/
def bodyVNeg (d : BitVec 6) (a : BitVec 6) (p : BitVec 4) (n : BitVec 1) (x : VExt) : Body :=
  vElem d p n x [x.sa] false drawsNarrow (fun i k _ => signRes i a k true)

/-- `v.neg` (R169, R171). -/
def execVNeg (d : BitVec 6) (a : BitVec 6) (p : BitVec 4) (n : BitVec 1) (x : Option VExt) (t : Option Tok) (s : State) : Host.Outcome State Fault Refusal :=
  runE .v (.vNeg d a p n x t) (capOf (.vNeg d a p n x t) (s.core s.exe)) (bodyVNeg d a p n (x.getD vextDefault)) s

/-- `v.div` (R169). -/
def bodyVDiv (d : BitVec 6) (a : BitVec 6) (b : BitVec 6) (p : BitVec 4) (n : BitVec 1) (x : VExt) : Body :=
  vElem d p n x [x.sa, x.sb] false drawsFlt (fun i k _ =>
    let r := Val.div (i.val a x.sa k) ((i.at 1).val b x.sb k)
    .flt r.1 r.2)

/-- `v.div` (R169). -/
def execVDiv (d : BitVec 6) (a : BitVec 6) (b : BitVec 6) (p : BitVec 4) (n : BitVec 1) (x : Option VExt) (t : Option Tok) (s : State) : Host.Outcome State Fault Refusal :=
  runE .v (.vDiv d a b p n x t) (capOf (.vDiv d a b p n x t) (s.core s.exe)) (bodyVDiv d a b p n (x.getD vextDefault)) s

/-- `v.sqrt` (R169, R170). -/
def bodyVSqrt (d : BitVec 6) (a : BitVec 6) (p : BitVec 4) (n : BitVec 1) (x : VExt) : Body :=
  vElem d p n x [x.sa] false drawsFlt (fun i k _ =>
    let r := Val.sqrt (i.val a x.sa k)
    .flt r.1 r.2)

/-- `v.sqrt` (R169, R170). -/
def execVSqrt (d : BitVec 6) (a : BitVec 6) (p : BitVec 4) (n : BitVec 1) (x : Option VExt) (t : Option Tok) (s : State) : Host.Outcome State Fault Refusal :=
  runE .v (.vSqrt d a p n x t) (capOf (.vSqrt d a p n x t) (s.core s.exe)) (bodyVSqrt d a p n (x.getD vextDefault)) s

/-- `v.rcp` (R169, R170). -/
def bodyVRcp (d : BitVec 6) (a : BitVec 6) (p : BitVec 4) (n : BitVec 1) (x : VExt) : Body :=
  vElem d p n x [x.sa] false drawsFlt (fun i k _ =>
    let r := Val.div (.fin false 1 0 false) (i.val a x.sa k)
    .flt r.1 r.2)

/-- `v.rcp` (R169, R170). -/
def execVRcp (d : BitVec 6) (a : BitVec 6) (p : BitVec 4) (n : BitVec 1) (x : Option VExt) (t : Option Tok) (s : State) : Host.Outcome State Fault Refusal :=
  runE .v (.vRcp d a p n x t) (capOf (.vRcp d a p n x t) (s.core s.exe)) (bodyVRcp d a p n (x.getD vextDefault)) s

/-- `v.rsqrt` (R169, R170). -/
def bodyVRsqrt (d : BitVec 6) (a : BitVec 6) (p : BitVec 4) (n : BitVec 1) (x : VExt) : Body :=
  vElem d p n x [x.sa] false drawsFlt (fun i k _ =>
    let r := Val.rsqrt (i.val a x.sa k)
    .flt r.1 r.2)

/-- `v.rsqrt` (R169, R170). -/
def execVRsqrt (d : BitVec 6) (a : BitVec 6) (p : BitVec 4) (n : BitVec 1) (x : Option VExt) (t : Option Tok) (s : State) : Host.Outcome State Fault Refusal :=
  runE .v (.vRsqrt d a p n x t) (capOf (.vRsqrt d a p n x t) (s.core s.exe)) (bodyVRsqrt d a p n (x.getD vextDefault)) s

/-- `v.exp2` (R169, R170). -/
def bodyVExp2 (d : BitVec 6) (a : BitVec 6) (p : BitVec 4) (n : BitVec 1) (x : VExt) : Body :=
  vElem d p n x [x.sa] false drawsFlt (fun i k _ =>
    let r := (Val.exp2 (i.val a x.sa k), (0#6 : Fl))
    .flt r.1 r.2)

/-- `v.exp2` (R169, R170). -/
def execVExp2 (d : BitVec 6) (a : BitVec 6) (p : BitVec 4) (n : BitVec 1) (x : Option VExt) (t : Option Tok) (s : State) : Host.Outcome State Fault Refusal :=
  runE .v (.vExp2 d a p n x t) (capOf (.vExp2 d a p n x t) (s.core s.exe)) (bodyVExp2 d a p n (x.getD vextDefault)) s

/-- `v.log2` (R169, R170). -/
def bodyVLog2 (d : BitVec 6) (a : BitVec 6) (p : BitVec 4) (n : BitVec 1) (x : VExt) : Body :=
  vElem d p n x [x.sa] false drawsFlt (fun i k _ =>
    let r := Val.log2 (i.val a x.sa k)
    .flt r.1 r.2)

/-- `v.log2` (R169, R170). -/
def execVLog2 (d : BitVec 6) (a : BitVec 6) (p : BitVec 4) (n : BitVec 1) (x : Option VExt) (t : Option Tok) (s : State) : Host.Outcome State Fault Refusal :=
  runE .v (.vLog2 d a p n x t) (capOf (.vLog2 d a p n x t) (s.core s.exe)) (bodyVLog2 d a p n (x.getD vextDefault)) s

/-- `v.tanh` (R169, R170). -/
def bodyVTanh (d : BitVec 6) (a : BitVec 6) (p : BitVec 4) (n : BitVec 1) (x : VExt) : Body :=
  vElem d p n x [x.sa] false drawsFlt (fun i k _ =>
    let r := (Val.tanh (i.val a x.sa k), (0#6 : Fl))
    .flt r.1 r.2)

/-- `v.tanh` (R169, R170). -/
def execVTanh (d : BitVec 6) (a : BitVec 6) (p : BitVec 4) (n : BitVec 1) (x : Option VExt) (t : Option Tok) (s : State) : Host.Outcome State Fault Refusal :=
  runE .v (.vTanh d a p n x t) (capOf (.vTanh d a p n x t) (s.core s.exe)) (bodyVTanh d a p n (x.getD vextDefault)) s

/-- `v.iadd` (R172). -/
def bodyVIadd (d : BitVec 6) (a : BitVec 6) (b : BitVec 6) (p : BitVec 4) (n : BitVec 1) (x : VExt) : Body :=
  vElem d p n x [x.sa, x.sb] false drawsInt (fun i k _ =>
    .int i.signed (i.int i.signed a x.sa k + (i.at 1).int i.signed b x.sb k))

/-- `v.iadd` (R172). -/
def execVIadd (d : BitVec 6) (a : BitVec 6) (b : BitVec 6) (p : BitVec 4) (n : BitVec 1) (x : Option VExt) (t : Option Tok) (s : State) : Host.Outcome State Fault Refusal :=
  runE .v (.vIadd d a b p n x t) (capOf (.vIadd d a b p n x t) (s.core s.exe)) (bodyVIadd d a b p n (x.getD vextDefault)) s

/-- `v.isub` (R172). -/
def bodyVIsub (d : BitVec 6) (a : BitVec 6) (b : BitVec 6) (p : BitVec 4) (n : BitVec 1) (x : VExt) : Body :=
  vElem d p n x [x.sa, x.sb] false drawsInt (fun i k _ =>
    .int i.signed (i.int i.signed a x.sa k - (i.at 1).int i.signed b x.sb k))

/-- `v.isub` (R172). -/
def execVIsub (d : BitVec 6) (a : BitVec 6) (b : BitVec 6) (p : BitVec 4) (n : BitVec 1) (x : Option VExt) (t : Option Tok) (s : State) : Host.Outcome State Fault Refusal :=
  runE .v (.vIsub d a b p n x t) (capOf (.vIsub d a b p n x t) (s.core s.exe)) (bodyVIsub d a b p n (x.getD vextDefault)) s

/-- `v.imul` (R172). -/
def bodyVImul (d : BitVec 6) (a : BitVec 6) (b : BitVec 6) (p : BitVec 4) (n : BitVec 1) (x : VExt) : Body :=
  vElem d p n x [x.sa, x.sb] false drawsInt (fun i k _ =>
    .int i.signed ((i.int i.signed a x.sa k) * ((i.at 1).int i.signed b x.sb k)))

/-- `v.imul` (R172). -/
def execVImul (d : BitVec 6) (a : BitVec 6) (b : BitVec 6) (p : BitVec 4) (n : BitVec 1) (x : Option VExt) (t : Option Tok) (s : State) : Host.Outcome State Fault Refusal :=
  runE .v (.vImul d a b p n x t) (capOf (.vImul d a b p n x t) (s.core s.exe)) (bodyVImul d a b p n (x.getD vextDefault)) s

/-- `v.imin` (R172). -/
def bodyVImin (d : BitVec 6) (a : BitVec 6) (b : BitVec 6) (p : BitVec 4) (n : BitVec 1) (x : VExt) : Body :=
  vElem d p n x [x.sa, x.sb] false drawsInt (fun i k _ =>
    .int true (min (i.int true a x.sa k) ((i.at 1).int true b x.sb k)))

/-- `v.imin` (R172). -/
def execVImin (d : BitVec 6) (a : BitVec 6) (b : BitVec 6) (p : BitVec 4) (n : BitVec 1) (x : Option VExt) (t : Option Tok) (s : State) : Host.Outcome State Fault Refusal :=
  runE .v (.vImin d a b p n x t) (capOf (.vImin d a b p n x t) (s.core s.exe)) (bodyVImin d a b p n (x.getD vextDefault)) s

/-- `v.nmin` (R172). -/
def bodyVNmin (d : BitVec 6) (a : BitVec 6) (b : BitVec 6) (p : BitVec 4) (n : BitVec 1) (x : VExt) : Body :=
  vElem d p n x [x.sa, x.sb] false drawsInt (fun i k _ =>
    .int false (min (i.int false a x.sa k) ((i.at 1).int false b x.sb k)))

/-- `v.nmin` (R172). -/
def execVNmin (d : BitVec 6) (a : BitVec 6) (b : BitVec 6) (p : BitVec 4) (n : BitVec 1) (x : Option VExt) (t : Option Tok) (s : State) : Host.Outcome State Fault Refusal :=
  runE .v (.vNmin d a b p n x t) (capOf (.vNmin d a b p n x t) (s.core s.exe)) (bodyVNmin d a b p n (x.getD vextDefault)) s

/-- `v.imax` (R172). -/
def bodyVImax (d : BitVec 6) (a : BitVec 6) (b : BitVec 6) (p : BitVec 4) (n : BitVec 1) (x : VExt) : Body :=
  vElem d p n x [x.sa, x.sb] false drawsInt (fun i k _ =>
    .int true (max (i.int true a x.sa k) ((i.at 1).int true b x.sb k)))

/-- `v.imax` (R172). -/
def execVImax (d : BitVec 6) (a : BitVec 6) (b : BitVec 6) (p : BitVec 4) (n : BitVec 1) (x : Option VExt) (t : Option Tok) (s : State) : Host.Outcome State Fault Refusal :=
  runE .v (.vImax d a b p n x t) (capOf (.vImax d a b p n x t) (s.core s.exe)) (bodyVImax d a b p n (x.getD vextDefault)) s

/-- `v.nmax` (R172). -/
def bodyVNmax (d : BitVec 6) (a : BitVec 6) (b : BitVec 6) (p : BitVec 4) (n : BitVec 1) (x : VExt) : Body :=
  vElem d p n x [x.sa, x.sb] false drawsInt (fun i k _ =>
    .int false (max (i.int false a x.sa k) ((i.at 1).int false b x.sb k)))

/-- `v.nmax` (R172). -/
def execVNmax (d : BitVec 6) (a : BitVec 6) (b : BitVec 6) (p : BitVec 4) (n : BitVec 1) (x : Option VExt) (t : Option Tok) (s : State) : Host.Outcome State Fault Refusal :=
  runE .v (.vNmax d a b p n x t) (capOf (.vNmax d a b p n x t) (s.core s.exe)) (bodyVNmax d a b p n (x.getD vextDefault)) s

/-- `v.iabs` (R172). -/
def bodyVIabs (d : BitVec 6) (a : BitVec 6) (p : BitVec 4) (n : BitVec 1) (x : VExt) : Body :=
  vElem d p n x [x.sa] false drawsInt (fun i k _ =>
    .int i.signed ((i.int i.signed a x.sa k).natAbs : Nat))

/-- `v.iabs` (R172). -/
def execVIabs (d : BitVec 6) (a : BitVec 6) (p : BitVec 4) (n : BitVec 1) (x : Option VExt) (t : Option Tok) (s : State) : Host.Outcome State Fault Refusal :=
  runE .v (.vIabs d a p n x t) (capOf (.vIabs d a p n x t) (s.core s.exe)) (bodyVIabs d a p n (x.getD vextDefault)) s

/-- `v.and` (R173). -/
def bodyVAnd (d : BitVec 6) (a : BitVec 6) (b : BitVec 6) (p : BitVec 4) (n : BitVec 1) (x : VExt) : Body :=
  vElem d p n x [x.sa, x.sb] false drawsInt (fun i k _ => patRes i ((i.pat a x.sa k) &&& ((i.at 1).pat b x.sb k)))

/-- `v.and` (R173). -/
def execVAnd (d : BitVec 6) (a : BitVec 6) (b : BitVec 6) (p : BitVec 4) (n : BitVec 1) (x : Option VExt) (t : Option Tok) (s : State) : Host.Outcome State Fault Refusal :=
  runE .v (.vAnd d a b p n x t) (capOf (.vAnd d a b p n x t) (s.core s.exe)) (bodyVAnd d a b p n (x.getD vextDefault)) s

/-- `v.or` (R173). -/
def bodyVOr (d : BitVec 6) (a : BitVec 6) (b : BitVec 6) (p : BitVec 4) (n : BitVec 1) (x : VExt) : Body :=
  vElem d p n x [x.sa, x.sb] false drawsInt (fun i k _ => patRes i ((i.pat a x.sa k) ||| ((i.at 1).pat b x.sb k)))

/-- `v.or` (R173). -/
def execVOr (d : BitVec 6) (a : BitVec 6) (b : BitVec 6) (p : BitVec 4) (n : BitVec 1) (x : Option VExt) (t : Option Tok) (s : State) : Host.Outcome State Fault Refusal :=
  runE .v (.vOr d a b p n x t) (capOf (.vOr d a b p n x t) (s.core s.exe)) (bodyVOr d a b p n (x.getD vextDefault)) s

/-- `v.xor` (R173). -/
def bodyVXor (d : BitVec 6) (a : BitVec 6) (b : BitVec 6) (p : BitVec 4) (n : BitVec 1) (x : VExt) : Body :=
  vElem d p n x [x.sa, x.sb] false drawsInt (fun i k _ => patRes i ((i.pat a x.sa k) ^^^ ((i.at 1).pat b x.sb k)))

/-- `v.xor` (R173). -/
def execVXor (d : BitVec 6) (a : BitVec 6) (b : BitVec 6) (p : BitVec 4) (n : BitVec 1) (x : Option VExt) (t : Option Tok) (s : State) : Host.Outcome State Fault Refusal :=
  runE .v (.vXor d a b p n x t) (capOf (.vXor d a b p n x t) (s.core s.exe)) (bodyVXor d a b p n (x.getD vextDefault)) s

/-- `v.not` (R173). -/
def bodyVNot (d : BitVec 6) (a : BitVec 6) (p : BitVec 4) (n : BitVec 1) (x : VExt) : Body :=
  vElem d p n x [x.sa] false drawsInt (fun i k _ => patRes i (2 ^ i.w - 1 - (i.pat a x.sa k)))

/-- `v.not` (R173). -/
def execVNot (d : BitVec 6) (a : BitVec 6) (p : BitVec 4) (n : BitVec 1) (x : Option VExt) (t : Option Tok) (s : State) : Host.Outcome State Fault Refusal :=
  runE .v (.vNot d a p n x t) (capOf (.vNot d a p n x t) (s.core s.exe)) (bodyVNot d a p n (x.getD vextDefault)) s

/-- `v.shl` (R173). -/
def bodyVShl (d : BitVec 6) (a : BitVec 6) (b : BitVec 6) (p : BitVec 4) (n : BitVec 1) (x : VExt) : Body :=
  vElem d p n x [x.sa, x.sb] false drawsInt (fun i k _ => patRes i (shlPat i.w (i.pat a x.sa k) ((i.at 1).pat b x.sb k)))

/-- `v.shl` (R173). -/
def execVShl (d : BitVec 6) (a : BitVec 6) (b : BitVec 6) (p : BitVec 4) (n : BitVec 1) (x : Option VExt) (t : Option Tok) (s : State) : Host.Outcome State Fault Refusal :=
  runE .v (.vShl d a b p n x t) (capOf (.vShl d a b p n x t) (s.core s.exe)) (bodyVShl d a b p n (x.getD vextDefault)) s

/-- `v.shr` (R173). -/
def bodyVShr (d : BitVec 6) (a : BitVec 6) (b : BitVec 6) (p : BitVec 4) (n : BitVec 1) (x : VExt) : Body :=
  vElem d p n x [x.sa, x.sb] false drawsInt (fun i k _ => patRes i (shrPat i.w (i.pat a x.sa k) ((i.at 1).pat b x.sb k)))

/-- `v.shr` (R173). -/
def execVShr (d : BitVec 6) (a : BitVec 6) (b : BitVec 6) (p : BitVec 4) (n : BitVec 1) (x : Option VExt) (t : Option Tok) (s : State) : Host.Outcome State Fault Refusal :=
  runE .v (.vShr d a b p n x t) (capOf (.vShr d a b p n x t) (s.core s.exe)) (bodyVShr d a b p n (x.getD vextDefault)) s

/-- `v.sar` (R173). -/
def bodyVSar (d : BitVec 6) (a : BitVec 6) (b : BitVec 6) (p : BitVec 4) (n : BitVec 1) (x : VExt) : Body :=
  vElem d p n x [x.sa, x.sb] false drawsInt (fun i k _ => patRes i (sarPat i.w (i.pat a x.sa k) ((i.at 1).pat b x.sb k)))

/-- `v.sar` (R173). -/
def execVSar (d : BitVec 6) (a : BitVec 6) (b : BitVec 6) (p : BitVec 4) (n : BitVec 1) (x : Option VExt) (t : Option Tok) (s : State) : Host.Outcome State Fault Refusal :=
  runE .v (.vSar d a b p n x t) (capOf (.vSar d a b p n x t) (s.core s.exe)) (bodyVSar d a b p n (x.getD vextDefault)) s

/-- `v.fsh` (R174). -/
def bodyVFsh (d : BitVec 6) (a : BitVec 6) (b : BitVec 6) (p : BitVec 4) (n : BitVec 1) (x : VExt) : Body :=
  vElem d p n x [x.sa, x.sb, x.scf] false drawsInt (fun i k _ =>
    patRes i (fshPat i.w (i.pat a x.sa k) ((i.at 1).pat b x.sb k) ((i.at 3).pat x.c x.scf k)))

/-- `v.fsh` (R174). -/
def execVFsh (d : BitVec 6) (a : BitVec 6) (b : BitVec 6) (p : BitVec 4) (n : BitVec 1) (x : VExt) (t : Option Tok) (s : State) : Host.Outcome State Fault Refusal :=
  runE .v (.vFsh d a b p n x t) (capOf (.vFsh d a b p n x t) (s.core s.exe)) (bodyVFsh d a b p n x) s

/-- `v.clz` (R175). -/
def bodyVClz (d : BitVec 6) (a : BitVec 6) (p : BitVec 4) (n : BitVec 1) (x : VExt) : Body :=
  vElem d p n x [x.sa] false drawsInt (fun i k _ =>
    .int i.signed (clzN (partOf i.w x.sa).1 (partBits i.w x.sa (i.el a k)) : Nat))

/-- `v.clz` (R175). -/
def execVClz (d : BitVec 6) (a : BitVec 6) (p : BitVec 4) (n : BitVec 1) (x : Option VExt) (t : Option Tok) (s : State) : Host.Outcome State Fault Refusal :=
  runE .v (.vClz d a p n x t) (capOf (.vClz d a p n x t) (s.core s.exe)) (bodyVClz d a p n (x.getD vextDefault)) s

/-- `v.popc` (R175). -/
def bodyVPopc (d : BitVec 6) (a : BitVec 6) (p : BitVec 4) (n : BitVec 1) (x : VExt) : Body :=
  vElem d p n x [x.sa] false drawsInt (fun i k _ =>
    .int i.signed (popcN (partOf i.w x.sa).1 (partBits i.w x.sa (i.el a k)) : Nat))

/-- `v.popc` (R175). -/
def execVPopc (d : BitVec 6) (a : BitVec 6) (p : BitVec 4) (n : BitVec 1) (x : Option VExt) (t : Option Tok) (s : State) : Host.Outcome State Fault Refusal :=
  runE .v (.vPopc d a p n x t) (capOf (.vPopc d a p n x t) (s.core s.exe)) (bodyVPopc d a p n (x.getD vextDefault)) s

/-- `v.ffs` (R175). -/
def bodyVFfs (d : BitVec 6) (a : BitVec 6) (p : BitVec 4) (n : BitVec 1) (x : VExt) : Body :=
  vElem d p n x [x.sa] false drawsInt (fun i k _ =>
    .int i.signed (ffsN (partOf i.w x.sa).1 (partBits i.w x.sa (i.el a k)) : Nat))

/-- `v.ffs` (R175). -/
def execVFfs (d : BitVec 6) (a : BitVec 6) (p : BitVec 4) (n : BitVec 1) (x : Option VExt) (t : Option Tok) (s : State) : Host.Outcome State Fault Refusal :=
  runE .v (.vFfs d a p n x t) (capOf (.vFfs d a p n x t) (s.core s.exe)) (bodyVFfs d a p n (x.getD vextDefault)) s

/-- `v.shli` (R173). -/
def bodyVShli (d : BitVec 6) (a : BitVec 6) (i : BitVec 6) (p : BitVec 4) (n : BitVec 1) (x : VExt) : Body :=
  vElem d p n x [x.sa] false drawsInt (fun v k _ => patRes v (shlPat v.w (v.pat a x.sa k) i.toNat))

/-- `v.shli` (R173). -/
def execVShli (d : BitVec 6) (a : BitVec 6) (i : BitVec 6) (p : BitVec 4) (n : BitVec 1) (x : Option VExt) (t : Option Tok) (s : State) : Host.Outcome State Fault Refusal :=
  runE .v (.vShli d a i p n x t) (capOf (.vShli d a i p n x t) (s.core s.exe)) (bodyVShli d a i p n (x.getD vextDefault)) s

/-- `v.shri` (R173). -/
def bodyVShri (d : BitVec 6) (a : BitVec 6) (i : BitVec 6) (p : BitVec 4) (n : BitVec 1) (x : VExt) : Body :=
  vElem d p n x [x.sa] false drawsInt (fun v k _ => patRes v (shrPat v.w (v.pat a x.sa k) i.toNat))

/-- `v.shri` (R173). -/
def execVShri (d : BitVec 6) (a : BitVec 6) (i : BitVec 6) (p : BitVec 4) (n : BitVec 1) (x : Option VExt) (t : Option Tok) (s : State) : Host.Outcome State Fault Refusal :=
  runE .v (.vShri d a i p n x t) (capOf (.vShri d a i p n x t) (s.core s.exe)) (bodyVShri d a i p n (x.getD vextDefault)) s

/-- `v.sari` (R173). -/
def bodyVSari (d : BitVec 6) (a : BitVec 6) (i : BitVec 6) (p : BitVec 4) (n : BitVec 1) (x : VExt) : Body :=
  vElem d p n x [x.sa] false drawsInt (fun v k _ => patRes v (sarPat v.w (v.pat a x.sa k) i.toNat))

/-- `v.sari` (R173). -/
def execVSari (d : BitVec 6) (a : BitVec 6) (i : BitVec 6) (p : BitVec 4) (n : BitVec 1) (x : Option VExt) (t : Option Tok) (s : State) : Host.Outcome State Fault Refusal :=
  runE .v (.vSari d a i p n x t) (capOf (.vSari d a i p n x t) (s.core s.exe)) (bodyVSari d a i p n (x.getD vextDefault)) s

/-- `v.rshr` (R176): it always saturates. -/
def bodyVRshr (d : BitVec 6) (a : BitVec 6) (i : BitVec 6) (p : BitVec 4) (n : BitVec 1) (x : VExt) : Body :=
  vElem d p n { x with sat := true } [x.sa] false drawsFlt (fun v k m =>
    .int v.signed (rshrInt m (v.int v.signed a x.sa k) i.toNat))

/-- `v.rshr` (R176): it always saturates. -/
def execVRshr (d : BitVec 6) (a : BitVec 6) (i : BitVec 6) (p : BitVec 4) (n : BitVec 1) (x : Option VExt) (t : Option Tok) (s : State) : Host.Outcome State Fault Refusal :=
  runE .v (.vRshr d a i p n x t) (capOf (.vRshr d a i p n x t) (s.core s.exe)) (bodyVRshr d a i p n (x.getD vextDefault)) s

/-- `v.feq` (R177). -/
def bodyVFeq (q : BitVec 4) (a : BitVec 6) (b : BitVec 6) (p : BitVec 4) (n : BitVec 1) (x : VExt) : Body :=
  vCmp q p n x [x.sa, x.sb] (fun i k => vEq (i.val a x.sa k) ((i.at 1).val b x.sb k))

/-- `v.feq` (R177). -/
def execVFeq (q : BitVec 4) (a : BitVec 6) (b : BitVec 6) (p : BitVec 4) (n : BitVec 1) (x : Option VExt) (t : Option Tok) (s : State) : Host.Outcome State Fault Refusal :=
  runE .v (.vFeq q a b p n x t) (capOf (.vFeq q a b p n x t) (s.core s.exe)) (bodyVFeq q a b p n (x.getD vextDefault)) s

/-- `v.flt` (R177). -/
def bodyVFlt (q : BitVec 4) (a : BitVec 6) (b : BitVec 6) (p : BitVec 4) (n : BitVec 1) (x : VExt) : Body :=
  vCmp q p n x [x.sa, x.sb] (fun i k => vLt (i.val a x.sa k) ((i.at 1).val b x.sb k))

/-- `v.flt` (R177). -/
def execVFlt (q : BitVec 4) (a : BitVec 6) (b : BitVec 6) (p : BitVec 4) (n : BitVec 1) (x : Option VExt) (t : Option Tok) (s : State) : Host.Outcome State Fault Refusal :=
  runE .v (.vFlt q a b p n x t) (capOf (.vFlt q a b p n x t) (s.core s.exe)) (bodyVFlt q a b p n (x.getD vextDefault)) s

/-- `v.fle` (R177). -/
def bodyVFle (q : BitVec 4) (a : BitVec 6) (b : BitVec 6) (p : BitVec 4) (n : BitVec 1) (x : VExt) : Body :=
  vCmp q p n x [x.sa, x.sb] (fun i k => vLe (i.val a x.sa k) ((i.at 1).val b x.sb k))

/-- `v.fle` (R177). -/
def execVFle (q : BitVec 4) (a : BitVec 6) (b : BitVec 6) (p : BitVec 4) (n : BitVec 1) (x : Option VExt) (t : Option Tok) (s : State) : Host.Outcome State Fault Refusal :=
  runE .v (.vFle q a b p n x t) (capOf (.vFle q a b p n x t) (s.core s.exe)) (bodyVFle q a b p n (x.getD vextDefault)) s

/-- `v.ieq` (R177). -/
def bodyVIeq (q : BitVec 4) (a : BitVec 6) (b : BitVec 6) (p : BitVec 4) (n : BitVec 1) (x : VExt) : Body :=
  vCmp q p n x [x.sa, x.sb] (fun i k => (decide ((i.pat a x.sa k) = ((i.at 1).pat b x.sb k)), 0#6))

/-- `v.ieq` (R177). -/
def execVIeq (q : BitVec 4) (a : BitVec 6) (b : BitVec 6) (p : BitVec 4) (n : BitVec 1) (x : Option VExt) (t : Option Tok) (s : State) : Host.Outcome State Fault Refusal :=
  runE .v (.vIeq q a b p n x t) (capOf (.vIeq q a b p n x t) (s.core s.exe)) (bodyVIeq q a b p n (x.getD vextDefault)) s

/-- `v.ilt` (R177). -/
def bodyVIlt (q : BitVec 4) (a : BitVec 6) (b : BitVec 6) (p : BitVec 4) (n : BitVec 1) (x : VExt) : Body :=
  vCmp q p n x [x.sa, x.sb] (fun i k => (decide (i.int true a x.sa k < (i.at 1).int true b x.sb k), 0#6))

/-- `v.ilt` (R177). -/
def execVIlt (q : BitVec 4) (a : BitVec 6) (b : BitVec 6) (p : BitVec 4) (n : BitVec 1) (x : Option VExt) (t : Option Tok) (s : State) : Host.Outcome State Fault Refusal :=
  runE .v (.vIlt q a b p n x t) (capOf (.vIlt q a b p n x t) (s.core s.exe)) (bodyVIlt q a b p n (x.getD vextDefault)) s

/-- `v.nlt` (R177). -/
def bodyVNlt (q : BitVec 4) (a : BitVec 6) (b : BitVec 6) (p : BitVec 4) (n : BitVec 1) (x : VExt) : Body :=
  vCmp q p n x [x.sa, x.sb] (fun i k => (decide (i.int false a x.sa k < (i.at 1).int false b x.sb k), 0#6))

/-- `v.nlt` (R177). -/
def execVNlt (q : BitVec 4) (a : BitVec 6) (b : BitVec 6) (p : BitVec 4) (n : BitVec 1) (x : Option VExt) (t : Option Tok) (s : State) : Host.Outcome State Fault Refusal :=
  runE .v (.vNlt q a b p n x t) (capOf (.vNlt q a b p n x t) (s.core s.exe)) (bodyVNlt q a b p n (x.getD vextDefault)) s

/-- `v.sel` (R178). -/
def bodyVSel (d : BitVec 6) (a : BitVec 6) (b : BitVec 6) (p : BitVec 4) (n : BitVec 1) (x : VExt) : Body :=
  vElem d 0#4 0#1 x [] false drawsNone (fun i k _ =>
    .raw (if i.active p n k then i.el a k else (i.at 1).el b k))

/-- `v.sel` (R178). -/
def execVSel (d : BitVec 6) (a : BitVec 6) (b : BitVec 6) (p : BitVec 4) (n : BitVec 1) (x : Option VExt) (t : Option Tok) (s : State) : Host.Outcome State Fault Refusal :=
  runE .v (.vSel d a b p n x t) (capOf (.vSel d a b p n x t) (s.core s.exe)) (bodyVSel d a b p n (x.getD vextDefault)) s

/-- `v.cvt.if` (R179). -/
def bodyVCvtIf (d : BitVec 6) (a : BitVec 6) (p : BitVec 4) (n : BitVec 1) (x : VExt) : Body :=
  vElem d p n x [x.sa] true drawsFlt (fun i k _ => .flt (Val.ofInt (i.int i.signed a x.sa k)) 0#6)

/-- `v.cvt.if` (R179). -/
def execVCvtIf (d : BitVec 6) (a : BitVec 6) (p : BitVec 4) (n : BitVec 1) (x : Option VExt) (t : Option Tok) (s : State) : Host.Outcome State Fault Refusal :=
  runE .v (.vCvtIf d a p n x t) (capOf (.vCvtIf d a p n x t) (s.core s.exe)) (bodyVCvtIf d a p n (x.getD vextDefault)) s

/-- `v.cvt.fi` (R179). -/
def bodyVCvtFi (d : BitVec 6) (a : BitVec 6) (p : BitVec 4) (n : BitVec 1) (x : VExt) : Body :=
  vElem d p n x [x.sa] true drawsFlt (fun i k m => cvtFiRes i m (i.val a x.sa k))

/-- `v.cvt.fi` (R179). -/
def execVCvtFi (d : BitVec 6) (a : BitVec 6) (p : BitVec 4) (n : BitVec 1) (x : Option VExt) (t : Option Tok) (s : State) : Host.Outcome State Fault Refusal :=
  runE .v (.vCvtFi d a p n x t) (capOf (.vCvtFi d a p n x t) (s.core s.exe)) (bodyVCvtFi d a p n (x.getD vextDefault)) s

/-- `v.cvt.ff` (R179). -/
def bodyVCvtFf (d : BitVec 6) (a : BitVec 6) (p : BitVec 4) (n : BitVec 1) (x : VExt) : Body :=
  vElem d p n x [x.sa] true drawsFlt (fun i k _ => .flt (i.val a x.sa k) 0#6)

/-- `v.cvt.ff` (R179). -/
def execVCvtFf (d : BitVec 6) (a : BitVec 6) (p : BitVec 4) (n : BitVec 1) (x : Option VExt) (t : Option Tok) (s : State) : Host.Outcome State Fault Refusal :=
  runE .v (.vCvtFf d a p n x t) (capOf (.vCvtFf d a p n x t) (s.core s.exe)) (bodyVCvtFf d a p n (x.getD vextDefault)) s

/-- `v.qnt` (R180): it always saturates. -/
def bodyVQnt (d : BitVec 6) (a : BitVec 6) (b : BitVec 6) (p : BitVec 4) (n : BitVec 1) (x : VExt) : Body :=
  vElem d p n { x with sat := true } [x.sa, x.sb] false drawsFlt (fun i k _ => qntRes x.nw (i.val a x.sa k) ((i.at 1).val b x.sb k))

/-- `v.qnt` (R180): it always saturates. -/
def execVQnt (d : BitVec 6) (a : BitVec 6) (b : BitVec 6) (p : BitVec 4) (n : BitVec 1) (x : VExt) (t : Option Tok) (s : State) : Host.Outcome State Fault Refusal :=
  runE .v (.vQnt d a b p n x t) (capOf (.vQnt d a b p n x t) (s.core s.exe)) (bodyVQnt d a b p n x) s

/-- `v.dp4` (R181). -/
def bodyVDp4 (d : BitVec 6) (a : BitVec 6) (b : BitVec 6) (p : BitVec 4) (n : BitVec 1) (x : VExt) : Body :=
  vDp4 d a b p n x

/-- `v.dp4` (R181). -/
def execVDp4 (d : BitVec 6) (a : BitVec 6) (b : BitVec 6) (p : BitVec 4) (n : BitVec 1) (x : Option VExt) (t : Option Tok) (s : State) : Host.Outcome State Fault Refusal :=
  runE .v (.vDp4 d a b p n x t) (capOf (.vDp4 d a b p n x t) (s.core s.exe)) (bodyVDp4 d a b p n (x.getD vextDefault)) s

/-- `v.radd` (R182). -/
def bodyVRadd (d : BitVec 6) (a : BitVec 6) (p : BitVec 4) (n : BitVec 1) (x : VExt) : Body :=
  vReduce .add d a p n x

/-- `v.radd` (R182). -/
def execVRadd (d : BitVec 6) (a : BitVec 6) (p : BitVec 4) (n : BitVec 1) (x : Option VExt) (t : Option Tok) (s : State) : Host.Outcome State Fault Refusal :=
  runE .v (.vRadd d a p n x t) (capOf (.vRadd d a p n x t) (s.core s.exe)) (bodyVRadd d a p n (x.getD vextDefault)) s

/-- `v.rmax` (R182). -/
def bodyVRmax (d : BitVec 6) (a : BitVec 6) (p : BitVec 4) (n : BitVec 1) (x : VExt) : Body :=
  vReduce .max d a p n x

/-- `v.rmax` (R182). -/
def execVRmax (d : BitVec 6) (a : BitVec 6) (p : BitVec 4) (n : BitVec 1) (x : Option VExt) (t : Option Tok) (s : State) : Host.Outcome State Fault Refusal :=
  runE .v (.vRmax d a p n x t) (capOf (.vRmax d a p n x t) (s.core s.exe)) (bodyVRmax d a p n (x.getD vextDefault)) s

/-- `v.rmin` (R182). -/
def bodyVRmin (d : BitVec 6) (a : BitVec 6) (p : BitVec 4) (n : BitVec 1) (x : VExt) : Body :=
  vReduce .min d a p n x

/-- `v.rmin` (R182). -/
def execVRmin (d : BitVec 6) (a : BitVec 6) (p : BitVec 4) (n : BitVec 1) (x : Option VExt) (t : Option Tok) (s : State) : Host.Outcome State Fault Refusal :=
  runE .v (.vRmin d a p n x t) (capOf (.vRmin d a p n x t) (s.core s.exe)) (bodyVRmin d a p n (x.getD vextDefault)) s

/-- `v.scan` (R183). -/
def bodyVScan (d : BitVec 6) (a : BitVec 6) (p : BitVec 4) (n : BitVec 1) (x : VExt) : Body :=
  vScan d a p n x

/-- `v.scan` (R183). -/
def execVScan (d : BitVec 6) (a : BitVec 6) (p : BitVec 4) (n : BitVec 1) (x : Option VExt) (t : Option Tok) (s : State) : Host.Outcome State Fault Refusal :=
  runE .v (.vScan d a p n x t) (capOf (.vScan d a p n x t) (s.core s.exe)) (bodyVScan d a p n (x.getD vextDefault)) s

/-- `v.perm` (R184). -/
def bodyVPerm (d : BitVec 6) (a : BitVec 6) (b : BitVec 6) (p : BitVec 4) (n : BitVec 1) (x : VExt) : Body :=
  vElem d p n x [] false drawsNone (fun i k _ => .raw (i.el a ((i.at 1).el b k % 64 % i.n)))

/-- `v.perm` (R184). -/
def execVPerm (d : BitVec 6) (a : BitVec 6) (b : BitVec 6) (p : BitVec 4) (n : BitVec 1) (x : Option VExt) (t : Option Tok) (s : State) : Host.Outcome State Fault Refusal :=
  runE .v (.vPerm d a b p n x t) (capOf (.vPerm d a b p n x t) (s.core s.exe)) (bodyVPerm d a b p n (x.getD vextDefault)) s

/-- `v.bcast` (R185). -/
def bodyVBcast (d : BitVec 6) (p : BitVec 4) (n : BitVec 1) (x : VExt) : Body :=
  fun k cap r s => vElem d p n x [] false drawsNone (fun _ _ _ => .raw cap.x.toNat) k cap r s

/-- `v.bcast` (R185). -/
def execVBcast (d : BitVec 6) (g : BitVec 5) (p : BitVec 4) (n : BitVec 1) (x : Option VExt) (t : Option Tok) (s : State) : Host.Outcome State Fault Refusal :=
  runE .v (.vBcast d g p n x t) (capOf (.vBcast d g p n x t) (s.core s.exe)) (bodyVBcast d p n (x.getD vextDefault)) s

/-- `v.ins` (R185). -/
def bodyVIns (d : BitVec 6) (a : BitVec 6) (p : BitVec 4) (n : BitVec 1) (x : VExt) : Body :=
  vIns d a p n x

/-- `v.ins` (R185). -/
def execVIns (d : BitVec 6) (a : BitVec 6) (g : BitVec 5) (p : BitVec 4) (n : BitVec 1) (x : Option VExt) (t : Option Tok) (s : State) : Host.Outcome State Fault Refusal :=
  runE .v (.vIns d a g p n x t) (capOf (.vIns d a g p n x t) (s.core s.exe)) (bodyVIns d a p n (x.getD vextDefault)) s

/-- `v.ext` (R185, R48). -/
def bodyVExt (d : BitVec 6) (a : BitVec 6) (g : BitVec 5) (p : BitVec 4) (n : BitVec 1) (x : VExt) : Body :=
  vExtract d a g p n x

/-- `v.ext` (R185, R48). -/
def execVExt (d : BitVec 6) (a : BitVec 6) (g : BitVec 5) (p : BitVec 4) (n : BitVec 1) (x : Option VExt) (t : Option Tok) (s : State) : Host.Outcome State Fault Refusal :=
  runE .v (.vExt d a g p n x t) (capOf (.vExt d a g p n x t) (s.core s.exe)) (bodyVExt d a g p n (x.getD vextDefault)) s

/-- `v.lse` (R186). -/
def bodyVLse (d : BitVec 6) (a : BitVec 6) (b : BitVec 6) (p : BitVec 4) (n : BitVec 1) (x : VExt) : Body :=
  vLse d a b p n x

/-- `v.lse` (R186). -/
def execVLse (d : BitVec 6) (a : BitVec 6) (b : BitVec 6) (p : BitVec 4) (n : BitVec 1) (x : Option VExt) (t : Option Tok) (s : State) : Host.Outcome State Fault Refusal :=
  runE .v (.vLse d a b p n x t) (capOf (.vLse d a b p n x t) (s.core s.exe)) (bodyVLse d a b p n (x.getD vextDefault)) s

/-- `v.cex` (R187). -/
def bodyVCex (d : BitVec 6) (a : BitVec 6) (b : BitVec 6) (p : BitVec 4) (n : BitVec 1) (x : VExt) : Body :=
  vElem d p n x [] false drawsNone (fun i k _ => .raw (cexBits i a b k))

/-- `v.cex` (R187). -/
def execVCex (d : BitVec 6) (a : BitVec 6) (b : BitVec 6) (p : BitVec 4) (n : BitVec 1) (x : Option VExt) (t : Option Tok) (s : State) : Host.Outcome State Fault Refusal :=
  runE .v (.vCex d a b p n x t) (capOf (.vCex d a b p n x t) (s.core s.exe)) (bodyVCex d a b p n (x.getD vextDefault)) s

/-- `v.seed` (R188). -/
def bodyVSeed (p : BitVec 4) (n : BitVec 1) (x : VExt) : Body :=
  vSeed p n x

/-- `v.seed` (R188). -/
def execVSeed (g : BitVec 5) (p : BitVec 4) (n : BitVec 1) (x : Option VExt) (t : Option Tok) (s : State) : Host.Outcome State Fault Refusal :=
  runE .v (.vSeed g p n x t) (capOf (.vSeed g p n x t) (s.core s.exe)) (bodyVSeed p n (x.getD vextDefault)) s

end Sys2Proof.Machine
end

