-- ==== Sys2Proof/Machine/Attn.lean ====
section
/-! DEFINITION. In-stack attention: appends, queries, the scan of one position, triples (R365 to R376). -/

namespace Sys2Proof.Machine

/-! ## Cache headers (R366, R367) -/

/-- The fields of a cache header (R366). -/
structure Header where
  plist : Nat
  pb : Nat
  dk : Nat
  dv : Nat
  bf16 : Bool
  lt : Nat
  scale : BitVec 32
  voff : Nat
  rid : BitVec 4
  /-- no reserved bit is set, LT ≤ 20, PLIST and VOFF are aligned -/
  ok : Bool

/-- Read the header at a window address (R366). -/
def readHeader (t : Tower) (x : Nat) : Header :=
  let w (n : Nat) : Word := BitVec.ofNat 64 (bytesToNat (t.read (x - windowBase + 8 * n) 8))
  { plist := (field (w 0) 0 56).toNat, pb := (field (w 1) 0 32).toNat, dk := (field (w 1) 32 8).toNat + 1
    dv := (field (w 1) 40 8).toNat + 1, bf16 := !bit (w 1) 48, lt := (field (w 1) 49 5).toNat
    scale := (w 2).truncate 32, voff := (field (w 2) 32 24).toNat, rid := (w 3).truncate 4
    ok := decide (field (w 0) 56 8 = 0#64) && decide (field (w 1) 54 10 = 0#64) && decide (field (w 2) 56 8 = 0#64)
      && decide (field (w 3) 4 60 = 0#64) && [4, 5, 6, 7].all (fun n => decide (w n = 0#64))
      && decide ((field (w 1) 49 5).toNat ≤ 20) && decide ((field (w 0) 0 56).toNat % 8 = 0)
      && decide ((field (w 2) 32 24).toNat % 32 = 0) }

/-- Bytes of an element. -/
def Header.eb (h : Header) : Nat := if h.bf16 then 2 else 1
/-- KS (R367). -/
def Header.ks (h : Header) : Nat := 32 * ((h.dk * h.eb + 31) / 32)
/-- VS (R367). -/
def Header.vs (h : Header) : Nat := 32 * ((h.dv * h.eb + 31) / 32)

/-- n bytes lie in the tower window. -/
def inWin (a n : Nat) : Bool := decide (windowBase ≤ a) && decide (a + n ≤ 2 ^ 56)

/-- Read a page-list entry: its block's virtual address, a trap, or a wait (R367 to R369). -/
def pageEntry (k : CoreId) (cap : Cap) (h : Header) (e : Nat) (s : State) : Got Nat :=
  let a := h.plist + 8 * e
  match s.check k cap.asid cap.xe (s.core k).ctl.sup .drd 0 a 8 with
  | .error t => .trap t s
  | .ok ps =>
    if ps.any (s.pieceBlocked k false) then .wait
    else
      match s.piecesBad k false ps with
      | some t => .trap t s
      | none =>
        let s1 := ps.foldl (fun s p => s.touchPiece k p) s
        let w := BitVec.ofNat 64 (bytesToNat (s1.readPieces k ps))
        if field w 0 12 ≠ 0#64 ∨ field w 56 8 ≠ 0#64 then .trap (Trap.illenc (BitVec.ofNat 64 a)) s1
        else .ok w.toNat s1

/-- A block's translation, with the last byte of the leaf page of its first byte (R367). -/
structure Block where
  pa : Nat
  il7 : Bool
  pageEnd : Nat

/-- Translate a block's first byte (R240, R343, R367); it waits for a walk that a stack holds back (R235). -/
def blockAt (k : CoreId) (cap : Cap) (kind : Kind) (va : Nat) (s : State) : Got Block :=
  let sup := (s.core k).ctl.sup
  match s.check k cap.asid cap.xe sup kind 0 va 1 with
  | .error t => .trap t s
  | .ok ps =>
    match ps with
    | [p] =>
      match s.targetOf k p.at_, p.at_ with
      | .ext _ _ _, .phys pa il =>
        let last := if cap.xe then (match s.found k cap.asid sup kind.use va with | .ok e => e.pageLast | _ => va) else va
        .ok { pa := pa, il7 := decide (il = 7#3), pageEnd := last } (s.touchWalk p)
      | .held, _ => .wait
      | _, _ => .ok { pa := 0, il7 := false, pageEnd := va } (s.touchWalk p)
    | _ => .ok { pa := 0, il7 := false, pageEnd := va } s

/-- A block is valid (R367). -/
def blockOk (h : Header) (va : Nat) (b : Block) : Bool :=
  b.il7 && decide (2 ^ h.lt * h.ks ≤ h.voff) && decide (va + h.voff + 2 ^ h.lt * h.vs ≤ b.pageEnd + 1)

/-! ## Append (R368) -/

/-- `d.append` (R368). -/
def bodyDAppend : Body := fun k cap r s =>
  let x := cap.x.toNat
  let y := cap.y.toNat
  let z := cap.z.toNat
  let s := if inWin x 64 then s.scrubTower k (x - windowBase) 64 else s
  let h := readHeader (s.core k).tower x
  if x % 64 ≠ 0 then .trap (Trap.align cap.x) s
  else if !inWin x 64 then .trap (Trap.perm cap.x) s
  else if !inWin y (h.ks + h.vs) then
    .trap (Trap.perm (if y < windowBase ∨ 2 ^ 56 ≤ y then cap.y else BitVec.ofNat 64 (2 ^ 56))) s
  else if !h.ok ∨ 2 ^ 32 ≤ z then .trap (Trap.illenc cap.x) s
  else
    match pageEntry k cap h (z / 2 ^ h.lt) s with
    | .wait => .wait s
    | .trap t s1 => .fault t r s1
    | .ok va s1 =>
      match blockAt k cap .dwr va s1 with
      | .wait => .wait s
      | .trap t s1 => .fault t r s1
      | .ok b s1 =>
        if !blockOk h va b then .fault (Trap.perm (BitVec.ofNat 64 va)) r s1
        else
          let q := z % 2 ^ h.lt
          let src (a n : Nat) : List Piece := [{ a := a, len := n, at_ := .window (a - windowBase) }]
          let dst (o n : Nat) : List Piece := [{ a := va + o, len := n, at_ := .phys (b.pa + o) 7#3 }]
          let ko := dst (q * h.ks) (h.dk * h.eb)
          let vo := dst (h.voff + q * h.vs) (h.dv * h.eb)
          if (ko ++ vo).any (s1.pieceBlocked k true) then .wait s
          else
            let ki := src y (h.dk * h.eb)
            let vi := src (y + h.ks) (h.dv * h.eb)
            let s2 := (ki ++ vi).foldl (fun s p => s.touchPiece k p) s1
            let kd := s2.takeData k ki
            let vd := s2.takeData k vi
            .done ((s2.putData k ko kd).putData k vo vd)

/-! ## Queries (R365, R369, R374) -/

/-- Translate the blocks of a query, in order, checking the entries first and validity after (R369, rows 7 and 8). -/
def queryBlocks (k : CoreId) (cap : Cap) (h : Header) : List Nat → State → Got (List (Nat × Block))
  | [], s => .ok [] s
  | e :: rest, s =>
    match pageEntry k cap h e s with
    | .wait => .wait
    | .trap t s1 => .trap t s1
    | .ok va s1 =>
      match blockAt k cap .drd va s1 with
      | .wait => .wait
      | .trap t s1 => .trap t s1
      | .ok b s1 =>
        match queryBlocks k cap h rest s1 with
        | .ok bs s2 => .ok ((va, b) :: bs) s2
        | .trap t s2 => .trap t s2
        | .wait => .wait

/-- The home of a physical address under IL7 (R227). -/
def homeOf (pa : Nat) : Bool × Home :=
  match tierOf pa with
  | some (far, t) => (far, place t 7#3)
  | none => (false, place 0 7#3)

/-- The positions of a query with the physical addresses of their rows (R367). -/
def queryRows (h : Header) (bs : List (Nat × Block)) : List (Nat × BitVec 52 × BitVec 52) :=
  (List.range h.pb).map (fun p =>
    let pa := match bs[p / 2 ^ h.lt]? with | some b => b.2.pa | none => 0
    let q := p % 2 ^ h.lt
    (p, BitVec.ofNat 52 (pa + q * h.ks), BitVec.ofNat 52 (pa + h.voff + q * h.vs)))

/-- The stack and pseudo-channel of a row. -/
def rowPlace (a : BitVec 52) : StackId × Nat := let (far, h) := homeOf a.toNat; (tierStack far h.s, h.pc)

/-- Send the packets of a query that wait, while their core has fewer than 256 outstanding (R224). -/
def sendPackets (k : CoreId) (id : BitVec 6) (qy : Query) : List (StackId × QueryPacket) → State → State
  | [], s => s.modCore k (fun c => { c with queries := c.queries.set id (some { qy with unsent := [] }) })
  | (n, p) :: rest, s =>
    if s.packetsOut k < 256 then
      sendPackets k id qy rest (s.modStack n (fun st => { st with queryq := st.queryq ++ [p] }))
    else s.modCore k (fun c => { c with queries := c.queries.set id (some { qy with unsent := (n, p) :: rest }) })

/-- Post a query: one packet for each pseudo-channel that holds a block (R369). -/
def sendQuery (k : CoreId) (id : BitVec 6) (h : Header) (q : List (BitVec 16)) (rows : List (Nat × BitVec 52 × BitVec 52))
    (bs : List (Nat × Block)) (s : State) : State :=
  let places := (bs.map (fun b => rowPlace (BitVec.ofNat 52 b.2.pa))).eraseDups
  sendPackets k id { rid := h.rid, open_ := 4 * places.length } (places.map (fun pl =>
    (pl.1, { core := k, id := id, pc := pl.2, bf16 := h.bf16, scale := h.scale, q := q, dv := h.dv
             rows := rows.filter (fun r => decide (rowPlace r.2.1 = pl)) }))) s

/-- A packet of a query has not been accepted (R348). -/
def State.queryWaits (s : State) (k : CoreId) (id : BitVec 6) : Bool :=
  s.hbm.any (fun e => e.2.queryq.any (fun p => p.reply && p.ctx.isNone && decide (p.core = k ∧ p.id = id)))
    || (match (s.core k).queries.get none id with
        | some q => !q.unsent.isEmpty
        | none => false)

/-- `d.qpost`: resume 1 waits until every packet has been sent and accepted (R348, R369). DESIGN CHOICE, log entry 24. -/
def bodyDQpost (id : BitVec 6) : Body := fun k cap r s =>
  let x := cap.x.toNat
  let s := if r ≠ 1#64 && inWin x 64 then s.scrubTower k (x - windowBase) 64 else s
  let c := s.core k
  let h := readHeader c.tower x
  let ring := c.ring h.rid
  if r = 1#64 then
    let s1 := match c.queries.get none id with
      | some q => sendPackets k id q q.unsent s
      | none => s
    if s1.queryWaits k id then .hold 1#64 s1 else .done s1
  else if x % 64 ≠ 0 then .trap (Trap.align cap.x) s
  else if !inWin x 64 ∨ !inWin (x + 64) (2 * h.dk) then .trap (Trap.perm cap.x) s
  else if !h.ok then .trap (Trap.illenc cap.x) s
  else if (c.queries.get none id).isSome then .trap (Trap.perm (id.zeroExtend 64)) s
  else if !ring.val then .trap (ringPerm h.rid) s
  else if ring.size < 64 + 4 * h.dv then .trap (Trap.illenc (h.rid.zeroExtend 64)) s
  else
    match queryBlocks k cap h (List.range ((h.pb + 2 ^ h.lt - 1) / 2 ^ h.lt)) s with
    | .wait => .wait s
    | .trap t s1 => .fault t 0#64 s1
    | .ok bs s1 =>
      match bs.find? (fun b => !blockOk h b.1 b.2) with
      | some b => .fault (Trap.perm (BitVec.ofNat 64 b.1)) 0#64 s1
      | none =>
        let s1 := s1.scrubTower k (x - windowBase + 64) (2 * h.dk)
        let q := (List.range h.dk).map (fun i =>
          BitVec.ofNat 16 (bytesToNat ((s1.core k).tower.read (x - windowBase + 64 + 2 * i) 2)))
        let s2 := sendQuery k id h q (queryRows h bs) bs s1
        if bs.isEmpty then .done s2 else .hold 1#64 s2

/-- `d.qget`: it waits until every triple of the query has been written (R374). DEDUCED, log entry 31. -/
def bodyDQget (x : BitVec 5) (id : BitVec 6) : Body := fun k _ r s =>
  match (s.core k).queries.get none id with
  | none => .trap (Trap.perm (id.zeroExtend 64)) s
  | some q => if q.open_ = 0 then .done (s.setReg k x (q.written.zeroExtend 64)) else .hold r s

/-! ## Scans (R370, R371) -/

/-- A base die accepts a query packet: its four units begin (R369, R370). -/
def acceptQuery (st : StackId) (n : Nat) (s : State) : State :=
  let x := s.stack st
  match x.queryq[n]? with
  | none => s
  | some qp =>
    if x.selfRefresh then s else
    let scans := (List.range 4).map (fun g =>
      ({ unit := BitVec.ofNat 12 (256 * st.toNat + 4 * qp.pc + g), qp := qp
         left := qp.rows.filter (fun r => decide ((homeOf r.2.1.toNat).2.r / 16 % 4 = g))
         m := 0xFF800000#32, s := 0#32, acc := List.replicate qp.dv 0#32, nkey := 0#32 } : Scan))
    s.setStack st { x with queryq := x.queryq.eraseIdx n, scans := x.scans ++ scans }

/-- The first failing 256-byte unit of a row, by its first byte's physical address (R371). -/
def rowFails (st : Stack) (pa n : Nat) : Option Nat :=
  ((List.range n).find? (fun i =>
    let h := (homeOf (pa + i)).2
    st.lost h.pc h.r || st.rawPoison h.pc h.r (h.y / 32))).map (fun i => (pa + i) / 256 * 256)

/-- Bytes of a row as held in the stack. -/
def rowBytes (st : Stack) (pa n : Nat) : List (BitVec 8) :=
  (List.range n).map (fun i => let h := (homeOf (pa + i)).2; st.raw h.pc h.r h.y)

/-- The n elements that bytes of a row hold. -/
def rowVals (bf16 : Bool) (bs : List (BitVec 8)) (n : Nat) : List Val :=
  let byte (i : Nat) : Nat := (bs.getD i 0#8).toNat
  (List.range n).map (fun i =>
    if bf16 then Fmt.bf16.decode (byte (2 * i) + 256 * byte (2 * i + 1)) else Fmt.e4m3.decode (byte i))

/-- The triple a scan emits (R371, R372). -/
def Scan.triple (x : Scan) (last : Bool) : Triple :=
  { id := x.qp.id, m := x.m, s := x.s, nkey := x.nkey, emask := x.emask, epos := x.epos, unit := x.unit
    frow := x.frow, acc := x.acc, last := last }

/-- The state of a scan at its start and after an emission (R370, R371). -/
def Scan.restart (x : Scan) : Scan :=
  { x with m := 0xFF800000#32, s := 0#32, acc := List.replicate x.qp.dv 0#32, nkey := 0#32, emask := 0#4, epos := []
           frow := 0#52 }

/-- Fold one position into a scan (R370). -/
def Scan.fold (x : Scan) (key val : List Val) : Scan :=
  let v (b : BitVec 32) : Val := Fmt.fp32.decode b.toNat
  let prods := (x.qp.q.zip key).map (fun p => (Val.mul (Fmt.bf16.decode p.1.toNat) p.2).1)
  let dot := (pairwise (fun _ _ a b (_ : Unit) =>
    (Fmt.fp32.decode (Fmt.fp32.round .rne (Val.add .rne a b).1).1, ())) (.fin true 0 0 false) prods ()).1
  let xb := (Fmt.fp32.round .rne (Val.mul dot (v x.qp.scale)).1).1
  let xv := Fmt.fp32.decode xb
  let nan : BitVec 32 := 0x7FC00000#32
  let one : Val := .fin false 1 0 false
  if (v x.m).isNan || (v x.s).isNan || xv.isNan then
    { x with m := nan, s := nan, acc := x.acc.map (fun _ => nan), nkey := x.nkey + 1#32 }
  else
    let mx := Val.max (v x.m) xv
    let e1 := (lseWeight (v x.m) mx).1
    let e2 := (lseWeight xv mx).1
    { x with
        m := BitVec.ofNat 32 (Fmt.fp32.round .rne mx).1
        s := BitVec.ofNat 32 (lseMix (v x.s) e1 one e2).1
        acc := (x.acc.zip val).map (fun p => BitVec.ofNat 32 (lseMix (v p.1) e1 p.2 e2).1)
        nkey := x.nkey + 1#32 }

/-- Send a triple to its core, or to the suspended context that posted the query; none reaches a core that was reset
(R34, R373, R376, R413). -/
def sendTriple (x : Scan) (last : Bool) (s : State) : State :=
  let give (c : Core) : Core :=
    if (c.queries.get none x.qp.id).isSome then { c with inbox := c.inbox ++ [x.triple last] } else c
  if !x.qp.reply then s
  else
  match x.qp.ctx with
  | none => s.modCore x.qp.core give
  | some o =>
    let upd (u : Suspended) : Suspended :=
      if u.order = o then { u with cores := u.cores.map (fun e => if e.1 = x.qp.core then (e.1, give e.2) else e) } else u
    { s with launch := { s.launch with suspended := s.launch.suspended.map upd } }

/-- A row that a migration copies now holds the scan (R233, R375). -/
def rowHeld (st : Stack) (pa n : Nat) : Bool :=
  match st.migration with
  | none => false
  | some m =>
    (List.range n).any (fun i =>
      let r := (homeOf (pa + i)).2.r
      decide (layerOf r = m.layer.toNat) && decide (dramRow r % 4096 = m.next))

/-- The bytes of a key row and of a value row that a scan reads (R367). -/
def Scan.rowLens (x : Scan) : Nat × Nat :=
  let eb := if x.qp.bf16 then 2 else 1
  (x.qp.q.length * eb, x.qp.dv * eb)

/-- The sectors of a position that a scan has still to read, by number, those of the key row first (R264). -/
def Scan.unread (x : Scan) : List Nat :=
  (List.range ((x.rowLens.1 + 31) / 32 + (x.rowLens.2 + 31) / 32)).filter (fun j => !x.got.any (fun g => decide (g.1 = j)))

/-- The sector that a scan reads next: any one, since each is read before or after a racing append on its own (R264). -/
def Scan.pick (x : Scan) (tick : Nat) : Nat :=
  match x.unread with
  | [] => 0
  | [j] => j
  | j :: js => (j :: js).getD (Config.freeNat tick % (j :: js).length) j

/-- A sector of a position: its address, and how many of its bytes belong to the row (R264, R367). -/
def Scan.sector (x : Scan) (ka va : BitVec 52) (j : Nat) : Nat × Nat :=
  let (nk, nv) := x.rowLens
  let ks := (nk + 31) / 32
  if j < ks then (ka.toNat + 32 * j, min 32 (nk - 32 * j)) else (va.toNat + 32 * (j - ks), min 32 (nv - 32 * (j - ks)))

/-- A position whose row fails is left out (R371); the state of a full scan is emitted first. -/
def Scan.exclude (x : Scan) (p a : Nat) (rest : List (Nat × BitVec 52 × BitVec 52)) (s : State) : Scan × State :=
  let full := decide (x.epos.length = 4)
  let y := if full then x.restart else x
  let bank := (homeOf a).2.r / 4 % 4
  ({ y with left := rest, got := [], epos := y.epos ++ [BitVec.ofNat 32 p], emask := y.emask ||| (1#4 <<< bank)
            frow := if y.epos.isEmpty then BitVec.ofNat 52 a else y.frow },
    if full then sendTriple x false s else s)

/-- The bytes of a position's key row and value row, all sectors being read. -/
def Scan.rows (x : Scan) : List (BitVec 8) :=
  (List.range x.got.length).flatMap (fun j => ((x.got.find? (fun g => decide (g.1 = j))).map (fun g => g.2)).getD [])

/-- A scan with the bytes of one more sector; with all of a position's, the position is folded in (R264, R370). -/
def Scan.take (x : Scan) (j : Nat) (bs : List (BitVec 8)) (rest : List (Nat × BitVec 52 × BitVec 52)) : Scan :=
  let y := { x with got := x.got ++ [(j, bs)] }
  if y.unread.isEmpty then
    { (y.fold (rowVals x.qp.bf16 y.rows x.qp.q.length) (rowVals x.qp.bf16 (y.rows.drop x.rowLens.1) x.qp.dv)) with
        left := rest, got := [] }
  else y

/-- The failing unit of a position, the key row's first (R371). -/
def Scan.failing (x : Scan) (st : Stack) (ka va : BitVec 52) : Option Nat :=
  (rowFails st ka.toNat x.rowLens.1).orElse (fun _ => rowFails st va.toNat x.rowLens.2)

/-- A unit reads the next sector of its next position, folds the position in, or leaves it out; past its last one, it emits
its last triple (R264, R370, R371, R375). -/
def scanStep1 (unit : BitVec 12) (s : State) : State :=
  let n : StackId := unit.extractLsb' 8 4
  let st := s.stack n
  match st.scans.zipIdx.find? (fun e => decide (e.1.unit = unit)) with
  | none => s
  | some (x, i) =>
    if st.selfRefresh then s
    else
      let put (y : Scan) (s : State) : State := s.modStack n (fun st => { st with scans := st.scans.set i y })
      match x.left with
      | [] => (sendTriple x true s).modStack n (fun st => { st with scans := st.scans.eraseIdx i })
      | (p, ka, va) :: rest =>
        let j := x.pick s.tick
        let (pa, len) := x.sector ka va j
        if rowHeld st pa len then s
        else
          match rowFails st pa len with
          | none => put (x.take j (rowBytes st pa len) rest) s.advanceTick
          | some a => let r := x.exclude p ((x.failing st ka va).getD a) rest s; put r.1 r.2

/-- A unit's step, as the unit may see the posting core's late control stores (R260, R264). -/
def scanTurn (unit : BitVec 12) (s : State) : State :=
  match (s.stack (unit.extractLsb' 8 4)).scans.find? (fun x => decide (x.unit = unit)) with
  | some x => s.around x.qp.core (fun _ => none) (scanStep1 unit)
  | none => s

/-- The bytes of a triple (R372). -/
def Triple.bytes (t : Triple) (fin : Bool) : List (BitVec 8) :=
  let e (i : Nat) : Nat := (t.epos.getD i 0#32).toNat
  let w1 := t.nkey.toNat + t.id.toNat * 2 ^ 32 + (if fin then 2 ^ 38 else 0) + t.emask.toNat * 2 ^ 40
    + t.epos.length * 2 ^ 44 + t.unit.toNat * 2 ^ 48
  natToBytes 8 (t.m.toNat + t.s.toNat * 2 ^ 32) ++ natToBytes 8 w1 ++ natToBytes 8 (e 0 + e 1 * 2 ^ 32)
    ++ natToBytes 8 (e 2 + e 3 * 2 ^ 32) ++ natToBytes 8 t.frow.toNat ++ List.replicate 24 0#8
    ++ t.acc.flatMap (fun a => natToBytes 4 a.toNat)

/-- The return path writes the oldest triple into its ring, once the head slot is empty (R373). -/
def writeTriple (k : CoreId) (s : State) : State :=
  let c := s.core k
  match c.inbox with
  | [] => s
  | t :: rest =>
    match c.queries.get none t.id with
    | none => s.setCore k { c with inbox := rest }
    | some q =>
      let ring := c.ring q.rid
      if !ring.val then s
      else
        match ring.acquireFill (memberOf k ++ 2#2) with
        | none => s
        | some (i, r1) =>
          let fin := t.last && decide (q.open_ = 1)
          let q' : Query :=
            { q with written := q.written + 1#32, open_ := if t.last then q.open_ - 1 else q.open_, fin := q.fin || fin }
          let c1 := { c with inbox := rest, queries := c.queries.set t.id (some q') }
          let c2 := c1.towerWrite (ring.slotOff i) (t.bytes fin)
          s.setCore k (c2.setRing q.rid ((r1.releaseFill (memberOf k ++ 2#2) i).getD r1))

end Sys2Proof.Machine
end

