-- ==== Sys2Proof/Machine/Furrow.lean ====
section
/-! DEFINITION. The furrow engine: mesh neighbours, quad partners, the headland, ring moves (R344, R359 to R364). -/

namespace Sys2Proof.Machine

/-- The furrow length rule (R342). -/
def furrowLong (z : Word) : Bool := decide (2 ^ 25 ≤ z.toNat)

/-- How many of n bytes at an address lie inside the tower window before the first outside it (R344). -/
def insideWindow (a n : Nat) : Nat := if a < windowBase ∨ 2 ^ 56 ≤ a then 0 else min n (2 ^ 56 - a)

/-- A destination must exist and run the issuer's task (R344). -/
def State.inPlot (s : State) (k c : CoreId) : Bool := (s.plotOf (tableOf k)).contains (tableOf c)

/-- Pieces of a core's tower as the global aperture names them (R191). -/
def aperturePiece (c : CoreId) (off n : Nat) : Piece := { a := 0, len := n, at_ := .phys (apertureAddr c off) 2#3 }

/-- Move the bytes r to z - 1 at window address y to the same offsets of other towers (R344, R359). -/
def furrowMove (dests : List CoreId) (k : CoreId) (cap : Cap) (r : Word) (s : State) : Eff :=
  let y := cap.y.toNat + r.toNat
  let x := cap.x.toNat + r.toNat
  let n := cap.z.toNat - r.toNat
  let ny := insideWindow y n
  let len := min ny (insideWindow x n)
  let from_ : List Piece := [{ a := y, len := len, at_ := .window (y - windowBase) }]
  let s1 := if len = 0 then s else from_.foldl (fun s p => s.touchPiece k p) s
  let d := if len = 0 then [] else s1.takeData k from_
  let h := x % 32
  let old := if h = 0 ∨ r.toNat < h ∨ len = 0 then [] else
    s1.takeData k [{ a := y - h, len := h, at_ := .window (y - h - windowBase) }]
  let s2 := if len = 0 then s1 else dests.foldl (fun s c =>
    let out := [aperturePiece c (x - windowBase) len]
    (s.putData k out d).closeSector k out old d) s1
  if len = n then .done s2
  else .fault (Trap.perm (BitVec.ofNat 64 (if ny = len then y + len else x + len))) (BitVec.ofNat 64 (r.toNat + len)) s2

/-- The instructions over the links: the destinations are checked, then the bytes move (R359). DEDUCED, log entry 22. -/
def furrowBody (dests : CoreId → List (Option CoreId)) : Body := fun k cap r s =>
  let ds := dests k
  if furrowLong cap.z then .trap vIllenc s
  else if ds.any (fun d => match d with | some c => !s.inPlot k c | none => true) then .fault (Trap.perm cap.x) r s
  else if ds.isEmpty then .done s
  else furrowMove (ds.filterMap id) k cap r s

/-- The step of a direction, as row and column, each plus one (R60). -/
def dirStep (d : BitVec 3) : Nat × Nat :=
  match d.toNat with
  | 0 => (0, 1)
  | 1 => (1, 2)
  | 2 => (2, 1)
  | _ => (1, 0)

/-- The mesh neighbour in a direction, if the mesh has one (R218). -/
def meshNeighbour (k : CoreId) (d : BitVec 3) : Option CoreId :=
  let row := meshRow k + (dirStep d).1
  let col := meshCol k + (dirStep d).2
  if row = 0 ∨ col = 0 ∨ 16 < row ∨ 16 < col then none else some (meshCore (dieOf k) (row - 1) (col - 1))

/-- `f.fur.d` (R359). -/
def bodyFFur (d : BitVec 3) : Body := furrowBody (fun k => [meshNeighbour k d])

/-- `f.fur.qm` (R359). -/
def bodyFFurQm (m : BitVec 2) : Body := furrowBody (fun k => [if m = memberOf k then none else some (quadMember k m)])

/-- `f.gbcast` (R359). -/
def bodyFGbcast (mask : BitVec 4) : Body := furrowBody (fun k =>
  ((List.range 4).filter (fun i => mask.getLsbD i)).map (fun i =>
    if BitVec.ofNat 2 i = memberOf k then none else some (quadMember k (BitVec.ofNat 2 i))))

/-- The members in the clockwise cycle of the quad (R360). -/
def quadCycle : List Nat := [0, 1, 3, 2]

/-- The three members a stream visits, in order, or a missing one when no member lies in the direction (R360). -/
def sysMembers (m : BitVec 2) (d : BitVec 3) : List (Option (BitVec 2)) :=
  let row := m.toNat / 2 + (dirStep d).1
  let col := m.toNat % 2 + (dirStep d).2
  if row = 0 ∨ col = 0 ∨ 2 < row ∨ 2 < col then [none]
  else
    let first := 2 * (row - 1) + (col - 1)
    let i := quadCycle.idxOf m.toNat
    let j := quadCycle.idxOf first
    let at_ (n : Nat) : Option (BitVec 2) := some (BitVec.ofNat 2 (quadCycle.getD (n % 4) 0))
    if j = (i + 1) % 4 then [at_ (i + 1), at_ (i + 2), at_ (i + 3)] else [at_ (i + 3), at_ (i + 2), at_ (i + 1)]

/-- `f.sys.d` (R360). -/
def bodyFSys (d : BitVec 3) : Body := furrowBody (fun k =>
  (sysMembers (memberOf k) d).map (fun m => m.map (fun m => quadMember k m)))

/-- The pieces of a headland destination up to the first whose tower is not of the plot (R344, R362). -/
def headPieces (s : State) (k : CoreId) (x : Word) : List Piece → Option TrapInfo → List Piece × Option TrapInfo
  | [], t => ([], t)
  | p :: ps, t =>
    match s.targetOf k p.at_ with
    | .aperture c _ =>
      if s.inPlot k c then let r := headPieces s k x ps t; (p :: r.1, r.2) else ([], some (Trap.perm x))
    | _ => let r := headPieces s k x ps t; (p :: r.1, r.2)

/-- `f.head` (R362). -/
def bodyFHead : Body := fun k cap r s =>
  if furrowLong cap.z then .trap vIllenc s
  else
    let y := cap.y.toNat + r.toNat
    let x := cap.x.toNat + r.toNat
    let n := cap.z.toNat - r.toNat
    let raw := s.reach k cap .head (n / 4096 + 2) x n
    let out := headPieces s k cap.x raw.1 raw.2
    if out.1.any (s.pieceBlocked k true) then .wait s
    else
    let ny := insideWindow y n
    let len := min ny (piecesLen out.1)
    let from_ : List Piece := [{ a := y, len := len, at_ := .window (y - windowBase) }]
    let to_ := takePieces out.1 len
    let s1 := to_.foldl State.touchWalk (if len = 0 then s else from_.foldl (fun s p => s.touchPiece k p) s)
    let d := if len = 0 then [] else s1.takeData k from_
    let h := s1.sectorOff k to_
    let old := if h = 0 ∨ r.toNat < h ∨ len = 0 then [] else
      s1.takeData k [{ a := y - h, len := h, at_ := .window (y - h - windowBase) }]
    let s2 := if len = 0 then s1 else (s1.putData k to_ d).closeSector k to_ old d
    if len = n then .done s2
    else
      .fault (if ny = len then Trap.perm (BitVec.ofNat 64 (y + len)) else out.2.getD vIllenc)
        (BitVec.ofNat 64 (r.toNat + len)) s2

/-- The last steps of `f.ring`: the destination slot is full, then the source slot is drained (R363). -/
def ringEnd (k dest : CoreId) (dn : BitVec 4) (sn : Option (BitVec 4)) (res : RingRes) (s : State) : Eff :=
  match ((s.core dest).ring dn).releaseFill (memberOf k ++ 3#2) (res.di.getD 0) with
  | none => .fault (ringPerm dn) res.word s
  | some ring =>
    let s1 := s.modCore dest (fun c => c.setRing dn ring)
    match sn with
    | none => .done s1
    | some n =>
      match ((s1.core k).ring n).releaseDrain (memberOf k ++ 3#2) (res.sj.getD 0) with
      | none => .fault (ringPerm n) res.word s
      | some ring' => .done (s1.modCore k (fun c => c.setRing n ring'))

/-- The copy of `f.ring` into the slot it holds (R363, R364). -/
def ringMove (k : CoreId) (cap : Cap) (dest : CoreId) (dn : BitVec 4) (sn : Option (BitVec 4)) (res : RingRes) (s : State) :
    Eff :=
  let n := cap.z.toNat - res.off
  let y :=
    match sn with
    | some sr => windowAddr (((s.core k).ring sr).slotOff (res.sj.getD 0)) + res.off
    | none => cap.y.toNat + res.off
  let len := insideWindow y n
  let from_ : List Piece := [{ a := y, len := len, at_ := .window (y - windowBase) }]
  let to_ := aperturePiece dest (((s.core dest).ring dn).slotOff (res.di.getD 0) + res.off) len
  let s1 := if len = 0 then s else from_.foldl (fun s p => s.touchPiece k p) s
  let d := if len = 0 then [] else s1.takeData k from_
  let h := s1.sectorOff k [to_]
  let old := if h = 0 ∨ res.off < h ∨ len = 0 then [] else
    s1.takeData k [{ a := y - h, len := h, at_ := .window (y - h - windowBase) }]
  let s2 := if len = 0 then s1 else (s1.putData k [to_] d).closeSector k [to_] old d
  let res' := { res with off := res.off + len }
  if len = n then ringEnd k dest dn sn res' s2 else .fault (Trap.perm (BitVec.ofNat 64 (y + len))) res'.word s2

/-- `f.ring`, from its destination acquisition on. -/
def ringFill (k : CoreId) (cap : Cap) (dest : CoreId) (dn : BitVec 4) (sn : Option (BitVec 4)) (res : RingRes) (s : State) :
    Eff :=
  match res.di with
  | some _ => ringMove k cap dest dn sn res s
  | none =>
    let ring := (s.core dest).ring dn
    if !ring.val then .fault (ringPerm dn) res.word s
    else
      match ring.acquireFill (memberOf k ++ 3#2) with
      | none => .hold res.word s
      | some (i, ring') => ringMove k cap dest dn sn { res with di := some i } (s.modCore dest (fun c => c.setRing dn ring'))

/-- `f.ring` (R363, R364). -/
def bodyFRing (sr : BitVec 1) : Body := fun k cap r s =>
  let res := RingRes.of r
  let dn : BitVec 4 := cap.x.truncate 4
  let dest := quadMember k ((field cap.x 4 2).truncate 2)
  let sn : BitVec 4 := cap.y.truncate 4
  let from_ := (s.core k).ring sn
  let held := res.di.isSome || res.sj.isSome
  if furrowLong cap.z ∨ field cap.x 6 58 ≠ 0#64 ∨ (sr = 1#1 ∧ field cap.y 4 60 ≠ 0#64) then .trap vIllenc s
  else if !held && decide (sr = 1#1) && !from_.val then .trap (ringPerm sn) s
  else if !held && !((s.core dest).ring dn).val then .trap (ringPerm dn) s
  else if !held && (decide (((s.core dest).ring dn).size < cap.z.toNat)
      || (decide (sr = 1#1) && decide (from_.size < cap.z.toNat))) then .trap vIllenc s
  else if sr = 0#1 then ringFill k cap dest dn none res s
  else
    match res.sj with
    | some _ => ringFill k cap dest dn (some sn) res s
    | none =>
      match from_.acquireDrain (memberOf k ++ 3#2) with
      | none => .hold r s
      | some (j, ring') => ringFill k cap dest dn (some sn) { res with sj := some j } (s.modCore k (fun c => c.setRing sn ring'))

end Sys2Proof.Machine
end

