-- ==== Sys2Proof/Machine/DrillCmds.lean ====
section
/-! DEFINITION. The drill and furrow instructions at the control unit's slot (R46, R342 to R376). -/

namespace Sys2Proof.Machine

/-- `d.nop` (R61). -/
def execDNop (t : Option Tok) (s : State) : Host.Outcome State Fault Refusal :=
  runE .d (.dNop t) (capOf (.dNop t) (s.core s.exe)) bodyDone s

/-- `d.copy` (R349). -/
def execDCopy (x : BitVec 5) (y : BitVec 5) (z : BitVec 5) (t : Option Tok) (s : State) : Host.Outcome State Fault Refusal :=
  runE .d (.dCopy x y z t) (capOf (.dCopy x y z t) (s.core s.exe)) bodyDCopy s

/-- `d.copy.rg` (R349). -/
def execDCopyRg (y : BitVec 5) (z : BitVec 5) (r : BitVec 4) (m : BitVec 2) (t : Option Tok) (s : State) : Host.Outcome State Fault Refusal :=
  runE .d (.dCopyRg y z r m t) (capOf (.dCopyRg y z r m t) (s.core s.exe)) (bodyDCopyRg r m) s

/-- `d.bcast` (R352). -/
def execDBcast (x : BitVec 5) (y : BitVec 5) (z : BitVec 5) (t : Option Tok) (s : State) : Host.Outcome State Fault Refusal :=
  runE .d (.dBcast x y z t) (capOf (.dBcast x y z t) (s.core s.exe)) bodyDBcast s

/-- `d.store` (R350). -/
def execDStore (x : BitVec 5) (y : BitVec 5) (z : BitVec 5) (w : BitVec 2) (t : Option Tok) (s : State) : Host.Outcome State Fault Refusal :=
  runE .d (.dStore x y z w t) (capOf (.dStore x y z w t) (s.core s.exe)) (bodyDStore w) s

/-- `d.spill` (R354). -/
def execDSpill (x : BitVec 5) (y : BitVec 5) (tl : BitVec 1) (r : BitVec 6) (t : Option Tok) (s : State) : Host.Outcome State Fault Refusal :=
  runE .d (.dSpill x y tl r t) (capOf (.dSpill x y tl r t) (s.core s.exe)) (bodyDSpill tl r) s

/-- `d.fill` (R354). -/
def execDFill (x : BitVec 5) (y : BitVec 5) (tl : BitVec 1) (r : BitVec 6) (t : Option Tok) (s : State) : Host.Outcome State Fault Refusal :=
  runE .d (.dFill x y tl r t) (capOf (.dFill x y tl r t) (s.core s.exe)) (bodyDFill tl r) s

/-- `d.atom` (R356). -/
def execDAtom (x : BitVec 5) (y : BitVec 5) (z : BitVec 5) (o : BitVec 4) (z1 : BitVec 1) (t : Option Tok) (s : State) : Host.Outcome State Fault Refusal :=
  runE .d (.dAtom x y z o z1 t) (capOf (.dAtom x y z o z1 t) (s.core s.exe)) (bodyDAtom o z1) s

/-- `d.atom.nr` (R356). -/
def execDAtomNr (x : BitVec 5) (y : BitVec 5) (z : BitVec 5) (o : BitVec 4) (z1 : BitVec 1) (t : Option Tok) (s : State) : Host.Outcome State Fault Refusal :=
  runE .d (.dAtomNr x y z o z1 t) (capOf (.dAtomNr x y z o z1 t) (s.core s.exe)) (bodyDAtomNr o z1) s

/-- `d.afence` (R358): performed at every home, its completion is visible at every scope. -/
def execDAfence (sc : BitVec 4) (t : Option Tok) (s : State) : Host.Outcome State Fault Refusal :=
  runE .d (.dAfence sc t) (capOf (.dAfence sc t) (s.core s.exe)) (bodyDAfence sc) s

/-- `d.qpost` (R369). -/
def execDQpost (x : BitVec 5) (i : BitVec 6) (t : Option Tok) (s : State) : Host.Outcome State Fault Refusal :=
  runE .d (.dQpost x i t) (capOf (.dQpost x i t) (s.core s.exe)) (bodyDQpost i) s

/-- `d.qget` (R374). -/
def execDQget (x : BitVec 5) (i : BitVec 6) (t : Option Tok) (s : State) : Host.Outcome State Fault Refusal :=
  runE .d (.dQget x i t) (capOf (.dQget x i t) (s.core s.exe)) (bodyDQget x i) s

/-- `d.append` (R368). -/
def execDAppend (x : BitVec 5) (y : BitVec 5) (z : BitVec 5) (t : Option Tok) (s : State) : Host.Outcome State Fault Refusal :=
  runE .d (.dAppend x y z t) (capOf (.dAppend x y z t) (s.core s.exe)) bodyDAppend s

/-- `d.pref` (R351). -/
def execDPref (x : BitVec 5) (z : BitVec 5) (t : Option Tok) (s : State) : Host.Outcome State Fault Refusal :=
  runE .d (.dPref x z t) (capOf (.dPref x z t) (s.core s.exe)) bodyDone s

/-- `d.tfill` (R355). -/
def execDTfill (x : BitVec 5) (y : BitVec 5) (t : Option Tok) (s : State) : Host.Outcome State Fault Refusal :=
  runE .d (.dTfill x y t) (capOf (.dTfill x y t) (s.core s.exe)) bodyDTfill s

/-- `f.nop` (R61). -/
def execFNop (t : Option Tok) (s : State) : Host.Outcome State Fault Refusal :=
  runE .f (.fNop t) (capOf (.fNop t) (s.core s.exe)) bodyDone s

/-- `f.fur` to a mesh neighbour (R359). -/
def execFFur (d : BitVec 3) (x : BitVec 5) (y : BitVec 5) (z : BitVec 5) (t : Option Tok) (s : State) : Host.Outcome State Fault Refusal :=
  runE .f (.fFur d x y z t) (capOf (.fFur d x y z t) (s.core s.exe)) (bodyFFur d) s

/-- `f.fur` to a quad member (R359). -/
def execFFurQm (x : BitVec 5) (y : BitVec 5) (z : BitVec 5) (m : BitVec 2) (t : Option Tok) (s : State) : Host.Outcome State Fault Refusal :=
  runE .f (.fFurQm x y z m t) (capOf (.fFurQm x y z m t) (s.core s.exe)) (bodyFFurQm m) s

/-- `f.sys` (R360). -/
def execFSys (d : BitVec 3) (x : BitVec 5) (y : BitVec 5) (z : BitVec 5) (t : Option Tok) (s : State) : Host.Outcome State Fault Refusal :=
  runE .f (.fSys d x y z t) (capOf (.fSys d x y z t) (s.core s.exe)) (bodyFSys d) s

/-- `f.head` (R362). -/
def execFHead (x : BitVec 5) (y : BitVec 5) (z : BitVec 5) (t : Option Tok) (s : State) : Host.Outcome State Fault Refusal :=
  runE .f (.fHead x y z t) (capOf (.fHead x y z t) (s.core s.exe)) bodyFHead s

/-- `f.ring` (R363). -/
def execFRing (x : BitVec 5) (y : BitVec 5) (z : BitVec 5) (r : BitVec 1) (t : Option Tok) (s : State) : Host.Outcome State Fault Refusal :=
  runE .f (.fRing x y z r t) (capOf (.fRing x y z r t) (s.core s.exe)) (bodyFRing r) s

/-- `f.gbcast` (R359). -/
def execFGbcast (x : BitVec 5) (y : BitVec 5) (z : BitVec 5) (m : BitVec 4) (t : Option Tok) (s : State) : Host.Outcome State Fault Refusal :=
  runE .f (.fGbcast x y z m t) (capOf (.fGbcast x y z m t) (s.core s.exe)) (bodyFGbcast m) s

end Sys2Proof.Machine
end

