-- ==== Sys2Proof/Machine/Matrix.lean ====
section
/-! DEFINITION. The matrix commands: operands and their checks (R319 to R322), products, scales, drains, known answers,
the N4 epilogue (R325 to R341), the retained window and its replay (R308 to R310, R397 to R400). -/

namespace Sys2Proof.Machine

/-! ## Operands (R287, R319) -/

/-- The float format of an FMT code (R287). -/
def fmtFlt (code : Nat) : Option Fmt :=
  match code with
  | 0 => some .fp32 | 1 => some .bf16 | 2 => some .fp16 | 3 => some .e4m3 | 4 => some .e5m2 | 5 => some .e3m2
  | 6 => some .e2m3 | _ => none
/-- The code is FP6. -/
def isFp6 (code : Nat) : Bool := decide (code = 5) || decide (code = 6)
/-- Bytes of an element of a byte-sized format. -/
def fmtBytes (code : Nat) : Nat :=
  match code with
  | 0 => 4 | 1 => 2 | 2 => 2 | 12 => 4 | 13 => 4 | _ => 1
/-- The extent along K. -/
def opK (x : BitVec 512) : Nat := shDim x 0
/-- The extent along rows. -/
def opR (x : BitVec 512) : Nat := shDim x 1

/-- The runs of bytes of an operand, relative to its base: one for each row, one for an FP6 tensor (R114, R319). -/
def opRuns (x : BitVec 512) : List (Int × Nat) :=
  if isFp6 (shFmt x) then [(0, opR x * opK x / 2 + opR x * opK x / 4)]
  else
    let len := if shFmt x = 7 then (opK x + 1) / 2 else opK x * fmtBytes (shFmt x)
    (List.range (opR x)).map (fun (r : Nat) => ((r : Int) * shStr x 1, len))

/-- The line a line operand names. -/
def opLine (x : BitVec 512) : BitVec 5 := BitVec.ofNat 5 (shBase x)

/-- The tower offset of an operand's base: the first byte of its line's row, or BASE's place in the window. -/
def opOrigin (t : Tower) (x : BitVec 512) : Int :=
  if shLn x then (match t.line (opLine x) with | some l => (l.row.toNat * 512 : Nat) | none => 0)
  else (shBase x : Int) - (windowBase : Int)

/-- The runs of an operand as tower offsets, once its place is checked. -/
def opSpans (t : Tower) (x : BitVec 512) : List (Nat × Nat) :=
  (opRuns x).map (fun r => ((opOrigin t x + r.1).toNat, r.2))

/-- The scale bytes of an operand, as a run of tower offsets (R327). -/
def opScales (x : BitVec 512) : List (Nat × Nat) := [(shScb x - windowBase, opR x)]

/-- The lowest address of some runs that lies outside the window. -/
def lowestOutside (rs : List (Int × Nat)) : Option Word :=
  let bad := rs.filterMap (fun r =>
    if r.1 < (windowBase : Int) then some r.1
    else if (2 ^ 56 : Int) < r.1 + r.2 then some (max r.1 (2 ^ 56 : Int)) else none)
  match bad with
  | [] => none
  | b :: rest => some (BitVec.ofInt 64 (rest.foldl min b))

/-- A line operand's line is pinned and holds its bytes (R322). -/
def lineOk (t : Tower) (x : BitVec 512) : Bool :=
  (t.line (opLine x)).isSome && (opRuns x).all (fun r => decide (0 ≤ r.1) && decide (r.1 + r.2 ≤ (512 : Int)))

/-- Check 4 of R322 for the bytes of one operand, its scale bytes too when it is scaled (R327, R328): the lowest faulting
byte address; a line operand's line comes first. -/
def opPlace (t : Tower) (scaled : Bool) (x : BitVec 512) : Option TrapInfo :=
  if shLn x && !lineOk t x then some (Trap.perm ((opLine x).zeroExtend 64))
  else
    (lowestOutside ((if shLn x then [] else (opRuns x).map (fun r => ((shBase x : Int) + r.1, r.2)))
      ++ (if scaled then [((shScb x : Int), opR x)] else []))).map Trap.perm

/-- Check 3 of R322 for one operand. -/
def opAlign (x : BitVec 512) : Option TrapInfo :=
  let base := if shLn x then 0 else shBase x
  let fp6 := isFp6 (shFmt x)
  if base % 16 ≠ 0 ∨ (¬ fp6 ∧ shStr x 1 % 16 ≠ 0) ∨ (fp6 ∧ (opR x * opK x % 128 ≠ 0 ∨ base % 32 ≠ 0)) then
    some (Trap.align (BitVec.ofNat 64 (shBase x)))
  else none

/-- Check 5 of R322 for one operand. -/
def opBax (x : BitVec 512) : Option TrapInfo :=
  if shFmt x = 7 ∧ shBax x ≠ 0 then some (Trap.blkaxis (BitVec.ofNat 64 (shBase x))) else none

/-- The bank groups of an operand's tile data, as a bit set (R195). -/
def opBanks (t : Tower) (x : BitVec 512) : Nat :=
  let ls := (opSpans t x).flatMap (fun r =>
    if r.2 = 0 then [] else (List.range ((r.1 + r.2 - 1) / 512 - r.1 / 512 + 1)).map (fun i => bankGroup (r.1 + 512 * i)))
  (List.range 4).foldl (fun m g => if ls.contains g then m + 2 ^ g else m) 0

/-- The value of a K4 element under its block's TYPE (R116). DESIGN CHOICE, log entry 81: -0 is equal to 0 in every product,
and the sign of a zero product is the one IEEE 754 gives its factors. -/
def k4Val (type code : Nat) : Val :=
  let neg := decide (8 ≤ code)
  let low := code % 8
  match type with
  | 0 => Val.ofInt (sextInt 4 code)
  | 1 => Fmt.e2m1.decode code
  | 2 => if low = 0 then .fin neg 0 0 false else .fin neg 1 ((low : Int) - 4) false
  | _ => .fin neg ([0, 1, 2, 3, 6, 8, 12, 16].getD low 0) 0 false

/-- The raw bits of element (k, r) of an operand (R114, R115, R319). -/
def opBits (t : Tower) (x : BitVec 512) (k r : Nat) : Nat :=
  let at_ (off : Int) : Nat := (t.byte (opOrigin t x + off).toNat).toNat
  if isFp6 (shFmt x) then
    let i := r * opK x + k
    at_ (i / 2 : Nat) / 2 ^ (4 * (i % 2)) % 16
      + at_ (opR x * opK x / 2 + i / 4 : Nat) / 2 ^ (2 * (i % 4)) % 4 * 16
  else
    let row := (r : Int) * shStr x 1
    if shFmt x = 7 then at_ (row + (k / 2 : Nat)) / 2 ^ (4 * (k % 2)) % 16
    else
      let b := fmtBytes (shFmt x)
      bytesToNat ((List.range b).map (fun j => t.byte (opOrigin t x + row + (k * b + j : Nat)).toNat))

/-- The scale byte of block r of an operand. -/
def opScale (t : Tower) (x : BitVec 512) (r : Nat) : Nat := (t.byte (shScb x - windowBase + r)).toNat

/-- Element (k, r) of an operand as a value. -/
def opVal (t : Tower) (x : BitVec 512) (k r : Nat) : Val :=
  match fmtFlt (shFmt x) with
  | some f => f.decode (opBits t x k r)
  | none => k4Val (opScale t x r / 64) (opBits t x k r)

/-- Element (k, r) of an i8 or n8 operand. -/
def opInt (t : Tower) (x : BitVec 512) (k r : Nat) : Int :=
  if shFmt x = 8 then sextInt 8 (opBits t x k r) else (opBits t x k r : Int)

/-! ## The engaged tile and its plane (R321, R326) -/

/-- The partial plane of a tile by role. -/
def Core.plane (c : Core) : Bank Nat (BitVec 32) := if c.vec.exposed then c.mtx.plane0 else c.mtx.plane1
/-- Replace the engaged tile's partial plane. -/
def Core.setPlane (c : Core) (p : Bank Nat (BitVec 32)) : Core :=
  if c.vec.exposed then { c with mtx := { c.mtx with plane0 := p } } else { c with mtx := { c.mtx with plane1 := p } }
/-- An element of the engaged tile's plane. -/
def Core.planeAt (c : Core) (row col : Nat) : Nat := (c.plane.get 0#32 (row * 32 + col)).toNat
/-- A row of the engaged tile. -/
def Core.engRow (c : Core) (r : Nat) : BitVec 1024 := (c.vec.tile true).get 0#1024 (BitVec.ofNat 6 r)
/-- Write a row of the engaged tile. -/
def Core.setEngRow (c : Core) (r : Nat) (x : BitVec 1024) : Core :=
  { c with vec := c.vec.setTile true ((c.vec.tile true).set (BitVec.ofNat 6 r) x) }
/-- The discard of R310 and the effect of `m.zero`: the engaged tile and its plane are zero. -/
def Core.zeroEngaged (c : Core) : Core := ({ c with vec := c.vec.setTile true [] }).setPlane []

/-- Nmax (R321). -/
def nMax (acct : BitVec 2) : Nat := if acct.toNat < 2 then 32 else 64
/-- The region fits (R321). -/
def regionOk (acct : BitVec 2) (row0 col0 m n : Nat) : Bool :=
  decide (m ≤ 64) && decide (row0 + m ≤ 64) && decide (col0 + n ≤ nMax acct)

/-- Change the elements of a region of the engaged tile, row by row; f gets the element's place and bits. -/
def Core.updRegion (c : Core) (row0 col0 m n : Nat) (f : Nat → Nat → Nat → Nat × Fl) : Core × Fl :=
  let w := accW c.ctl.acct
  (List.range m).foldl (fun (a : Core × Fl) i =>
    let row := a.1.engRow (row0 + i)
    let els := (List.range (1024 / w)).map (fun e =>
      if col0 ≤ e ∧ e < col0 + n then f i (e - col0) (elemAt row w e) else (elemAt row w e, 0#6))
    (a.1.setEngRow (row0 + i) (packRow w (els.map (fun p => p.1))), els.foldl (fun fl p => fl ||| p.2) a.2)) (c, 0#6)

/-! ## Products (R127, R325, R327, R328) -/

/-- The kinds of command that work on a region of the engaged tile. -/
inductive MKind where
  | flt | int | k4 | scacc | zero
deriving DecidableEq, Repr

/-- What a command does to the engaged tile: kind, row origin, column origin, rm. -/
def mDesc : Instr → Option (MKind × Nat × Nat × BitVec 3)
  | .mMma _ _ r c m _ => some (.flt, r.toNat, c.toNat, m)
  | .mMmaI _ _ r c _ => some (.int, r.toNat, c.toNat, 0#3)
  | .mMmaK4 _ _ r c _ => some (.k4, r.toNat, c.toNat, 0#3)
  | .mScacc _ _ r c m _ => some (.scacc, r.toNat, c.toNat, m)
  | .mZero _ => some (.zero, 0, 0, 0#3)
  | _ => none

/-- What accesses to the tiles may still find beside a matrix command that is still writing: the tiles as they stand
before it, and its region (R261). -/
def Core.beside (c : Core) (e : QEntry) : Before :=
  let w := accW c.ctl.acct
  let at_ (row0 rows lo hi : Nat) : Before :=
    { exposed := c.vec.exposed, acc0 := c.vec.acc0, acc1 := c.vec.acc1, row0 := row0, rows := rows, lo := lo, hi := hi }
  match mDesc e.ins with
  | some (.zero, _, _, _) => at_ 0 64 0 1024
  | some (.k4, _, _, _) => at_ 0 0 0 0
  | some (_, row0, col0, _) => at_ row0 (opR e.cap.sha) (w * col0) (w * (col0 + opR e.cap.shb))
  | none => at_ 0 0 0 0

/-- The chunk length of an operand format (R127). -/
def chunkLen (code : Nat) : Nat := if code = 1 ∨ code = 2 then 4 else 8

/-- A node of a chunk's tree: a pad, none, changes no sum, the sign of a zero sum included (R126). -/
def chunkNode (mode : Mode) : Option Val → Option Val → Option Val
  | some a, some b => some (Val.add mode a b).1
  | some a, none => some a
  | none, b => b

/-- The exact tree of a chunk's products, padded with -0, and NV for a NaN (R126, R127). -/
def chunkTree (mode : Mode) (n : Nat) (ps : List Val) : Val × Fl :=
  let r := pairwise (fun _ _ a b (_ : Unit) => (chunkNode mode a b, ())) none
    (ps.map some ++ List.replicate (n - ps.length) none) ()
  let v := r.1.getD (.fin true 0 0 false)
  (v, Fl.when v.isNan Fl.nv)

/-- The products of a chunk. -/
def chunkProducts (ta tb : Tower) (a b : BitVec 512) (i j q len : Nat) : List Val :=
  (List.range (min len (opK a - q * len))).map (fun k =>
    (Val.mul (opVal ta a (q * len + k) i) (opVal tb b (q * len + k) j)).1)

/-- The chunks of a multiply that update its tile one by one: `m.mma` and `m.mma.i` (R127); the others have one. -/
def chunkCount (kind : MKind) (a : BitVec 512) : Nat :=
  match kind with
  | .flt => (opK a + chunkLen (shFmt a) - 1) / chunkLen (shFmt a)
  | .int => (opK a + chunkLen (shFmt a) - 1) / chunkLen (shFmt a)
  | _ => 1

/-- One element of `m.mma` over the chunks `qs`: a rounding for each, in ascending k (R127, R325). -/
def mmaFlt (fmt : Fmt) (mode : Mode) (ta tb : Tower) (a b : BitVec 512) (qs : List Nat) (i j c : Nat) : Nat × Fl :=
  let len := chunkLen (shFmt a)
  qs.foldl (fun (acc : Nat × Fl) q =>
    let t := chunkTree mode len (chunkProducts ta tb a b i j q len)
    let u := Val.add mode (fmt.decode acc.1) t.1
    let r := fmt.round mode u.1
    (r.1, acc.2 ||| t.2 ||| u.2 ||| r.2)) (c, 0#6)

/-- The values of k in some chunks. -/
def chunkKs (a : BitVec 512) (qs : List Nat) : List Nat :=
  let len := chunkLen (shFmt a)
  qs.flatMap (fun q => (List.range (min len (opK a - q * len))).map (fun k => q * len + k))

/-- One element of `m.mma.i` over the chunks `qs`: exact sum, added modulo 2^32 (R127, R325). -/
def mmaInt (ta tb : Tower) (a b : BitVec 512) (qs : List Nat) (i j c : Nat) : Nat :=
  let t := (chunkKs a qs).foldl (fun (acc : Int) k => acc + opInt ta a k i * opInt tb b k j) 0
  (((c : Int) + t) % (2 ^ 32 : Int)).toNat

/-- One element of the partial plane: the block product, exact in FP32 (R117, R327). -/
def mmaK4 (ta tb : Tower) (a b : BitVec 512) (i j : Nat) : BitVec 32 :=
  let t (q : Nat) : Val := (chunkTree .rne 16 (chunkProducts ta tb a b i j q 16)).1
  BitVec.ofNat 32 (Fmt.fp32.round .rne (Val.add .rne (t 0) (t 1)).1).1

/-- A value times 2^k. -/
def Val.scale (k : Int) : Val → Val
  | .fin n m e st => .fin n m (e + k) st
  | v => v

/-- One element of `m.scacc` (R117, R328). -/
def scaccEl (mode : Mode) (p : Nat) (kx : Int) (c : Nat) : Nat × Fl :=
  let t := Fmt.fp32.round mode ((Fmt.fp32.decode p).scale kx)
  let u := Val.add mode (Fmt.fp32.decode c) (Fmt.fp32.decode t.1)
  let r := Fmt.fp32.round mode u.1
  (r.1, t.2 ||| u.2 ||| r.2)

/-- The core after the chunks `qs` of a command of a kind, its operands read: own tower for A, `tb` for B (R325 to R329). -/
def mApply (kind : MKind) (row0 col0 : Nat) (mode : Mode) (a b : BitVec 512) (qs : List Nat) (tb : Tower) (c : Core) : Core :=
  let ta := c.tower
  let m := opR a
  let n := opR b
  match kind with
  | .flt =>
    let r := c.updRegion row0 col0 m n (fun i j x => mmaFlt (accFmt c.ctl.acct) mode ta tb a b qs i j x)
    r.1.raise r.2
  | .int => (c.updRegion row0 col0 m n (fun i j x => (mmaInt ta tb a b qs i j x, 0#6))).1
  | .k4 =>
    c.setPlane ((List.range m).foldl (fun p i => (List.range n).foldl (fun p j =>
      p.set ((row0 + i) * 32 + (col0 + j)) (mmaK4 ta tb a b i j)) p) c.plane)
  | .scacc =>
    let r := c.updRegion row0 col0 m n (fun i j x =>
      scaccEl mode (c.planeAt (row0 + i) (col0 + j))
        (((opScale ta a i % 64 : Nat) : Int) - 32 + (((opScale tb b j % 64 : Nat) : Int) - 32)) x)
    r.1.raise r.2
  | .zero => c.zeroEngaged

/-! ## Checks (R320, R322) -/

/-- The formats of a multiply and the accumulator types (R320). -/
def mFmtOk (kind : MKind) (fa fb : Nat) (acct : BitVec 2) : Bool :=
  let fp8 (f : Nat) : Bool := decide (3 ≤ f) && decide (f ≤ 6)
  let f16 (f : Nat) : Bool := decide (f = 1) || decide (f = 2)
  let i8 (f : Nat) : Bool := decide (f = 8) || decide (f = 9)
  match kind with
  | .flt => decide (acct ≠ 1#2) && ((fp8 fa && fp8 fb) || (f16 fa && f16 fb))
  | .int => decide (acct = 1#2) && i8 fa && i8 fb
  | _ => decide (acct = 0#2) && decide (fa = 7) && decide (fb = 7)

/-- The checks of a multiply or `m.scacc`, in order: each failure with whether it lies on B (R311, R322). `own` says
that B is this core's; a partner checks its own A alone (R337). DEDUCED, log entry 16. -/
def mulCheck (kind : MKind) (row0 col0 : Nat) (own : Bool) (c : Core) (a b : BitVec 512) : Option (Bool × TrapInfo) :=
  let t := c.tower
  let onA (x : Option TrapInfo) : Option (Bool × TrapInfo) := x.map (fun t => (false, t))
  let onB (x : Option TrapInfo) : Option (Bool × TrapInfo) := if own then x.map (fun t => (true, t)) else none
  let scaled := decide (kind = .k4) || decide (kind = .scacc)
  let banks : Option (Bool × TrapInfo) :=
    let ga := opBanks t a
    let gb := opBanks t b
    if own && decide (kind ≠ .scacc) && decide (ga &&& gb ≠ 0) then
      some (true, Trap.bankconf (BitVec.ofNat 64 (ga + 16 * gb)))
    else none
  if shRank a ≠ 2 ∨ shRank b ≠ 2 ∨ ¬ mFmtOk kind (shFmt a) (shFmt b) c.ctl.acct ∨ opK a ≠ opK b
      ∨ (kind = .k4 ∧ opK a ≠ 32) then some (false, Trap.illenc 0#64)
  else if !regionOk c.ctl.acct row0 col0 (opR a) (opR b) then some (false, Trap.illenc 0#64)
  else
    [onA (opAlign a), onB (opAlign b), onA (opPlace t scaled a), onB (opPlace t scaled b), onA (opBax a), onB (opBax b),
      banks].findSome? id

/-! ## The retained window (R309, R310) -/

/-- A command starts: the window's new state (R309). -/
def Mtx.begin (m : Mtx) (e : QEntry) (closing enters ts : Bool) : Mtx :=
  let m1 := if closing then { m with window := .none, cmds := [], faultAt := none } else m
  let m2 := if ts then { m1 with window := .anchored, cmds := [], faultAt := none } else m1
  if enters && decide (m2.window = .anchored) then
    if 48 ≤ m2.cmds.length then { m2 with window := .overflowed, cmds := [], faultAt := none }
    else { m2 with cmds := m2.cmds ++ [e] }
  else m2

/-- A command carries TS = 1 (R43, R309). -/
def tokTs (t : Option Tok) : Bool :=
  match t with
  | some t => t.ts
  | none => false

/-- The start of a matrix command at a core; while the core is in its handler the window is frozen (R400). -/
def mBegin (k : CoreId) (e : QEntry) (closing enters : Bool) (s : State) : State :=
  s.modCore k (fun c =>
    if c.seat.depth = 0#8 then { c with mtx := c.mtx.begin e closing enters (tokTs e.ins.tok?) } else c)

/-- The leader of a gang: the lowest member named (R153). -/
def gangLeader (k : CoreId) (mask : BitVec 4) : CoreId :=
  quadMember k (BitVec.ofNat 2 (((List.range 4).find? (fun i => mask.getLsbD i)).getD 0))

/-- The core whose tower holds the B of a command: the leader's of a ganged one (R311). -/
def bOwner (k : CoreId) (e : QEntry) : CoreId :=
  match e.gang with
  | some g => gangLeader k g.mask
  | none => k

/-- What running a command on its operands met. -/
inductive Slice where
  | ok (s : State)
  /-- a poisoned or uncorrectable sector of a core's tower was consumed -/
  | bad (owner : CoreId) (off : Nat) (s : State)
  /-- it traps -/
  | trap (t : TrapInfo) (s : State)

/-- Read runs of a tower as a consumer: errors are mended, the first poisoned sector is named (R205, R206). -/
def consumeRuns (owner : CoreId) : List (Nat × Nat) → State → State × Option Nat
  | [], s => (s, none)
  | r :: rest, s =>
    let s1 := s.touchPiece owner { a := windowAddr r.1, len := r.2, at_ := .window r.1 }
    match (s1.core owner).tower.firstPoison r.1 r.2 with
    | some o => (s1, some o)
    | none => consumeRuns owner rest s1

/-- All chunks of a command. -/
def allChunks (e : QEntry) : List Nat :=
  match mDesc e.ins with
  | some (kind, _, _, _) => List.range (chunkCount kind e.cap.sha)
  | none => []

/-- Run chunks of a command on its operands as they stand (R127). -/
def runSlice (k : CoreId) (e : QEntry) (qs : List Nat) (s : State) : Slice :=
  match mDesc e.ins with
  | none => .ok s
  | some (.zero, _, _, _) => .ok (s.modCore k Core.zeroEngaged)
  | some (kind, row0, col0, rm) =>
    let bo := bOwner k e
    let a := e.cap.sha
    let b := e.cap.shb
    let ta := (s.core k).tower
    let tb := (s.core bo).tower
    let scaled := decide (kind = .k4) || decide (kind = .scacc)
    match opPlace ta scaled a, opPlace tb scaled b with
    | some t, _ => .trap t s
    | none, some t => .trap t s
    | none, none =>
      let ra := (if kind = .scacc then [] else opSpans ta a) ++ (if scaled then opScales a else [])
      let rb := (if kind = .scacc then [] else opSpans tb b) ++ (if scaled then opScales b else [])
      match consumeRuns k ra s with
      | (s1, some o) => .bad k o s1
      | (s1, none) =>
        match consumeRuns bo rb s1 with
        | (s2, some o) => .bad bo o s2
        | (s2, none) =>
          .ok (s2.modCore k (fun c => mApply kind row0 col0 (modeOf rm e.cap.rm) a b qs (s2.core bo).tower c))

/-- Run the window's commands in order (R310); one marked 1 computes nothing (R153). DESIGN CHOICE, log entry 18. -/
def replayCmds (k : CoreId) : List QEntry → State → Slice
  | [], s => .ok s
  | e :: rest, s =>
    if e.resume = 1#64 then replayCmds k rest s
    else
      match runSlice k e (allChunks e) s with
      | .ok s' => replayCmds k rest s'
      | r => r

/-- The address by which a command names a tower sector (R401, R471). DEDUCED, log entry 17. -/
def sectorName (k owner : CoreId) (off : Nat) : Word :=
  let sec := off / 32 * 32
  BitVec.ofNat 64 (if owner = k then windowAddr sec else apertureAddr owner sec)

/-- The outcome of an automatic refetch (R398). -/
inductive Refetch where
  | impossible
  | failed (s : State)
  | ok (s : State)
  | wait

/-- The automatic refetch of the tower sector that holds an offset (R398). -/
def refetch (k : CoreId) (asid : BitVec 16) (xe : Bool) (off : Nat) (s : State) : Refetch :=
  let t := off / 32 * 32
  match (s.core k).tagFind (fun e => tagClean e && tagCovers e t) with
  | none => .impossible
  | some (_, e) =>
    let va := 512 * tagBlock e + (t - 512 * tagLine e)
    match s.check k asid xe (s.core k).ctl.sup .drd 0 va 32 with
    | .error _ => .failed s
    | .ok ps =>
      match s.consume k ps with
      | .trap _ s1 => .failed s1
      | .wait => .wait
      | .ok bs s1 =>
        .ok ((s1.modCore k (fun c => { c with tower := c.tower.write t bs })).event (dieOf k) 1 (tableOf k).toNat)

/-- How far a run of a started instruction goes: to its end, or for at most n units (chunks, rows, bytes), where a
pre-emption stops it (R403). -/
inductive Pace where
  | whole
  | part (n : Nat)
deriving DecidableEq, Repr

/-- The units from `q` on that a run covers. -/
def Pace.upto (p : Pace) (q total : Nat) : Nat :=
  match p with
  | .whole => total
  | .part n => min total (q + n)

/-- The command at hand is in the retained window: it entered it, and no handler runs (R309, R400). -/
def Core.inWindow (c : Core) (e : QEntry) : Bool :=
  decide (c.mtx.window = .anchored) && decide (c.seat.depth = 0#8) &&
    (match mDesc e.ins with
     | some (kind, _) => decide (kind ≠ .scacc)
     | none => false)

/-- Note that the command at hand, the window's last, has faulted on a consumed operand, or that it is done: it is replayed
with the window when it goes on (R310, R397). A command outside the window leaves the note as it stands (R400). -/
def markFault (k : CoreId) (e : QEntry) (b : Bool) (s : State) : State :=
  if (s.core k).inWindow e then
    s.modCore k (fun c => { c with mtx := { c.mtx with faultAt := if b then some (c.mtx.cmds.length - 1) else none } })
  else s

/-- Note the sectors refetched in a replay that waits for a stack; none when it goes on or ends (R397). -/
def State.setRetry (s : State) (k : CoreId) (x : Option (List Nat)) : State :=
  s.modCore k (fun c => { c with mtx := { c.mtx with retry := x } })

/-- The window is replayed, and then a command that is not in it runs (R310, R397). -/
def replaySlice (k : CoreId) (e : QEntry) (s : State) : Slice :=
  match replayCmds k (s.core k).mtx.cmds (s.modCore k Core.zeroEngaged) with
  | .ok s' => if (s.core k).inWindow e then .ok s' else runSlice k e (allChunks e) s'
  | r => r

/-- A command runs from a chunk on, or the window is replayed; consumed poison discards the tile, is refetched when it can
be, and else traps (R397, R398). `tried` lists the sectors refetched in this replay. -/
def mulLoop (k : CoreId) (e : QEntry) (p : Pace) : Nat → Bool → Nat → List Nat → State → Eff
  | 0, _, _, _, s => .wait s
  | fuel + 1, replay, q, tried, s =>
    let total := (allChunks e).length
    let q1 := p.upto q total
    let r := if replay then replaySlice k e s else runSlice k e ((List.range q1).drop q) s
    match r with
    | .ok s' => if replay || decide (total ≤ q1) then .done (markFault k e false s') else .hold (BitVec.ofNat 64 q1) s'
    | .trap t s' => .fault t 0#64 s'
    | .bad owner off s' =>
      let s1 := s'.modCore k Core.zeroEngaged
      let tr (wl rf : Bool) : TrapInfo := { code := 0x10#8, addr := sectorName k owner off, wl := wl, rf := rf }
      if (s.core k).mtx.window ≠ .anchored then .fault (tr true false) 0#64 s1
      else if owner ≠ k then .fault (tr false false) 0#64 (markFault k e true s1)
      else if tried.contains (off / 32) then .fault (tr false true) 0#64 (markFault k e true s1)
      else
        match refetch k e.cap.asid e.cap.xe off s1 with
        | .impossible => .fault (tr false false) 0#64 (markFault k e true s1)
        | .failed s2 => .fault (tr false true) 0#64 (markFault k e true s2)
        | .wait => .hold 0#64 (s1.setRetry k (some tried))
        | .ok s2 => mulLoop k e p fuel true 0 (off / 32 :: tried) s2

/-- A started multiply, `m.scacc` or `m.zero` goes on: the window is replayed after a fault on a consumed operand and while a
refetch is under way, else the command runs from its next chunk on (R393, R397, R399, R403). -/
def mulOn (e : QEntry) (k : CoreId) (p : Pace) (resume : Word) (s : State) : Eff :=
  let m := (s.core k).mtx
  mulLoop k e p 1048577 (m.retry.isSome || e.replay || (m.faultAt.isSome && (s.core k).inWindow e)) resume.toNat
    (m.retry.getD []) (if m.retry.isSome then s.setRetry k none else s)

/-- A multiply, `m.scacc` or `m.zero` from its queue entry. -/
def mulEntry (e : QEntry) (k : CoreId) (p : Pace) (resume : Word) (s : State) : Eff :=
  match mDesc e.ins with
  | none => .done s
  | some (kind, row0, col0, _) =>
    let own := decide (bOwner k e = k)
    if e.started then mulOn e k p resume s
    else
      match (if kind = .zero then none else mulCheck kind row0 col0 own (s.core k) e.cap.sha e.cap.shb) with
      | some (_, t) => .trap t s
      | none => mulLoop k e p 1048577 false 0 [] (mBegin k e (decide (kind = .scacc)) (decide (kind ≠ .scacc)) s)

/-- The body of such a command outside a gang. -/
def mulBody (i : Instr) : Body := fun k cap r s => mulEntry { ins := i, slots := i.slots, cap := cap } k .whole r s

/-- The replay that a compared `m.chk` brings (R310, R400): consumed poison is met as R397 gives. -/
def chkReplay (k : CoreId) (e : QEntry) : Nat → List Nat → State → Eff
  | 0, _, s => .wait s
  | fuel + 1, tried, s =>
    match replayCmds k (s.core k).mtx.cmds (s.modCore k Core.zeroEngaged) with
    | .ok s' => .done s'
    | .trap t s' => .fault t 1#64 s'
    | .bad owner off s' =>
      let s1 := s'.modCore k Core.zeroEngaged
      let tr (rf : Bool) : TrapInfo := { code := 0x10#8, addr := sectorName k owner off, rf := rf }
      if owner ≠ k then .fault (tr false) 1#64 s1
      else if tried.contains (off / 32) then .fault (tr true) 1#64 s1
      else
        match refetch k e.cap.asid e.cap.xe off s1 with
        | .impossible => .fault (tr false) 1#64 s1
        | .failed s2 => .fault (tr true) 1#64 s2
        | .wait => .hold 1#64 (s1.setRetry k (some tried))
        | .ok s2 => chkReplay k e fuel (off / 32 :: tried) s2

/-! ## Drains (R332, R333, R341) -/

/-- A drain format (R320): its destination type. -/
def drainTy (code : Nat) : Option Ty :=
  match code with
  | 0 => some (.flt .fp32) | 1 => some (.flt .bf16) | 2 => some (.flt .fp16) | 3 => some (.flt .e4m3)
  | 4 => some (.flt .e5m2) | 8 => some (.int true 8) | 9 => some (.int false 8) | 12 => some (.int true 32)
  | 13 => some (.int false 32) | _ => none

/-- Convert an element of the engaged tile (R124, R332). -/
def drainEl (ty : Ty) (mode : Mode) (sat : Bool) (acct : BitVec 2) (x : Nat) : Nat × Fl :=
  if acct = 1#2 then ty.deliverInt mode sat (sextInt 32 x) else ty.deliver mode sat true ((accFmt acct).decode x)

/-- The magnitude of an element (R333). -/
def amaxOf (acct : BitVec 2) (x : Nat) : Nat :=
  if acct = 1#2 then (sextInt 32 x).natAbs
  else
    let v := (accFmt acct).decode x
    (Fmt.fp32.round .rne v.abs).1

/-- The checks of the drains up to check 4, the amax address apart (R322). -/
def drainCheck (row0 col0 : Nat) (amax : Option Word) (c : Core) (d : BitVec 512) : Option TrapInfo :=
  if shRank d ≠ 2 ∨ (drainTy (shFmt d)).isNone then some (Trap.illenc 0#64)
  else if !regionOk c.ctl.acct row0 col0 (opR d) (opK d) then some (Trap.illenc 0#64)
  else
    match opAlign d with
    | some t => some t
    | none =>
      match amax with
      | some a => if a.toNat % 4 ≠ 0 then some (Trap.align a) else none
      | none => opPlace c.tower false d

/-- Check 4 of R322 for `m.drain.amax`: the destination and the word at the amax address; a line operand's line, else the
lowest faulting byte address. -/
def amaxPlace (t : Tower) (d : BitVec 512) (word : Except TrapInfo (List Piece)) : Except TrapInfo (List Piece) :=
  match opPlace t false d, word with
  | none, w => w
  | some x, .ok _ => .error x
  | some x, .error y => if shLn d || decide (x.addr.toNat ≤ y.addr.toNat) then .error x else .error y

/-- Drain rows `rs` of a region: each row's bytes are written as one write; `f` converts an element, given its column (R332).
DEDUCED, log entry 14. -/
def drainRows (k : CoreId) (row0 col0 : Nat) (d : BitVec 512) (f : Nat → Nat → Nat × Fl) (rs : List Nat) (s : State) : State :=
  let w := accW (s.core k).ctl.acct
  let b := fmtBytes (shFmt d)
  let spans := (opSpans (s.core k).tower d).zipIdx.filter (fun p => rs.contains p.2)
  spans.foldl (fun s p =>
    let row := (s.core k).engRow (row0 + p.2)
    let els := (List.range (opK d)).map (fun j => f (col0 + j) (elemAt row w (col0 + j)))
    s.modCore k (fun c =>
      (c.towerWrite p.1.1 (els.flatMap (fun e => natToBytes b e.1))).raise (els.foldl (fun fl e => fl ||| e.2) 0#6))) s

/-- The largest magnitude of a region (R333). -/
def drainAmax (c : Core) (row0 col0 : Nat) (d : BitVec 512) : Nat :=
  let w := accW c.ctl.acct
  (List.range (opR d)).foldl (fun m i =>
    (List.range (opK d)).foldl (fun m j => max m (amaxOf c.ctl.acct (elemAt (c.engRow (row0 + i)) w (col0 + j)))) m) 0

/-- A drain from row `res` on, at a pace: its last row finishes it (R332, R403). -/
def drainOn (k : CoreId) (p : Pace) (row0 col0 : Nat) (d : BitVec 512) (f : Nat → Nat → Nat × Fl) (res : Word)
    (fin : State → Eff) (s : State) : Eff :=
  let q1 := p.upto res.toNat (opR d)
  let s1 := drainRows k row0 col0 d f ((List.range q1).drop res.toNat) s
  if opR d ≤ q1 then fin s1 else .hold (BitVec.ofNat 64 q1) s1

/-- `m.drain` (R332). -/
def bodyMDrain (p : Pace) (m : BitVec 3) (sat : BitVec 1) (r : BitVec 6) (h : BitVec 1) (i : Instr) : Body := fun k cap res s =>
  let c := s.core k
  let col0 := 32 * h.toNat
  match drainCheck r.toNat col0 none c cap.sha with
  | some t => .trap t s
  | none =>
    let s1 := if res = 0#64 then mBegin k { ins := i, slots := i.slots, cap := cap } true false s else s
    match drainTy (shFmt cap.sha) with
    | none => .done s1
    | some ty =>
      drainOn k p r.toNat col0 cap.sha (fun _ x => drainEl ty (modeOf m cap.rm) (bit1 sat) c.ctl.acct x) res .done s1

/-- `m.drain.amax` (R333): the drain, then the merge; poison at the word traps after the drain. -/
def bodyMDrainAmax (p : Pace) (m : BitVec 3) (sat : BitVec 1) (r : BitVec 6) (h : BitVec 1) (i : Instr) : Body :=
    fun k cap res s =>
  let c := s.core k
  let col0 := 32 * h.toNat
  match drainCheck r.toNat col0 (some cap.x) c cap.sha with
  | some t => .trap t s
  | none =>
    match amaxPlace c.tower cap.sha (s.check k cap.asid cap.xe c.ctl.sup .amo 4 cap.x.toNat 4) with
    | .error t => .trap t s
    | .ok ps =>
      if ps.any (s.pieceBlocked k true) then .wait s
      else
        let s1 := if res = 0#64 then mBegin k { ins := i, slots := i.slots, cap := cap } true false s else s
        match drainTy (shFmt cap.sha) with
        | none => .done s1
        | some ty =>
          let big := drainAmax c r.toNat col0 cap.sha
          let merge (s2 : State) : Eff :=
            match s2.consume k ps with
            | .trap t s3 => .fault t 0#64 s3
            | .wait => .wait s
            | .ok bs s3 => .done (s3.writePieces k ps (natToBytes 4 (max (bytesToNat bs) big)))
          drainOn k p r.toNat col0 cap.sha (fun _ x => drainEl ty (modeOf m cap.rm) (bit1 sat) c.ctl.acct x) res merge s1

/-! ## Tile management (R329 to R331) -/

/-- `m.swap` (R330). -/
def bodyMSwap (i : Instr) : Body := fun k cap _ s =>
  let s1 := mBegin k { ins := i, slots := i.slots, cap := cap } true false s
  .done (s1.modCore k (fun c => { c with vec := { c.vec with exposed := !c.vec.exposed } }))

/-- `m.acct` (R331). -/
def bodyMAcct (ty : BitVec 2) (i : Instr) : Body := fun k cap _ s =>
  let s1 := mBegin k { ins := i, slots := i.slots, cap := cap } true false s
  .done (s1.modCore k (fun c => { c with ctl := { c.ctl with cst := setField c.ctl.cst 0 2 (ty.zeroExtend 64) } }))

/-- `m.nop`: with TS = 1 it anchors an empty window (R61, R309). -/
def bodyMNop (i : Instr) : Body := fun k cap _ s =>
  .done (mBegin k { ins := i, slots := i.slots, cap := cap } false false s)

/-! ## Known answers (R334 to R336) -/

/-- Element (m, n) of the product of a built-in pattern (R335). -/
def katSum (id m n : Nat) : Int :=
  (List.range 32).foldl (fun (t : Int) k =>
    t + ((((m + 3 * k + id) % 7 : Nat) : Int) - 3) * ((((2 * k + n + 5 * id) % 5 : Nat) : Int) - 2)) 0

/-- The check tile of a pattern and a format: INT32 for i8, FP32 otherwise; every sum is exact (R334, R335), and a zero sum is
+0, as under RNE: DESIGN CHOICE, log entry 91. -/
def katTile (id fmt : Nat) : Bank Nat (BitVec 32) :=
  (List.range 2048).map (fun x =>
    let v := katSum id (x / 32) (x % 32)
    (x, if fmt = 4 then BitVec.ofInt 32 v else BitVec.ofNat 32 (Fmt.fp32.round .rne (Val.ofInt v)).1))

/-- `m.kat` (R335). -/
def bodyMKat (id fmt : BitVec 4) (i : Instr) : Body := fun k cap _ s =>
  let s1 := mBegin k { ins := i, slots := i.slots, cap := cap } false false s
  .done (s1.modCore k (fun c =>
    { c with mtx := { c.mtx with check := katTile id.toNat fmt.toNat, checkInt := decide (fmt = 4#4) } }))

/-- The signature of a check tile (R336). -/
def katSig (t : Bank Nat (BitVec 32)) : BitVec 32 :=
  (List.range 2048).foldl (fun (sig : BitVec 32) x => (sig ^^^ t.get 0#32 x).rotateLeft 7 + 0x9E3779B9#32) 0xFFFFFFFF#32

/-- `m.chk` (R315, R336, R400): a mismatch traps; once it has compared, it replays a window that is kept and does not
compare again. DEDUCED, log entry 25. -/
def bodyMChk (sig : BitVec 32) (i : Instr) : Body := fun k cap r s =>
  let e : QEntry := { ins := i, slots := i.slots, cap := cap }
  if r = 1#64 then
    if (s.core k).mtx.window = .anchored then
      chkReplay k e 1048577 ((s.core k).mtx.retry.getD []) (if (s.core k).mtx.retry.isSome then s.setRetry k none else s)
    else .done s
  else
    let s1 := mBegin k e false false s
    let got := katSig (s1.core k).mtx.check
    if got = sig then .done s1
    else
      let anchored := decide ((s1.core k).mtx.window = .anchored)
      let s2 := s1.modCore k (fun c => { c with ctl := { c.ctl with cst := setBit c.ctl.cst 18 true } })
      .fault { Trap.katmis (sig ++ got) with wl := !anchored } 1#64 s2

/-! ## The N4 epilogue (R338 to R341) -/

/-- The fields of an epilogue word that its op uses: d, a, b, c (R340). -/
def epiUses (op : Nat) : Bool × Bool × Bool × Bool :=
  match op with
  | 0 => (false, false, false, false)
  | 2 => (true, true, true, false) | 3 => (true, true, true, false) | 4 => (true, true, true, false)
  | 5 => (true, true, true, true) | 6 => (true, true, true, false) | 7 => (true, true, true, false)
  | _ => (true, true, false, false)

/-- An epilogue word is valid (R339, R340). -/
def epiOk (w : BitVec 32) : Bool :=
  let op := (w.extractLsb' 28 4).toNat
  let (d, a, b, c) := epiUses op
  decide (op ≤ 11) && decide (w.extractLsb' 0 14 = 0#14) && (d || decide (w.extractLsb' 26 2 = 0#2))
    && (a || decide (w.extractLsb' 22 4 = 0#4)) && (b || decide (w.extractLsb' 18 4 = 0#4))
    && (c || decide (w.extractLsb' 14 4 = 0#4))

/-- Load the epilogue state from its image at a tower offset; poison is refetched when the window is anchored, once for a
sector, and else traps (R339, R397, R398). -/
def epiLoad (k : CoreId) (e : QEntry) (off : Nat) : Nat → List Nat → State → Eff
  | 0, _, s => .wait s
  | fuel + 1, tried, s1 =>
    match consumeRuns k [(off, 768)] s1 with
    | (s2, some o) =>
      let s3 := s2.modCore k Core.zeroEngaged
      let tr (wl rf : Bool) : TrapInfo := { code := 0x10#8, addr := sectorName k k o, wl := wl, rf := rf }
      if (s3.core k).mtx.window ≠ .anchored then .fault (tr true false) 0#64 s3
      else if tried.contains (o / 32) then .fault (tr false true) 0#64 s3
      else
        match refetch k e.cap.asid e.cap.xe o s3 with
        | .impossible => .fault (tr false false) 0#64 s3
        | .failed s4 => .fault (tr false true) 0#64 s4
        | .wait => .hold 1#64 (s3.setRetry k (some tried))
        | .ok s4 => epiLoad k e off fuel (o / 32 :: tried) s4
    | (s2, none) =>
      let bytes := (s2.core k).tower.read off 768
      let word (n : Nat) : BitVec 32 := BitVec.ofNat 32 (bytesToNat ((bytes.drop (4 * n)).take 4))
      if (List.range 32).all (fun n => epiOk (word n)) && (List.range 24).all (fun n => decide (word (40 + n) = 0#32)) then
        .done (s2.modCore k (fun c => { c with mtx := { c.mtx with epi := (List.range 192).map (fun n => (n, word n)) } }))
      else .fault (Trap.illenc (BitVec.ofNat 64 (windowAddr off))) 0#64 s2

/-- The checks of `m.epi.ld` (R339). DESIGN CHOICE, log entry 15. -/
def epiLdCheck (x : BitVec 512) : Option TrapInfo :=
  if shLn x then some (Trap.perm ((opLine x).zeroExtend 64))
  else if shBase x % 64 ≠ 0 then some (Trap.align (BitVec.ofNat 64 (shBase x)))
  else (lowestOutside [((shBase x : Int), 768)]).map Trap.perm

/-- `m.epi.ld` (R339): while a refetch waits for a stack it stands at resume point 1. -/
def bodyMEpiLd (i : Instr) : Body := fun k cap r s =>
  match epiLdCheck cap.sha with
  | some t => .trap t s
  | none =>
    let e : QEntry := { ins := i, slots := i.slots, cap := cap }
    if r = 1#64 then epiLoad k e (shBase cap.sha - windowBase) 25 ((s.core k).mtx.retry.getD []) (s.setRetry k none)
    else epiLoad k e (shBase cap.sha - windowBase) 25 [] (mBegin k e true false s)

/-- The working values of an element (R338). -/
structure EpiRegs where
  e0 : Nat
  e1 : Nat
  e2 : Nat
  e3 : Nat

/-- A source of an epilogue word (R340). -/
def epiSrc (epi : Bank Nat (BitVec 32)) (col x : Nat) (g : EpiRegs) (code : Nat) : Nat :=
  match code with
  | 0 => g.e0 | 1 => g.e1 | 2 => g.e2 | 3 => g.e3
  | 12 => (epi.get 0#32 (64 + col)).toNat
  | 13 => (epi.get 0#32 (128 + col)).toNat
  | 14 => x
  | 15 => 0
  | n => (epi.get 0#32 (32 + (n - 4))).toNat

/-- The result of an epilogue op on FP32 bits (R340). -/
def epiOp (op a b c : Nat) : Nat × Fl :=
  let v (n : Nat) : Val := Fmt.fp32.decode n
  let rnd (r : Val × Fl) : Nat × Fl := let q := Fmt.fp32.round .rne r.1; (q.1, r.2 ||| q.2)
  match op with
  | 1 => (a, 0#6)
  | 2 => rnd (Val.add .rne (v a) (v b))
  | 3 => rnd (Val.add .rne (v a) (v b).negate)
  | 4 => rnd (Val.mul (v a) (v b))
  | 5 => rnd (Val.fma .rne (v a) (v b) (v c))
  | 6 => rnd (Val.max (v a) (v b), 0#6)
  | 7 => rnd (Val.min (v a) (v b), 0#6)
  | 8 => (a % 2 ^ 31, 0#6)
  | 9 => exp2Rne a
  | 10 => rnd (Val.div (.fin false 1 0 false) (v a))
  | _ => rnd (Val.tanh (v a), 0#6)

/-- Run an epilogue program on one element: the working values it leaves (R341). -/
def epiRun (epi : Bank Nat (BitVec 32)) (col x : Nat) : List Nat → EpiRegs → Fl → EpiRegs × Fl
  | [], g, fl => (g, fl)
  | n :: rest, g, fl =>
    let w := epi.get 0#32 n
    let op := (w.extractLsb' 28 4).toNat
    if op = 0 then (g, fl)
    else
      let src (lo : Nat) : Nat := epiSrc epi col x g (w.extractLsb' lo 4).toNat
      let (r, f) := epiOp op (src 22) (src 18) (src 14)
      let g' : EpiRegs :=
        match (w.extractLsb' 26 2).toNat with
        | 0 => { g with e0 := r }
        | 1 => { g with e1 := r }
        | 2 => { g with e2 := r }
        | _ => { g with e3 := r }
      epiRun epi col x rest g' (fl ||| f)

/-- An element as FP32 (R341). -/
def epiIn (acct : BitVec 2) (x : Nat) : Nat × Fl :=
  if acct = 0#2 then (x, 0#6)
  else if acct = 1#2 then Fmt.fp32.round .rne (Val.ofInt (sextInt 32 x))
  else Fmt.fp32.round .rne ((accFmt acct).decode x)

/-- An element through the epilogue program (R341): the working values it leaves, and the flags. -/
def epiEl (epi : Bank Nat (BitVec 32)) (acct : BitVec 2) (col x : Nat) : EpiRegs × Fl :=
  let (x32, f1) := epiIn acct x
  epiRun epi col x32 (List.range 32) { e0 := x32, e1 := 0, e2 := 0, e3 := 0 } f1

/-- The working values after a drain through the program: those of its last element (R338, R341). -/
def epiLast (row0 col0 : Nat) (d : BitVec 512) (row : Nat) (c : Core) : Core :=
  let x := elemAt (c.engRow (row0 + row)) (accW c.ctl.acct) (col0 + (opK d - 1))
  let g := (epiEl c.mtx.epi c.ctl.acct (col0 + (opK d - 1)) x).1
  { c with mtx := { c.mtx with work :=
      [(0#2, BitVec.ofNat 32 g.e0), (1#2, BitVec.ofNat 32 g.e1), (2#2, BitVec.ofNat 32 g.e2), (3#2, BitVec.ofNat 32 g.e3)] } }

/-- `m.epi`: the drain through the program (R341). -/
def bodyMEpi (p : Pace) (m : BitVec 3) (sat : BitVec 1) (r : BitVec 6) (h : BitVec 1) (i : Instr) : Body := fun k cap res s =>
  let c := s.core k
  let col0 := 32 * h.toNat
  match drainCheck r.toNat col0 none c cap.sha with
  | some t => .trap t s
  | none =>
    let s1 := if res = 0#64 then mBegin k { ins := i, slots := i.slots, cap := cap } true false s else s
    match drainTy (shFmt cap.sha) with
    | none => .done s1
    | some ty =>
      let s2 := s1.modCore k (epiLast r.toNat col0 cap.sha (p.upto res.toNat (opR cap.sha) - 1))
      drainOn k p r.toNat col0 cap.sha (fun col x =>
        let (g, f2) := epiEl c.mtx.epi c.ctl.acct col x
        let (b, f3) := ty.deliver (modeOf m cap.rm) (bit1 sat) true (Fmt.fp32.decode g.e0)
        (b, f2 ||| f3)) res .done s2

/-- The checks of R322 that a command at the head of the matrix queue meets before it pops its tokens. DEDUCED, log
entry 84. -/
def mCheck (k : CoreId) (q : QEntry) (s : State) : Option TrapInfo :=
  let c := s.core k
  match mDesc q.ins with
  | some (kind, row0, col0, _) =>
    if kind = .zero then none
    else (mulCheck kind row0 col0 (decide (bOwner k q = k)) c q.cap.sha q.cap.shb).map (fun x => x.2)
  | none =>
    match q.ins with
    | .mDrain _ _ _ r h _ => drainCheck r.toNat (32 * h.toNat) none c q.cap.sha
    | .mEpi _ _ _ r h _ => drainCheck r.toNat (32 * h.toNat) none c q.cap.sha
    | .mDrainAmax _ _ _ _ r h _ =>
      (drainCheck r.toNat (32 * h.toNat) (some q.cap.x) c q.cap.sha).orElse (fun _ =>
        match amaxPlace c.tower q.cap.sha (s.check k q.cap.asid q.cap.xe c.ctl.sup .amo 4 q.cap.x.toNat 4) with
        | .error t => some t
        | .ok _ => none)
    | .mEpiLd _ _ => epiLdCheck q.cap.sha
    | _ => none

end Sys2Proof.Machine
end

