-- ==== Sys2Proof/Machine/MatrixCmds.lean ====
section
/-! DEFINITION. The matrix commands at the control unit's slot: hand-over, ganged or alone (R46, R58, R153), and the gang
prefix. -/

namespace Sys2Proof.Machine

/-- The multiplies at their slot: alone, they run or queue; behind a prefix, a named member queues the ganged command and
every other core discards it (R58, R153). -/
def runMul (i : Instr) (s : State) : Host.Outcome State Fault Refusal :=
  let k := s.exe
  let c := s.core k
  let cap := capOf i c
  match c.front.pfx with
  | none => runE .m i cap (mulBody i) s
  | some (mask, gq) =>
    let away (s : State) : State := leaveSlot k (s.modCore k (fun c => { c with front := { c.front with pfx := none } }))
    if mask.getLsbD (memberOf k).toNat then
      let index := if c.seat.st = .seated then some (c.seat.n - 1, c.front.slot) else none
      let g : Gang := { mask := mask, gq := gq, index := index }
      .next (away (enqueue k .m { ins := i, slots := i.slots + 1, cap := cap, gang := some g } s))
    else .next (away s)

/-- The queue entries a ganged command takes: its prefix's and its own (R58). -/
def gangSlots (f : Front) : Nat :=
  match f.bundle with
  | none => 2
  | some b =>
    match decodeBundle b with
    | .illenc _ => 2
    | .ok items => ((items.find? (fun it => decide (it.slot = f.next))).map (fun it => it.ins.slots + 1)).getD 2

/-- `m.gang`: a named member waits here until its queue has room for the ganged command; the prefix then names the next
slot's command (R46, R58, R153). -/
def gangPrefix (mask : BitVec 4) (gq : BitVec 2) (k : CoreId) (s : State) : State :=
  let c := s.core k
  if mask.getLsbD (memberOf k).toNat && decide (16 < queueUsed c.mq + gangSlots c.front) then s
  else s.modCore k (fun c => { c with front := { c.front.advance with pfx := some (mask, gq) } })

/-- `m.nop` (R61). -/
def execMNop (t : Option Tok) (s : State) : Host.Outcome State Fault Refusal :=
  runE .m (.mNop t) (capOf (.mNop t) (s.core s.exe)) (bodyMNop (.mNop t)) s

/-- `m.mma` (R325). -/
def execMMma (a : BitVec 4) (b : BitVec 4) (r : BitVec 6) (c : BitVec 6) (m : BitVec 3) (t : Option Tok) (s : State) : Host.Outcome State Fault Refusal :=
  runMul (.mMma a b r c m t) s

/-- `m.mma.i` (R325). -/
def execMMmaI (a : BitVec 4) (b : BitVec 4) (r : BitVec 6) (c : BitVec 6) (t : Option Tok) (s : State) : Host.Outcome State Fault Refusal :=
  runMul (.mMmaI a b r c t) s

/-- `m.mma.k4` (R327). -/
def execMMmaK4 (a : BitVec 4) (b : BitVec 4) (r : BitVec 6) (c : BitVec 6) (t : Option Tok) (s : State) : Host.Outcome State Fault Refusal :=
  runMul (.mMmaK4 a b r c t) s

/-- `m.scacc` (R328). -/
def execMScacc (a : BitVec 4) (b : BitVec 4) (r : BitVec 6) (c : BitVec 6) (m : BitVec 3) (t : Option Tok) (s : State) : Host.Outcome State Fault Refusal :=
  runE .m (.mScacc a b r c m t) (capOf (.mScacc a b r c m t) (s.core s.exe)) (mulBody (.mScacc a b r c m t)) s

/-- `m.zero` (R329). -/
def execMZero (t : Option Tok) (s : State) : Host.Outcome State Fault Refusal :=
  runE .m (.mZero t) (capOf (.mZero t) (s.core s.exe)) (mulBody (.mZero t)) s

/-- `m.swap` (R330). -/
def execMSwap (t : Option Tok) (s : State) : Host.Outcome State Fault Refusal :=
  runE .m (.mSwap t) (capOf (.mSwap t) (s.core s.exe)) (bodyMSwap (.mSwap t)) s

/-- `m.drain` (R332). -/
def execMDrain (d : BitVec 4) (m : BitVec 3) (x : BitVec 1) (r : BitVec 6) (h : BitVec 1) (t : Option Tok) (s : State) : Host.Outcome State Fault Refusal :=
  runE .m (.mDrain d m x r h t) (capOf (.mDrain d m x r h t) (s.core s.exe)) (bodyMDrain .whole m x r h (.mDrain d m x r h t)) s

/-- `m.drain.amax` (R333). -/
def execMDrainAmax (d : BitVec 4) (e : BitVec 5) (m : BitVec 3) (x : BitVec 1) (r : BitVec 6) (h : BitVec 1) (t : Option Tok) (s : State) : Host.Outcome State Fault Refusal :=
  runE .m (.mDrainAmax d e m x r h t) (capOf (.mDrainAmax d e m x r h t) (s.core s.exe)) (bodyMDrainAmax .whole m x r h (.mDrainAmax d e m x r h t)) s

/-- `m.kat` (R335). -/
def execMKat (id : BitVec 4) (fmt : BitVec 4) (t : Option Tok) (s : State) : Host.Outcome State Fault Refusal :=
  runE .m (.mKat id fmt t) (capOf (.mKat id fmt t) (s.core s.exe)) (bodyMKat id fmt (.mKat id fmt t)) s

/-- `m.chk` (R336). -/
def execMChk (sig : BitVec 32) (t : Option Tok) (s : State) : Host.Outcome State Fault Refusal :=
  runE .m (.mChk sig t) (capOf (.mChk sig t) (s.core s.exe)) (bodyMChk sig (.mChk sig t)) s

/-- `m.epi` (R341). -/
def execMEpi (d : BitVec 4) (m : BitVec 3) (x : BitVec 1) (r : BitVec 6) (h : BitVec 1) (t : Option Tok) (s : State) : Host.Outcome State Fault Refusal :=
  runE .m (.mEpi d m x r h t) (capOf (.mEpi d m x r h t) (s.core s.exe)) (bodyMEpi .whole m x r h (.mEpi d m x r h t)) s

/-- `m.epi.ld` (R339). -/
def execMEpiLd (a : BitVec 4) (t : Option Tok) (s : State) : Host.Outcome State Fault Refusal :=
  runE .m (.mEpiLd a t) (capOf (.mEpiLd a t) (s.core s.exe)) (bodyMEpiLd (.mEpiLd a t)) s

/-- `m.acct` (R331). -/
def execMAcct (ty : BitVec 2) (t : Option Tok) (s : State) : Host.Outcome State Fault Refusal :=
  runE .m (.mAcct ty t) (capOf (.mAcct ty t) (s.core s.exe)) (bodyMAcct ty (.mAcct ty t)) s

/-- `m.gang` (R58, R337). -/
def execMGang (mask : BitVec 4) (gq : BitVec 2) (s : State) : Host.Outcome State Fault Refusal := .next (gangPrefix mask gq s.exe s)

end Sys2Proof.Machine
end

