-- ==== Sys2Proof/Machine/VecMem.lean ====
section
/-! DEFINITION. The vector memory forms and the predicate logic (R189, R269 to R271). -/

namespace Sys2Proof.Machine

/-- Runs of bytes: first address and length. -/
abbrev Runs := List (Nat × Nat)

/-- The maximal runs of selected offsets of a row at an address. -/
def runsOf (ea : Nat) (sel : Nat → Bool) : Nat → Nat → Runs
  | 0, _ => []
  | fuel + 1, j =>
    if sel j then
      match runsOf ea sel fuel (j + 1) with
      | (a, n) :: rest => if a = ea + j + 1 then (ea + j, n + 1) :: rest else (ea + j, 1) :: (a, n) :: rest
      | [] => [(ea + j, 1)]
    else runsOf ea sel fuel (j + 1)

/-- The pieces of runs of bytes, or the trap of the first that does not translate. -/
def State.splitRuns (s : State) (k : CoreId) (cap : Cap) (kind : Kind) (rs : Runs) : Except TrapInfo (List Piece) :=
  match rs.mapM (fun r => s.split k cap.asid cap.xe (s.core k).ctl.sup kind.use r.1 r.2) with
  | .error t => .error t
  | .ok pss => .ok pss.flatten

/-- The checks of R267 over the addresses an instruction forms and the runs of bytes at them, each check over every one
before the next: address bits, alignment (0: none asked), translation, region. -/
def State.checkRuns (s : State) (k : CoreId) (cap : Cap) (kind : Kind) (al : Nat) (eas : List Nat) (rs : Runs) :
    Except TrapInfo (List Piece) :=
  match eas.find? (fun a => decide (2 ^ 56 ≤ a)), eas.find? (fun a => decide (al ≠ 0) && decide (a % al ≠ 0)) with
  | some a, _ => .error (Trap.xlate (BitVec.ofNat 64 a))
  | none, some a => .error (Trap.align (BitVec.ofNat 64 a))
  | none, none =>
    match s.splitRuns k cap kind rs with
    | .error t => .error t
    | .ok ps =>
      match s.regionTraps k kind (s.core k).ctl.sup 128 ps with
      | some t => .error t
      | none => .ok ps

/-- The row forms. -/
inductive RowForm where
  | load | store | masked
deriving DecidableEq, Repr

/-- The runs of the active bytes of a row form (R267, R270). -/
def rowRuns (i : VIn) (imm : BitVec 7) (p : BitVec 4) (n : BitVec 1) : Runs :=
  runsOf (i.cap.x + imm.signExtend 64 * 128#64).toNat (fun j => i.active p n (j / (i.w / 8))) 128 0

/-- `v.ld`, `v.st`, `v.ldu`, `v.stu`, `v.stm`: the bytes of active elements are checked, and of them those that the mask
selects are accessed (R269, R270); no active element, no check (R267). -/
def vRow (v : BitVec 6) (imm : BitVec 7) (p : BitVec 4) (n : BitVec 1) (x : VExt) (form : RowForm) (aligned : Bool) : Body :=
  fun k cap _ s =>
  let c := s.core k
  let i : VIn := { c := c, cap := cap, x := x, tick := s.tick }
  let wb := i.w / 8
  let mask := (i.at 1).row x.c
  let act (j : Nat) : Bool := i.active p n (j / wb)
  let sel (j : Nat) : Bool := act j && (decide (form ≠ .masked) || mask.getLsbD j)
  let ea := (cap.x + imm.signExtend 64 * 128#64).toNat
  let rs := rowRuns i imm p n
  if rs.isEmpty then .done s
  else
    let bytes := natToBytes 128 (i.row v).toNat
    let kind : Kind := if form = .load then .vld else .vst
    match s.checkRuns k cap kind (if aligned then 128 else 0) [ea] rs with
    | .error t => .trap t s
    | .ok all =>
      let ps := if form = .masked then ((s.splitRuns k cap kind (runsOf ea sel 128 0)).toOption).getD [] else all
      if form = .load then
        match s.consume k ps with
        | .wait => .wait s
        | .trap t s' => .trap t s'
        | .ok bs s' =>
          let offs := (List.range 128).filter sel
          let out := (List.range 128).map (fun j => if sel j then bs.getD (offs.idxOf j) 0#8 else bytes.getD j 0#8)
          .done (s'.modCore k (fun c =>
            c.rowPut s.tick (vrow cap.vrb v) (i.active p n) (BitVec.ofNat 1024 (bytesToNat out))))
      else
        match s.deliver k ps (((List.range 128).filter sel).map (fun j => bytes.getD j 0#8)) with
        | .wait => .wait s
        | .trap t s' => .trap t s'
        | .ok _ s' => .done s'

/-- The element addresses of a gather or scatter: active elements in ascending order (R265, R271). -/
def gatherAddrs (i : VIn) (a : BitVec 6) (p : BitVec 4) (n : BitVec 1) : List (Nat × Nat) :=
  ((List.range i.n).filter (i.active p n)).map (fun e =>
    (e, (i.cap.x + BitVec.ofNat 64 (i.el a e * (i.w / 8))).toNat))

/-- The checks of a gather or scatter. -/
def gatherCheck (s : State) (k : CoreId) (cap : Cap) (kind : Kind) (wb : Nat) (as : List (Nat × Nat)) :
    Except TrapInfo (List Piece) :=
  s.checkRuns k cap kind wb (as.map (fun e => e.2)) (as.map (fun e => (e.2, wb)))

/-- `v.gth` (R271). -/
def vGather (d a : BitVec 6) (p : BitVec 4) (n : BitVec 1) (x : VExt) : Body := fun k cap _ s =>
  let i : VIn := { c := s.core k, cap := cap, x := x, tick := s.tick }
  let wb := i.w / 8
  let as := gatherAddrs i a p n
  match gatherCheck s k cap .vld wb as with
  | .error t => .trap t s
  | .ok ps =>
    match s.consume k ps with
    | .wait => .wait s
    | .trap t s' => .trap t s'
    | .ok bs s' =>
      let out := (List.range i.n).map (fun e =>
        match as.findIdx? (fun q => decide (q.1 = e)) with
        | some ix => bytesToNat ((bs.drop (ix * wb)).take wb)
        | none => i.el d e)
      .done (s'.modCore k (fun c => c.rowPut s.tick (vrow cap.vrb d) (i.active p n) (packRow i.w out)))

/-- `v.sct`: the higher-numbered element writes later (R271). -/
def vScatter (d a : BitVec 6) (p : BitVec 4) (n : BitVec 1) (x : VExt) : Body := fun k cap _ s =>
  let i : VIn := { c := s.core k, cap := cap, x := x, tick := s.tick }
  let wb := i.w / 8
  let as := gatherAddrs i a p n
  match gatherCheck s k cap .vst wb as with
  | .error t => .trap t s
  | .ok ps =>
    match s.deliver k ps (as.flatMap (fun e => natToBytes wb ((i.at 1).el d e.1))) with
    | .wait => .wait s
    | .trap t s' => .trap t s'
    | .ok _ s' => .done s'

/-- Predicate logic: all 64 bits, then bits from N up cleared (R189). -/
def pLogic (q a b : BitVec 4) (f : Word → Word → Word) : Body := fun k cap _ s =>
  let c := s.core k
  let n := accN c.ctl.acct
  let r := f (c.vec.pred (ppred cap.prb a)) (c.vec.pred (ppred cap.prb b))
  .done (s.setCore k { c with vec := c.vec.setPred (ppred cap.prb q) (r &&& BitVec.ofNat 64 (2 ^ n - 1)) })

/-- `p.cnt` (R189). -/
def pCount (a : BitVec 4) (sd : BitVec 5) : Body := fun k cap _ s =>
  let c := s.core k
  let n := accN c.ctl.acct
  .done (s.setReg k sd (BitVec.ofNat 64 (popcN n ((c.vec.pred (ppred cap.prb a)).toNat % 2 ^ n))))

/-- `v.ld` (R270). -/
def bodyVLd (v : BitVec 6) (i : BitVec 7) (p : BitVec 4) (n : BitVec 1) (x : VExt) : Body :=
  vRow v i p n x .load true

/-- `v.ld` (R270). -/
def execVLd (v : BitVec 6) (g : BitVec 5) (i : BitVec 7) (p : BitVec 4) (n : BitVec 1) (x : Option VExt) (t : Option Tok) (s : State) : Host.Outcome State Fault Refusal :=
  runE .v (.vLd v g i p n x t) (capOf (.vLd v g i p n x t) (s.core s.exe)) (bodyVLd v i p n (x.getD vextDefault)) s

/-- `v.st` (R270). -/
def bodyVSt (v : BitVec 6) (i : BitVec 7) (p : BitVec 4) (n : BitVec 1) (x : VExt) : Body :=
  vRow v i p n x .store true

/-- `v.st` (R270). -/
def execVSt (v : BitVec 6) (g : BitVec 5) (i : BitVec 7) (p : BitVec 4) (n : BitVec 1) (x : Option VExt) (t : Option Tok) (s : State) : Host.Outcome State Fault Refusal :=
  runE .v (.vSt v g i p n x t) (capOf (.vSt v g i p n x t) (s.core s.exe)) (bodyVSt v i p n (x.getD vextDefault)) s

/-- `v.ldu` (R270). -/
def bodyVLdu (v : BitVec 6) (i : BitVec 7) (p : BitVec 4) (n : BitVec 1) (x : VExt) : Body :=
  vRow v i p n x .load false

/-- `v.ldu` (R270). -/
def execVLdu (v : BitVec 6) (g : BitVec 5) (i : BitVec 7) (p : BitVec 4) (n : BitVec 1) (x : Option VExt) (t : Option Tok) (s : State) : Host.Outcome State Fault Refusal :=
  runE .v (.vLdu v g i p n x t) (capOf (.vLdu v g i p n x t) (s.core s.exe)) (bodyVLdu v i p n (x.getD vextDefault)) s

/-- `v.stu` (R270). -/
def bodyVStu (v : BitVec 6) (i : BitVec 7) (p : BitVec 4) (n : BitVec 1) (x : VExt) : Body :=
  vRow v i p n x .store false

/-- `v.stu` (R270). -/
def execVStu (v : BitVec 6) (g : BitVec 5) (i : BitVec 7) (p : BitVec 4) (n : BitVec 1) (x : Option VExt) (t : Option Tok) (s : State) : Host.Outcome State Fault Refusal :=
  runE .v (.vStu v g i p n x t) (capOf (.vStu v g i p n x t) (s.core s.exe)) (bodyVStu v i p n (x.getD vextDefault)) s

/-- `v.stm` (R270). -/
def bodyVStm (v : BitVec 6) (i : BitVec 7) (p : BitVec 4) (n : BitVec 1) (x : VExt) : Body :=
  vRow v i p n x .masked false

/-- `v.stm` (R270). -/
def execVStm (v : BitVec 6) (g : BitVec 5) (i : BitVec 7) (p : BitVec 4) (n : BitVec 1) (x : VExt) (t : Option Tok) (s : State) : Host.Outcome State Fault Refusal :=
  runE .v (.vStm v g i p n x t) (capOf (.vStm v g i p n x t) (s.core s.exe)) (bodyVStm v i p n x) s

/-- `v.gth` (R271). -/
def bodyVGth (d : BitVec 6) (a : BitVec 6) (p : BitVec 4) (n : BitVec 1) (x : VExt) : Body :=
  vGather d a p n x

/-- `v.gth` (R271). -/
def execVGth (d : BitVec 6) (a : BitVec 6) (g : BitVec 5) (p : BitVec 4) (n : BitVec 1) (x : Option VExt) (t : Option Tok) (s : State) : Host.Outcome State Fault Refusal :=
  runE .v (.vGth d a g p n x t) (capOf (.vGth d a g p n x t) (s.core s.exe)) (bodyVGth d a p n (x.getD vextDefault)) s

/-- `v.sct` (R271). -/
def bodyVSct (d : BitVec 6) (a : BitVec 6) (p : BitVec 4) (n : BitVec 1) (x : VExt) : Body :=
  vScatter d a p n x

/-- `v.sct` (R271). -/
def execVSct (d : BitVec 6) (a : BitVec 6) (g : BitVec 5) (p : BitVec 4) (n : BitVec 1) (x : Option VExt) (t : Option Tok) (s : State) : Host.Outcome State Fault Refusal :=
  runE .v (.vSct d a g p n x t) (capOf (.vSct d a g p n x t) (s.core s.exe)) (bodyVSct d a p n (x.getD vextDefault)) s

/-- `p.and` (R189). -/
def bodyPAnd (q : BitVec 4) (a : BitVec 4) (b : BitVec 4) : Body :=
  pLogic q a b (fun a b => a &&& b)

/-- `p.and` (R189). -/
def execPAnd (q : BitVec 4) (a : BitVec 4) (b : BitVec 4) (t : Option Tok) (s : State) : Host.Outcome State Fault Refusal :=
  runE .v (.pAnd q a b t) (capOf (.pAnd q a b t) (s.core s.exe)) (bodyPAnd q a b) s

/-- `p.or` (R189). -/
def bodyPOr (q : BitVec 4) (a : BitVec 4) (b : BitVec 4) : Body :=
  pLogic q a b (fun a b => a ||| b)

/-- `p.or` (R189). -/
def execPOr (q : BitVec 4) (a : BitVec 4) (b : BitVec 4) (t : Option Tok) (s : State) : Host.Outcome State Fault Refusal :=
  runE .v (.pOr q a b t) (capOf (.pOr q a b t) (s.core s.exe)) (bodyPOr q a b) s

/-- `p.xor` (R189). -/
def bodyPXor (q : BitVec 4) (a : BitVec 4) (b : BitVec 4) : Body :=
  pLogic q a b (fun a b => a ^^^ b)

/-- `p.xor` (R189). -/
def execPXor (q : BitVec 4) (a : BitVec 4) (b : BitVec 4) (t : Option Tok) (s : State) : Host.Outcome State Fault Refusal :=
  runE .v (.pXor q a b t) (capOf (.pXor q a b t) (s.core s.exe)) (bodyPXor q a b) s

/-- `p.andn` (R189). -/
def bodyPAndn (q : BitVec 4) (a : BitVec 4) (b : BitVec 4) : Body :=
  pLogic q a b (fun a b => a &&& ~~~b)

/-- `p.andn` (R189). -/
def execPAndn (q : BitVec 4) (a : BitVec 4) (b : BitVec 4) (t : Option Tok) (s : State) : Host.Outcome State Fault Refusal :=
  runE .v (.pAndn q a b t) (capOf (.pAndn q a b t) (s.core s.exe)) (bodyPAndn q a b) s

/-- `p.not` (R189). -/
def bodyPNot (q : BitVec 4) (a : BitVec 4) : Body :=
  pLogic q a a (fun a _ => ~~~a)

/-- `p.not` (R189). -/
def execPNot (q : BitVec 4) (a : BitVec 4) (t : Option Tok) (s : State) : Host.Outcome State Fault Refusal :=
  runE .v (.pNot q a t) (capOf (.pNot q a t) (s.core s.exe)) (bodyPNot q a) s

/-- `p.cnt` (R189, R48). -/
def bodyPCnt (a : BitVec 4) (g : BitVec 5) : Body :=
  pCount a g

/-- `p.cnt` (R189, R48). -/
def execPCnt (a : BitVec 4) (g : BitVec 5) (t : Option Tok) (s : State) : Host.Outcome State Fault Refusal :=
  runE .v (.pCnt a g t) (capOf (.pCnt a g t) (s.core s.exe)) (bodyPCnt a g) s

end Sys2Proof.Machine
end

