-- ==== Sys2Proof/Machine/Bodies.lean ====
section
/-! DEFINITION. What a queue entry does when it runs: the body of each engine instruction (R299, R300). -/

namespace Sys2Proof.Machine

/-- The body of an engine instruction that stands in a queue; the commands on the engaged tile run by `mulEntry`, and no
other instruction is queued. -/
def bodyOf (p : Pace) : Instr → Option Body
  | .vNop _ => some bodyVNop
  | .vAdd d a b p n x _ => some (bodyVAdd d a b p n (x.getD vextDefault))
  | .vSub d a b p n x _ => some (bodyVSub d a b p n (x.getD vextDefault))
  | .vMul d a b p n x _ => some (bodyVMul d a b p n (x.getD vextDefault))
  | .vFma d a b p n x _ => some (bodyVFma d a b p n x)
  | .vMin d a b p n x _ => some (bodyVMin d a b p n (x.getD vextDefault))
  | .vMax d a b p n x _ => some (bodyVMax d a b p n (x.getD vextDefault))
  | .vAbs d a p n x _ => some (bodyVAbs d a p n (x.getD vextDefault))
  | .vNeg d a p n x _ => some (bodyVNeg d a p n (x.getD vextDefault))
  | .vDiv d a b p n x _ => some (bodyVDiv d a b p n (x.getD vextDefault))
  | .vSqrt d a p n x _ => some (bodyVSqrt d a p n (x.getD vextDefault))
  | .vRcp d a p n x _ => some (bodyVRcp d a p n (x.getD vextDefault))
  | .vRsqrt d a p n x _ => some (bodyVRsqrt d a p n (x.getD vextDefault))
  | .vExp2 d a p n x _ => some (bodyVExp2 d a p n (x.getD vextDefault))
  | .vLog2 d a p n x _ => some (bodyVLog2 d a p n (x.getD vextDefault))
  | .vTanh d a p n x _ => some (bodyVTanh d a p n (x.getD vextDefault))
  | .vIadd d a b p n x _ => some (bodyVIadd d a b p n (x.getD vextDefault))
  | .vIsub d a b p n x _ => some (bodyVIsub d a b p n (x.getD vextDefault))
  | .vImul d a b p n x _ => some (bodyVImul d a b p n (x.getD vextDefault))
  | .vImin d a b p n x _ => some (bodyVImin d a b p n (x.getD vextDefault))
  | .vNmin d a b p n x _ => some (bodyVNmin d a b p n (x.getD vextDefault))
  | .vImax d a b p n x _ => some (bodyVImax d a b p n (x.getD vextDefault))
  | .vNmax d a b p n x _ => some (bodyVNmax d a b p n (x.getD vextDefault))
  | .vIabs d a p n x _ => some (bodyVIabs d a p n (x.getD vextDefault))
  | .vAnd d a b p n x _ => some (bodyVAnd d a b p n (x.getD vextDefault))
  | .vOr d a b p n x _ => some (bodyVOr d a b p n (x.getD vextDefault))
  | .vXor d a b p n x _ => some (bodyVXor d a b p n (x.getD vextDefault))
  | .vNot d a p n x _ => some (bodyVNot d a p n (x.getD vextDefault))
  | .vShl d a b p n x _ => some (bodyVShl d a b p n (x.getD vextDefault))
  | .vShr d a b p n x _ => some (bodyVShr d a b p n (x.getD vextDefault))
  | .vSar d a b p n x _ => some (bodyVSar d a b p n (x.getD vextDefault))
  | .vFsh d a b p n x _ => some (bodyVFsh d a b p n x)
  | .vClz d a p n x _ => some (bodyVClz d a p n (x.getD vextDefault))
  | .vPopc d a p n x _ => some (bodyVPopc d a p n (x.getD vextDefault))
  | .vFfs d a p n x _ => some (bodyVFfs d a p n (x.getD vextDefault))
  | .vShli d a i p n x _ => some (bodyVShli d a i p n (x.getD vextDefault))
  | .vShri d a i p n x _ => some (bodyVShri d a i p n (x.getD vextDefault))
  | .vSari d a i p n x _ => some (bodyVSari d a i p n (x.getD vextDefault))
  | .vRshr d a i p n x _ => some (bodyVRshr d a i p n (x.getD vextDefault))
  | .vFeq q a b p n x _ => some (bodyVFeq q a b p n (x.getD vextDefault))
  | .vFlt q a b p n x _ => some (bodyVFlt q a b p n (x.getD vextDefault))
  | .vFle q a b p n x _ => some (bodyVFle q a b p n (x.getD vextDefault))
  | .vIeq q a b p n x _ => some (bodyVIeq q a b p n (x.getD vextDefault))
  | .vIlt q a b p n x _ => some (bodyVIlt q a b p n (x.getD vextDefault))
  | .vNlt q a b p n x _ => some (bodyVNlt q a b p n (x.getD vextDefault))
  | .vSel d a b p n x _ => some (bodyVSel d a b p n (x.getD vextDefault))
  | .vCvtIf d a p n x _ => some (bodyVCvtIf d a p n (x.getD vextDefault))
  | .vCvtFi d a p n x _ => some (bodyVCvtFi d a p n (x.getD vextDefault))
  | .vCvtFf d a p n x _ => some (bodyVCvtFf d a p n (x.getD vextDefault))
  | .vQnt d a b p n x _ => some (bodyVQnt d a b p n x)
  | .vDp4 d a b p n x _ => some (bodyVDp4 d a b p n (x.getD vextDefault))
  | .vRadd d a p n x _ => some (bodyVRadd d a p n (x.getD vextDefault))
  | .vRmax d a p n x _ => some (bodyVRmax d a p n (x.getD vextDefault))
  | .vRmin d a p n x _ => some (bodyVRmin d a p n (x.getD vextDefault))
  | .vScan d a p n x _ => some (bodyVScan d a p n (x.getD vextDefault))
  | .vPerm d a b p n x _ => some (bodyVPerm d a b p n (x.getD vextDefault))
  | .vBcast d _ p n x _ => some (bodyVBcast d p n (x.getD vextDefault))
  | .vIns d a _ p n x _ => some (bodyVIns d a p n (x.getD vextDefault))
  | .vExt d a g p n x _ => some (bodyVExt d a g p n (x.getD vextDefault))
  | .vLse d a b p n x _ => some (bodyVLse d a b p n (x.getD vextDefault))
  | .vCex d a b p n x _ => some (bodyVCex d a b p n (x.getD vextDefault))
  | .vSeed _ p n x _ => some (bodyVSeed p n (x.getD vextDefault))
  | .vLd v _ i p n x _ => some (bodyVLd v i p n (x.getD vextDefault))
  | .vSt v _ i p n x _ => some (bodyVSt v i p n (x.getD vextDefault))
  | .vLdu v _ i p n x _ => some (bodyVLdu v i p n (x.getD vextDefault))
  | .vStu v _ i p n x _ => some (bodyVStu v i p n (x.getD vextDefault))
  | .vStm v _ i p n x _ => some (bodyVStm v i p n x)
  | .vGth d a _ p n x _ => some (bodyVGth d a p n (x.getD vextDefault))
  | .vSct d a _ p n x _ => some (bodyVSct d a p n (x.getD vextDefault))
  | .pAnd q a b _ => some (bodyPAnd q a b)
  | .pOr q a b _ => some (bodyPOr q a b)
  | .pXor q a b _ => some (bodyPXor q a b)
  | .pAndn q a b _ => some (bodyPAndn q a b)
  | .pNot q a _ => some (bodyPNot q a)
  | .pCnt a g _ => some (bodyPCnt a g)
  | .mNop t => some (bodyMNop (.mNop t))
  | .mSwap t => some (bodyMSwap (.mSwap t))
  | .mDrain d m x r h t => some (bodyMDrain p m x r h (.mDrain d m x r h t))
  | .mDrainAmax d e m x r h t => some (bodyMDrainAmax p m x r h (.mDrainAmax d e m x r h t))
  | .mKat id fmt t => some (bodyMKat id fmt (.mKat id fmt t))
  | .mChk sig t => some (bodyMChk sig (.mChk sig t))
  | .mEpi d m x r h t => some (bodyMEpi p m x r h (.mEpi d m x r h t))
  | .mEpiLd a t => some (bodyMEpiLd (.mEpiLd a t))
  | .mAcct ty t => some (bodyMAcct ty (.mAcct ty t))
  | .dNop _ => some bodyDone
  | .dCopy _ _ _ _ => some bodyDCopy
  | .dCopyRg _ _ r m _ => some (bodyDCopyRg r m)
  | .dBcast _ _ _ _ => some bodyDBcast
  | .dStore _ _ _ w _ => some (bodyDStore w)
  | .dSpill _ _ tl r _ => some (bodyDSpill tl r)
  | .dFill _ _ tl r _ => some (bodyDFill tl r)
  | .dAtom _ _ _ o z1 _ => some (bodyDAtom o z1)
  | .dAtomNr _ _ _ o z1 _ => some (bodyDAtomNr o z1)
  | .dAfence sc _ => some (bodyDAfence sc)
  | .dQpost _ i _ => some (bodyDQpost i)
  | .dQget x i _ => some (bodyDQget x i)
  | .dAppend _ _ _ _ => some bodyDAppend
  | .dPref _ _ _ => some bodyDone
  | .dTfill _ _ _ => some bodyDTfill
  | .fNop _ => some bodyDone
  | .fFur d _ _ _ _ => some (bodyFFur d)
  | .fFurQm _ _ _ m _ => some (bodyFFurQm m)
  | .fSys d _ _ _ _ => some (bodyFSys d)
  | .fHead _ _ _ _ => some bodyFHead
  | .fRing _ _ _ r _ => some (bodyFRing r)
  | .fGbcast _ _ _ m _ => some (bodyFGbcast m)
  | _ => none

/-- A transfer of z bytes at an address may stop at an offset: no aligned 8-byte word that it covers fully is torn (R245). -/
def wordCut (x z o : Nat) : Bool :=
  decide ((x + o) % 8 = 0) || decide ((x + o) / 8 * 8 < x) || decide (x + z < (x + o) / 8 * 8 + 8)

/-- The captures of a D or F instruction cut short n units on from its resume point, and the resume point there; none when
it has an error to report or ends before (R345, R403): bytes that tear no word (R245), the steps of a pattern store,
elements, rows of a tile. -/
def cutCap (i : Instr) (cap : Cap) (r : Word) (n : Nat) : Option (Cap × Word) :=
  let upTo (ok : Bool) (z : Nat) : Option (Cap × Word) :=
    if ok && decide (z < cap.z.toNat) then some ({ cap with z := BitVec.ofNat 64 z }, BitVec.ofNat 64 z) else none
  let rows (row0 : BitVec 6) : Option (Cap × Word) :=
    let y := r.toNat / 128 + n
    if (tileCheck row0 cap).isNone && decide (r.toNat % 128 = 0) && decide (y < cap.y.toNat) then
      some ({ cap with y := BitVec.ofNat 64 y }, BitVec.ofNat 64 (128 * y))
    else none
  let atoms : Option (Cap × Word) :=
    upTo (decide (cap.z.toNat ≤ 65536) && decide (windowBase ≤ cap.y.toNat) && decide (cap.y.toNat + 32 * cap.z.toNat ≤ 2 ^ 56))
      (r.toNat + n)
  let bytes (long : Bool) : Option (Cap × Word) :=
    upTo (!long && wordCut cap.x.toNat cap.z.toNat (r.toNat + n) && wordCut cap.y.toNat cap.z.toNat (r.toNat + n)) (r.toNat + n)
  match i with
  | .dCopy .. => bytes (drillLong cap.z)
  | .dStore _ _ _ w _ =>
    upTo (!drillLong cap.z && decide (r.toNat % 2 ^ w.toNat = 0) && decide (cap.z.toNat % 2 ^ w.toNat = 0)
      && wordCut cap.x.toNat cap.z.toNat (r.toNat + 2 ^ w.toNat * n)) (r.toNat + 2 ^ w.toNat * n)
  | .dAtom .. => atoms
  | .dAtomNr .. => atoms
  | .dSpill _ _ _ row0 _ => rows row0
  | .dFill _ _ _ row0 _ => rows row0
  | .fFur .. => bytes (furrowLong cap.z)
  | .fFurQm .. => bytes (furrowLong cap.z)
  | .fSys .. => bytes (furrowLong cap.z)
  | .fGbcast .. => bytes (furrowLong cap.z)
  | .fHead .. => bytes (furrowLong cap.z)
  | _ => none

/-- A D or F instruction runs, to its end or for some units (R345, R403). -/
def runDrill (b : Body) (i : Instr) (cap : Cap) (r : Word) (p : Pace) (k : CoreId) (s : State) : Eff :=
  match (match p with
    | .part n => cutCap i cap r n
    | .whole => none) with
  | some (cap', r') =>
    match b k cap' r s with
    | .done s' => .hold r' s'
    | x => x
  | none => b k cap r s

/-- The free choices of an access beside a matrix command that is still writing are made: the next ones are other ones
(R7, R261). -/
def Eff.chosen : Eff → Eff
  | .done s => .done s.advanceTick
  | .trap t s => .trap t s.advanceTick
  | .fault t r s => .fault t r s.advanceTick
  | .wait s => .wait s
  | .hold r s => .hold r s.advanceTick
  | .after t s => .after t s.advanceTick

/-- What a queue entry does when it starts or goes on, at a pace. DESIGN CHOICE, log entry 9. -/
def QEntry.run (e : QEntry) (k : CoreId) (p : Pace) (s : State) : Eff :=
  match mDesc e.ins with
  | some _ => mulEntry e k p e.resume s
  | none =>
    match bodyOf p e.ins with
    | some b =>
      let r := runDrill b e.ins e.cap e.resume p k s
      if (s.core k).mtx.before.isEmpty then r else r.chosen
    | none => .done s

end Sys2Proof.Machine
end

