-- ==== Sys2Proof/Machine/Engines.lean ====
section
/-! DEFINITION. The engine queues at work: starting, going on and retiring (R299 to R303, R308, R347), ganged commands
(R153, R311 to R314), token deadlock (R304 to R306), pending faults and interrupts (R389, R394). -/

namespace Sys2Proof.Machine

/-! ## What may start (R300, R308, R347) -/

/-- The physical bytes that n bytes from an address cover; the window is the core's aperture (R244). -/
def State.physRanges (s : State) (k : CoreId) (cap : Cap) (a n : Nat) : List (Nat × Nat) :=
  (s.reach k cap .drd (n / 4096 + 2) a n).1.map (Piece.span k)

/-- Bytes of a core's tower by physical address. -/
def towerRange (k : CoreId) (off n : Nat) : Nat × Nat := (apertureAddr k off, n)

/-- The targets of the elements of an atomic, their entries as they stand (R356). -/
def atomRanges (k : CoreId) (cap : Cap) (sz : BitVec 1) (s : State) : List (Nat × Nat) :=
  (List.range (min cap.z.toNat 65536)).flatMap (fun i =>
    let o := bytesToNat ((s.core k).tower.read (cap.y.toNat - windowBase + 32 * i) 8)
    s.physRanges k cap ((cap.x.toNat + o) % 2 ^ 64) (if sz = 1#1 then 8 else 4))

/-- The bytes a furrow instruction over the links reads and writes. -/
def furrowRanges (dests : List (Option CoreId)) (k : CoreId) (cap : Cap) : List (Nat × Nat) :=
  towerRange k (cap.y.toNat - windowBase) cap.z.toNat ::
    dests.filterMap (fun d => d.map (fun c => towerRange c (cap.x.toNat - windowBase) cap.z.toNat))

/-- A ring slot as a range of bytes; none while no slot is held. -/
def slotRange (c : CoreId) (r : Ring) (i : Option Nat) (n : Nat) : List (Nat × Nat) :=
  match i with
  | some i => [towerRange c (r.slotOff i) n]
  | none => []

/-- The bytes that a D or F instruction reads or writes, as far as its operands name them (R347). -/
def State.footprint (s : State) (k : CoreId) (e : QEntry) : List (Nat × Nat) :=
  let cap := e.cap
  let x := cap.x.toNat
  let y := cap.y.toNat
  let z := cap.z.toNat
  let ph (a n : Nat) : List (Nat × Nat) := s.physRanges k cap a n
  match e.ins with
  | .dCopy .. => ph y z ++ ph x z
  | .dCopyRg _ _ r m _ =>
    let dest := quadMember k m
    ph y z ++ slotRange dest ((s.core dest).ring r) (RingRes.of e.resume).di z
  | .dBcast .. => ph y z ++ (bcastCores k cap.x).map (fun c => towerRange c (field cap.x 0 25).toNat z)
  | .dStore .. => ph x z
  | .dSpill .. => ph x (128 * min y 64)
  | .dFill .. => ph x (128 * min y 64)
  | .dAtom _ _ _ _ sz _ => ph y (32 * z) ++ atomRanges k cap sz s
  | .dAtomNr _ _ _ _ sz _ => ph y (32 * z) ++ atomRanges k cap sz s
  | .dTfill .. =>
    let n := 512 * 2 ^ (field cap.x 0 3).toNat
    towerRange k (512 * (field cap.y 10 16).toNat) n :: ph (512 * (field cap.x 9 47).toNat) n
  | .dAppend .. =>
    let h := readHeader (s.core k).tower x
    ph x 64 ++ ph y (h.ks + h.vs) ++ ph (h.plist + 8 * (z / 2 ^ h.lt)) 8 ++
      (match pageEntry k cap h (z / 2 ^ h.lt) s with
       | .ok va _ => ph (va + z % 2 ^ h.lt * h.ks) h.ks ++ ph (va + h.voff + z % 2 ^ h.lt * h.vs) h.vs
       | _ => [])
  | .dQpost .. =>
    let h := readHeader (s.core k).tower x
    let n := (h.pb + 2 ^ h.lt - 1) / 2 ^ h.lt
    ph x (64 + 2 * h.dk) ++ ph h.plist (8 * n) ++
      (List.range n).flatMap (fun e =>
        match pageEntry k cap h e s with
        | .ok va _ => ph va (h.voff + 2 ^ h.lt * h.vs)
        | _ => [])
  | .fFur d _ _ _ _ => furrowRanges [meshNeighbour k d] k cap
  | .fFurQm _ _ _ m _ => furrowRanges [some (quadMember k m)] k cap
  | .fSys d _ _ _ _ => furrowRanges ((sysMembers (memberOf k) d).map (fun m => m.map (fun m => quadMember k m))) k cap
  | .fGbcast _ _ _ m _ =>
    furrowRanges (((List.range 4).filter (fun i => m.getLsbD i)).map (fun i => some (quadMember k (BitVec.ofNat 2 i)))) k cap
  | .fHead .. => ph y z ++ ph x z
  | .fRing _ _ _ sr _ =>
    let dest := quadMember k ((field cap.x 4 2).truncate 2)
    let res := RingRes.of e.resume
    slotRange dest ((s.core dest).ring (cap.x.truncate 4)) res.di z ++
      (if sr = 1#1 then slotRange k ((s.core k).ring (cap.y.truncate 4)) res.sj z else ph y z)
  | _ => []

/-- Some byte of a D or F instruction lies where a stack that holds back its translation or its page list does not yet let
it be known (R235): the bytes an instruction names by its registers, and the rows of an append or a query. -/
def State.unplaced (s : State) (k : CoreId) (e : QEntry) : Bool :=
  let cap := e.cap
  let held (a n : Nat) : Bool := (s.reach k cap .drd (n / 4096 + 2) a n).1.any (fun p => decide (p.at_ = .held))
  let entry (h : Header) (i : Nat) : Bool :=
    match pageEntry k cap h i s with
    | .wait => true
    | .ok va _ => held va (h.voff + 2 ^ h.lt * h.vs)
    | .trap _ _ => false
  let x := cap.x.toNat
  let z := cap.z.toNat
  match e.ins with
  | .dAppend .. =>
    let h := readHeader (s.core k).tower x
    held x 64 || entry h (z / 2 ^ h.lt)
  | .dQpost .. =>
    let h := readHeader (s.core k).tower x
    decide (e.resume ≠ 1#64) && (List.range ((h.pb + 2 ^ h.lt - 1) / 2 ^ h.lt)).any (entry h)
  | .dSpill .. => held x (128 * min cap.y.toNat 64)
  | .dFill .. => held x (128 * min cap.y.toNat 64)
  | .dTfill .. => held (512 * (field cap.x 9 47).toNat) (512 * 2 ^ (field cap.x 0 3).toNat)
  | .dStore .. => held x z
  | .dCopyRg .. => held cap.y.toNat z
  | .dBcast .. => held cap.y.toNat z
  | .dAtom _ _ _ _ sz _ => (List.range (min z 65536)).any (fun i =>
      held ((x + bytesToNat ((s.core k).tower.read (cap.y.toNat - windowBase + 32 * i) 8)) % 2 ^ 64) (if sz = 1#1 then 8 else 4))
  | .dAtomNr _ _ _ _ sz _ => (List.range (min z 65536)).any (fun i =>
      held ((x + bytesToNat ((s.core k).tower.read (cap.y.toNat - windowBase + 32 * i) 8)) % 2 ^ 64) (if sz = 1#1 then 8 else 4))
  | .dCopy .. => held cap.y.toNat z || held x z
  | .fHead .. => held x z
  | _ => false

/-- An earlier instruction of the same engine, started and not finished, holds this one back: a common byte (R347), bytes
that are not known yet, or return-free atomics and their `d.afence`, either before the other (R263). -/
def State.heldBy (s : State) (k : CoreId) (e b : QEntry) : Bool :=
  (match b.ins, e.ins with
   | .dAfence _ _, .dAtomNr .. => true
   | .dAtomNr .., .dAfence _ _ => true
   | _, _ => false) || s.unplaced k e || s.unplaced k b || rangesMeet (s.footprint k e) (s.footprint k b)

/-- A return-free atomic that the core has sent and that is not performed holds a later D instruction that touches its bytes;
the base die keeps the order of the atomics themselves (R225, R246, R249). -/
def State.sentMeets (s : State) (k : CoreId) (e : QEntry) : Bool :=
  match e.ins with
  | .dAtomNr .. => false
  | _ =>
    let xs := s.hbm.flatMap (fun n => (n.2.sent.filter (fun x => decide (x.src = k))).map (fun x =>
      (x.pkt.span.1.toNat, x.pkt.span.2.2)))
    !xs.isEmpty && rangesMeet (s.footprint k e) xs

/-- A tile lies between two chunks of a matrix command, and what reads or writes it waits for the command, but for a vector
instruction that a pre-emption lets run to its end (R261, R403). -/
def State.tileBusy (s : State) (k : CoreId) (e : Engine) (q : QEntry) : Bool :=
  (s.core k).midMul &&
    match e, q.ins with
    | .v, _ => !(s.table (tableOf k)).stop
    | .d, .dSpill .. => true
    | .d, .dFill .. => true
    | _, _ => false

/-- The earlier instructions let this one start or go on: none has faulted; all have started; on V and M all have
finished, and on D and F none holds it back (R300, R308, R347, R387). -/
def State.mayRun (s : State) (k : CoreId) (e : Engine) (before : List QEntry) (q : QEntry) : Bool :=
  let live := before.filter (fun b => decide (b.flev = 0#8))
  !(live.any (fun b => b.fault.isSome)) && !s.tileBusy k e q &&
  match e with
  | .c => false
  | .v => live.all (fun b => b.finished)
  | .m => live.all (fun b => b.finished)
  | .d => live.all (fun b => b.started) && !(live.any (fun b => !b.finished && s.heldBy k q b)) && !s.sentMeets k q
  | .f => live.all (fun b => b.started) && !(live.any (fun b => !b.finished && s.heldBy k q b))

/-! ## Pending faults (R387 to R389) -/

/-- The lowest engine with a pending fault on an entry that is not frozen and before which every entry has finished:
engine, place, entry, trap. -/
def Core.pendingFault (c : Core) : Option (Engine × Nat × QEntry × TrapInfo) :=
  ([.v, .m, .d, .f] : List Engine).findSome? (fun e =>
    (c.queue e).zipIdx.findSome? (fun p =>
      if p.1.flev = 0#8 && ((c.queue e).take p.2).all (fun b => b.finished || decide (b.flev ≠ 0#8)) then
        p.1.fault.map (fun t => (e, p.2, p.1, t))
      else none))

/-- Replace an entry of a queue. -/
def setEntry (k : CoreId) (e : Engine) (n : Nat) (q : QEntry) (s : State) : State :=
  s.modCore k (fun c => c.setQueue e ((c.queue e).set n q))

/-- A fault is marked and not yet taken (R388). -/
def Core.marked (c : Core) : Bool :=
  ([.v, .m, .d, .f] : List Engine).any (fun e => (c.queue e).any (fun q => decide (q.flev = 0#8) && q.fault.isSome))

/-- The instruction at which the control unit waits, its tokens popped. -/
def Front.within (f : Front) : Option Instr := if f.started && !f.done then f.item.map (fun it => it.ins) else none

/-- The control unit waits inside a scalar load (R235). -/
def Core.inLoad (c : Core) : Bool :=
  match c.front.within with
  | some i =>
    (match i with
     | .ldI8 .. => true | .ldN8 .. => true | .ldI16 .. => true | .ldN16 .. => true
     | .ldI32 .. => true | .ldN32 .. => true | .ldI64 .. => true
     | _ => false)
  | none => false

/-- The control unit has arrived at the `bar` in which it waits: it is held until the instance completes (R157, R276). -/
def Core.inBar (c : Core) : Bool :=
  match c.front.within with
  | some (.bar sc id _) =>
    let b : BitVec 3 × BitVec 4 := (sc.truncate 3, id)
    c.arrived.contains b || c.released.contains b
  | _ => false

/-- The core stands at a join: it waits there, and leaves it in the ways of R148 alone, or the stream's join has
completed and its slot is still to be left. -/
def State.atJoin (s : State) (k : CoreId) : Bool :=
  let c := s.core k
  decide (c.seat.st = .waiting) ||
    (decide (c.seat.st = .seated) && c.front.joined && ((s.table (tableOf k)).successor c.seat.n).isSome)

/-- No trap or interrupt takes the core now: its control unit is within an instruction that ends first (a join, a scalar load,
a barrier at which it has arrived), or a vector instruction or a matrix command runs to its end (R148, R157, R235, R388).
DEDUCED, log entry 65. -/
def State.held (s : State) (k : CoreId) : Bool :=
  let c := s.core k
  s.atJoin k || c.inLoad || c.inBar || c.midway

/-- Take the trap of the lowest engine with a pending fault (R389, R393); not while the table drains for a pre-emption
(R405), nor while the core is held (R388). -/
def takePending (k : CoreId) (s : State) : Option State :=
  let c := s.core k
  if (s.table (tableOf k)).stop || s.held k then none
  else
    c.pendingFault.map (fun x =>
      let (e, n, q, t) := x
      takeEngineTrap k { t with eng := e.num } (setEntry k e n { q with fault := none, faulted := some t } s))

/-- The control unit starts nothing while a fault is marked: it waits for what R387 lets run to its end (R388, R393). -/
def State.faultWaits (s : State) (k : CoreId) : Bool :=
  let c := s.core k
  c.marked && !(s.atJoin k || c.inLoad || c.inBar)

/-- A trap that falls while a vector instruction or a matrix command runs is taken when that has finished (R388): the turn
that found it is made again. -/
def guardTrap (k : CoreId) (s : State) (r : Host.Outcome State Fault Refusal) : Host.Outcome State Fault Refusal :=
  match r with
  | .next u => if (s.core k).midway && decide ((u.core k).seat.depth = (s.core k).seat.depth + 1#8) then .next s else r
  | r => r

/-- A fault was marked: its trap is taken at once when it can be (R388). -/
def takeFault (k : CoreId) (s : State) : State := (takePending k s).getD s

/-! ## One turn of an entry -/

/-- Retire what an engine can retire. -/
def retireEngine (k : CoreId) (e : Engine) (s : State) : State := s.modCore k (fun c => c.retire e)

/-- Pop an entry's tokens unless it has started. -/
def popEntry (k : CoreId) (q : QEntry) (s : State) : State :=
  if q.started then s else s.modCore k (fun c => { c with tok := c.tok.pop q.ins.tok? })

/-- What becomes of an entry that has run (R300, R303, R345, R387): finished, marked with its fault, held at a resume
point, or started and waiting. -/
def settle (k : CoreId) (e : Engine) (n : Nat) (q : QEntry) (before : State) : Eff → State
  | .done s => retireEngine k e (setEntry k e n { q with started := true, finished := true } (popEntry k q s))
  | .trap t s => setEntry k e n { q with fault := some t } s
  | .fault t r s => setEntry k e n { q with started := true, resume := r, fault := some t } (popEntry k q s)
  | .wait _ => if q.started then before else setEntry k e n { q with started := true } (popEntry k q before)
  | .hold r s =>
    if q.started && decide (q.resume = r) then s else setEntry k e n { q with started := true, resume := r } (popEntry k q s)
  | .after _ _ => before

/-- An entry that has not started meets a gang token with a nonzero mask (R313). -/
def gangFaultTurn (k : CoreId) (e : Engine) (n : Nat) (q : QEntry) (g : BitVec 2) (i : Nat) (mask : BitVec 4) (s : State) :
    State :=
  setEntry k e n { q with fault := some (gangTrap e.num g mask) } (s.modCore k (fun c => { c with tok := c.tok.clearMask g i }))

/-! ## Ganged commands (R153, R311 to R314) -/

/-- The entry of the matrix queue whose turn it is: the first that is not frozen and not finished. -/
def Core.nextM (c : Core) : Option (QEntry × Nat) :=
  c.mq.zipIdx.find? (fun p => decide (p.1.flev = 0#8) && !p.1.finished)

/-- A named member's part in a gang (R153): present, with its tokens popped; present, its own check failed (R337); absent. -/
inductive Part where
  | present (n : Nat) (e : QEntry)
  | faulted (n : Nat) (e : QEntry)
  | absent
  /-- it may yet come -/
  | unknown

/-- The entry of a member that a gang is to start, and its place. -/
def Core.gangEntry (c : Core) (g : Gang) : Option (QEntry × Nat) :=
  c.mq.zipIdx.find? (fun p => p.1.unformed && decide (p.1.gang = some g))

/-- The part a named member takes in the gang of a command at core k (R153): present once it has routed the command,
whatever becomes of its seat, but for one that a trap has frozen, which is absent (R158, R307). DEDUCED, log entry 66. -/
def State.gangPart (s : State) (k : CoreId) (g : Gang) (m : CoreId) : Part :=
  let c := s.core m
  match (if m ≠ k ∧ g.index.isNone then none else c.gangEntry g), g.index with
  | some (e, n), _ =>
    (match e.fault.orElse (fun _ => e.faulted) with
     | some t =>
       if t.code ≠ 0x1A#8 then .faulted n e else if e.flev ≠ 0#8 then .absent else .unknown
     | none => if e.flev ≠ 0#8 then .absent else if e.started then .present n e else .unknown)
  | none, none => .absent
  | none, some (i, slot) =>
    if decide (c.seat.st = .seated) &&
      (decide (c.seat.n ≤ i) || (decide (c.seat.n = i + 1) && c.front.bundle.isSome && decide (c.front.slot ≤ slot)))
    then .unknown else .absent

/-- A gang in the making: the state, the bits of absent and faulted members, those of members whose slices have ended. -/
structure Forming where
  s : State
  mask : BitVec 4
  ended : BitVec 4

/-- The bit of a member. -/
def memberBit (m : CoreId) : BitVec 4 := 1#4 <<< (memberOf m).toNat

/-- The bits of some members. -/
def memberBits (ms : List CoreId) : BitVec 4 := ms.foldl (fun b m => b ||| memberBit m) 0#4

/-- What a turn of a slice says of the gang: whether the slice has ended, and if so whether it faulted (R312). -/
def Eff.ends : Eff → Option Bool
  | .done _ => some false
  | .trap _ _ => some true
  | .fault _ _ _ => some true
  | _ => none

/-- The gang's command at one member ends, or is held (R311, R312, R401). -/
def gangSettle (m : CoreId) (n : Nat) (q : QEntry) (r : Eff) (f : Forming) : Forming :=
  { s := settle m .m n q f.s r
    mask := if r.ends = some true then f.mask ||| memberBit m else f.mask
    ended := if r.ends.isSome then f.ended ||| memberBit m else f.ended }

/-- A fault of the leader's B as the other members report it: an address in the leader's window as one of its aperture
(R401). -/
def partnerTrap (leader : CoreId) (t : TrapInfo) : TrapInfo :=
  let a := t.addr.toNat
  if (t.code = 0x03#8 ∨ t.code = 0x05#8 ∨ t.code = 0x07#8) ∧ windowBase ≤ a ∧ a < windowBase + 2 ^ 25 then
    { t with addr := BitVec.ofNat 64 (apertureAddr leader (a - windowBase)) }
  else t

/-- The slice of one present member, its checks passed: the command with the leader's B (R311). `onB`: the trap that the
leader's check met on B, which every present member meets too (R401). DEDUCED, log entry 61. -/
def gangSlice (p : Pace) (leader : CoreId) (shb : BitVec 512) (onB : Option TrapInfo) (m : CoreId) (n : Nat) (e : QEntry)
    (f : Forming) : Forming :=
  let q : QEntry := { e with ganged := true, cap := { e.cap with shb := shb } }
  let s := mBegin m q false true f.s
  match onB with
  | some t => gangSettle m n q (.fault (partnerTrap leader t) 0#64 s) f
  | none => gangSettle m n q (mulLoop m q p 1048577 false 0 [] s) f

/-- A gang whose leader is absent: each present member's command ends with no slice computed (R153). -/
def gangEmpty (m : CoreId) (n : Nat) (e : QEntry) (f : Forming) : Forming :=
  let q : QEntry := { e with ganged := true }
  gangSettle m n q (.done (mBegin m { q with resume := 1#64 } false true f.s)) f

/-- The trap the leader met on its B before the command started; none when what failed is its own A (R311, R322). DEDUCED,
log entry 61. -/
def leaderTrap (leader : CoreId) (e : QEntry) (s : State) : Option TrapInfo :=
  match mDesc e.ins with
  | none => none
  | some (kind, row0, col0, _) =>
    match mulCheck kind row0 col0 true (s.core leader) e.cap.sha e.cap.shb with
    | some (true, t) => some t
    | _ => none

/-- The members in the order their slices are computed: the leader's last, so that every partner reads B as it was read
once, before an automatic refetch of the leader mends it (R311, R397). -/
def leaderLast (leader : CoreId) (ms : List (CoreId × Nat × QEntry)) : List (CoreId × Nat × QEntry) :=
  ms.filter (fun p => decide (p.1 ≠ leader)) ++ ms.filter (fun p => decide (p.1 = leader))

/-- The gang of the command at core k starts when every named member is present, with its tokens popped, or absent
(R153, R311); a member whose own check failed is present, and faulted (R337). -/
def formGang (k : CoreId) (g : Gang) (p : Pace) (s : State) : State :=
  let named := ((List.range 4).filter (fun i => g.mask.getLsbD i)).map (fun i => quadMember k (BitVec.ofNat 2 i))
  let parts := named.map (fun m => (m, s.gangPart k g m))
  let present : List (CoreId × Nat × QEntry) := parts.filterMap (fun p =>
    match p.2 with
    | .present n e => some (p.1, n, e)
    | _ => none)
  let failed : List (CoreId × Nat × QEntry) := parts.filterMap (fun p =>
    match p.2 with
    | .faulted n e => some (p.1, n, e)
    | _ => none)
  let unknown := parts.any (fun p =>
    match p.2 with
    | .unknown => true
    | _ => false)
  if unknown || (s.table (tableOf k)).stop then s
  else
    let here := present ++ failed
    let leader := gangLeader k g.mask
    let shb := (here.find? (fun p => decide (p.1 = leader))).map (fun p => p.2.2.cap.shb)
    let s0 := failed.foldl (fun s x =>
      setEntry x.1 .m x.2.1 { x.2.2 with ganged := true, cap := { x.2.2.cap with shb := shb.getD x.2.2.cap.shb } } s) s
    let away := named.filter (fun m => !here.any (fun q => decide (q.1 = m)))
    let bad := memberBits (failed.map (fun p => p.1))
    let start : Forming := { s := s0, mask := memberBits away ||| bad, ended := bad }
    let f : Forming :=
      match shb with
      | none => present.foldl (fun f p => gangEmpty p.1 p.2.1 p.2.2 f) { start with mask := g.mask }
      | some b =>
        let onB := (failed.find? (fun p => decide (p.1 = leader))).bind (fun p => leaderTrap leader p.2.2 s)
        (leaderLast leader present).foldl (fun f x => gangSlice p leader b onB x.1 x.2.1 x.2.2 f) start
    let s1 := f.s.modTable (tableOf k) (fun t =>
      { t with gangs := t.gangs ++ [{ quad := quadOf k, gq := g.gq, mask := f.mask, ended := f.ended
                                      members := here.map (fun p => memberOf p.1) }] })
    present.foldl (fun s p => takeFault p.1 s) s1

/-- A member's slice of a ganged command is still to finish (R312, R403). -/
def Core.gangRuns (c : Core) (gq : BitVec 2) : Bool :=
  c.mq.any (fun e => e.ganged && e.started && !e.finished && e.fault.isNone && e.faulted.isNone
    && decide (e.gang.map (fun g => g.gq) = some gq))

/-- The slice of a member in its gang ends (R312). -/
def endSlice (quad gq m : BitVec 2) (bad : Bool) : List GangRun → List GangRun
  | [] => []
  | g :: rest =>
    if g.quad = quad ∧ g.gq = gq ∧ g.members.contains m ∧ ¬ g.ended.getLsbD m.toNat then
      { g with ended := g.ended ||| 1#4 <<< m.toNat, mask := if bad then g.mask ||| 1#4 <<< m.toNat else g.mask } :: rest
    else g :: endSlice quad gq m bad rest

/-- A ganged slice that ends after its gang has started is noted in the gang (R312). -/
def gangEnd (k : CoreId) (q : QEntry) (r : Eff) (s : State) : State :=
  match q.gang, r.ends with
  | some g, some bad =>
    if q.ganged then s.modTable (tableOf k) (fun t => { t with gangs := endSlice (quadOf k) g.gq (memberOf k) bad t.gangs })
    else s
  | _, _ => s

/-- Every slice of a ganged command has finished or faulted (R312). -/
def State.gangOver (s : State) (tb : TableId) (g : GangRun) : Bool :=
  g.members.all (fun m => g.ended.getLsbD m.toNat || !(s.core (tb ++ (g.quad ++ m))).gangRuns g.gq)

/-- A member has room for the token of a ganged command (R302). -/
def State.gangRoom (s : State) (tb : TableId) (g : GangRun) (m : BitVec 2) : Bool :=
  decide (((s.core (tb ++ (g.quad ++ m))).tok.gq.get [] g.gq).length < 15)

/-- The token of a ganged command reaches a member (R312); a deadlock that it ends is counted anew (R305). -/
def gangToken (tb : TableId) (g : GangRun) (s : State) (m : BitVec 2) : State :=
  s.modCore (tb ++ (g.quad ++ m)) (fun c =>
    { c with tok := { c.tok with gq := c.tok.gq.set g.gq (c.tok.gq.get [] g.gq ++ [g.mask]) }, deadCk := 0 })

/-- The completion of a ganged command of a quad: when every slice has finished or faulted, one token to the gang queue of
each present member, to each once that has room (R301, R302, R312). -/
def gangCompletion (tb : TableId) (q : BitVec 2) (s : State) : State :=
  let t := s.table tb
  match t.gangs.zipIdx.find? (fun p => decide (p.1.quad = q) && s.gangOver tb p.1 && p.1.members.any (s.gangRoom tb p.1)) with
  | none => s
  | some (g, i) =>
    let stay := g.members.filter (fun m => !s.gangRoom tb g m)
    (g.members.filter (s.gangRoom tb g)).foldl (gangToken tb g) (s.setTable tb
      { t with gangs := if stay.isEmpty then t.gangs.eraseIdx i else t.gangs.set i { g with members := stay, ended := 15#4 } })

/-! ## The turn of an engine -/

/-- How a turn of an entry goes: to its end; for n units, where a pre-emption stops it (R403); a matrix command that is
still writing at the end of the turn (R261); a fault that is only found, beside those of other engines (R389). -/
inductive Go where
  | whole
  | part (n : Nat)
  | land
  | found
deriving DecidableEq, Repr

/-- The pace of a turn. -/
def Go.pace : Go → Pace
  | .part n => .part n
  | _ => .whole

/-- A matrix command has run and is still writing: the tiles as they were stay at hand (R134, R261). -/
def landEntry (k : CoreId) (n : Nat) (q : QEntry) (before : State) : Eff → State
  | .done s =>
    (setEntry k .m n { q with started := true, landed := true } (popEntry k q s)).modCore k (fun c =>
      { c with mtx := { c.mtx with before := (before.core k).beside q :: c.mtx.before } })
  | r => settle k .m n q before r

/-- After a turn the trap of a fault is taken, unless it is only found. -/
def Go.taken (g : Go) (k : CoreId) (s : State) : State := if g = .found then s else takeFault k s

/-- An entry runs (R300, R388, R389): its effects, then the trap of a fault. -/
def runEntry (g : Go) (k : CoreId) (e : Engine) (n : Nat) (q : QEntry) (s : State) : State :=
  let r := q.run k g.pace s
  if g = .land ∧ e = .m ∧ q.gang = none then landEntry k n q s r
  else g.taken k (gangEnd k q r (settle k e n q s r))

/-- A `d.qpost` that was accepted and sends its packets (R369). -/
def QEntry.posting (q : QEntry) : Bool :=
  decide (q.resume = 1#64) && q.started && (match q.ins with | .dQpost .. => true | _ => false)

/-- After a pre-emption request nothing starts; a started V instruction runs to its end, a matrix command that was running
stops after some chunks or rows, and the packets of a query that was accepted go out (R403, R404). -/
def stopLets (g : Go) (e : Engine) (q : QEntry) : Bool :=
  q.started && !q.unformed &&
    match e, g with
    | .v, _ => true
    | .m, .part n => decide (0 < n)
    | .d, _ => q.posting
    | _, _ => false

/-- The check of a command at the head of the matrix queue before it pops its tokens (R322): none while it cannot be made,
a partner's while the leader may yet come with its B (R337). DEDUCED, log entry 84. -/
def State.headCheck (s : State) (k : CoreId) (e : Engine) (q : QEntry) : Option (Option TrapInfo) :=
  if e ≠ .m then some none
  else
    match (if q.unformed then q.gang else none) with
    | none => some (mCheck k q s)
    | some g =>
      let leader := gangLeader k g.mask
      if leader = k then some (mCheck k q s)
      else
        match s.gangPart k g leader, (s.core leader).gangEntry g with
        | .absent, _ => some none
        | _, some (le, _) => some (mCheck k { q with cap := { q.cap with shb := le.cap.shb } } s)
        | _, none => none

/-- An entry of the queue that has not started, and may: its checks, then its tokens, then it runs; a ganged command pops and
waits for its partners (R153, R300, R301, R313, R322). -/
def startEntry (g : Go) (k : CoreId) (e : Engine) (n : Nat) (q : QEntry) (s : State) : State :=
  let c := s.core k
  match s.headCheck k e q with
  | none => s
  | some (some t) => g.taken k (setEntry k e n { q with fault := some t } s)
  | some none =>
    if !c.tok.ready q.ins.tok? then s
    else
      match c.tok.gangFault q.ins.tok? with
      | some (gg, i, mask) => g.taken k (gangFaultTurn k e n q gg i mask s)
      | none =>
        match (if q.unformed then q.gang else none) with
        | some gg => formGang k gg g.pace (setEntry k e n { q with started := true } (popEntry k q s))
        | none => runEntry g k e n { q with cap := startCap q.ins c s.tick q.cap } s

/-- The entries before one, as a turn of it finds them: a matrix command may run behind one that is still writing (R308). -/
def Go.before (g : Go) (q : List QEntry) : List QEntry :=
  if g = .land then q.map (fun b => if b.landed then { b with finished := true } else b) else q

/-- A turn of the n-th entry of an engine's queue (R300): frozen and faulted entries do not run, an unstarted one waits
for its tokens, its predecessors and its gang; the checks of R322 come before the tokens. DEDUCED, log entry 84. -/
def engineTurnAs (g : Go) (k : CoreId) (e : Engine) (n : Nat) (s : State) : State :=
  let c := s.core k
  match (c.queue e)[n]? with
  | none => s
  | some q =>
    if q.flev ≠ 0#8 ∨ q.fault.isSome then s
    else if q.landed then retireEngine k e (s.modCore k Core.land)
    else if q.finished then retireEngine k e s
    else if (s.table (tableOf k)).stop && !stopLets g e q then s
    else if !s.mayRun k e (g.before ((c.queue e).take n)) q then s
    else if !q.started then startEntry g k e n q s
    else
      match (if q.unformed then q.gang else none) with
      | some gg => formGang k gg g.pace s
      | none => runEntry g k e n q s

/-- A turn of an entry that goes to its end. -/
def engineTurn (k : CoreId) (e : Engine) (n : Nat) (s : State) : State := engineTurnAs .whole k e n s

/-- The bytes that a vector, matrix, drill or furrow instruction may read, as ranges of physical addresses. -/
def State.readRanges (s : State) (k : CoreId) (e : Engine) (q : QEntry) : List (Nat × Nat) :=
  let c := s.core k
  let runs (rs : Runs) : List (Nat × Nat) := rs.flatMap (fun r => s.physRanges k q.cap r.1 r.2)
  let i (x : Option VExt) : VIn := { c := c, cap := q.cap, x := x.getD vextDefault, tick := s.tick }
  match e, q.ins with
  | .v, .vLd _ _ imm p n x _ => runs (rowRuns (i x) imm p n)
  | .v, .vLdu _ _ imm p n x _ => runs (rowRuns (i x) imm p n)
  | .v, .vGth _ a _ p n x _ => runs ((gatherAddrs (i x) a p n).map (fun r => (r.2, (i x).w / 8)))
  | .m, _ => (opSpans c.tower q.cap.sha ++ opScales q.cap.sha).map (fun r => towerRange k r.1 r.2)
      ++ (opSpans (s.core (bOwner k q)).tower q.cap.shb ++ opScales q.cap.shb).map (fun r => towerRange (bOwner k q) r.1 r.2)
  | .d, _ => s.footprint k q
  | .f, _ => s.footprint k q
  | _, _ => []

/-- The unit in which an entry's accesses find a byte, beside whole aligned 8-byte words: the element of an atomic, the byte
of a word that is covered in part (R245). -/
def State.tornBy (s : State) (k : CoreId) (e : Engine) (n : Nat) : Nat → Option Nat :=
  match ((s.core k).queue e)[n]? with
  | none => fun _ => none
  | some q =>
    let elements : List (Nat × Nat) :=
      match q.ins with
      | .dAtom _ _ _ _ sz _ => atomRanges k q.cap sz s
      | .dAtomNr _ _ _ _ sz _ => atomRanges k q.cap sz s
      | _ => []
    let rs := s.readRanges k e q
    fun x =>
      match elements.find? (fun r => decide (r.1 ≤ x) && decide (x < r.1 + r.2)) with
      | some r => some r.1
      | none =>
        if rs.any (fun r => decide (r.1 ≤ x / 8 * 8) && decide (x / 8 * 8 + 8 ≤ r.1 + r.2)) then none
        else if rs.any (fun r => decide (r.1 ≤ x) && decide (x < r.1 + r.2)) then some x
        else none

/-- The turn of an entry, the late stores of its core seen or not (R260). -/
def engineTurnLate (g : Go) (k : CoreId) (e : Engine) (n : Nat) (s : State) : State :=
  s.around k (s.tornBy k e n) (engineTurnAs g k e n)

/-- The turn of the ganged command that a core waits to start. -/
def gangTurn (s : State) (k : CoreId) : State :=
  match (s.core k).nextM with
  | some (e, n) => if e.unformed then engineTurnLate .whole k .m n s else s
  | none => s

/-- The first member of a quad whose ganged command can pop its tokens or start its gang (R153, R311). -/
def gangStart (tb : TableId) (q : BitVec 2) (s : State) : State :=
  (quadCores tb q).foldl (fun u k => if u = s then gangTurn u k else u) s

/-- The matrix command of a core that has started and not finished, which runs before the core does anything else
(R308, R388). -/
def Core.runningM (c : Core) : Option Nat :=
  (c.nextM.filter (fun p => p.1.started && !p.1.unformed && !p.1.landed && p.1.fault.isNone)).map (fun p => p.2)

/-- The oldest instruction of an engine that can start or go on takes its turn (R300). -/
def engineMove (k : CoreId) (e : Engine) (s : State) : State :=
  (List.range ((s.core k).queue e).length).foldl (fun s' n => if s' = s then engineTurnLate .whole k e n s else s') s

/-! ## Token deadlock (R304 to R306) -/

/-- The entries of a queue that are not frozen (R304). -/
def liveEntries (q : List QEntry) : List QEntry := q.filter (fun e => decide (e.flev = 0#8))

/-- The first WAIT queue of a token word that is short (R305). -/
def Toks.firstShort (tk : Toks) (t : Option Tok) : BitVec 5 :=
  match t with
  | none => 0#5
  | some t => (t.waits.find? (fun q => decide (tk.held q < t.waits.count q))).getD 0#5

/-- What an engine is blocked on: (it waits to push, queue id); none when it is not token-blocked (R304, R305). -/
def Core.blockedOn (c : Core) (e : Engine) : Option (Bool × BitVec 5) :=
  let live := liveEntries (c.queue e)
  match live with
  | [] => none
  | q :: _ =>
    if q.finished then if c.tok.room q.ins.tok? then none else some (true, (q.ins.tok?.map (fun t => t.post)).getD 0#5)
    else if q.started then none
    else if c.tok.ready q.ins.tok? then none
    else some (false, c.tok.firstShort q.ins.tok?)

/-- The engine is idle (R304). -/
def Core.engineIdle (c : Core) (e : Engine) : Bool := (liveEntries (c.queue e)).isEmpty

/-- What the control unit is blocked on (R304, R305): its tokens, its POST queue, or a hand-over into an engine that is
itself token-blocked; not one for which frozen entries leave too little room (R392), nor a ganged command that the core
discards (R153). -/
def Core.controlBlocked (c : Core) (k : CoreId) : Option (Bool × BitVec 5) :=
  match c.front.item with
  | none => none
  | some it =>
    match it.eng with
    | .c =>
      if c.front.done then if c.tok.room it.ins.tok? then none else some (true, (it.ins.tok?.map (fun t => t.post)).getD 0#5)
      else if c.front.started || c.tok.ready it.ins.tok? then none
      else some (false, c.tok.firstShort it.ins.tok?)
    | e =>
      let named :=
        match it.ins with
        | .mGang mask _ => mask.getLsbD (memberOf k).toNat
        | _ => true
      let need := if it.ins.isGang then gangSlots { c.front with next := it.slot + it.len } else it.ins.slots
      if c.front.pfx.isNone && named && decide (e.depth < queueUsed (liveEntries (c.queue e)) + need)
          && (c.blockedOn e).isSome then
        some (false, 25#5 + e.num.zeroExtend 5)
      else none

/-- A memory operation of a core is outstanding (R304); a query is until its `d.qget` retires (R376). -/
def State.memOutstanding (s : State) (k : CoreId) : Bool :=
  s.outstanding k || !(s.core k).replies.isEmpty
    || s.hbm.any (fun e => e.2.sent.any (fun x => x.reply && decide (x.src = k)) || e.2.queryq.any (fun q => q.reply && q.ctx.isNone && decide (q.core = k))
        || e.2.scans.any (fun x => x.qp.reply && x.qp.ctx.isNone && decide (x.qp.core = k)))
    || (s.core k).queries.any (fun e => e.2.isSome)

/-- The core is token-deadlocked (R304). -/
def State.tokenDeadlocked (s : State) (k : CoreId) : Bool :=
  let c := s.core k
  let ctl := c.controlBlocked k
  let es : List Engine := [.v, .m, .d, .f]
  (if c.front.run then ctl.isSome else true) && es.all (fun e => (c.blockedOn e).isSome || c.engineIdle e)
    && ((c.front.run && ctl.isSome) || es.any (fun e => (c.blockedOn e).isSome)) && !s.memOutstanding k

/-- The `xaddr` layout of R305. -/
def Core.deadWord (c : Core) (k : CoreId) : Word :=
  let ctl := if c.front.run then c.controlBlocked k else none
  let part (x : Option (Bool × BitVec 5)) : Nat :=
    match x with
    | some (push, q) => q.toNat + (if push then 32 else 0)
    | none => 0
  BitVec.ofNat 64 (part ctl + 2 ^ 6 * part (c.blockedOn .v) + 2 ^ 12 * part (c.blockedOn .m)
    + 2 ^ 18 * part (c.blockedOn .d) + 2 ^ 24 * part (c.blockedOn .f))

/-- Count `ck` more cycles of token deadlock; what the 64th brings (R305, R306). -/
def countDead (k : CoreId) (ck : Nat) (halted : Bool) (act : State → State) (s : State) : State :=
  let c := s.core k
  if c.front.run = halted ∨ (s.table (tableOf k)).stop then s
  else if !s.tokenDeadlocked k then s.setCore k { c with deadCk := 0 }
  else if c.deadCk + ck < 64 then s.setCore k { c with deadCk := c.deadCk + ck }
  else act s

/-- `TOKDEAD`: precise at the waiting slot (R305). -/
def deadTrap (k : CoreId) (s : State) : State :=
  let c := s.core k
  let r := c.front.resume
  takeTrap k (Trap.tokdead (c.deadWord k)) r.1 r.2 s

/-- The token deadlock of a halted core: its queues and tokens go, and an event is raised (R306). -/
def deadEvent (k : CoreId) (s : State) : State :=
  let w := (s.core k).deadWord k
  (s.modCore k (fun c => { c.cancelQueues with tok := {}, deadCk := 0 })).event
    (dieOf k) 6 (k.toNat % 256) [w]

/-! ## Pending faults and interrupts (R389, R394) -/

/-- The core takes its oldest request as `INTR` (R394); a request yields to every fault, but for one that waits for the
core to leave a join (R148). -/
def takeIntr (k : CoreId) (s : State) : Option State :=
  let c := s.core k
  match c.irq with
  | [] => none
  | w :: rest =>
    if c.front.run && c.ctl.ie && c.front.pfx.isNone && !c.inBar && !c.inLoad && !c.midway && !(s.table (tableOf k)).stop
        && (!c.marked || decide (c.seat.st = .waiting)) then
      let r := c.front.resume
      some (takeTrap k (Trap.intr w) r.1 r.2 (s.setCore k { c with irq := rest }))
    else none

/-- What is taken at an instruction boundary before anything else: a pending fault, then an interrupt (R389, R394). -/
def atBoundary (k : CoreId) (s : State) : Option State := (takePending k s).orElse (fun _ => takeIntr k s)

/-! ## The events of the engines -/

/-- INSTRUCTION_START: the oldest instruction of an engine that can start or go on. -/
def execInstructionStart (k : CoreId) (e : Engine) (s : State) : Host.Outcome State Fault Refusal := .next (engineMove k e s)

/-- INSTRUCTION_RETIRE (R300). -/
def execInstructionRetire (k : CoreId) (e : Engine) (s : State) : Host.Outcome State Fault Refusal :=
  .next (retireEngine k e s)

/-- TOKDEAD of a core that has not halted (R305). DESIGN CHOICE, log entry 58. -/
def execTokdead (k : CoreId) (ck : Nat) (s : State) : Host.Outcome State Fault Refusal :=
  .next (countDead k ck false (deadTrap k) s)

/-- TOKDEAD of a halted core (R306). -/
def execTokdeadEvent (k : CoreId) (ck : Nat) (s : State) : Host.Outcome State Fault Refusal :=
  .next (countDead k ck true (deadEvent k) s)

/-- GANG_START (R153, R311). -/
def execGangStart (tb : TableId) (q : BitVec 2) (s : State) : Host.Outcome State Fault Refusal := .next (gangStart tb q s)

/-- GANG_COMPLETION (R312). -/
def execGangCompletion (tb : TableId) (q : BitVec 2) (s : State) : Host.Outcome State Fault Refusal :=
  .next (gangCompletion tb q s)

/-- TRAP_ENTRY: the trap of a pending fault (R389, R390). -/
def execTrapEntry (k : CoreId) (s : State) : Host.Outcome State Fault Refusal := .next ((takePending k s).getD s)

/-- INTERRUPT_REQUEST: a source raises a request with its cause word (R394, R444). -/
def execInterruptRequest (k : CoreId) (cause : Word) (s : State) : Host.Outcome State Fault Refusal :=
  .next (s.modCore k (fun c => { c with irq := c.irq ++ [cause] }))

/-- INTR (R394). -/
def execIntr (k : CoreId) (s : State) : Host.Outcome State Fault Refusal := .next ((takeIntr k s).getD s)

/-- The tower bytes of its own that the matrix command of a core reads. -/
def Core.ownRuns (k : CoreId) (c : Core) (e : QEntry) : Runs :=
  match e.ins with
  | .mEpiLd .. => [(shBase e.cap.sha - windowBase, 768)]
  | _ => opSpans c.tower e.cap.sha ++ (if bOwner k e = k then opSpans c.tower e.cap.shb else [])

/-- AUTOMATIC_REFETCH: the running matrix command of a core, which reads the poisoned sector of a tower offset, goes on: what
it consumes is discarded, refetched and replayed, or traps (R397, R398). -/
def execAutomaticRefetch (k : CoreId) (off : BitVec 25) (s : State) : Host.Outcome State Fault Refusal :=
  let c := s.core k
  .next (match c.runningM with
    | none => s
    | some n =>
      if c.tower.poisoned off.toNat && ((c.mq[n]?).map (fun e => (Core.ownRuns k c e).any (fun r =>
          decide (r.1 / 32 ≤ off.toNat / 32) && decide (off.toNat / 32 * 32 < r.1 + r.2)))).getD false then
        engineTurnLate .whole k .m n s
      else s)

/-- The entry of an engine that waits at a ring, if its turn has come. -/
def ringTurn (k : CoreId) (e : Engine) (p : Instr → RingRes → Bool) (s : State) : State :=
  match ((s.core k).queue e).zipIdx.find? (fun x => x.1.started && !x.1.finished && p x.1.ins (RingRes.of x.1.resume)) with
  | some (_, n) => engineTurnLate .whole k e n s
  | none => s

/-- ACQUIRE_FILL: a ring instruction that waits for an empty slot tries again (R216, R217). -/
def execAcquireFill (k : CoreId) (e : Engine) (s : State) : Host.Outcome State Fault Refusal :=
  .next (ringTurn k e (fun i r =>
    match i with
    | .dCopyRg .. => r.di.isNone
    | .fRing .. => r.di.isNone
    | _ => false) s)

/-- ACQUIRE_DRAIN: a ring instruction that waits for a full slot tries again (R216, R217). -/
def execAcquireDrain (k : CoreId) (e : Engine) (s : State) : Host.Outcome State Fault Refusal :=
  .next (ringTurn k e (fun i r =>
    match i with
    | .fRing _ _ _ sr _ => decide (sr = 1#1) && r.sj.isNone
    | _ => false) s)

/-- DRILL_LINE_BEAT: the next beat of a core's broadcast (R353). -/
def execDrillLineBeat (k : CoreId) (s : State) : Host.Outcome State Fault Refusal :=
  .next (match (s.core k).dq.zipIdx.find? (fun x => x.1.started && !x.1.finished &&
      (match x.1.ins with | .dBcast .. => true | _ => false)) with
    | some (_, n) => engineTurnLate .whole k .d n s
    | none => s)

end Sys2Proof.Machine
end

