-- ==== Sys2Proof/Machine/Dealer.lean ====
section
/-! DEFINITION. Fetching (R13, R14, R42, R49, R139 to R144), the control unit's turn (R28 to R31), the end of a bundle
(R30, R83, R90, R148, R149), the return from a trap (R89, R393), and the events of the seats. -/

namespace Sys2Proof.Machine

/-! ## Fetching -/

/-- Replace slot j of a bundle. -/
def putSlot (b : BitVec 256) (j : Nat) (w : BitVec 32) : BitVec 256 :=
  (b &&& ~~~((0xFFFFFFFF#256) <<< (32 * j))) ||| (w.zeroExtend 256 <<< (32 * j))

/-- Patch a bundle of a task's kernel: a listed slot with routing code 7 takes its parameter word (R42, R108). -/
def Task.patchBundle (t : Task) (pc : Pc) (b : BitVec 256) : BitVec 256 :=
  let i := (pc - t.entry).toNat
  if i < t.nbnd then
    t.patch.foldl (fun b p =>
      if p.1 / 8 = i ∧ p.1 % 8 ≠ 0 ∧ bundleCode b (p.1 % 8) = 7#4 then
        putSlot b (p.1 % 8) (BitVec.ofNat 32 (Memory.readNat t.params (4 * p.2) 4))
      else b) b
  else b

/-- The words that the fetch of a core may still find in place of memory's: the table's instruction cache for the stream,
the core's own private fetch buffer when it is folded (R277, R278). -/
def State.icacheOf (s : State) (k : CoreId) : List CodeWord :=
  if (s.core k).seat.st = .seated then (s.table (tableOf k)).icache else (s.core k).icache

/-- The cached word for slot j of a bundle that a core fetches. -/
def CodeWord.hit (c : Ctl) (pc : Pc) (j : Nat) (w : CodeWord) : Bool :=
  decide (w.asid = c.asid) && decide (w.xe = c.xe) && decide (w.slot = 8 * pc.toNat + j)

/-- A bundle as fetched: each slot is any one of memory's word and a cached older one (R7, R278). DESIGN CHOICE, log
entry 69. -/
def staleBundle (ws : List CodeWord) (c : Ctl) (pc : Pc) (tick : Nat) (b : BitVec 256) : BitVec 256 :=
  (List.range 8).foldl (fun b j =>
    match ws.find? (CodeWord.hit c pc j) with
    | some w => if Config.freeBool tick j then putSlot b j w.word else b
    | none => b) b

/-- Fetch the bundle at an address as core k's control unit reads memory, patched (R14, R42, R240, R266). -/
def State.fetch (s : State) (k : CoreId) (pc : Pc) : Got (BitVec 256) :=
  let c := (s.core k).ctl
  match s.load k c.asid c.xe c.sup .fetch 0 (pc.toNat * 32) 32 with
  | .ok bs s' =>
    let b0 := BitVec.ofNat 256 (bytesToNat bs)
    let ws := s.icacheOf k
    let b := if ws.isEmpty then b0 else staleBundle ws c pc s.tick b0
    .ok (match (s.table (tableOf k)).task with
      | some t => t.patchBundle pc b
      | none => b) (if ws.isEmpty then s' else s'.advanceTick)
  | .trap t s' => .trap t s'
  | .wait => .wait

/-- The words of a bundle in memory come into the cache that a core fetches through; they stay while memory changes
(R278). -/
def prefetch (k : CoreId) (pc : Pc) (s : State) : State :=
  let c := (s.core k).ctl
  match s.load k c.asid c.xe c.sup .fetch 0 (pc.toNat * 32) 32 with
  | .ok bs s' =>
    let b := BitVec.ofNat 256 (bytesToNat bs)
    let add (ws : List CodeWord) : List CodeWord :=
      (List.range 8).map (fun j =>
        { asid := c.asid, xe := c.xe, slot := 8 * pc.toNat + j, word := b.extractLsb' (32 * j) 32 })
        ++ ws.filter (fun w => decide (w.slot / 8 ≠ pc.toNat) || decide (w.asid ≠ c.asid) || decide (w.xe ≠ c.xe))
    if (s.core k).seat.st = .seated then s'.modTable (tableOf k) (fun t => { t with icache := add t.icache })
    else s'.modCore k (fun c => { c with icache := add c.icache })
  | _ => s

/-- A bundle holds a control transfer (R29). -/
def hasTransfer (b : BitVec 256) : Bool :=
  match decodeBundle b with
  | .illenc _ => false
  | .ok items => items.any (fun it => it.ins.isTransfer)

/-- The smallest next index of the seated cores (R141). -/
def State.minNext (s : State) (tb : TableId) : Nat :=
  (s.seated tb).foldl (fun m k => min m (s.core k).seat.n) (s.table tb).f

/-- The dealer is Dealing: it may fetch bundle F, at this address (R141, R142). -/
def State.dealAddr (s : State) (tb : TableId) : Option (CoreId × Pc) :=
  let t := s.table tb
  match s.head tb, t.succ with
  | some h, some p => if t.f - s.minNext tb < 64 ∧ ¬ t.stop then some (h, p) else none
  | _, _ => none

/-- The dealer after it has fetched a bundle: F counts on, the replay buffer keeps 64, the successor is fixed unless the
bundle holds a transfer (R139, R141, R142). -/
def Table.dealt (t : Table) (p : Pc) (b : BitVec 256) : Table :=
  { t with f := t.f + 1, spc := p, buf := ((p, b) :: t.buf).take 64
           succ := if hasTransfer b then none else some (p + 1#51), join := none }

/-- The dealer fetches stream bundle F, if it may (R141, R142); a fetch that traps changes nothing here. -/
def dealerFetch (tb : TableId) (s : State) : Got Unit :=
  match s.dealAddr tb with
  | none => .wait
  | some (h, p) =>
    match s.fetch h p with
    | .ok b s' => .ok () (s'.modTable tb (fun t => t.dealt p b))
    | .trap t s' => .trap t s'
    | .wait => .wait

/-- The folded cores that wait for their next bundle (R144). -/
def State.requesters (s : State) (tb : TableId) : List CoreId :=
  (s.seatsIn tb (fun x => decide (x = .folded))).filter (fun k =>
    (s.core k).front.run && (s.core k).front.bundle.isNone)

/-- The requester the private port serves next: round-robin by seat number (R144). -/
def State.served (s : State) (tb : TableId) : Option CoreId :=
  let rs := s.requesters tb
  match rs.find? (fun k => decide ((s.table tb).port.toNat < (seatOf k).toNat)) with
  | some k => some k
  | none => rs.head?

/-- A core takes a bundle. -/
def placeBundle (k : CoreId) (p : Pc) (b : BitVec 256) (s : State) : State :=
  s.modCore k (fun c => { c with front := { c.front with bundle := some b, pc := p } })

/-- The private port serves its next folded core (R14, R144); a fetch that faults names the bundle at slot 1 (R395). -/
def privateFetch (tb : TableId) (s : State) : State :=
  if (s.table tb).stop then s
  else
    match s.served tb with
    | none => s
    | some k =>
      let f := (s.core k).front
      let s0 := s.modTable tb (fun t => { t with port := seatOf k })
      match s0.fetch k f.pc with
      | .ok b s' => placeBundle k f.pc b s'
      | .trap t s' => if (s.core k).midway then s else takeTrap k t f.pc 1 s'
      | .wait => s

/-- A seated core routes stream bundle n (R141). -/
def takeDealt (k : CoreId) (s : State) : State :=
  let n := (s.core k).seat.n
  let t := s.table (tableOf k)
  match (if n < t.f then t.buf[t.f - 1 - n]? else none) with
  | some (p, b) => (placeBundle k p b s).modSeat k (fun x => { x with n := n + 1 })
  | none => s

/-- A core without a bundle looks for its next one. -/
def takeBundle (k : CoreId) (s : State) : State :=
  let c := s.core k
  let tb := tableOf k
  match c.seat.st with
  | .seated =>
    if c.seat.n < (s.table tb).f then takeDealt k s
    else
      match dealerFetch tb s with
      | .ok _ s' => takeDealt k s'
      | .trap t s' => takeTrap k t (((s.table tb).succ).getD 0#51) 1 s'
      | .wait => s
  | .folded => privateFetch tb s
  | _ => s

/-! ## Leaving a bundle -/

/-- The control unit goes to its next bundle, at a slot. -/
def Front.leave (f : Front) (pc : Pc) (slot : Nat) : Front :=
  { f with pc := pc, bundle := none, slot := slot, pend := .none, pendAt := 1, started := false, done := false, vec := false }

/-- A core's control unit goes to its next bundle. -/
def goNext (k : CoreId) (pc : Pc) (slot : Nat) (s : State) : State :=
  s.modCore k (fun c => { c with front := c.front.leave pc slot })

/-- What the head seat flushed with `iflush` is fetched afresh (R277, R278). -/
def Table.flushed (t : Table) : Table :=
  { t with icache := t.icache.filter (fun w => !t.flushes.any (fun r => w.meets r.1 r.2)), flushes := [] }

/-- A core's transfer is taken: the head seat's brings what it flushed to effect (R143, R277). -/
def transferTaken (k : CoreId) (s : State) : State :=
  if s.head (tableOf k) = some k then s.modTable (tableOf k) Table.flushed else s

/-- Fix the successor of the stream's latest bundle, when the core is head seat and stands on it (R139). -/
def fixSucc (k : CoreId) (pc : Pc) (s : State) : State :=
  let tb := tableOf k
  let t := s.table tb
  if s.head tb = some k ∧ (s.core k).seat.n = t.f ∧ t.succ = none then
    s.setTable tb { t with succ := some pc }
  else s

/-- A seated core folds, pushing an entry (R148). -/
def foldSeat (j : Option (BitVec 4)) (x : Seat) : Seat :=
  { x with st := .folded
           stack := match j with
             | some j => pushJoin x.stack (.id j)
             | none => x.stack }

/-- The end of a bundle whose next one is `pc`, resumed at `slot`: a seated core stays with the stream or folds with the
join id j; it waits while the stream's successor is not fixed (R83, R141, R148). -/
def leaveBundle (k : CoreId) (pc : Pc) (slot : Nat) (j : BitVec 4) (s : State) : State :=
  let c := s.core k
  if c.seat.st = .seated then
    let s1 := fixSucc k pc s
    match (s1.table (tableOf k)).successor c.seat.n with
    | none => s
    | some p => goNext k pc slot (if p = pc then s1 else s1.modSeat k (foldSeat (some j)))
  else goNext k pc slot s

/-- The end of a bundle that holds `fold` (R149). -/
def leaveFold (k : CoreId) (s : State) : State :=
  let pc := (s.core k).front.pc + 1#51
  let s1 := if (s.core k).seat.st = .seated then (fixSucc k pc s).modSeat k (foldSeat none) else s
  goNext k pc 1 s1

/-- The end of a bundle that holds `halt`: the core goes out (R90, R148). -/
def leaveHalt (k : CoreId) (s : State) : State :=
  s.modCore k (fun c => { c with front := c.front.stop, seat := { c.seat with st := .out, stack := [] } })

/-- The end of a bundle that held a completed `join`: on to the stream's successor (R150). -/
def leaveJoin (k : CoreId) (s : State) : State :=
  match (s.table (tableOf k)).successor (s.core k).seat.n with
  | some p => leaveBundle k p 1 0#4 s
  | none => leaveBundle k ((s.core k).front.pc + 1#51) 1 0#4 s

/-! ## `eret` at the end of its bundle (R89, R393) -/

/-- The entry whose fault the handler of a level disposes of. -/
def faultedEntry (lvl : BitVec 8) (q : List QEntry) : Option (QEntry × Nat) :=
  q.zipIdx.find? (fun p => p.1.faulted.isSome && decide (p.1.flev = lvl))

/-- A removed multiply or `m.zero` had faulted on a consumed operand while in the window (R309, R393); no command of a handler
is in it (R400). -/
def dropsWindow (q : QEntry) : Bool :=
  (match mDesc q.ins with
   | some (kind, _) => decide (kind ≠ .scacc)
   | none => false) &&
  (match q.faulted with
   | some t => decide (t.code = 0x10#8) && !t.wl
   | none => false)

/-- The window is replayed before an entry goes on: it took `TPOISON` with WL = 0 (R393, R397, R399). -/
def replays (q : QEntry) : Bool :=
  match q.faulted with
  | some t => decide (t.code = 0x10#8) && !t.wl
  | none => false

/-- Apply DISP to the faulting entry of an engine; none while DISP 2 waits for room (R393, R399, R400). -/
def dispose (e : Engine) (disp : Nat) (c : Core) : Option Core :=
  match faultedEntry c.seat.depth (c.queue e) with
  | none => some c
  | some (q, n) =>
    if disp = 0 then some (c.setQueue e ((c.queue e).set n { q with faulted := none, replay := replays q }))
    else if disp = 2 ∧ ¬ c.tok.room q.ins.tok? then none
    else
      let c1 := c.setQueue e ((c.queue e).eraseIdx n)
      let c2 := if dropsWindow q && decide (c.seat.depth = 1#8) then
          { c1 with mtx := { c1.mtx with window := .none, cmds := [], faultAt := none } } else c1
      some (if disp = 2 then { c2 with tok := c2.tok.push q.ins.tok? } else c2)

/-- The engine of an `xcause.ENG` value that has a queue. -/
def engineOfNum (n : Nat) : Option Engine :=
  match n with
  | 1 => some .v
  | 2 => some .m
  | 3 => some .d
  | 4 => some .f
  | _ => none

/-- Unfreeze the entries of a level (R389, R393). -/
def unfreeze (lvl : BitVec 8) (q : List QEntry) : List QEntry :=
  q.map (fun e => if e.flev = lvl then { e with flev := 0#8 } else e)

/-- The control unit comes back to a bundle and slot from the place that was frozen there: its marks at the same slot
(R303), and the transfer that an earlier slot had noted (R31). DEDUCED, log entry 12. -/
def Front.comeBack (f : Front) (pc : Pc) (slot : Nat) (e : CEntry) : Front :=
  if e.slot = slot then
    { (f.leave pc e.at_) with started := e.started, done := e.done, pend := e.pend, pendAt := e.pendAt }
  else { (f.leave pc slot) with pend := if e.pendAt < slot then e.pend else .none, pendAt := e.pendAt }

/-- The core after `eret`, its faulting entry disposed of: the level's entries go on, the depth falls by one, the status
is restored, and the control unit stands at `xpc` with what it had there (R89, R303, R393). -/
def eretCore (c : Core) : Core :=
  let lvl := c.seat.depth
  let pc : Pc := c.ctl.xpc.extractLsb' 3 51
  let slot : Nat := if c.ctl.xpc.extractLsb' 0 3 = 0#3 then 1 else (c.ctl.xpc.extractLsb' 0 3).toNat
  let mark := c.front.frozen.find? (fun e => decide (e.flev = lvl ∧ e.pc = pc))
  let c1 := if lvl = 0#8 then c else c.mapQueues (unfreeze lvl)
  { c1 with
      ctl := { c.ctl with cst := eretCst c.ctl.cst }
      seat := { c.seat with depth := if lvl = 0#8 then 0#8 else lvl - 1#8 }
      front :=
        { (match mark with
           | some e => c.front.comeBack pc slot e
           | none => c.front.leave pc slot) with
            frozen := c.front.frozen.filter (fun e => decide (e.flev ≠ lvl)) } }

/-- The return of R393: it waits until every engine instruction that is not frozen has retired, and for room for the
token of DISP 2; a seated core's next bundle then follows R83. -/
def leaveEret (k : CoreId) (s : State) : State :=
  let c := s.core k
  if ([.v, .m, .d, .f] : List Engine).any (fun e => !(c.engineIdle e)) then s
  else
    let pc : Pc := c.ctl.xpc.extractLsb' 3 51
    let s0 := if c.seat.st = .seated then fixSucc k pc s else s
    let next := if c.seat.st = .seated then (s0.table (tableOf k)).successor c.seat.n else some pc
    let disposed :=
      match engineOfNum (field c.ctl.xcause 8 3).toNat with
      | some e => dispose e (field c.ctl.xcause 16 2).toNat c
      | none => some c
    match next, disposed with
    | some p, some c' =>
      let s1 := (transferTaken k s0).setCore k (eretCore c')
      let s2 := if p = pc then s1 else s1.modSeat k (foldSeat (some 0#4))
      (takePending k s2).getD s2
    | _, _ => s

/-- The end of a bundle (R30). -/
def endBundle (k : CoreId) (s : State) : State :=
  let f := (s.core k).front
  match f.pend with
  | .none => leaveBundle k (f.pc + 1#51) 1 0#4 s
  | .goto p j taken => leaveBundle k p 1 j (if taken then transferTaken k s else s)
  | .fold => leaveFold k s
  | .join => leaveJoin k s
  | .eret => leaveEret k s
  | .halt => leaveHalt k s

/-! ## The control unit's turn -/

/-- The control unit stands at an instruction: its later slots, and the core that executes it. -/
def standAt (k : CoreId) (it : Item) (s : State) : State :=
  { s.modCore k (fun c => { c with front := { c.front with slot := it.slot, next := it.slot + it.len, vec := false } })
      with exe := k }

/-- The slots of the control queue that frozen control instructions occupy (R299, R389). -/
def Front.frozenSlots (f : Front) : Nat :=
  f.frozen.foldl (fun n e => n + (e.ins.map (fun i => i.slots)).getD 0) 0

/-- The control queue has room for an instruction beside the frozen ones (R46, R299, R392). DESIGN CHOICE, log
entry 68. -/
def Front.controlRoom (f : Front) (it : Item) : Bool :=
  decide (it.eng ≠ .c) || decide (f.frozenSlots + it.len ≤ Engine.c.depth)

/-- What a control unit does at its turn: it executes an instruction, or something else has happened. -/
inductive Prep where
  | run (i : Instr) (s : State)
  | out (s : State)

/-- The instruction the control unit executes from its bundle, or the end of the bundle, or the trap of one that does not
decode (R28, R38, R39). -/
def bundlePrep (k : CoreId) (b : BitVec 256) (s : State) : Prep :=
  let f := (s.core k).front
  match decodeBundle b with
  | .illenc j => .out (takeTrap k (Trap.illenc (BitVec.ofNat 64 (f.pc.toNat * 32 + 4 * j))) f.pc 1 s)
  | .ok items =>
    match items.find? (fun it => decide (f.slot ≤ it.slot)) with
    | some it => if f.controlRoom it then .run it.ins (standAt k it s) else .out s
    | none => .out (endBundle k s)

/-- The turn of the matrix command that has started and not finished, when it can go on (R308, R388). -/
def matrixFirst (k : CoreId) (s : State) : Option State :=
  match (s.core k).runningM with
  | some n => let s' := engineTurnLate .whole k .m n s; if s' = s then none else some s'
  | none => none

/-- A core's control turn: a pre-emption stops it at a boundary (R403); a running matrix command, a pending fault, then an
interrupt, comes first (R388, R389, R394); else the next instruction, of the bundle at hand or of the one it fetches now,
or the end of the bundle. DEDUCED, log entry 38. -/
def controlPrep (k : CoreId) (s : State) : Prep :=
  let c := s.core k
  if !c.front.run then .out s
  else if c.front.pfx.isSome then
    match c.front.bundle with
    | some b => bundlePrep k b s
    | none => .out s
  else if (s.table (tableOf k)).stop then .out s
  else
    match matrixFirst k s with
    | some s' => .out s'
    | none =>
      match atBoundary k s with
      | some s' => .out s'
      | none =>
        if s.faultWaits k then .out s
        else
          match c.front.bundle with
          | some b => bundlePrep k b s
          | none =>
            let s' := takeBundle k s
            match (s'.core k).front.bundle with
            | some b => bundlePrep k b s'
            | none => .out s'

/-! ## The events of dealers, seats and synchronisation -/

/-- The instruction at which a control unit that runs stands (R403). -/
def State.itemAt (s : State) (k : CoreId) : Option Item :=
  if (s.core k).front.run && !(s.table (tableOf k)).stop then (s.core k).front.item else none

/-- DEALER_FETCH (R141, R142). -/
def execDealerFetch (tb : TableId) (s : State) : Host.Outcome State Fault Refusal :=
  .next (match dealerFetch tb s with
    | .ok _ s' => s'
    | .trap _ _ => s
    | .wait => s)

/-- PRIVATE_FETCH (R144). -/
def execPrivateFetch (tb : TableId) (s : State) : Host.Outcome State Fault Refusal := .next (privateFetch tb s)

/-- Hand over the engine instruction at which a control unit stands (R46, R58). -/
def handTurn (k : CoreId) (it : Item) (s : State) : State :=
  let s1 := standAt k it s
  let c := s1.core k
  let q : QEntry := { ins := it.ins, slots := it.ins.slots, cap := capOf it.ins c }
  match it.ins, c.front.pfx with
  | .mGang m g, _ => gangPrefix m g k s1
  | i, some (mask, gq) =>
    let away (s : State) : State := leaveSlot k (s.modCore k (fun c => { c with front := { c.front with pfx := none } }))
    if mask.getLsbD (memberOf k).toNat then
      let index := if c.seat.st = .seated then some (c.seat.n - 1, c.front.slot) else none
      away (enqueue k .m { q with slots := i.slots + 1, gang := some { mask := mask, gq := gq, index := index } } s1)
    else away s1
  | _, none => if it.eng = .c then s else handOver k it.eng q s1

/-- What a control unit does at an event that goes on with the instruction at its slot: what is taken at the boundary comes
first (R388, R394). -/
def atItem (k : CoreId) (s : State) (go : Item → Host.Outcome State Fault Refusal) : Host.Outcome State Fault Refusal :=
  match s.itemAt k with
  | none => .next s
  | some it =>
    match atBoundary k s with
    | some s' => .next s'
    | none => if s.faultWaits k then .next s else guardTrap k s (go it)

/-- INSTRUCTION_HAND_OVER: the engine instruction at which the control unit stands goes to its queue, if there is room
(R46). -/
def execInstructionHandOver (k : CoreId) (s : State) : Host.Outcome State Fault Refusal :=
  atItem k s (fun it => .next (handTurn k it s))

/-- JOIN_COMPLETE (R146). -/
def execJoinComplete (tb : TableId) (s : State) : Host.Outcome State Fault Refusal :=
  .next (if (s.table tb).stop then s else joinTry tb s)

/-- VACANCY_RULE: the lowest waiting core becomes the stream (R147). -/
def execVacancyRule (tb : TableId) (s : State) : Host.Outcome State Fault Refusal := .next (seatsSettle tb s)

/-- OBJECT_GRANT: the first acquirer of an object tries its step (R254). -/
def execObjectGrant (obj : Nat) (s : State) : Host.Outcome State Fault Refusal :=
  match (s.objQueue obj).head? with
  | none => .next s
  | some (k, _) =>
    atItem k s (fun it =>
      match it.ins with
      | .acqX a t => execAcqX a t (standAt k it s)
      | .acqS a t => execAcqS a t (standAt k it s)
      | _ => .next s)

/-- FENCE_COMPLETE: a core's fence ends when what it orders is performed (R251, R275). -/
def execFenceComplete (k : CoreId) (s : State) : Host.Outcome State Fault Refusal :=
  atItem k s (fun it =>
    match it.ins with
    | .fence sc t => execFence sc t (standAt k it s)
    | .iflush a b t => execIflush a b t (standAt k it s)
    | _ => .next s)

/-- BARRIER_COMPLETE of the instance a core takes part in (R157). -/
def execBarrierComplete (k : CoreId) (lvl : BitVec 3) (id : BitVec 4) (s : State) : Host.Outcome State Fault Refusal :=
  .next (barTry k lvl id s)

end Sys2Proof.Machine
end

