-- ==== Sys2Proof/Machine/TowerEvents.lean ====
section
/-! DEFINITION. Events of towers, translations and attention: refresh (R200 to R204, R207), walks and invalidations (R241
to R243), query packets, scans and triples (R369 to R375). -/

namespace Sys2Proof.Machine

/-! ## Refresh -/

/-- A number lies in the n numbers from a base. -/
def inRange (base n x : Nat) : Bool := decide (base ≤ x) && decide (x < base + n)

/-- Refresh rewrites a subarray's 64 rows and its two spares: single-bit errors are corrected, worse ones poison their
sector; the deferral mark goes and the age restarts (R200, R202, R207). The count is of uncorrectable words. -/
def Tower.refresh (t : Tower) (sub : BitVec 10) : Tower × Nat :=
  let w := rowKey sub.toNat 0 / 8
  let two := t.err2.filter (inRange w 4224)
  ({ t with
      err1 := t.err1.filter (fun x => !inRange w 4224 x)
      err2 := t.err2.filter (fun x => !inRange w 4224 x)
      poison := two.foldl (fun m x => Marks.put m (x / 4) true) t.poison
      defer := Marks.put t.defer sub.toNat false
      freed := t.freed.set sub 0
      age := t.age.set sub 0 }, two.length)

/-- The line pinned in a subarray (R196). -/
def Tower.pinnedIn (t : Tower) (sub : BitVec 10) : Option (BitVec 5 × Line) :=
  (t.lines.filterMap (fun e => e.2.map (fun l => (e.1, l)))).find? (fun e => decide (subOf (e.2.row.toNat * 512) = sub.toNat))

/-- The latest age in ms at which a subarray is refreshed (R200): the hard deadline of 8 s for a pinned or deferred one,
else 50 ms after 4 s or after the release of its pinned line; above 95 °C 4 s, or at once. A deferred one whose line was
released has 8 s: DESIGN CHOICE, log entry 89. -/
def Tower.latest (t : Tower) (sub : BitVec 10) : Nat :=
  if t.hot then max 4000 (t.age.get 0 sub)
  else if (t.pinnedIn sub).isSome || Marks.has t.defer sub.toNat then 8000
  else min 8000 (max 4050 (t.freed.get 0 sub + 50))

/-- The earliest age in ms at which a subarray is refreshed (R200). -/
def Tower.earliest (t : Tower) (sub : BitVec 10) : Nat :=
  if t.hot then 0 else if Marks.has t.defer sub.toNat then 8000 else 4000

/-- The uncorrectable event of a core's tower (R205, R207). -/
def towerEvent (k : CoreId) (n : Nat) (s : State) : State :=
  if n = 0 then s else s.event (dieOf k) 2 (tableOf k).toNat

/-- The subarray's age is now `age`, which never runs back and never passes the latest age for its refresh; it is not
refreshed. -/
def ageTo (k : CoreId) (sub : BitVec 10) (age : Nat) (s : State) : State :=
  s.modCore k (fun c =>
    { c with tower := { c.tower with
        age := c.tower.age.set sub (max (min age (c.tower.latest sub)) (c.tower.age.get 0 sub)) } })

/-- SUBARRAY_REFRESH: at the age given, the subarray is refreshed if the rules of R200 let it: no line pinned in it, and
the age in the span its mark allows. -/
def execSubarrayRefresh (k : CoreId) (sub : BitVec 10) (age : Nat) (s : State) : Host.Outcome State Fault Refusal :=
  let t := (s.core k).tower
  let due := decide (t.age.get 0 sub ≤ age) && decide (t.earliest sub ≤ age) && decide (age ≤ t.latest sub)
  .next (if due && (t.pinnedIn sub).isNone then
      let r := t.refresh sub
      towerEvent k r.2 (s.modCore k (fun c => { c with tower := r.1 }))
    else ageTo k sub age s)

/-- FORCED_REFRESH: a subarray still pinned at its deadline: the line is written back, the subarray is refreshed, the row
is read back and the pin stays, with its fate (R204). -/
def execForcedRefresh (k : CoreId) (sub : BitVec 10) (age : Nat) (s : State) : Host.Outcome State Fault Refusal :=
  let t := (s.core k).tower
  match t.pinnedIn sub with
  | none => .next (ageTo k sub age s)
  | some (n, l) =>
    .next (if age = t.latest sub then
        let r := (t.writeBack l).refresh sub
        let t2 := { r.1 with lines := r.1.lines.set n (some (r.1.capture l.row l.keep)) }
        towerEvent k r.2 (s.modCore k (fun c => { c with tower := t2 }))
      else ageTo k sub age s)

/-- A subarray of a tower waits for its forced refresh (R200, R204). -/
def Tower.forcedDue (t : Tower) : Bool :=
  t.lines.any (fun e =>
    match e.2 with
    | some l => let sub := BitVec.ofNat 10 (subOf (l.row.toNat * 512)); decide (t.latest sub ≤ t.age.get 0 sub)
    | none => false)

/-- A word of a tower comes to have one bit in error, or more, where the word is held (R205). -/
def wordUpset (k : CoreId) (off : BitVec 25) (two : Bool) (s : State) : State :=
  s.modCore k (fun c =>
    let t := c.tower
    let o := off.toNat
    { c with tower :=
      match t.lineAt o with
      | some (n, l) =>
        let w := o % 512 / 8
        { t with lines := t.lines.set n (some
            (if two then { l with err2 := Marks.put l.err2 w true } else { l with err1 := Marks.put l.err1 w true })) }
      | none =>
        let w := t.key o / 8
        if two then { t with err2 := Marks.put t.err2 w true } else { t with err1 := Marks.put t.err1 w true } })

/-- A bit of a tower cell comes to be stuck at 0 (R295). DEDUCED, log entry 73. -/
def cellStuck (k : CoreId) (sub : BitVec 10) (row : BitVec 7) (byte : BitVec 9) (b : BitVec 3) (s : State) : State :=
  let key := rowKey sub.toNat row.toNat + byte.toNat
  if 66 ≤ row.toNat then s
  else
    s.modCore k (fun c =>
      let t := { c.tower with stuck := Marks.put c.tower.stuck (8 * key + b.toNat) true }
      { c with tower := { t with cells := Memory.set t.cells key (t.takes key (Memory.get t.cells key)) } })

/-- TOWER_OVER_TEMPERATURE (R200). -/
def execTowerOverTemperature (k : CoreId) (s : State) : Host.Outcome State Fault Refusal :=
  .next (s.modCore k (fun c => { c with tower := { c.tower with hot := true } }))

/-- TOWER_TEMPERATURE_FALL (R200). -/
def execTowerTemperatureFall (k : CoreId) (s : State) : Host.Outcome State Fault Refusal :=
  .next (s.modCore k (fun c => { c with tower := { c.tower with hot := false } }))

/-! ## Translation caches and shootdown (R241 to R243) -/

/-- The valid range entries of an address space overlap the page of an entry (R241). -/
def State.rangeMeets (s : State) (d : DieId) (asid : BitVec 16) (e : TlbEntry) : Bool :=
  (List.range 32).any (fun i =>
    match (rangeWords (s.spaceWord d) (s.descAt d asid) i).bind rangeSpan with
    | some (base, limit) => decide (base * 4096 ≤ e.last) && decide (e.first ≤ limit * 4096 + 4095)
    | none => false)

/-- What is cached of a translation: a page partly covered by a range only as the 4 KiB that holds the address (R241); of a
range, what lower-numbered ones leave it is all that its translation gives. -/
def State.cachePiece (s : State) (d : DieId) (va : Nat) (e : TlbEntry) : TlbEntry :=
  if !e.range && s.rangeMeets d e.asid e then
    let first := va / 4096 * 4096
    { e with first := first, last := first + 4095, pa := e.pa + (first - e.first) }
  else e

/-- Insert a translation, the oldest leaving a full cache: of its kind in a core's, of all in a table's (R241). DESIGN
CHOICE, log entry 29. -/
def tlbInsert (pages ranges all : Nat) (e : TlbEntry) (l : List TlbEntry) : List TlbEntry :=
  let l1 := e :: l.filter (fun x => decide (x ≠ e))
  ((l1.zipIdx.filter (fun p =>
    decide (((l1.take p.2).filter (fun x => decide (x.range = p.1.range))).length < (if p.1.range then ranges else pages)))).map
    (fun p => p.1)).take all

/-- TRANSLATION_WALK: the walk for an access of the core to an address of its address space ends; a translation is cached,
an outcome `XLATE` or `PERM` is not (R240, R241, R395); the walker mends what it finds lost (R232). -/
def execTranslationWalk (k : CoreId) (w : WalkFor) (s : State) : Host.Outcome State Fault Refusal :=
  let c := (s.core k).ctl
  let s1 := s.touchWalk { a := w.va.toNat, len := 1, at_ := .held, walk := s.walked k c.asid true w.va.toNat }
  .next (if windowBase ≤ w.va.toNat then s
    else
      match s.translate (dieOf k) c.asid c.sup w.use w.va.toNat with
      | .wait => s
      | .xlate => s1
      | .ok e =>
        if e.denies c.sup w.use then s1
        else
          let e' := s.cachePiece (dieOf k) w.va.toNat e
          (s1.modCore k (fun c => { c with tlb := tlbInsert 64 8 72 e' c.tlb })).modTable (tableOf k) (fun t =>
            { t with tlb := tlbInsert 2048 2048 2048 e' t.tlb }))

/-- TICTL_GO: the write to TICTL (R242, R243). -/
def execTictlGo (d : DieId) (v : Word) (s : State) : Host.Outcome State Fault Refusal :=
  .next (s.modDie d (fun x => x.writeTictl v))

/-- An invalidation names an entry (R243). -/
def Shootdown.hits (sd : Shootdown) (e : TlbEntry) : Bool :=
  (sd.all || decide (e.asid = sd.asid)) && decide (e.first ≤ sd.last) && decide (sd.first ≤ e.last)

/-- A core of a die has an access or a query in flight that may use a translation, whether or not its reply will be heard
(R34, R243, R376). -/
def State.inFlight (s : State) (d : DieId) : Bool :=
  s.hbm.any (fun e =>
    e.2.queue.any (fun q => decide (dieOf q.pkt.src = d)) || e.2.deltas.any (fun x => decide (dieOf x.src = d))
      || e.2.sent.any (fun x => decide (dieOf x.src = d)) || e.2.queryq.any (fun q => decide (dieOf q.core = d))
      || e.2.scans.any (fun x => decide (dieOf x.qp.core = d)))
    || s.cores.any (fun e => decide (dieOf e.1 = d) && e.2.queries.any (fun q =>
        match q.2 with
        | some q => !q.unsent.isEmpty
        | none => false))

/-- Drop the entries an invalidation names. -/
def Shootdown.purge (sd : Shootdown) (l : List TlbEntry) : List TlbEntry := l.filter (fun x => !sd.hits x)

/-- After an invalidation under ALL, a die goes by ASDT, the descriptors and the range entries as they now stand (R243).
DEDUCED, log entry 70. -/
def State.freshSpaces (s : State) (d : DieId) (all : Bool) : State :=
  if all then { s with spaces := s.spaces.set d { asdt := (s.die d).asdt, hbm := s.hbm } } else s

/-- What the control units of a die stored or read ahead is performed, and no load to come uses it (R243). -/
def State.performedOn (s : State) (d : DieId) : State :=
  { s with late := s.late.filter (fun l => decide (dieOf l.core ≠ d)), early := s.early.filter (fun e => decide (dieOf e.core ≠ d)) }

/-- SHOOTDOWN_COMPLETE: the entries go, and BUSY clears once no core of the die has an access in flight, its stores being
performed (R243). DEDUCED, log entry 33. -/
def execShootdownComplete (d : DieId) (s : State) : Host.Outcome State Fault Refusal :=
  match (s.die d).busy with
  | none => .next s
  | some sd =>
    .next (if s.inFlight d then s
      else
        let core (e : CoreId × Core) : CoreId × Core :=
          if dieOf e.1 = d then (e.1, { e.2 with tlb := sd.purge e.2.tlb }) else e
        let table (e : TableId × Table) : TableId × Table :=
          if tableDie e.1 = d then (e.1, { e.2 with tlb := sd.purge e.2.tlb }) else e
        ((({ s with cores := s.cores.map core, tables := s.tables.map table } : State).modDie d (fun x =>
          { x with busy := none })).freshSpaces d sd.all).performedOn d)

/-! ## Attention -/

/-- ATTENTION_POSITION (R370, R371). -/
def execAttentionPosition (unit : BitVec 12) (s : State) : Host.Outcome State Fault Refusal := .next (scanTurn unit s)

/-- QUERY_PACKET (R369, R375). -/
def execQueryPacket (st : StackId) (n : Nat) (s : State) : Host.Outcome State Fault Refusal := .next (acceptQuery st n s)

end Sys2Proof.Machine
end

