-- ==== Sys2Proof/Machine/StackEvents.lean ====
section
/-! DEFINITION. Events of the stacks: packets and parity deltas (R224, R225, R231, R232), the spare layer (R233),
activation counters (R234), critical temperature (R235), training and failures (R232, R441). -/

namespace Sys2Proof.Machine

/-! ## Packets -/

/-- The tier and the offset of a packet: in a usable tier, 1 to 256 bytes within one unit, a read in whole sectors, an
atomic aligned (R224). -/
def State.packetPlace (s : State) (p : Packet) : Option (Bool × Nat) :=
  let (a, _, n) := p.span
  let shape :=
    match p with
    | .read .. => decide (a.toNat % 32 = 0) && decide (n % 32 = 0)
    | .atomic .. => decide (a.toNat % n = 0)
    | _ => true
  match tierOf a.toNat with
  | some (far, t) => if s.tierUsable far && shape && decide (1 ≤ n) && decide (a.toNat % 256 + n ≤ 256) then some (far, t) else none
  | none => none

/-- The stack that performs a packet. -/
def packetStack (far : Bool) (t : Nat) (il : BitVec 3) : StackId := tierStack far (place t il).s

/-- Send a reply to a core that was not reset meanwhile (R34). -/
def sendReply (k : CoreId) (reply : Bool) (r : Reply) (s : State) : State :=
  if reply then s.modCore k (fun c => { c with replies := c.replies ++ [r] }) else s

/-- Write one byte of a data unit alone, parity apart (R231). -/
def State.putData1 (s : State) (far : Bool) (h : Home) (b : BitVec 8) : State :=
  let n := tierStack far h.s
  if (s.stack n).failedAt h.pc h.r then s else s.modStack n (fun x => x.putRaw h.pc h.r h.y b)

/-- The sectors of a unit, by number, that the bytes of a mask from byte y cover whole. -/
def maskWhole (y : Nat) (bs : List (Option (BitVec 8))) : List Nat :=
  (List.range 8).filter (fun sec =>
    (List.range 32).all (fun i => decide (y ≤ 32 * sec + i) && ((bs.getD (32 * sec + i - y) none).isSome)))

/-- The write of a packet at its home: old bytes read, new ones written, the delta sent to the parity stack; a unit that
is lost beyond rebuild takes the bytes with no delta and answers at once (R231, R232). -/
def State.packetWrite (s : State) (k : CoreId) (tag : Nat) (reply : Bool) (far : Bool) (t : Nat) (il : BitVec 3)
    (bs : List (Option (BitVec 8))) (old : Option Word) (nr : Bool := false) : State :=
  let h := place t il
  let u : Home := { h with y := 0 }
  let whole := maskWhole h.y bs
  if s.unitBroken far h then
    let s1 := bs.zipIdx.foldl (fun s p =>
      match p.1 with
      | some b => s.putData1 far { h with y := h.y + p.2 } b
      | none => s) s
    sendReply k reply { tag := tag, old := old } (s1.settleBroken far u (fun sec => whole.contains sec))
  else
    let s0 := s.repairUnit far u
    let before := s0.extRead far t bs.length il
    let diff := (bs.zip before).map (fun p => match p.1 with | some b => b ^^^ p.2 | none => 0#8)
    let clears := (List.range 8).map (fun sec => whole.contains sec && s0.unitPoison far { h with y := 32 * sec })
    let s1 := bs.zipIdx.foldl (fun s p =>
      match p.1 with
      | some b => s.putData1 far { h with y := h.y + p.2 } b
      | none => s) s0
    let n := tierStack far h.s
    let s2 := if (s1.stack n).failedAt h.pc h.r then s1 else
      s1.modStack n (fun x => whole.foldl (fun x sec => x.putPoison h.pc h.r sec false) x)
    s2.modStack (parityStack far h.r) (fun x =>
      { x with deltas := x.deltas ++
          [{ pc := h.pc, r := h.r, y := h.y, bytes := diff, poison := clears, src := k, tag := tag, old := old
             reply := reply, nr := nr }] })

/-- A base die performs a packet: none while it must wait (R224, R225, R231, R232, R235, R357). -/
def performPacket (q : Queued) (s : State) : Option State :=
  let (_, il, n) := q.pkt.span
  match s.packetPlace q.pkt with
  | none => some s
  | some (far, t) =>
    let home := (s.stack (packetStack far t il)).selfRefresh
    match q.pkt with
    | .read k tag _ _ _ =>
      if s.extBlocked far t n il false then none
      else
        let s1 := s.extTouch far t n il
        some (sendReply k q.reply
          { tag := tag, bytes := s1.extRead far t n il
            poison := (sectorsOf t n).map (fun o => s1.unitPoison far (place o il)) } s1)
    | .write k tag _ _ bs =>
      if home || s.extBlocked far t n il false then none
      else some (s.packetWrite k tag q.reply far t il bs none)
    | .append k tag _ _ bs =>
      if home || s.extBlocked far t n il false then none
      else some (s.packetWrite k tag q.reply far t il (bs.map some) none)
    | .atomic k tag a _ aop sz v e nr =>
      if home || s.extBlocked far t n il false then none
      else
        let s1 := s.extTouch far t n il
        if (s1.extPoison far t n il).isSome then
          some (if nr then
              (if q.reply then s1.advanceTick.modCore k (fun c =>
                c.refuse { tower := false, addr := BitVec.ofNat 56 (a.toNat / 32 * 32), order := s1.tick }) else s1)
            else sendReply k q.reply { tag := tag, poison := [true] } s1)
        else
          let old := bytesToNat (s1.extRead far t n il)
          let new := natToBytes n (atomicNew aop (8 * n) old (v.toNat % 2 ^ (8 * n)) (e.toNat % 2 ^ (8 * n)))
          some (s1.packetWrite k tag q.reply far t il (new.map some) (if nr then none else some (atomicOld aop sz old)) nr)

/-- Serve the packets of a stack's queue in order, those that must wait staying, with all behind them that share a byte
and a source (R225, R235). -/
def serveQueue (n : StackId) : List Queued → List Queued → State → State
  | [], kept, s => s.modStack n (fun x => { x with queue := kept })
  | q :: rest, kept, s =>
    if kept.any (fun p => packetsMeet p.pkt q.pkt) then serveQueue n rest (kept ++ [q]) s
    else
      match performPacket q s with
      | some s' => serveQueue n rest kept s'
      | none => serveQueue n rest (kept ++ [q]) s

/-- A packet arrives at its base die: it is performed, or queued (R224, R225, R235); none arrives ahead of a return-free
atomic of its source to the same bytes (R258). -/
def packetArrival (p : Packet) (s : State) : State :=
  match s.packetPlace p with
  | none => s
  | some (far, t) =>
    if 256 ≤ s.packetsOut p.src || s.hbm.any (fun e => e.2.sent.any (fun x => packetsMeet x.pkt p)) then s
    else
      let n := packetStack far t p.span.2.1
      serveQueue n ((s.stack n).queue ++ [{ pkt := p }]) [] s

/-- READ_PACKET (R224). -/
def execReadPacket (src : CoreId) (tag : Nat) (a : BitVec 52) (il : BitVec 3) (len : Nat) (s : State) :
    Host.Outcome State Fault Refusal := .next (packetArrival (.read src tag a il len) s)

/-- WRITE_PACKET (R224, R231). -/
def execWritePacket (src : CoreId) (tag : Nat) (a : BitVec 52) (il : BitVec 3) (bytes : List (Option (BitVec 8))) (s : State) :
    Host.Outcome State Fault Refusal := .next (packetArrival (.write src tag a il bytes) s)

/-- A return-free atomic that its core has sent, if the packet is one that may be performed: not one behind another packet
of its source to the same bytes (R225, R258). -/
def sentMatch (n : StackId) (p : Packet) (s : State) : Option Sent :=
  let st := s.stack n
  if st.queue.any (fun q => packetsMeet q.pkt p) then none
  else
    match st.sent.find? (fun x => packetsMeet x.pkt p) with
    | some x => if x.pkt = p then some x else none
    | none => none

/-- ATOMIC_PACKET: a return-free one that a `d.atom.nr` sent is performed at its home; any other arrives as a packet
(R224, R225, R262, R263). -/
def execAtomicPacket (src : CoreId) (tag : Nat) (a : BitVec 52) (il : BitVec 3) (aop : BitVec 4) (sz : BitVec 1)
    (val cmp : Word) (nr : Bool) (s : State) : Host.Outcome State Fault Refusal :=
  let p : Packet := .atomic src tag a il aop sz val cmp nr
  .next (if aop.toNat ≤ 10 && !(decide (aop = 10#4) && decide (sz = 1#1)) then
      match s.packetPlace p with
      | none => s
      | some (far, t) =>
        let n := packetStack far t il
        match (if nr then sentMatch n p s else none) with
        | some x =>
          (performSent x (s.modStack n (fun st => { st with sent := st.sent.erase x }))).getD s
        | none => packetArrival p s
    else s)

/-- APPEND_PACKET (R224, R264). -/
def execAppendPacket (src : CoreId) (tag : Nat) (a : BitVec 52) (il : BitVec 3) (bytes : List (BitVec 8)) (s : State) :
    Host.Outcome State Fault Refusal := .next (packetArrival (.append src tag a il bytes) s)

/-- The parity base die applies the n-th delta on its way to it, and the write is acknowledged (R231); not in self-refresh
(R235). -/
def applyDelta (st : StackId) (n : Nat) (s : State) : State :=
  let x := s.stack st
  match x.deltas[n]? with
  | none => s
  | some d =>
    if x.selfRefresh then s
    else
      let x1 := { x with deltas := x.deltas.eraseIdx n }
      let x2 := if x.failedAt d.pc d.r then x1 else
        let y := d.bytes.zipIdx.foldl (fun y p =>
          y.putRaw d.pc d.r (d.y + p.2) (y.raw d.pc d.r (d.y + p.2) ^^^ p.1)) x1
        d.poison.zipIdx.foldl (fun y p => y.putPoison d.pc d.r p.2 (y.rawPoison d.pc d.r p.2 != p.1)) y
      sendReply d.src d.reply { tag := d.tag, old := d.old } (s.setStack st x2)

/-- PARITY_DELTA (R231). -/
def execParityDelta (st : StackId) (n : Nat) (s : State) : Host.Outcome State Fault Refusal := .next (applyDelta st n s)

/-- PACKET_REPLY: the reply with a tag arrives at its core (R224). -/
def execPacketReply (k : CoreId) (tag : Nat) (s : State) : Host.Outcome State Fault Refusal :=
  .next (s.modCore k (fun c => { c with replies := c.replies.eraseP (fun r => decide (r.tag = tag)) }))

/-! ## The spare layer (R233) -/

/-- SPARE_LAYER_MIGRATION: service firmware starts the migration of a failed layer; a stack has one spare layer. -/
def execSpareLayerMigration (st : StackId) (layer : BitVec 4) (s : State) : Host.Outcome State Fault Refusal :=
  let x := s.stack st
  .next (if x.spare.isNone && x.migration.isNone && x.failed.any (fun f => decide (f = .layer layer)) then
      s.setStack st { x with migration := some { layer := layer, next := 0 } }
    else s)

/-- Copy one unit into the spare layer: rebuilt from parity, or poisoned when it cannot be (R232, R233). -/
def copyUnit (st : StackId) (pc r : Nat) (s : State) : State :=
  let far := decide (8 ≤ st.toNat)
  let h (y : Nat) : Home := { s := st.toNat % 8, pc := pc, r := r, y := y }
  let bytes := (List.range 256).map (fun y => s.unitByte far (h y))
  let poison := (List.range 8).map (fun sec => s.unitPoison far (h (32 * sec)))
  let fresh := decide (st.toNat % 8 = r % 8) && s.rebuildable far (h 0)
  s.modStack st (fun x =>
    poison.zipIdx.foldl (fun x p => x.putPoison pc r p.2 p.1)
      { x with cells := Memory.write x.cells (cellOf pc r 0) bytes, bad := Marks.put x.bad (pc * 2 ^ 22 + r) false
               stale := if fresh then Marks.put x.stale (pc * 2 ^ 22 + r) false else x.stale })

/-- The units of a row: 64 pseudo-channels of 64 units (R227). -/
def rowUnits (row : Nat) : List (Nat × Nat) :=
  (List.range 64).flatMap (fun pc => (List.range 64).map (fun i => (pc, row * 64 + i)))

/-- MIGRATION_ROW_COPY: the row at the pointer is copied from parity rebuild and the pointer advances; after the last row
the spare layer serves the whole layer (R233). It waits for deltas on their way and for stacks in self-refresh. -/
def execMigrationRowCopy (st : StackId) (s : State) : Host.Outcome State Fault Refusal :=
  let x := s.stack st
  match x.migration with
  | none => .next s
  | some m =>
    let far := decide (8 ≤ st.toNat)
    let group := (List.range 8).map (fun i => tierStack far i)
    .next (if group.any (fun n => (s.stack n).selfRefresh || !(s.stack n).deltas.isEmpty) then s
      else
        let s1 := (rowUnits (m.layer.toNat * 4096 + m.next)).foldl (fun s u => copyUnit st u.1 u.2 s) s
        s1.modStack st (fun y =>
          if m.next + 1 = 4096 then { y with migration := none, spare := some m.layer }
          else { y with migration := some { m with next := m.next + 1 } }))

/-! ## Activation counters (R234) -/

/-- The key of a row's counter: pseudo-channel, bank group and bank, row; seventeen layers of 4,096 rows, the spare layer
the last (R222, R233). -/
def actKey (pc bank row : Nat) : Nat := (pc * 16 + bank) * 131072 + row

/-- A row and the two rows on each side of it in its layer (R234). DEDUCED, log entry 71. -/
def rowsAbout (row : Nat) : List Nat :=
  ((List.range 5).filterMap (fun i => if 2 ≤ row + i then some (row + i - 2) else none)).filter (fun r =>
    decide (r / 4096 = row / 4096))

/-- The counters of rows are cleared, with fresh parity (R234). -/
def Stack.clearAct (x : Stack) (keys : List Nat) : Stack :=
  { x with act := keys.foldl (fun a r => a.set r 0) x.act, actBad := keys.foldl (fun m r => Marks.put m r false) x.actBad }

/-- PRECHARGE: the row's counter is incremented; saturated, or with wrong parity, it is cleared and the two rows on each
side are refreshed, which clears theirs (R234). -/
def execPrecharge (st : StackId) (pc : BitVec 6) (bank : BitVec 4) (row : BitVec 17) (s : State) :
    Host.Outcome State Fault Refusal :=
  let x := s.stack st
  let key := actKey pc.toNat bank.toNat
  let wrong := Marks.has x.actBad (key row.toNat)
  let n := x.act.get 0 (key row.toNat)
  .next (if 69632 ≤ row.toNat then s
    else if !wrong && decide (n < Config.actSaturation) then s.setStack st { x with act := x.act.set (key row.toNat) (n + 1) }
    else
      let s1 := s.setStack st (x.clearAct ((rowsAbout row.toNat).map key))
      if wrong then s1.event (st.extractLsb' 0 3) 1 st.toNat else s1)

/-- A row is refreshed at its time: its counter is cleared (R234). -/
def rowRefreshed (st : StackId) (pc : BitVec 6) (bank : BitVec 4) (row : BitVec 17) (s : State) : State :=
  s.modStack st (fun x => x.clearAct [actKey pc.toNat bank.toNat row.toNat])

/-- A counter's parity comes to disagree (R234). -/
def counterUpset (st : StackId) (pc : BitVec 6) (bank : BitVec 4) (row : BitVec 17) (s : State) : State :=
  s.modStack st (fun x => { x with actBad := Marks.put x.actBad (actKey pc.toNat bank.toNat row.toNat) true })

/-- On-die ECC reports a unit uncorrectable: it is lost (R232). -/
def unitUncorrectable (st : StackId) (pc : BitVec 6) (r : BitVec 22) (s : State) : State :=
  s.modStack st (fun x => { x with bad := Marks.put x.bad (pc.toNat * 2 ^ 22 + r.toNat) true })

/-! ## Critical temperature (R235) -/

/-- CRITICAL_TEMPERATURE_RISE: the stack enters self-refresh. -/
def execCriticalTemperatureRise (st : StackId) (s : State) : Host.Outcome State Fault Refusal :=
  .next (s.modStack st (fun x => { x with selfRefresh := true }))

/-- CRITICAL_TEMPERATURE_FALL: it leaves self-refresh, and service resumes in queue order. -/
def execCriticalTemperatureFall (st : StackId) (s : State) : Host.Outcome State Fault Refusal :=
  let s1 := s.modStack st (fun x => { x with selfRefresh := false, hold := false })
  .next (serveQueue st (s1.stack st).queue [] s1)

/-- THERMAL_HOLD: after 2 ms in self-refresh, once in a stay, the event is raised. -/
def execThermalHold (st : StackId) (s : State) : Host.Outcome State Fault Refusal :=
  let x := s.stack st
  .next (if x.selfRefresh && !x.hold then
      (s.setStack st { x with hold := true }).event (st.extractLsb' 0 3) 3 st.toNat
    else s)

/-! ## Training and failures (R232, R441) -/

/-- The NS bit of a die's DREADY, and its FS bit, which is set only after NS (R441); a die whose images are not both
verified makes no stack ready (R443). DEDUCED, log entry 32. -/
def readyStacks (d : DieId) (s : State) : State :=
  let near := (s.stack (0#1 ++ d)).trained
  let far := near && (s.stack (1#1 ++ d)).trained
  s.modDie d (fun x =>
    if x.verified then
      { x with dready := x.dready ||| (if near then 0x10000#24 else 0#24) ||| (if far then 0x20000#24 else 0#24) }
    else x)

/-- STACK_TRAINING: a stack finishes training; its ready bit waits for the die's images (R441, R443). -/
def execStackTraining (st : StackId) (s : State) : Host.Outcome State Fault Refusal :=
  .next (readyStacks (st.extractLsb' 0 3) (s.modStack st (fun x => { x with trained := true })))

/-- MARKED_FAILED (R232, R441). -/
def execMarkedFailed (st : StackId) (what : FailMark) (s : State) : Host.Outcome State Fault Refusal :=
  .next (s.modStack st (fun x => { x with failed := if x.failed.contains what then x.failed else what :: x.failed }))

end Sys2Proof.Machine
end

