-- ==== Sys2Proof/Machine/SaveArea.lean ====
section
/-! DEFINITION. The save area: physical reads and writes, the core block, the dealer record, records of queue entries, and
their reading back (R406 to R413, R415). -/

namespace Sys2Proof.Machine

/-! ## Physical memory (R227: accesses without translation use IL2) -/

/-- Write bytes to external memory. -/
def State.physWrite (s : State) (pa : Nat) (bs : List (BitVec 8)) : State :=
  match tierOf pa with
  | some (far, t) => s.extWrite far t 2#3 bs
  | none => s

/-- Read bytes of external memory. -/
def State.physRead (s : State) (pa n : Nat) : List (BitVec 8) :=
  match tierOf pa with
  | some (far, t) => s.extRead far t n 2#3
  | none => List.replicate n 0#8

/-- The save area is read: lost units are rebuilt and written back (R232). -/
def State.physTouch (s : State) (pa n : Nat) : State :=
  match tierOf pa with
  | some (far, t) => s.extTouch far t n 2#3
  | none => s

/-- The poison bit of a byte's sector. -/
def State.physPoison (s : State) (pa : Nat) : Bool :=
  match tierOf pa with
  | some (far, t) => s.unitPoison far (place t 2#3)
  | none => false

/-- A number of n bytes. -/
def State.physNat (s : State) (pa n : Nat) : Nat := bytesToNat (s.physRead pa n)

/-- Write bytes with the poison bits of their sectors (R226). -/
def State.physPut (s : State) (pa : Nat) (d : List (BitVec 8 × Bool)) : State :=
  let s1 := s.physWrite pa (d.map (fun b => b.1))
  d.zipIdx.foldl (fun s p =>
    if p.1.2 then
      match tierOf (pa + p.2) with
      | some (far, t) => s.putUnitPoison far (place t 2#3) true
      | none => s
    else s) s1

/-- Read bytes with the poison bits of their sectors. -/
def State.physData (s : State) (pa n : Nat) : List (BitVec 8 × Bool) :=
  (s.physRead pa n).zipIdx.map (fun p => (p.1, s.physPoison (pa + p.2)))

/-! ## The state after a core reset (R32, R33) -/

/-- Every pin is discarded without write-back (R33, R412). -/
def Tower.dropPins (t : Tower) : Tower :=
  { t.lines.foldl (fun t e => match e.2 with
      | some l => t.noteFree l.row
      | none => t) t with lines := [] }

/-- What R32 makes of a core: everything at its reset value but the tower, its remap table and its refresh state; pins are
discarded without write-back. Translations and code words stay cached (R241, R278), and interrupt requests stay pending
(R394). DEDUCED, log entry 28. -/
def Core.resetState (c : Core) : Core := { tower := c.tower.dropPins, tlb := c.tlb, irq := c.irq, icache := c.icache }

/-! ## Records of queue entries (R409) -/

/-- One record, in the fields of R409. -/
structure Rec where
  code : BitVec 4
  word : BitVec 32
  started : Bool := false
  pf : Option (BitVec 8) := none
  done : Bool := false
  flev : BitVec 8 := 0#8
  resume : Word := 0#64
  cap : Cap := {}
deriving DecidableEq, Repr

/-- A bit as a number. -/
def bitN (b : Bool) (i : Nat) : Nat := if b then 2 ^ i else 0

/-- The 256 bytes of a record. -/
def Rec.bytes (r : Rec) : List (BitVec 8) :=
  let w0 := r.word.toNat + r.code.toNat * 2 ^ 32 + bitN r.started 36 + bitN (decide (r.flev ≠ 0#8)) 37
    + bitN r.pf.isSome 38 + bitN r.done 39 + (r.pf.getD 0#8).toNat * 2 ^ 40 + r.flev.toNat * 2 ^ 48
  let w5 := r.cap.vrb.toNat + r.cap.prb.toNat * 2 ^ 5 + r.cap.rm.toNat * 2 ^ 8 + r.cap.asid.toNat * 2 ^ 11 + bitN r.cap.xe 27
  natToBytes 8 w0 ++ natToBytes 8 r.resume.toNat ++ natToBytes 8 r.cap.x.toNat ++ natToBytes 8 r.cap.y.toNat
    ++ natToBytes 8 r.cap.z.toNat ++ natToBytes 8 w5 ++ natToBytes 16 0 ++ natToBytes 64 r.cap.sha.toNat
    ++ natToBytes 64 r.cap.shb.toNat ++ natToBytes 64 0

/-- The records of an instruction: the first carries its captures and its resume point. -/
def recsOf (slots : List (BitVec 4 × BitVec 32)) (first : Rec) : List Rec :=
  slots.zipIdx.map (fun p =>
    if p.2 = 0 then { first with code := p.1.1, word := p.1.2 }
    else { code := p.1.1, word := p.1.2, started := first.started, pf := first.pf, done := first.done, flev := first.flev })

/-- The slots of a queue entry: a ganged command stands with its prefix (R58). -/
def QEntry.words (e : QEntry) : List (BitVec 4 × BitVec 32) :=
  (match e.gang with
   | some g => encode (.mGang g.mask g.gq)
   | none => []) ++ encode e.ins

/-- The records of a queue entry. -/
def QEntry.recs (e : QEntry) : List Rec :=
  recsOf e.words { code := 0#4, word := 0#32, started := e.started, pf := e.fault.map (fun t => t.code), flev := e.flev
                   resume := e.resume, cap := e.cap }

/-- The records of a control queue entry, an instruction that has popped its tokens; its resume point is its place in
`xpc` form. -/
def CEntry.recs (e : CEntry) : List Rec :=
  match (if e.started || e.done then e.ins else none) with
  | some i =>
    recsOf (encode i) { code := 0#4, word := 0#32, started := e.started, done := e.done, flev := e.flev
                        resume := (xpcWord e.pc e.slot).zeroExtend 64 }
  | none => []

/-- A record read from memory, and whether its reserved fields are zero. -/
def State.readRec (s : State) (pa : Nat) : Rec × Bool :=
  let w (n : Nat) : Word := BitVec.ofNat 64 (s.physNat (pa + 8 * n) 8)
  let w0 := w 0
  let w5 := w 5
  ({ code := (field w0 32 4).truncate 4, word := w0.truncate 32, started := bit w0 36
     pf := if bit w0 38 then some ((field w0 40 8).truncate 8) else none, done := bit w0 39
     flev := if bit w0 37 then (field w0 48 8).truncate 8 else 0#8, resume := w 1
     cap := { x := w 2, y := w 3, z := w 4, vrb := w5.truncate 5, prb := (field w5 5 3).truncate 3
              rm := (field w5 8 3).truncate 3, asid := (field w5 11 16).truncate 16, xe := bit w5 27
              sha := BitVec.ofNat 512 (s.physNat (pa + 64) 64), shb := BitVec.ofNat 512 (s.physNat (pa + 128) 64) } },
    decide (field w0 56 8 = 0#64) && decide (field w5 28 36 = 0#64) && decide (s.physNat (pa + 48) 16 = 0)
      && decide (s.physNat (pa + 192) 64 = 0))

/-- Group records into instructions: each begins with an engine's routing code, and a gang prefix stands with its
command. -/
def groupRecs : List Rec → List (List Rec)
  | [] => []
  | r :: rest =>
    let begins := decide (1 ≤ r.code.toNat) && decide (r.code.toNat ≤ 5)
    let groups := groupRecs rest
    match groups with
    | [] => [[r]]
    | g :: gs =>
      let headBegins := match g with
        | x :: _ => decide (1 ≤ x.code.toNat) && decide (x.code.toNat ≤ 5)
        | [] => false
      let prefix_ := begins && (match build .m r.word 0#32 0#32 none with | some i => i.isGang && decide (r.code = 3#4) | none => false)
      if headBegins && !prefix_ then [r] :: g :: gs else (r :: g) :: gs

/-- The instruction of a group, with its gang prefix; none when it does not decode (R38, R415). -/
def decodeGroup (g : List Rec) : Option (Instr × Option (BitVec 4 × BitVec 2)) :=
  match decodeBundle (bundleOf (g.map (fun r => (r.code, r.word)))) with
  | .ok [it] => some (it.ins, none)
  | .ok [p, it] => (match p.ins with | .mGang m q => some (it.ins, some (m, q)) | _ => none)
  | _ => none

/-- A queue entry from its group; what the area has no place for comes from the entry that was saved. -/
def entryOf (eng : BitVec 3) (g : List Rec) (old : Option QEntry) : Option QEntry :=
  match g, decodeGroup g with
  | r :: _, some (i, pre) =>
    let base : QEntry :=
      match old with
      | some q => if q.ins = i then q else { ins := i, slots := g.length }
      | none => { ins := i, slots := g.length }
    let gang : Option Gang :=
      pre.map (fun p => { mask := p.1, gq := p.2, index := (base.gang.bind (fun x => x.index)) })
    let fault : Option TrapInfo :=
      match r.pf with
      | some c => some (match base.fault with | some t => { t with code := c } | none => { code := c, eng := eng })
      | none => none
    some { base with slots := g.length, cap := { r.cap with tile := base.cap.tile }, started := r.started, flev := r.flev, resume := r.resume
                     gang := gang, fault := fault }
  | _, _ => none

/-- The entries of a list of records; none when one does not decode. -/
def entriesOf (eng : BitVec 3) : List (List Rec) → List QEntry → Option (List QEntry)
  | [], _ => some []
  | g :: gs, olds =>
    match entryOf eng g olds.head?, entriesOf eng gs (olds.drop 1) with
    | some e, some es => some (e :: es)
    | _, _ => none

/-! ## The core block (R408) -/

/-- The state code of a seat. -/
def SeatState.code : SeatState → Nat
  | .out => 0
  | .seated => 1
  | .folded => 2
  | .waiting => 3
/-- The seat state of a code. -/
def SeatState.ofCode (n : Nat) : SeatState := match n with | 0 => .out | 1 => .seated | 2 => .folded | _ => .waiting
/-- The byte of a join stack entry. -/
def JoinEntry.code : JoinEntry → Nat
  | .id j => j.toNat
  | .any => 16
/-- The code of a hold. -/
def Hold.code : Hold → Nat
  | .none => 0
  | .shared => 1
  | .exclusive => 2
/-- The hold of a code. -/
def Hold.ofCode (n : Nat) : Hold := match n with | 1 => .shared | 2 => .exclusive | _ => .none
/-- The code of a window state. -/
def WindowState.code : WindowState → Nat
  | .none => 0
  | .anchored => 1
  | .overflowed => 2
/-- The level number of a saved arrival: 0 `.quad` to 4 `.pod`. -/
def levelNo (lvl : BitVec 3) : Nat := if lvl = 7#3 then 4 else lvl.toNat - 2
/-- The scope of a level number. -/
def levelOf (n : Nat) : BitVec 3 := if n = 4 then 7#3 else BitVec.ofNat 3 (n + 2)

/-- The control unit's return or halt waits at the end of its bundle. -/
def Front.leaves (f : Front) : Bool :=
  match f.pend with
  | .eret => true
  | .halt => true
  | _ => false

/-- The RPC and the current bundle that a save writes: slot 0 when the bundle has been finished. -/
def Front.rpc (f : Front) : Nat × Option (BitVec 256) :=
  match f.bundle with
  | some b => if f.item.isSome || f.leaves then (f.pc.toNat + f.resume.2 * 2 ^ 51, some b) else (f.resume.1.toNat, none)
  | none => (f.pc.toNat, none)

/-- The n rows of a tile as bytes. -/
def tileBytes (t : Bank (BitVec 6) (BitVec 1024)) : List (BitVec 8) :=
  (List.range 64).flatMap (fun r => natToBytes 128 (t.get 0#1024 (BitVec.ofNat 6 r)).toNat)
/-- A bank of 2,048 words as bytes. -/
def planeBytes (p : Bank Nat (BitVec 32)) : List (BitVec 8) := (List.range 2048).flatMap (fun i => natToBytes 4 (p.get 0#32 i).toNat)

/-- The control queue's records of a core, frozen entries first (R392, R404). -/
def Core.cRecs (c : Core) : List Rec := (c.front.frozen.reverse ++ c.front.centry 0#8).flatMap CEntry.recs

/-- The queue records of a core, engine by engine. -/
def Core.queueRecs (c : Core) : List (List Rec) :=
  [c.cRecs, c.vq.flatMap QEntry.recs, c.mq.flatMap QEntry.recs, c.dq.flatMap QEntry.recs, c.fq.flatMap QEntry.recs]

/-- The system registers of a core block, in order. -/
def Ctl.saveRegs (c : Ctl) : List Word :=
  [c.cst, c.xpc.zeroExtend 64, c.xcause, c.xaddr, c.xvec.zeroExtend 64, c.asid.zeroExtend 64, c.stbank, c.sttok, c.stfetch,
    c.vrb.zeroExtend 64, c.prb.zeroExtend 64, c.sscr]

/-- The parts of a core block, each at its offset; what lies between is zero. Keep lines and the triple spill are written
apart. The retained window has room for 48 records: what a longer one holds beyond them the area does not show
(DESIGN CHOICE, log entry 74). -/
def Core.blockParts (c : Core) : List (Nat × List (BitVec 8)) :=
  let w8 (n : Nat) : List (BitVec 8) := natToBytes 8 n
  let ids (n : Nat) : List Nat := List.range n
  let rpc := c.front.rpc
  let arr := c.arrived.foldl (fun n a => n + 2 ^ (16 * levelNo a.1 + a.2.toNat)) 0
  let recs := c.queueRecs
  let line (k : Nat) : Nat :=
    match c.tower.line (BitVec.ofNat 5 k) with
    | some l => l.row.toNat * 512 + bitN l.keep 30 + 2 ^ 31
    | none => 0
  let query (i : Nat) : List (BitVec 8) :=
    match c.queries.get none (BitVec.ofNat 6 i) with
    | some q => w8 (1 + bitN q.fin 1 + q.written.toNat * 2 ^ 32) ++ w8 (q.spilled % 65536)
    | none => w8 0 ++ w8 0
  [ (0x0000, w8 (c.seat.st.code + bitN c.vec.exposed 2 + bitN (decide (c.seat.depth ≠ 0#8)) 4) ++ w8 c.seat.n
      ++ (ids 8).map (fun i => BitVec.ofNat 8 ((c.seat.stack[i]?.map JoinEntry.code).getD 0)) ++ w8 c.seat.stack.length
      ++ natToBytes 16 arr ++ w8 rpc.1 ++ w8 c.seat.depth.toNat),
    (0x0040, (ids 32).flatMap (fun i => w8 (c.reg (BitVec.ofNat 5 i)).toNat)),
    (0x0140, c.ctl.saveRegs.flatMap (fun w => w8 w.toNat)),
    (0x01A0, (ids 16).flatMap (fun i => w8 (c.vec.pred (BitVec.ofNat 4 i)).toNat)),
    (0x0220, natToBytes 16 ((ids 20).foldl (fun n i => n + (c.tok.counts.get 0#4 (BitVec.ofNat 5 (i + 1))).toNat * 16 ^ i) 0)),
    (0x0230, (ids 4).flatMap (fun g =>
      let q := c.tok.gq.get [] (BitVec.ofNat 2 g)
      w8 (q.zipIdx.foldl (fun n p => n + p.1.toNat * 16 ^ (p.2 + 1)) q.length))),
    (0x0250, recs.flatMap (fun r => natToBytes 2 r.length)),
    (0x0280, (ids 32).flatMap (fun i => natToBytes 4 (c.vec.gen i).toNat)),
    (0x0300, (ids 16).flatMap (fun i => w8 (c.ring (BitVec.ofNat 4 i)).desc.toNat)),
    (0x0380, (ids 16).flatMap (fun r => (ids 64).map (fun i => ((c.ring (BitVec.ofNat 4 r)).slot i).zeroExtend 8))),
    (0x0800, (ids 16).flatMap (fun i =>
      match c.binds.get none (BitVec.ofNat 4 i) with
      | some b => w8 b.obj.toNat ++ w8 b.base.toNat ++ w8 b.len.toNat ++ w8 (b.scope.toNat + b.hold.code * 16)
      | none => natToBytes 32 0)),
    (0x0A00, (ids 16).flatMap (fun i => natToBytes 64 (c.shapes.get 0#512 (BitVec.ofNat 4 i)).toNat)),
    (0x0E00, (ids 32).flatMap (fun i => w8 (line i))),
    (0x0F00, (ids 64).flatMap query),
    (0x2000, (ids 192).flatMap (fun i => natToBytes 4 (c.mtx.epi.get 0#32 i).toNat)),
    (0x2300, w8 (c.mtx.window.code + c.mtx.cmds.length * 4 + (c.mtx.faultAt.getD 255) * 256)),
    (0x2310, (match c.refused with
      | some x => w8 (1 + bitN x.tower 1) ++ w8 x.addr.toNat
      | none => w8 0 ++ w8 0)),
    (0x2320, natToBytes 32 (rpc.2.map (fun b => b.toNat) |>.getD 0)),
    (0x4000, tileBytes c.vec.acc0), (0x6000, tileBytes c.vec.acc1),
    (0x8000, planeBytes c.mtx.plane0), (0xA000, planeBytes c.mtx.plane1), (0xC000, planeBytes c.mtx.check),
    (0xE000, (ids 1024).flatMap (fun i => natToBytes 16 (c.tags.get 0#128 (BitVec.ofNat 10 i)).toNat)),
    (0x12000, (recs.flatMap id).flatMap Rec.bytes),
    (0x16000, ((c.mtx.cmds.flatMap QEntry.recs).take 48).flatMap Rec.bytes) ]

/-- Bytes of a core block. -/
def blockSize : Nat := 0x80000
/-- The address of seat s's block. -/
def blockBase (base s : Nat) : Nat := base + blockSize * (s + 1)

/-- Write a core block: its parts over zeros, then the keep lines with their poison (R408, R412). -/
def saveBlock (pa : Nat) (c : Core) (s : State) : State :=
  let image := c.blockParts.foldl (fun m p => Memory.write m p.1 p.2) []
  let s1 := s.physWrite pa (Memory.read image 0 blockSize)
  (List.range 32).foldl (fun s k =>
    match c.tower.line (BitVec.ofNat 5 k) with
    | some l =>
      s.physPut (pa + 0x19000 + 512 * k) ((List.range 512).map (fun i => (Memory.get l.data i, Marks.has l.poison (i / 32))))
    | none => s) s1

/-! ## Reading a block back -/

/-- A run of bytes is zero. -/
def State.zeroAt (s : State) (pa lo hi : Nat) : Bool := (s.physRead (pa + lo) (hi - lo)).all (fun b => decide (b = 0#8))

/-- The queue records of a block: the counts of the five queues, then their records (R408). -/
def State.blockRecs (s : State) (pa : Nat) : List (List (Rec × Bool)) :=
  let count (e : Nat) : Nat := min (s.physNat (pa + 0x250 + 2 * e) 2) 64
  (List.range 5).map (fun e =>
    let before := ((List.range e).map count).foldl (fun a b => a + b) 0
    (List.range (count e)).map (fun i => s.readRec (pa + 0x12000 + 256 * (before + i))))

/-- The records of the retained window of a block, 48 at most. -/
def State.windowRecs (s : State) (pa : Nat) : List (Rec × Bool) :=
  ((List.range 48).map (fun i => s.readRec (pa + 0x16000 + 256 * i))).takeWhile (fun r => decide (r.1.code ≠ 0#4))

/-- The commands of a retained window: the first n groups of its records; of a command that the 48th record cuts, none. -/
def windowGroups (n : Nat) (rs : List Rec) : List (List Rec) :=
  let gs := groupRecs rs
  (if decide (rs.length = 48) && (gs.getLast?.map (fun g => (decodeGroup g).isNone)).getD false then gs.dropLast else gs).take n

/-- A control queue entry from its group; the transfer noted beside it comes from the entries that were saved. -/
def centryOf (olds : List CEntry) (g : List Rec) : Option CEntry :=
  match g, decodeGroup g with
  | r :: _, some (i, none) =>
    let w : BitVec 54 := r.resume.truncate 54
    let pc : Pc := w.extractLsb' 3 51
    let slot := (w.extractLsb' 0 3).toNat
    let base : CEntry := (olds.find? (fun e => decide (e.pc = pc ∧ e.slot = slot ∧ e.flev = r.flev))).getD
      { pc := pc, slot := slot, started := r.started, done := r.done, flev := r.flev, at_ := slot }
    some { base with started := r.started, done := r.done, ins := some i }
  | _, _ => none

/-- The front end of a block: its resume point and current bundle, its control entries; what the area has no place for
comes from the core that was saved, when the resume point is the one that was saved. -/
def State.blockFront (s : State) (pa : Nat) (seated out : Bool) (cs : List CEntry) (old : Front) : Front :=
  let w := BitVec.ofNat 64 (s.physNat (pa + 48) 8)
  let pc : Pc := w.truncate 51
  let slot := (field w 51 3).toNat
  let noted := old.frozen.filter (fun e => !e.started && !e.done)
  let b := BitVec.ofNat 256 (s.physNat (pa + 0x2320) 32)
  let here := cs.find? (fun e => decide (e.flev = 0#8))
  let same := decide (old.rpc.1 = w.toNat % 2 ^ 54) && decide ((old.rpc.2).getD 0#256 = if slot = 0 then 0#256 else b)
  let base : Front :=
    if same then old
    else
      { run := !out, pc := pc, bundle := if slot = 0 then none else some b, slot := if slot = 0 then 1 else slot
        pend := .none, vec := if seated then false else old.vec }
  { base with
      started := (here.map (fun e => e.started)).getD false
      done := (here.map (fun e => e.done)).getD false
      frozen := (cs.filter (fun e => decide (e.flev ≠ 0#8))).reverse ++ noted }

/-- A tile read from a block. -/
def State.blockTile (s : State) (pa : Nat) : Bank (BitVec 6) (BitVec 1024) :=
  (List.range 64).map (fun r => (BitVec.ofNat 6 r, BitVec.ofNat 1024 (s.physNat (pa + 128 * r) 128)))
/-- A bank of 2,048 words read from a block. -/
def State.blockPlane (s : State) (pa : Nat) : Bank Nat (BitVec 32) :=
  (List.range 2048).map (fun i => (i, BitVec.ofNat 32 (s.physNat (pa + 4 * i) 4)))

/-- The join stack of a block. -/
def State.blockStack (s : State) (pa : Nat) : List JoinEntry :=
  (List.range (min 8 (s.physNat (pa + 24) 1))).map (fun i =>
    let v := s.physNat (pa + 16 + i) 1
    if v = 16 then JoinEntry.any else JoinEntry.id (BitVec.ofNat 4 v))

/-- The query records of a block; rings and open units come from the core that was saved. -/
def State.blockQueries (s : State) (pa : Nat) (old : Core) : Bank (BitVec 6) (Option Query) :=
  (List.range 64).filterMap (fun i =>
    let w := BitVec.ofNat 64 (s.physNat (pa + 0xF00 + 16 * i) 8)
    let id := BitVec.ofNat 6 i
    if bit w 0 then
      let q : Query := (old.queries.get none id).getD { rid := 0#4, open_ := 0 }
      some (id, some { q with fin := bit w 1, written := (field w 32 32).truncate 32
                              spilled := s.physNat (pa + 0xF08 + 16 * i) 2 })
    else none)

/-- The system registers of a block. -/
def State.blockCtl (s : State) (pa : Nat) (cyc : Word) : Ctl :=
  let w (i : Nat) : Word := BitVec.ofNat 64 (s.physNat (pa + 0x140 + 8 * i) 8)
  { s := (List.range 32).map (fun i => (BitVec.ofNat 5 i, BitVec.ofNat 64 (s.physNat (pa + 0x40 + 8 * i) 8)))
    cst := w 0, xpc := (w 1).truncate 54, xcause := w 2, xaddr := w 3, xvec := (w 4).truncate 51, asid := (w 5).truncate 16
    cyc := cyc, stbank := w 6, sttok := w 7, stfetch := w 8, vrb := (w 9).truncate 5, prb := (w 10).truncate 3, sscr := w 11 }

/-- The matrix engine's state of a block; a window record that does not decode has been refused before. -/
def State.blockMtx (s : State) (pa : Nat) (old : Mtx) : Mtx :=
  let w := BitVec.ofNat 64 (s.physNat (pa + 0x2300) 8)
  let n := (field w 2 6).toNat
  let rs := (s.windowRecs pa).map (fun r => r.1)
  { plane0 := s.blockPlane (pa + 0x8000), plane1 := s.blockPlane (pa + 0xA000)
    window := match (field w 0 2).toNat with | 1 => .anchored | 2 => .overflowed | _ => .none
    cmds := if rs = (old.cmds.flatMap QEntry.recs).take 48 ∧ n = old.cmds.length then old.cmds
            else (entriesOf 2#3 (windowGroups n rs) old.cmds).getD []
    faultAt := if field w 8 8 = 0xFF#64 then none else some (field w 8 8).toNat
    check := s.blockPlane (pa + 0xC000), checkInt := old.checkInt, work := old.work
    epi := (List.range 192).map (fun i => (i, BitVec.ofNat 32 (s.physNat (pa + 0x2000 + 4 * i) 4))) }

/-- The registers, tiles, predicates and generators of the vector side of a block. -/
def State.blockVec (s : State) (pa : Nat) : Vec :=
  { acc0 := s.blockTile (pa + 0x4000), acc1 := s.blockTile (pa + 0x6000), exposed := decide (s.physNat pa 1 / 4 % 4 = 1)
    preds := (List.range 16).map (fun i => (BitVec.ofNat 4 i, BitVec.ofNat 64 (s.physNat (pa + 0x1A0 + 8 * i) 8)))
    gens := (List.range 32).map (fun i => (BitVec.ofNat 5 i, BitVec.ofNat 32 (s.physNat (pa + 0x280 + 4 * i) 4))) }

/-- The token counts and gang queues of a block. -/
def State.blockToks (s : State) (pa : Nat) : Toks :=
  let n := s.physNat (pa + 0x220) 16
  { counts := (List.range 20).map (fun i => (BitVec.ofNat 5 (i + 1), BitVec.ofNat 4 (n / 16 ^ i)))
    gq := (List.range 4).map (fun g =>
      let w := s.physNat (pa + 0x230 + 8 * g) 8
      (BitVec.ofNat 2 g, (List.range (w % 16)).map (fun i => BitVec.ofNat 4 (w / 16 ^ (i + 1))))) }

/-- The core a block describes (R408): what the area has no place for comes from the core that was saved, the tower, the
cached translations and the pending interrupts from the core that holds the seat now. DESIGN CHOICE, log entry 26. -/
def State.readBlock (s : State) (pa : Nat) (old now : Core) : Core :=
  let groups := (s.blockRecs pa).map (fun rs => groupRecs (rs.map (fun r => r.1)))
  let grp (e : Nat) : List (List Rec) := groups.getD e []
  let q (e : Nat) (eng : BitVec 3) (olds : List QEntry) : List QEntry := (entriesOf eng (grp e) olds).getD []
  let st := SeatState.ofCode (s.physNat pa 1 % 4)
  let arr := s.physNat (pa + 32) 10
  let w := BitVec.ofNat 64 (s.physNat (pa + 0x2310) 8)
  { old with
      ctl := s.blockCtl pa now.ctl.cyc
      front := s.blockFront pa (decide (st = .seated)) (decide (st = .out)) ((grp 0).filterMap (centryOf (old.front.frozen ++ old.front.centry 0#8))) old.front
      seat := { st := st, n := s.physNat (pa + 8) 8, stack := s.blockStack pa, depth := BitVec.ofNat 8 (s.physNat (pa + 56) 1) }
      vec := s.blockVec pa
      mtx := s.blockMtx pa old.mtx
      tok := s.blockToks pa
      vq := q 1 1#3 old.vq, mq := q 2 2#3 old.mq, dq := q 3 3#3 old.dq, fq := q 4 4#3 old.fq
      tower := now.tower
      binds := (List.range 16).filterMap (fun i =>
        let b (n : Nat) : Word := BitVec.ofNat 64 (s.physNat (pa + 0x800 + 32 * i + 8 * n) 8)
        if b 2 = 0#64 then none
        else
          let e : Binding := { obj := (b 0).truncate 56, base := (b 1).truncate 56, len := b 2, scope := (b 3).truncate 4
                               hold := Hold.ofCode (field (b 3) 4 2).toNat }
          some (BitVec.ofNat 4 i, some e))
      rings := (List.range 16).map (fun r =>
        let ring : Ring := { desc := BitVec.ofNat 64 (s.physNat (pa + 0x300 + 8 * r) 8)
                             slots := (List.range 64).map (fun i => (BitVec.ofNat 6 i, BitVec.ofNat 6 (s.physNat (pa + 0x380 + 64 * r + i) 1))) }
        (BitVec.ofNat 4 r, ring))
      tags := (List.range 1024).map (fun i => (BitVec.ofNat 10 i, BitVec.ofNat 128 (s.physNat (pa + 0xE000 + 16 * i) 16)))
      shapes := (List.range 16).map (fun i => (BitVec.ofNat 4 i, BitVec.ofNat 512 (s.physNat (pa + 0xA00 + 64 * i) 64)))
      queries := s.blockQueries pa old
      refused :=
        if bit w 0 then
          some { tower := bit w 1, addr := BitVec.ofNat 56 (s.physNat (pa + 0x2318) 7)
                 order := (old.refused.map (fun x => x.order)).getD 0 }
        else none
      irq := now.irq
      tlb := now.tlb
      icache := now.icache
      arrived := (List.range 80).filterMap (fun i =>
        if arr / 2 ^ i % 2 = 1 then some (levelOf (i / 16), BitVec.ofNat 4 i) else none)
      deadCk := 0 }

/-- The pinned lines of a block: line, row, keep (R408). -/
def State.blockLines (s : State) (pa : Nat) : List (Nat × Nat × Bool) :=
  (List.range 32).filterMap (fun k =>
    let w := BitVec.ofNat 64 (s.physNat (pa + 0xE00 + 8 * k) 8)
    if bit w 31 then some (k, (field w 0 25).toNat / 512, bit w 30) else none)

/-- Reserved fields of a block's registers, rings, epilogue words and window records, its last reserved bytes, and the
triples it has spilled (R8, R339, R386, R408, R413, R415). -/
def State.blockRest (s : State) (pa : Nat) : Bool :=
  let w (o : Nat) : Word := BitVec.ofNat 64 (s.physNat (pa + o) 8)
  (List.range 32).all (fun i => decide (s.physNat (pa + 0x2000 + 4 * i) 2 % 2 ^ 14 = 0)) &&
    decide (field (w 0x140) 21 11 = 0#64) && decide (field (w 0x150) 13 3 = 0#64) && decide (field (w 0x150) 18 46 = 0#64)
    && (List.range 16).all (fun r => decide (field (w (0x300 + 8 * r)) 58 5 = 0#64))
    && (s.windowRecs pa).all (fun r => r.2) && s.zeroAt pa 0x61000 0x80000
    && decide (((List.range 64).map (fun i => s.physNat (pa + 0xF08 + 16 * i) 2)).foldl (fun a b => a + b) 0 ≤ 256)

/-- The resume point of a record of a ring instruction leaves its reserved bits zero (R364, R409). -/
def resumeOk (g : List Rec) : Bool :=
  match g, decodeGroup g with
  | r :: _, some (.dCopyRg .., _) => decide (field r.resume 46 18 = 0#64)
  | r :: _, some (.fRing .., _) => decide (field r.resume 46 18 = 0#64)
  | _, _ => true

/-- Reserved fields and counts of a block, its lines and records (R409, R415). -/
def State.blockOk (s : State) (pa : Nat) : Bool :=
  let w (o : Nat) : Word := BitVec.ofNat 64 (s.physNat (pa + o) 8)
  let recs := s.blockRecs pa
  let limits : List Nat := [8, 16, 16, 16, 8]
  let nwin := (field (w 0x2300) 2 6).toNat
  let wrecs := (s.windowRecs pa).map (fun r => r.1)
  let wgroups := windowGroups nwin wrecs
  let lines := s.blockLines pa
  let subs := lines.map (fun l => l.2.1 % 1024)
  let zeros : List (Nat × Nat) := [(25, 32), (42, 48), (57, 64), (0x22A, 0x230), (0x25A, 0x280), (0x780, 0x800),
    (0x1300, 0x2000), (0x20A0, 0x2100), (0x2308, 0x2310), (0x2340, 0x4000)]
  zeros.all (fun z => s.zeroAt pa z.1 z.2)
    && decide (field (w 0) 5 59 = 0#64) && decide (field (w 48) 54 10 = 0#64) && decide (s.physNat (pa + 24) 1 ≤ 8)
    && decide (field (w 0x148) 54 10 = 0#64) && decide (field (w 0x160) 51 13 = 0#64) && decide (field (w 0x168) 16 48 = 0#64)
    && decide (field (w 0x188) 5 59 = 0#64) && decide (field (w 0x190) 3 61 = 0#64)
    && (List.range 1024).all (fun i => decide (s.physNat (pa + 0x380 + i) 1 < 64))
    && (List.range 16).all (fun i => decide (field (w (0x800 + 32 * i)) 56 8 = 0#64) && decide (field (w (0x808 + 32 * i)) 56 8 = 0#64)
        && decide (field (w (0x818 + 32 * i)) 6 58 = 0#64) && shapeOk (BitVec.ofNat 512 (s.physNat (pa + 0xA00 + 64 * i) 64)))
    && (List.range 32).all (fun i => decide (field (w (0xE00 + 8 * i)) 25 5 = 0#64) && decide (field (w (0xE00 + 8 * i)) 32 32 = 0#64))
    && (List.range 64).all (fun i => decide (field (w (0xF00 + 16 * i)) 2 30 = 0#64) && decide (field (w (0xF08 + 16 * i)) 16 48 = 0#64)
        && decide (s.physNat (pa + 0xF08 + 16 * i) 2 ≤ 256))
    && decide (field (w 0x2300) 16 48 = 0#64) && decide (nwin ≤ 48)
    && decide (field (w 0x2310) 2 62 = 0#64) && decide (field (w 0x2318) 56 8 = 0#64)
    && (List.range 1024).all (fun i => decide (field (w (0xE000 + 16 * i)) 18 46 = 0#64) && decide (field (w (0xE008 + 16 * i)) 50 14 = 0#64))
    && (recs.zip limits).all (fun r => decide (r.1.length ≤ r.2) && r.1.all (fun x => x.2))
    && (recs.all (fun r => (groupRecs (r.map (fun x => x.1))).all (fun g => (decodeGroup g).isSome && resumeOk g)))
    && (decide (wgroups.length = nwin) || decide (wrecs.length = 48)) && wgroups.all (fun g => (decodeGroup g).isSome)
    && decide (subs.eraseDups.length = subs.length) && s.blockRest pa

/-! ## The dealer record (R407) -/

/-- The dealer state of R142. -/
def State.dealerState (s : State) (tb : TableId) : Nat :=
  let t := s.table tb
  if !(s.seated tb).isEmpty then
    if t.succ.isNone then 2 else if t.f - s.minNext tb < 64 then 0 else 1
  else if (s.folded tb).isEmpty then 4 else 3

/-- The words of the dealer record. -/
def State.dealerWords (s : State) (tb : TableId) : List Nat :=
  let t := s.table tb
  let head := (s.head tb).map (fun k => (seatOf k).toNat) |>.getD 0
  [0x43580008 + 2 ^ 32, t.spc.toNat,
    t.f % 2 ^ 32 + head * 2 ^ 32 + s.dealerState tb * 2 ^ 36 + bitN t.succ.isSome 39,
    (match t.join with | some (p, j) => p.toNat + j.toNat * 2 ^ 51 | none => 0)]

/-- The saved dealer record is well formed (R407, R415). -/
def State.dealerOk (s : State) (base : Nat) : Bool :=
  let w (n : Nat) : Word := BitVec.ofNat 64 (s.physNat (base + 8 * n) 8)
  decide (w 0 = 0x100000000#64 + 0x43580008#64) && decide (field (w 1) 51 13 = 0#64) && decide (field (w 2) 40 24 = 0#64)
    && decide (field (w 3) 55 9 = 0#64) && s.zeroAt base 32 256

/-- The table that a dealer record and replay buffer describe; bundle addresses, a fixed successor, and what of the stream's
count lies above the 32 bits of F come from the table that was saved. HEAD and DST follow from the seats (R140, R142).
DEDUCED, log entry 75. -/
def State.readDealer (s : State) (base : Nat) (old now : Table) : Table :=
  let w (n : Nat) : Word := BitVec.ofNat 64 (s.physNat (base + 8 * n) 8)
  let f := old.f / 2 ^ 32 * 2 ^ 32 + (field (w 2) 0 32).toNat
  let spc : Pc := (w 1).truncate 51
  let n := min f 64
  { old with
      f := f
      spc := spc
      succ :=
        if bit (w 2) 39 then (if old.f = f ∧ old.spc = spc ∧ old.succ.isSome then old.succ else some (spc + 1#51)) else none
      buf := (List.range n).map (fun i =>
        ((old.buf[i]?.map (fun e => e.1)).getD (spc - BitVec.ofNat 51 i),
          BitVec.ofNat 256 (s.physNat (base + 0x1000 + 32 * (63 - i)) 32)))
      join := if w 3 = 0#64 then none else some ((w 3).truncate 51, (field (w 3) 51 4).truncate 4)
      stop := false
      tlb := now.tlb
      icache := now.icache }

end Sys2Proof.Machine
end

