-- ==== Sys2Proof/Machine/Context.lean ====
section
/-! DEFINITION. Pre-emption, saves and resumption (R403 to R406, R410 to R415, R433), the save-area pool (R410, R420), and
triples of suspended contexts (R413). -/

namespace Sys2Proof.Machine

/-! ## The save-area pool -/

/-- A multiple of n at or above a number. -/
def alignUp (n x : Nat) : Nat := (x + n - 1) / n * n

/-- The pool's first byte. -/
def Launch.poolBase (l : Launch) : Nat := (field l.lspbase 16 36).toNat * 65536
/-- The pool's size in bytes. -/
def Launch.poolSize (l : Launch) : Nat := (field l.lspsize 16 32).toNat * 65536

/-- The lowest place in the pool for n bytes, in units of 64 KiB; none when there is no room (R410, R432).
DESIGN CHOICE, log entry 30. -/
def Launch.place (l : Launch) (n : Nat) : Option Nat :=
  let cands := l.poolBase :: l.pool.map (fun b => b.1 + b.2)
  let fits := cands.filter (fun a =>
    decide (l.poolBase ≤ a) && decide (a + n ≤ l.poolBase + l.poolSize)
      && l.pool.all (fun b => decide (a + n ≤ b.1) || decide (b.1 + b.2 ≤ a)))
  fits.foldl (fun best a => match best with | some b => some (min a b) | none => some a) none

/-- Take n bytes of the pool. -/
def Launch.alloc (l : Launch) (n : Nat) : Option (Nat × Launch) :=
  (l.place n).map (fun a => (a, { l with pool := (a, n) :: l.pool }))

/-- Give blocks back. -/
def Launch.free (l : Launch) (bs : List (Nat × Nat)) : Launch := { l with pool := l.pool.filter (fun b => !bs.contains b) }

/-- Several areas fit together. -/
def Launch.fitsAll (l : Launch) : List Nat → Bool
  | [] => true
  | n :: rest =>
    match l.alloc n with
    | some (_, l') => l'.fitsAll rest
    | none => false

/-! ## Which lines are saved (R410, R411) -/

/-- A footprint covers a line. -/
def footHas (f : List (Nat × Nat)) (line : Nat) : Bool := f.any (fun r => inRange r.1 r.2 line)

/-- The lines of a footprint that another one covers too, ascending. -/
def footMeet (f g : List (Nat × Nat)) : List Nat := (List.range 65536).filter (fun l => footHas f l && footHas g l)

/-- The lines a core holds by a keep pin. -/
def Core.keepLines (c : Core) : List Nat :=
  c.tower.lines.filterMap (fun e => e.2.bind (fun l => if l.keep then some l.row.toNat else none))

/-- Maximal runs of consecutive lines: first line and count. -/
def lineRuns : List Nat → List (Nat × Nat)
  | [] => []
  | l :: rest =>
    match lineRuns rest with
    | (a, n) :: more => if a = l + 1 then (l, n + 1) :: more else (l, 1) :: (a, n) :: more
    | [] => [(l, 1)]

/-- Runs with their places, laid one after another from an address: seat, first line, count, address. -/
def placeRuns (seat : Nat) : List (Nat × Nat) → Nat → List (Nat × Nat × Nat × Nat)
  | [], _ => []
  | (l, n) :: rest, a => (seat, l, n, a) :: placeRuns seat rest (a + 512 * n)

/-- The runs of every seat, seat 0 first, from an address. -/
def placeSeats : List (Nat × List (Nat × Nat)) → Nat → List (Nat × Nat × Nat × Nat)
  | [], _ => []
  | (seat, runs) :: rest, a => placeRuns seat runs a ++ placeSeats rest (a + 512 * runs.foldl (fun n r => n + r.2) 0)

/-- The lines in some runs. -/
def runLines (rs : List (Nat × Nat × Nat × Nat)) : Nat := rs.foldl (fun n r => n + r.2.2.1) 0

/-- Directory pages that n records need. -/
def pagesFor (n : Nat) : Nat := (n + 254) / 255

/-- The directory head of a seat in a save area (R406). -/
def headAt (base seat : Nat) : Nat := base + 0x2000 + 256 * seat

/-- The records that a seat's chain holds (R406). -/
def State.chainCount (s : State) (base seat : Nat) : Nat := s.physNat (headAt base seat + 8) 4

/-- The pages that a seat's chain needs beyond those it has, for n more records. -/
def State.pagesMore (s : State) (base seat n : Nat) : Nat :=
  pagesFor (s.chainCount base seat + n) - pagesFor (s.chainCount base seat)

/-- The records of a seat among some. -/
def seatRecs (recs : List (Nat × Nat × Nat × Nat)) (seat : Nat) : Nat := (recs.filter (fun r => decide (r.1 = seat))).length

/-- The n-th page of a chain, from the word that names its first: each page's NEXT names the one after it (R411). -/
def State.chainPage (s : State) (word : Nat) : Nat → Nat
  | 0 => (field (BitVec.ofNat 64 (s.physNat word 8)) 12 40).toNat * 4096
  | n + 1 => s.chainPage ((field (BitVec.ofNat 64 (s.physNat word 8)) 12 40).toNat * 4096 + 0xFF0) n

/-- Append a record to its seat's chain, where it stands in memory (R410, R411): on its last page, or on a new page, the
first of those at hand. -/
def appendRec (base : Nat) (acc : List Nat × State) (r : Nat × Nat × Nat × Nat) : List Nat × State :=
  let (pages, s) := acc
  let head := headAt base r.1
  let n := s.chainCount base r.1
  let last := s.chainPage head (n / 255 - (if n % 255 = 0 then 1 else 0))
  let rec_ := natToBytes 8 (r.2.1 + r.2.2.1 * 2 ^ 32) ++ natToBytes 8 r.2.2.2
  let count (s : State) : State := s.physWrite (head + 8) (natToBytes 4 (n + 1))
  if n % 255 = 0 then
    let p := pages.headD 0
    let link := if n = 0 then head else last + 0xFF0
    let s1 := (s.physWrite p (rec_ ++ List.replicate 4080 0#8)).physWrite link (natToBytes 8 p)
    (pages.drop 1, count s1)
  else (pages, count (s.physWrite (last + 16 * (n % 255)) rec_))

/-- Append records to their seats' chains, new pages being laid from a 4 KiB boundary on. -/
def appendRecs (base : Nat) (recs : List (Nat × Nat × Nat × Nat)) (a : Nat) (s : State) : State :=
  (recs.foldl (appendRec base) ((List.range recs.length).map (fun i => alignUp 4096 a + 4096 * i), s)).2

/-- Copy a run of tower lines to its place, poison included (R205, R206, R410). -/
def saveRun (tb : TableId) (r : Nat × Nat × Nat × Nat) (s : State) : State :=
  let k := coreAt tb (BitVec.ofNat 4 r.1)
  let s := s.scrubTower k (512 * r.2.1) (512 * r.2.2.1)
  let t := (s.core k).tower
  s.physPut r.2.2.2 ((List.range (512 * r.2.2.1)).map (fun i => (t.byte (512 * r.2.1 + i), t.poisoned (512 * r.2.1 + i))))

/-- The offset whose row a cell holds, if its row serves. -/
def Tower.offsetOf (t : Tower) (key : Nat) : Option Nat :=
  ((List.range 64).find? (fun r => decide (t.servRow (key / 33792) r = key % 33792 / 512))).map (fun r =>
    r * 2 ^ 19 + key / 33792 * 512 + key % 512)

/-- A tower with the bytes that another task may have changed in unsaved lines of a context: each its own value or the one
written (R7, R410). DESIGN CHOICE, log entry 8. -/
def Tower.mixOwn (now own : Tower) (tick : Nat) (open_ : Nat → Bool) : Tower :=
  (own.cells.filterMap (fun c => own.offsetOf c.1) ++ now.cells.filterMap (fun c => now.offsetOf c.1)).foldl (fun t o =>
    if open_ (o / 512) && decide (own.byte o ≠ now.byte o) && Config.freeBool tick o then t.setByte o (own.byte o) else t) now

/-- Copy a saved run back to its tower lines, poison included (R414). -/
def restoreRun (tb : TableId) (r : Nat × Nat × Nat × Nat) (s : State) : State :=
  let k := coreAt tb (BitVec.ofNat 4 r.1)
  let d := s.physData r.2.2.2 (512 * r.2.2.1)
  s.modCore k (fun c =>
    let t := c.tower.write (512 * r.2.1) (d.map (fun b => b.1))
    { c with tower := d.zipIdx.foldl (fun t p => if p.1.2 then t.setPoison (512 * r.2.1 + p.2) true else t) t })

/-! ## Pre-emption (R403 to R405) -/

/-- PREEMPTION_REQUEST: the table's engines stop at their next points, and its waiting acquirers leave their queues
(R254, R403). -/
def requestStop (tb : TableId) (s : State) : State :=
  if (s.table tb).task.isSome then
    (tableCores tb).foldl (fun s k => (s.leaveQueues k).modCore k Core.land) (s.modTable tb (fun t => { t with stop := true }))
  else s

/-- The resume point of a member's slice of a ganged command that has started and not ended. -/
def Core.gangSliceAt (c : Core) (gq : BitVec 2) : Option Word :=
  (c.mq.find? (fun e => e.ganged && e.started && !e.finished && e.fault.isNone && e.faulted.isNone
    && decide (e.gang.map (fun g => g.gq) = some gq))).map (fun e => e.resume)

/-- A started gang stands where a save may find it: at one chunk in every present member that has not faulted, or ended
with no room for its tokens (R403, R404). -/
def State.gangStands (s : State) (tb : TableId) (g : GangRun) : Bool :=
  let core (m : BitVec 2) : Core := s.core (tb ++ (g.quad ++ m))
  let live := g.members.filter (fun m => !g.mask.getLsbD m.toNat)
  let at_ := live.filterMap (fun m => (core m).gangSliceAt g.gq)
  if at_.isEmpty then g.members.all (fun m => !s.gangRoom tb g m)
  else decide (at_.length = live.length) && decide (at_.eraseDups.length = 1)

/-- A packet that a core sent, or that a query of it sends while the table stops, is not performed; accepted queries apart
(R404, R413). A query that a fault keeps from sending goes on after the resume. -/
def State.sending (s : State) (k : CoreId) : Bool :=
  s.outstanding k
    || s.hbm.any (fun e => e.2.sent.any (fun x => decide (x.pkt.src = k) && x.reply)
        || e.2.queryq.any (fun q => decide (q.core = k) && q.reply))
    || (!(s.core k).marked && (s.core k).dq.any (fun q => decide (q.flev = 0#8) && !q.finished && q.posting))

/-- The table has drained: nothing its cores sent is still to be performed or answered but accepted queries, no refetch waits
for a stack, its vector instructions and forced refreshes have ended, and every gang stands at one chunk (R403, R404). -/
def State.drained (s : State) (tb : TableId) : Bool :=
  (s.table tb).gangs.all (s.gangStands tb) && (tableCores tb).all (fun k =>
    let c := s.core k
    !s.sending k && c.mtx.retry.isNone && c.replies.isEmpty && c.front.pfx.isNone && !c.tower.forcedDue
      && !(c.vq.any (fun e => e.started && !e.finished && e.fault.isNone && decide (e.flev = 0#8))))

/-- The control unit of a core that drains comes to its boundary: a bundle that has been executed is left, and one to be
resumed inside is fetched (R403, R408); none while a stack holds the fetch back. -/
def drainFront (k : CoreId) (s : State) : Option State :=
  let f := (s.core k).front
  let tb := tableOf k
  if !f.run then some s
  else
    match f.bundle with
    | some _ => some (if f.item.isNone then endBundle k s else s)
    | none =>
      if f.slot = 1 then some s
      else
        match (s.core k).seat.st with
        | .seated =>
          if (s.core k).seat.n < (s.table tb).f then some (takeDealt k s)
          else
            match dealerFetch tb (s.modTable tb (fun t => { t with stop := false })) with
            | .ok _ s' => some (takeDealt k (s'.modTable tb (fun t => { t with stop := true })))
            | _ => some s
        | _ =>
          match s.fetch k f.pc with
          | .ok b s' => some (placeBundle k f.pc b s')
          | .trap _ _ => some s
          | .wait => none

/-- Every control unit of a table comes to its boundary. -/
def drainFronts (tb : TableId) (s : State) : Option State :=
  (tableCores tb).foldl (fun (acc : Option State) k => acc.bind (drainFront k)) (some s)

/-- Drop pins are written back and released, and the saved `cst` records them in PDROP; keep pins are released with their
rows as they stand (R412). The result is the core as saved, and its tower afterwards. -/
def Core.unpin (c : Core) : Core × Tower :=
  let drops := (List.range 32).filter (fun k =>
    match c.tower.line (BitVec.ofNat 5 k) with
    | some l => !l.keep
    | none => false)
  let t := drops.foldl (fun t k => t.release (BitVec.ofNat 5 k)) c.tower
  let cst := drops.foldl (fun w k => setBit w (32 + k) true) c.ctl.cst
  ({ c with tower := t, ctl := { c.ctl with cst := cst } }, t.dropPins)

/-- The triples of a core that its rings have no room for go to the spill of the suspended context, at most 256 of them
(R413): the record's place, the triple and its query. DEDUCED, log entry 27. -/
def spillOne (pa : Nat) (c : Core) (s : State) : Core × State :=
  match c.inbox with
  | [] => (c, s)
  | t :: rest =>
    if 256 ≤ c.spill.length then (c, s)
    else
      let q : Option Query := (c.queries.get none t.id).map (fun q => { q with spilled := q.spilled + 1 })
      let c' := { c with inbox := rest, spill := c.spill ++ [t], queries := c.queries.set t.id q }
      let at_ := pa + 0xF00 + 16 * t.id.toNat
      let s1 := s.physWrite (pa + 0x1D000 + 1088 * c.spill.length) (t.bytes false)
      (c', s1.physWrite (at_ + 8) (natToBytes 2 ((q.map (fun q => q.spilled)).getD 0)))

/-- Spill every triple that waits. -/
def spillAll (pa : Nat) : Nat → Core → State → Core × State
  | 0, c, s => (c, s)
  | n + 1, c, s => let r := spillOne pa c s; spillAll pa n r.1 r.2

/-- The ring of a triple has room. -/
def Core.ringRoom (c : Core) (t : Triple) : Bool :=
  match c.queries.get none t.id with
  | some q => (c.ring q.rid).val && (c.ring q.rid).isEmpty (c.ring q.rid).head
  | none => true

/-- Triples that wait go into their rings while these have room (R373, R413). -/
def fillRings (k : CoreId) : Nat → State → State
  | 0, s => s
  | n + 1, s =>
    let c := s.core k
    match c.inbox.zipIdx.find? (fun p => c.ringRoom p.1) with
    | none => s
    | some (t, i) => fillRings k n (writeTriple k (s.setCore k { c with inbox := t :: c.inbox.eraseIdx i }))

/-- The pinned lines of a core are read: errors of one bit are corrected, worse ones poison their sector (R205). -/
def scrubLines (k : CoreId) (s : State) : State :=
  (s.core k).tower.lines.foldl (fun s e =>
    match e.2 with
    | some l => s.scrubTower k (512 * l.row.toNat) 512
    | none => s) s

/-- The save of one seat: its core block, its waiting triples, its tower freed of pins; the scans it has going now belong
to the suspended context (R408, R412, R413). The result adds the core as saved. -/
def saveSeat (base : Nat) (k : CoreId) (order : Nat) (acc : List (CoreId × Core)) (s : State) : List (CoreId × Core) × State :=
  let s0 := scrubLines k (fillRings k (s.core k).inbox.length s)
  let (c, t) := (s0.core k).unpin
  let pa := blockBase base (seatOf k).toNat
  let s1 := saveBlock pa c s0
  let (c', s2) := spillAll pa c.inbox.length c s1
  let own (q : QueryPacket) : QueryPacket := if q.core = k ∧ q.ctx = none then { q with ctx := some order } else q
  let f (e : StackId × Stack) : StackId × Stack := (e.1, { e.2 with scans := e.2.scans.map (fun x => { x with qp := own x.qp }) })
  let s3 := { s2 with hbm := s2.hbm.map f }
  (acc ++ [(k, c')],
    s3.modCore k (fun now => { now.resetState with tower := t }))

/-- The size of a save area with some runs of lines: the smallest multiple of 64 KiB (R406, R432). -/
def areaSize (runs : List (Nat × Nat × Nat × Nat)) : Nat :=
  let pages := ((List.range 16).map (fun seat => pagesFor (seatRecs runs seat))).foldl (fun a b => a + b) 0
  alignUp 65536 (alignUp 4096 (0x880000 + 512 * runLines runs) + 4096 * pages)

/-- The runs that the save of a table covers, given the incoming footprint, laid out in an area at a base (R406, R410). -/
def State.saveRuns (s : State) (tb : TableId) (foot : List (Nat × Nat)) (base : Nat) : List (Nat × Nat × Nat × Nat) :=
  match (s.table tb).task with
  | none => []
  | some t =>
    placeSeats ((tableCores tb).map (fun k =>
      ((seatOf k).toNat,
        lineRuns ((footMeet t.foot foot).filter (fun l => !(s.core k).keepLines.contains l))))) (base + 0x880000)

/-- The footprint of the node for which a table is being pre-empted; none when no node waits for it (R410). -/
def State.incomingFoot (s : State) (tb : TableId) : List (Nat × Nat) :=
  match s.launch.claims.find? (fun c => c.2.2.contains tb) with
  | some (gid, node, _) =>
    (match s.launch.graphs.get none gid with
     | some g => (g.nodes[node.toNat]?.map (fun n => n.foot)).getD []
     | none => [])
  | none => []

/-- The bytes of a table's future save area. -/
def State.saveSize (s : State) (tb : TableId) (foot : List (Nat × Nat)) : Nat := areaSize (s.saveRuns tb foot 0)

/-- Write the save area of a drained table and suspend its task (R406 to R413). -/
def saveTable (tb : TableId) (task : Task) (base size : Nat) (l : Launch) (s : State) : State :=
  let runs := s.saveRuns tb (s.incomingFoot tb) base
  let s0 := (tableCores tb).foldl (fun s k =>
    (s.performed k).modCore k (fun c => ((([.v, .m, .d, .f] : List Engine)).foldl (fun c e => c.retire e) c))) s
  let s1 := s0.physWrite base (List.replicate 0x80000 0#8)
  let words := s1.dealerWords tb
  let s2 := s1.physWrite base (words.flatMap (fun w => natToBytes 8 w))
  let s3 := (s2.table tb).buf.zipIdx.foldl (fun s p => s.physWrite (base + 0x1000 + 32 * (63 - p.2)) (natToBytes 32 p.1.2.toNat)) s2
  let order := l.clock
  let bars := ((tableCores tb).filter (fun k => decide ((s3.core k).seat.st ≠ .out))).map (fun k => (k, (s3.core k).arrived))
  let tab := s3.table tb
  let (cores, s4) := (tableCores tb).foldl (fun (a : List (CoreId × Core) × State) k => saveSeat base k order a.1 a.2) ([], s3)
  let s5 := runs.foldl (fun s r => saveRun tb r s) s4
  let s6 := appendRecs base runs (base + 0x880000 + 512 * runLines runs) s5
  let u : Suspended :=
    { table := tb, task := task, order := order, base := base, size := size, saved := runs, bars := bars
      cores := cores, tab := tab }
  let l' := { l with suspended := l.suspended ++ [u], clock := l.clock + 1 }
  ({ s6 with launch := l' }).setTable tb { tlb := tab.tlb, icache := tab.icache }

/-- The pool's memory is reachable now (R235, R441). -/
def State.areaReady (s : State) (base size : Nat) : Bool :=
  match tierOf base with
  | some (far, t) => s.tierUsable far && !s.extBlocked far t size 2#3 true
  | none => false

/-- PREEMPTION_DRAIN_COMPLETE: a drained table's context is written to an area of the pool and its task is suspended
(R404, R406). -/
def drainComplete (tb : TableId) (s : State) : State :=
  let t := s.table tb
  match t.task with
  | none => s
  | some task =>
    if !t.stop then s
    else
      match drainFronts tb s with
      | none => s
      | some s1 =>
        if !s1.drained tb then s1
        else
          let size := s1.saveSize tb (s1.incomingFoot tb)
          match s1.launch.alloc size with
          | none => s1
          | some (base, l) => if s1.areaReady base size then saveTable tb task base size l s1 else s1

/-! ## Later saves (R410) -/

/-- The runs that a suspended context still has to save before a task of a footprint comes to its table. -/
def Suspended.laterRuns (u : Suspended) (foot : List (Nat × Nat)) (a : Nat) : List (Nat × Nat × Nat × Nat) :=
  placeSeats ((tableCores u.table).map (fun k =>
    let seat := (seatOf k).toNat
    let c := (u.cores.find? (fun e => decide (e.1 = k))).map (fun e => e.2) |>.getD {}
    (seat, lineRuns ((footMeet u.task.foot foot).filter (fun l =>
      !c.keepLines.contains l && !(u.saved.any (fun r => decide (r.1 = seat) && inRange r.2.1 r.2.2.1 l))))))) a

/-- The block a later save needs: its size, 0 when there is nothing to save. -/
def State.laterSize (s : State) (u : Suspended) (foot : List (Nat × Nat)) : Nat :=
  let runs := u.laterRuns foot 0
  if runs.isEmpty then 0
  else
    let pages := ((List.range 16).map (fun seat => s.pagesMore u.base seat (seatRecs runs seat))).foldl (fun a b => a + b) 0
    alignUp 65536 (alignUp 4096 (512 * runLines runs) + 4096 * pages)

/-- A context's area is read (R232). -/
def Suspended.touch (u : Suspended) (s : State) : State :=
  ((u.base, u.size) :: u.blocks).foldl (fun s b => s.physTouch b.1 b.2) s

/-- The later saves of every context suspended on a table, other than those a predicate leaves out; none when the pool has
no room (R410). -/
def laterSaves (tb : TableId) (foot : List (Nat × Nat)) (skip : Suspended → Bool) : List Suspended → State → Option State
  | [], s => some s
  | u :: rest, s0 =>
    let s := if u.table ≠ tb ∨ skip u then s0 else u.touch s0
    let n := s.laterSize u foot
    if u.table ≠ tb ∨ skip u ∨ n = 0 then laterSaves tb foot skip rest s
    else
      match s.launch.alloc n with
      | none => none
      | some (a, l) =>
        if !s.areaReady a n then none else
        let runs := u.laterRuns foot a
        let s1 := runs.foldl (fun s r => saveRun tb r s) { s with launch := l }
        let s2 := appendRecs u.base runs (a + 512 * runLines runs) s1
        let u' := { u with saved := u.saved ++ runs, blocks := (a, n) :: u.blocks }
        laterSaves tb foot skip rest
          { s2 with launch := { s2.launch with suspended := s2.launch.suspended.map (fun x => if x.order = u.order then u' else x) } }

/-! ## Resumption (R414, R415, R433) -/

/-- The records of a seat's directory chain: none when the chain is malformed (R411, R415). -/
def State.readChain (s : State) (seat : Nat) : Nat → Nat → Nat → Option (List (Nat × Nat × Nat × Nat))
  | 0, left, _ => if left = 0 then some [] else none
  | fuel + 1, left, page =>
    if left = 0 then some []
    else if (tierOf page).isNone then none
    else
      let n := min left 255
      let recs := (List.range n).map (fun i =>
        let w0 := BitVec.ofNat 64 (s.physNat (page + 16 * i) 8)
        let w1 := BitVec.ofNat 64 (s.physNat (page + 16 * i + 8) 8)
        ((seat, (field w0 0 16).toNat, (field w0 32 17).toNat, (field w1 9 43).toNat * 512),
          decide (field w0 16 16 = 0#64) && decide (field w0 49 15 = 0#64) && decide (field w1 0 9 = 0#64)
            && decide (field w1 52 12 = 0#64) && decide (1 ≤ (field w0 32 17).toNat)
            && decide ((field w0 0 16).toNat + (field w0 32 17).toNat ≤ 65536)
            && (tierOf ((field w1 9 43).toNat * 512)).isSome))
      let nw := BitVec.ofNat 64 (s.physNat (page + 0xFF0) 8)
      let next := (field nw 12 40).toNat * 4096
      if recs.all (fun r => r.2) && s.zeroAt page 0xFF8 0x1000
          && (decide (left ≤ 255) || (decide (field nw 0 12 = 0#64) && decide (field nw 52 12 = 0#64))) then
        match (if left ≤ 255 then some [] else s.readChain seat fuel (left - n) next) with
        | some more => some (recs.map (fun r => r.1) ++ more)
        | none => none
      else none

/-- A seat's saved runs, from its directory head; none when malformed or when two records cover one line (R415). -/
def State.seatRuns (s : State) (base seat : Nat) : Option (List (Nat × Nat × Nat × Nat)) :=
  let w0 := BitVec.ofNat 64 (s.physNat (base + 0x2000 + 256 * seat) 8)
  let w1 := BitVec.ofNat 64 (s.physNat (base + 0x2008 + 256 * seat) 8)
  let ok := decide (field w0 0 12 = 0#64) && decide (field w0 52 12 = 0#64) && decide (field w1 32 32 = 0#64)
    && s.zeroAt (base + 0x2000 + 256 * seat) 16 256
  if !ok then none
  else
    match s.readChain seat 258 (field w1 0 32).toNat ((field w0 12 40).toNat * 4096) with
    | none => none
    | some rs =>
      let meet := rs.zipIdx.any (fun a => rs.zipIdx.any (fun b =>
        decide (a.2 < b.2) && decide (a.1.2.1 < b.1.2.1 + b.1.2.2.1) && decide (b.1.2.1 < a.1.2.1 + a.1.2.2.1)))
      if meet then none else some rs

/-- The runs of every seat; none when one is malformed. -/
def State.allRuns (s : State) (base : Nat) : Option (List (Nat × Nat × Nat × Nat)) :=
  (List.range 16).foldl (fun acc seat =>
    match acc, s.seatRuns base seat with
    | some a, some rs => some (a ++ rs)
    | _, _ => none) (some [])

/-- The checks of R415. -/
def State.contextOk (s : State) (u : Suspended) : Bool :=
  s.dealerOk u.base && (s.allRuns u.base).isSome && (List.range 16).all (fun seat => s.blockOk (blockBase u.base seat))

/-- A spilled triple as its record holds it; whether it is its unit's last comes from the triple that was spilled (R372,
R413). -/
def State.readTriple (s : State) (pa : Nat) (old : Triple) : Triple :=
  let w (n : Nat) : Word := BitVec.ofNat 64 (s.physNat (pa + 8 * n) 8)
  { id := (field (w 1) 32 6).truncate 6, m := (w 0).truncate 32, s := (field (w 0) 32 32).truncate 32, nkey := (w 1).truncate 32
    emask := (field (w 1) 40 4).truncate 4
    epos := ((List.range 4).map (fun i => BitVec.ofNat 32 (s.physNat (pa + 16 + 4 * i) 4))).take (field (w 1) 44 4).toNat
    unit := (field (w 1) 48 12).truncate 12, frow := (w 4).truncate 52
    acc := (List.range old.acc.length).map (fun i => BitVec.ofNat 32 (s.physNat (pa + 64 + 4 * i) 4)), last := old.last }

/-- Pin a saved keep line again, with the content the area holds (R412). -/
def repin (pa : Nat) (l : Nat × Nat × Bool) (s : State) (t : Tower) : Tower :=
  let k := BitVec.ofNat 5 l.1
  let base := t.capture (BitVec.ofNat 16 l.2.1) l.2.2
  let d := s.physData (pa + 0x19000 + 512 * l.1) 512
  let line : Line :=
    { base with
        data := Memory.write [] 0 (d.map (fun b => b.1))
        poison := (List.range 16).filter (fun i => (d.getD (32 * i) (0#8, false)).2)
        err1 := [], err2 := [] }
  { t with lines := t.lines.set k (some line) }

/-- Restore one seat: its block, its pins, its spilled triples ahead of those the base dies held, the barriers that
completed meanwhile (R157, R412, R413, R414). -/
def restoreSeat (u : Suspended) (s : State) (k : CoreId) : State :=
  let pa := blockBase u.base (seatOf k).toNat
  let old := (u.cores.find? (fun e => decide (e.1 = k))).map (fun e => e.2) |>.getD {}
  let seat := (seatOf k).toNat
  let open_ (line : Nat) : Bool := footHas u.task.foot line && !old.keepLines.contains line
    && !(u.saved.any (fun r => decide (r.1 = seat) && inRange r.2.1 r.2.2.1 line))
  let now := { s.core k with tower := (s.core k).tower.mixOwn old.tower s.tick open_ }
  let c := s.readBlock pa old now
  let tower := (s.blockLines pa).foldl (fun t l => repin pa l s t) c.tower
  let spilled := old.spill.zipIdx.map (fun p => s.readTriple (pa + 0x1D000 + 1088 * p.2) p.1)
  let freed := (u.freed.filter (fun f => decide (f.1 = k))).map (fun f => f.2)
  let c1 : Core :=
    { c with tower := tower, inbox := spilled ++ old.inbox, spill := []
             queries := c.queries.map (fun e => (e.1, e.2.map (fun q => { q with spilled := 0 })))
             arrived := c.arrived.filter (fun a => !freed.contains a), released := freed ++ c.released }
  let give (q : QueryPacket) : QueryPacket := if q.ctx = some u.order ∧ q.core = k then { q with ctx := none } else q
  let s1 := s.setCore k c1
  let f (e : StackId × Stack) : StackId × Stack := (e.1, { e.2 with scans := e.2.scans.map (fun x => { x with qp := give x.qp }) })
  { s1 with hbm := s1.hbm.map f }

/-- Restore a suspended context whose area is in order, in the order of R414, and free its blocks (R433). -/
def restoreTable (u : Suspended) (s : State) : State :=
  let runs := (s.allRuns u.base).getD []
  let s1 := runs.foldl (fun s r => restoreRun u.table r s) s
  let s2 := (tableCores u.table).foldl (restoreSeat u) s1
  let now := s2.table u.table
  let s3 := s2.advanceTick.setTable u.table { s2.readDealer u.base u.tab now with task := some u.task }
  let l := s3.launch.free ((u.base, u.size) :: u.blocks)
  { s3 with launch := { l with suspended := l.suspended.filter (fun x => decide (x.order ≠ u.order)) } }

/-- LERR records an error, or counts it as lost (R420). -/
def Launch.error (l : Launch) (kind gid node reason : Nat) : Launch :=
  if bit l.lerr 63 then
    { l with lerr := setField l.lerr 40 8 (BitVec.ofNat 64 (min 255 ((field l.lerr 40 8).toNat + 1))) }
  else
    { l with lerr := BitVec.ofNat 64 (kind + gid * 2 ^ 8 + node * 2 ^ 16 + reason * 2 ^ 32 + 2 ^ 63)
                      ||| keepBits l.lerr 40 8 }

/-- A resume that fails: LERR KIND 2, the context stays suspended, and its instance will end with status 2 (R415, R433,
R435). -/
def resumeFails (u : Suspended) (s : State) : State :=
  let l := s.launch.error 2 u.task.gid.toNat u.task.node.toNat 0
  let mark (g : Graph) : Graph := { g with inst := g.inst.map (fun i => { i with ctxErr := true }) }
  { s with launch :=
      { l with suspended := l.suspended.map (fun x => if x.order = u.order then { x with failed := true } else x)
               graphs := l.graphs.map (fun e => if e.1 = u.task.gid then (e.1, e.2.map mark) else e) } }

/-- A table is free: it runs no task and is not being saved (R428). -/
def State.tableFree (s : State) (tb : TableId) : Bool := (s.table tb).task.isNone && !(s.table tb).stop

/-- The suspended contexts of a task. -/
def State.contextsOf (s : State) (t : Task) : List Suspended := s.launch.suspended.filter (fun u => sameTask u.task t)

/-- A suspended task resumes when every table it was saved from is free: the pending saves of other contexts first, then
the checks, then each context (R410, R414, R433); none when it cannot. A resume that fails leaves those saves made. -/
def resumeTask (t : Task) (s : State) : Option State :=
  let us := s.contextsOf t
  if us.isEmpty || us.any (fun u => u.failed || !s.tableFree u.table || !s.areaReady u.base u.size) then none
  else
    let saves := us.foldl (fun (acc : Option State) u =>
      acc.bind (fun s => laterSaves u.table u.task.foot (fun x => sameTask x.task t) s.launch.suspended s)) (some s)
    saves.map (fun s0 =>
      let s1 := us.foldl (fun s u => u.touch s) s0
      match (s1.contextsOf t).find? (fun u => !s1.contextOk u) with
      | some u => resumeFails u s1
      | none => (s1.contextsOf t).foldl (fun s u => restoreTable u s) s1)

/-! ## Events -/

/-- PREEMPTION_REQUEST (R403). -/
def execPreemptionRequest (tb : TableId) (s : State) : Host.Outcome State Fault Refusal := .next (requestStop tb s)

/-- A quiesce in progress ends when no table runs a task and no fabric packet is in flight; when the pool has no room for
a drained table it fails, and the tables that still stand go on (R458). DEDUCED, log entry 52. -/
def quiesceStep (s : State) : State :=
  let f := s.fabric
  let stuck := allTables.any (fun tb =>
    (s.table tb).task.isSome && (s.table tb).stop && s.drained tb && (s.launch.alloc (s.saveSize tb [])).isNone)
  if !f.quiescing then s
  else if stuck then
    allTables.foldl (fun s tb => if (s.table tb).stop then s.modTable tb (fun t => { t with stop := false }) else s)
      { s with fabric := { f with quiescing := false, result := 2#8 } }
  else if allTables.all (fun tb => (s.table tb).task.isNone) && f.pairs.all (fun e => e.2.inflight.isEmpty && e.2.retry.isEmpty) then
    { s with fabric := { f with quiescing := false, quiesced := true, result := 0#8 } }
  else s

/-- PREEMPTION_DRAIN_COMPLETE (R404, R406, R458). -/
def execPreemptionDrainComplete (tb : TableId) (s : State) : Host.Outcome State Fault Refusal :=
  .next (quiesceStep (drainComplete tb s))

/-- Triples that reached a suspended context of a core go to its spill (R413). -/
def spillSuspended (k : CoreId) (s : State) : State :=
  s.launch.suspended.foldl (fun s u =>
    match u.cores.find? (fun e => decide (e.1 = k)) with
    | none => s
    | some (_, c) =>
      let (c', s') := spillOne (blockBase u.base (seatOf k).toNat) c s
      let upd (x : Suspended) : Suspended :=
        if x.order = u.order then { x with cores := x.cores.map (fun e => if e.1 = k then (k, c') else e) } else x
      { s' with launch := { s'.launch with suspended := s'.launch.suspended.map upd } }) s

/-- TRIPLE_WRITE: the oldest arrived triple of a core goes into its ring, and those of its suspended contexts into their
spills (R373, R413). -/
def execTripleWrite (k : CoreId) (s : State) : Host.Outcome State Fault Refusal := .next (spillSuspended k (writeTriple k s))

end Sys2Proof.Machine
end

