-- ==== Sys2Proof/Machine/Launch.lean ====
section
/-! DEFINITION. The launch unit: registration (R421 to R423), triggers (R424, R425), instances (R426), placement and
pre-emption (R427 to R429, R432, R433), completion (R430, R431), abort (R435), its registers (R420); and the reset of cores
and tables (R32 to R34). -/

namespace Sys2Proof.Machine

/-! ## Core and table reset -/

/-- A query packet that its core no longer waits for. -/
def QueryPacket.disown (k : CoreId) (q : QueryPacket) : QueryPacket :=
  if q.core = k ∧ q.ctx = none then { q with reply := false } else q

/-- What a stack still has to do for a core that was reset: the operations complete, query scans too, and their replies are
discarded (R34, R376). -/
def Stack.disown (k : CoreId) (x : Stack) : Stack :=
  let queued (q : Queued) : Queued := if q.pkt.src = k then { q with reply := false } else q
  let sent (q : Sent) : Sent := if q.pkt.src = k then { q with reply := false } else q
  let delta (d : Delta) : Delta := if d.src = k then { d with reply := false } else d
  { x with queue := x.queue.map queued, sent := x.sent.map sent, deltas := x.deltas.map delta
           queryq := x.queryq.map (QueryPacket.disown k), scans := x.scans.map (fun y => { y with qp := y.qp.disown k }) }

/-- The members of a started gang without one core. -/
def GangRun.without (k : CoreId) (g : GangRun) : GangRun :=
  if g.quad = quadOf k then { g with members := g.members.filter (fun m => decide (m ≠ memberOf k)) } else g

/-- Reset a core (R32 to R34). -/
def resetCore (s : State) (k : CoreId) : State :=
  let f (e : StackId × Stack) : StackId × Stack := (e.1, e.2.disown k)
  let s1 := { (s.leaveQueues k).performed k with hbm := s.hbm.map f }
  (s1.modCore k Core.resetState).modTable (tableOf k) (fun t => { t with gangs := t.gangs.map (GangRun.without k) })

/-- Reset the sixteen cores of a table and its dealer (R32). DEDUCED, log entry 46. -/
def resetTable (s : State) (tb : TableId) : State :=
  ((tableCores tb).foldl resetCore s).modTable tb (fun t =>
    { tlb := t.tlb, icache := t.icache, task := t.task, stop := t.stop })

/-! ## Memory as the launch unit reads and writes it -/

/-- What reading memory gives the launch unit. -/
inductive UnitRead where
  | ok (bs : List (BitVec 8))
  /-- unreadable, poisoned, or outside the tiers and host windows -/
  | bad
  /-- a stack holds the read back -/
  | wait

/-- Bytes of the tiers or of the host windows (R423, R424). DEDUCED, log entry 41. -/
def State.unitRead (s : State) (pa n : Nat) : UnitRead :=
  if n = 0 then .ok []
  else
    match regionOf pa with
    | .host off =>
      if off + n ≤ 2 ^ 50 ∧ !s.hostBad off n then .ok (Memory.read s.host.cells off n) else .bad
    | _ =>
      match tierOf pa with
      | some (far, t) =>
        if !s.tierUsable far || decide (tierSize < t + n) then .bad
        else if s.extBlocked far t n 2#3 false then .wait
        else if (s.extPoison far t n 2#3).isSome then .bad
        else .ok (s.extRead far t n 2#3)
      | none => .bad

/-- Lost units that a read meets are rebuilt (R232). -/
def State.unitTouch (s : State) (pa n : Nat) : State :=
  match tierOf pa with
  | some (far, t) => if s.tierUsable far && decide (t + n ≤ tierSize) then s.extTouch far t n 2#3 else s
  | none => s

/-- A write of the launch unit or of a die controller to a tier, a host window or the aperture; none while a stack holds
it back; elsewhere, and where the host refuses it (R437, R438), nothing is written. -/
def State.unitWrite (s : State) (pa : Nat) (bs : List (BitVec 8)) : Option State :=
  match regionOf pa with
  | .host off => some (if (s.hostRefuses off bs.length).isSome then s else { s with host := s.host.write off bs })
  | .aperture k off => some (s.modCore k (fun c => c.towerWrite off bs))
  | _ =>
    match tierOf pa with
    | some (far, t) =>
      if !s.tierUsable far then some s
      else if s.extBlocked far t bs.length 2#3 true then none
      else some (s.extWrite far t 2#3 bs)
    | none => some s

/-- The 64-bit words of some bytes. -/
def wordsOf : Nat → List (BitVec 8) → List Word
  | 0, _ => []
  | n + 1, bs => BitVec.ofNat 64 (bytesToNat (bs.take 8)) :: wordsOf n (bs.drop 8)

/-- Words of scheduler memory. -/
def Launch.words (l : Launch) (off n : Nat) : List Word := wordsOf n (Memory.read l.mem off (8 * n))

/-- Scheduler memory is 8 MiB (R420). -/
def schedSize : Nat := 8 * 2 ^ 20

/-! ## Kernel headers (R109) -/

/-- A kernel header: first bundle, length, parameter bytes, patch list, footprint. -/
structure KHeader where
  entry : Pc
  nbnd : Nat
  pbytes : Nat
  patch : List (Nat × Nat)
  foot : List (Nat × Nat)
deriving DecidableEq, Repr

/-- Patch and footprint entries that the first four words announce, when those words are in order. -/
def headerCounts (w0 w1 w2 w3 : Word) : Option (Nat × Nat) :=
  let nbnd := (field w2 0 32).toNat
  let pbytes := (field w2 32 16).toNat
  let np := (field w3 0 16).toNat
  let nf := (field w3 16 16).toNat
  if decide (w0 = 0x14B480008#64) && decide (field w1 0 5 = 0#64) && decide (1 ≤ nbnd) && decide (nbnd ≤ 2 ^ 31)
      && decide (pbytes ≤ 4096) && decide (pbytes % 8 = 0) && decide (field w2 48 16 = 0#64)
      && decide (np ≤ 4096) && decide (nf ≤ 64) && decide (field w3 32 32 = 0#64)
  then some (np, nf) else none

/-- A patch entry: its slot and its parameter word. -/
def patchOf (w : Word) : Nat × Nat := ((field w 0 32).toNat, (field w 32 10).toNat)

/-- The patch entries meet R109: slots ascending, numbered 1 to 7, bundle and word in range, reserved bits zero. -/
def patchesOk (nbnd pbytes : Nat) : List Word → Bool
  | [] => true
  | w :: rest =>
    let p := patchOf w
    decide (field w 42 22 = 0#64) && decide (p.1 % 8 ≠ 0) && decide (p.1 / 8 < nbnd) && decide (p.2 < pbytes / 4)
      && (match rest with
          | w' :: _ => decide (p.1 < (patchOf w').1)
          | [] => true)
      && patchesOk nbnd pbytes rest

/-- A footprint entry: first line and count. -/
def footOf (w : Word) : Nat × Nat := ((field w 0 16).toNat, (field w 32 17).toNat)

/-- A footprint entry meets R109. -/
def footOk (w : Word) : Bool :=
  let f := footOf w
  decide (field w 16 16 = 0#64) && decide (field w 49 15 = 0#64) && decide (1 ≤ f.2) && decide (f.1 + f.2 ≤ 65536)

/-- What reading a kernel header gives. -/
inductive HeaderRead where
  | ok (h : KHeader)
  | bad
  | wait

/-- Read and check a kernel header (R109, R423). DESIGN CHOICE, log entry 79: bits [63:56] of ENTRY, beyond the virtual
addresses of R13, are checked by no rule and are dropped. -/
def State.header (s : State) (pa : Nat) : HeaderRead :=
  if pa % 8 ≠ 0 then .bad
  else
    match s.unitRead pa 32 with
    | .bad => .bad
    | .wait => .wait
    | .ok bs =>
      match wordsOf 4 bs with
      | [w0, w1, w2, w3] =>
        match headerCounts w0 w1 w2 w3 with
        | none => .bad
        | some (np, nf) =>
          match s.unitRead (pa + 32) (8 * (np + nf)) with
          | .bad => .bad
          | .wait => .wait
          | .ok more =>
            let ws := wordsOf (np + nf) more
            let nbnd := (field w2 0 32).toNat
            let pbytes := (field w2 32 16).toNat
            if patchesOk nbnd pbytes (ws.take np) && (ws.drop np).all footOk then
              .ok { entry := w1.extractLsb' 5 51, nbnd := nbnd, pbytes := pbytes, patch := (ws.take np).map patchOf
                    foot := (ws.drop np).map footOf }
            else .bad
      | _ => .bad

/-! ## Registration (R421 to R423) -/

/-- A node descriptor as read, before its kernel header (R422). -/
structure NodeDesc where
  khdr : Nat
  node : Node
deriving DecidableEq, Repr

/-- Read a node descriptor; none when it breaks R422 (RESULT 1). -/
def Launch.nodeDesc (l : Launch) (off : Nat) : Option NodeDesc :=
  match l.words off 8 with
  | [w0, w1, w2, w3, w4, w5, w6, w7] =>
    let nsucc := (field w2 16 12).toNat
    let soff := (field w3 0 23).toNat
    let poff := (field w3 32 23).toNat
    if decide (field w0 52 12 = 0#64) && decide (field w1 30 34 = 0#64) && decide ((field w1 18 3).toNat ≤ 4)
        && decide (field w2 28 36 = 0#64) && decide (field w2 12 4 = 0#64) && decide (field w3 23 9 = 0#64)
        && decide (field w3 55 9 = 0#64) && [w4, w5, w6, w7].all (fun w => decide (w = 0#64))
        && decide (soff % 2 = 0) && decide (poff % 8 = 0) && decide (soff + 2 * nsucc ≤ schedSize)
    then
      some { khdr := (field w0 0 52).toNat
             node :=
               { asid := w1.truncate 16, xe := bit w1 16, pl := bit w1 17, rm := (field w1 18 3).truncate 3
                 cls := (field w1 21 2).truncate 2, plot := (field w1 23 7).toNat + 1, npred := (field w2 0 12).toNat
                 succs := (List.range nsucc).map (fun i => Memory.readNat l.mem (soff + 2 * i) 2)
                 entry := 0#51, nbnd := 0, pbytes := 0, patch := [], foot := [], poff := poff } }
    else none
  | _ => none

/-- What building a graph from its descriptors gives: the graph; a RESULT with the failing node; or a stack holds a read
back. -/
inductive Built where
  | ok (g : Graph)
  | fails (result node : Nat)
  | wait

/-- The node descriptors from a place on; none when one breaks R422. -/
def Launch.nodeDescs (l : Launch) (off : Nat) : Nat → Option (List NodeDesc)
  | 0 => some []
  | n + 1 =>
    match l.nodeDesc off, l.nodeDescs (off + 64) n with
    | some d, some rest => some (d :: rest)
    | _, _ => none

/-- A node with what its kernel header gives it. -/
def NodeDesc.withHeader (d : NodeDesc) (h : KHeader) : Node :=
  { d.node with entry := h.entry, nbnd := h.nbnd, pbytes := h.pbytes, patch := h.patch, foot := h.foot }

/-- Some descriptor's parameter block, of the length its header gives, leaves scheduler memory (RESULT 1). -/
def State.blockOutside (s : State) (ds : List NodeDesc) : Bool :=
  ds.any (fun d =>
    match s.header d.khdr with
    | .ok h => decide (schedSize < d.node.poff + h.pbytes)
    | _ => false)

/-- Join descriptors with their headers, in node order: the first whose header fails is reported. -/
def State.joinHeaders (s : State) : Nat → List NodeDesc → Except (Option Nat) (List Node)
  | _, [] => .ok []
  | i, d :: rest =>
    match s.header d.khdr with
    | .bad => .error (some i)
    | .wait => .error none
    | .ok h =>
      match s.joinHeaders (i + 1) rest with
      | .ok ns => .ok (d.withHeader h :: ns)
      | .error e => .error e

/-- Remove nodes without predecessors among those that remain, round by round. -/
def peel (ns : List Node) : Nat → List Nat → List Nat
  | 0, left => left
  | n + 1, left =>
    peel ns n (left.filter (fun i => left.any (fun p =>
      (ns[p]?.map (fun x => x.succs.contains i)).getD false)))

/-- The edges of a graph are in order: successors in range, NPRED counts the edges into a node, no cycle (RESULT 3). -/
def edgesOk (ns : List Node) : Bool :=
  let all := ns.flatMap (fun n => n.succs)
  all.all (fun i => decide (i < ns.length))
    && ns.zipIdx.all (fun p => decide (all.count p.2 = p.1.npred))
    && (peel ns ns.length (List.range ns.length)).isEmpty

/-- Build the graph of a descriptor, its conditions in the order of R423 up to the limit on nodes. DEDUCED, log entry 40. -/
def State.buildGraph (s : State) (doff : Nat) : Built :=
  match s.launch.words doff 8 with
  | [w0, w1, w2, w3, w4, w5, w6, w7] =>
    let nn := (field w1 0 13).toNat
    let noff := (field w2 0 23).toNat
    if decide (doff % 64 = 0) && decide (doff + 64 ≤ schedSize) && decide (w0 = 0x47520008#64)
        && decide (1 ≤ nn) && decide (nn ≤ 4096) && decide (field w1 13 51 = 0#64) && decide (field w2 23 41 = 0#64)
        && decide (noff % 64 = 0) && decide (noff + 64 * nn ≤ schedSize) && decide (field w3 52 12 = 0#64)
        && decide (field w3 0 3 = 0#64) && decide (field w4 11 4 = 0#64) && decide (field w4 16 48 = 0#64)
        && [w5, w6, w7].all (fun w => decide (w = 0#64))
    then
      match s.launch.nodeDescs noff nn with
      | none => .fails 1 0
      | some ds =>
        if s.blockOutside ds then .fails 1 0
        else
          match s.joinHeaders 0 ds with
          | .error none => .wait
          | .error (some i) => .fails 2 i
          | .ok ns =>
            if !edgesOk ns then .fails 3 0
            else .ok { nodes := ns, caddr := w3.truncate 52, vec := if bit w4 15 then some (w4.truncate 11) else none }
    else .fails 1 0
  | _ => .fails 1 0

/-- The launch unit accepts registers: DREADY.LU of die 0 (R441). DESIGN CHOICE, log entry 39. -/
def State.luReady (s : State) : Bool := (s.die 0#3).dready.getLsbD 22

/-- LGSTAT after an LGREG: its GID and RESULT, not BUSY (R420, R423). DESIGN CHOICE, log entry 42. -/
def Launch.lgDone (l : Launch) (gid : BitVec 8) (result : Nat) : Launch :=
  { l with lgstat := gid.zeroExtend 64 ||| BitVec.ofNat 64 (result * 256), lgop := none }

/-- Nodes of all registered graphs. -/
def Launch.nodeCount (l : Launch) : Nat :=
  l.graphs.foldl (fun n e => n + (e.2.map (fun g => g.nodes.length)).getD 0) 0

/-- Perform the OP of an LGREG write and write RESULT (R423); none while a stack holds a header back. -/
def lgPerform (v : Word) (s : State) : Option State :=
  let l := s.launch
  let gid : BitVec 8 := v.truncate 8
  let op := (field v 28 2).toNat
  let done (l : Launch) (r : Nat) : Option State := some { s with launch := l.lgDone gid r }
  if field v 30 34 ≠ 0#64 ∨ 2 ≤ op then done l 5
  else if op = 1 then
    match l.graphs.get none gid with
    | none => done l 4
    | some g =>
      if g.inst.isSome || !g.pending.isEmpty then done l 4 else done { l with graphs := l.graphs.erase gid } 0
  else if (l.graphs.get none gid).isSome then done l 4
  else
    match s.buildGraph (8 * (field v 8 20).toNat) with
    | .wait => none
    | .fails r i => if r = 2 then done (l.error 3 gid.toNat i 2) 2 else done l r
    | .ok g =>
      if 65536 < l.nodeCount + g.nodes.length then done l 4
      else done { l with graphs := l.graphs.set gid (some g) } 0

/-- LGSTAT from the write of LGREG on: its GID, BUSY (R420, R423). -/
def Launch.lgBusy (l : Launch) (v : Word) : Launch :=
  { l with lgstat := setBit (setField l.lgstat 0 8 v) 16 true, lgop := some v }

/-- A write to LGREG: discarded while BUSY; else BUSY is set until OP is performed (R423). -/
def lgregWrite (v : Word) (s : State) : State :=
  if !s.luReady || s.launch.lgop.isSome then s
  else
    let s1 := { s with launch := s.launch.lgBusy v }
    (lgPerform v s1).getD s1

/-- The OP for which the launch unit is BUSY is tried again (R423). -/
def lgRetry (s : State) : State :=
  match s.launch.lgop with
  | some v => (lgPerform v s).getD s
  | none => s

/-! ## Triggers (R424, R425) -/

/-- An entry of a patch list for a graph; none when malformed. -/
def patchEntry (g : Graph) (w v : Word) : Option (Nat × Nat × Bool × Word) :=
  let node := (field w 0 12).toNat
  let word := (field w 12 10).toNat
  match g.nodes[node]? with
  | none => none
  | some n =>
    if decide (field w 23 41 = 0#64) && decide (word < n.pbytes / 4) && !(bit w 22 && decide (word % 2 = 1))
    then some (node, word, bit w 22, v) else none

/-- The entries of a patch list; none when one is malformed. -/
def patchEntries (g : Graph) : List Word → Option (List (Nat × Nat × Bool × Word))
  | w :: v :: rest =>
    match patchEntry g w v, patchEntries g rest with
    | some e, some es => some (e :: es)
    | _, _ => none
  | _ => some []

/-- What reading a patch list gives: a trigger; a REASON of R424; or a stack holds a read back. -/
inductive TriggerRead where
  | ok (t : Trigger)
  | refused (reason : Nat)
  | wait

/-- The generation and the patches of the words of a patch list; none when it is malformed (R425). -/
def patchWords (g : Graph) : List Word → Option (Option (BitVec 6) × List (Nat × Nat × Bool × Word))
  | [] => none
  | h :: ws =>
    if decide (4096 < (field h 0 13).toNat) || decide (field h 13 3 ≠ 0#64) || decide (field h 23 41 ≠ 0#64) then none
    else (patchEntries g ws).map (fun es => (if bit h 22 then some ((field h 16 6).truncate 6) else none, es))

/-- Read and check a patch list (R424, R425); what the host changes later is read again by `rereadList`. DESIGN CHOICE, log
entry 8. -/
def State.patchList (s : State) (g : Graph) (pla : Nat) : TriggerRead :=
  if pla = 0 then .ok { gen := none, patches := [] }
  else
    match s.unitRead pla 8 with
    | .bad => .refused 2
    | .wait => .wait
    | .ok hb =>
      let h := BitVec.ofNat 64 (bytesToNat hb)
      let count := (field h 0 13).toNat
      if (patchWords g [h]).isNone then .refused 3
      else
        match s.unitRead (pla + 8) (16 * count) with
        | .bad => .refused 2
        | .wait => .wait
        | .ok bs =>
          let ws := h :: wordsOf (2 * count) bs
          match patchWords g ws with
          | none => .refused 3
          | some (gen, es) => .ok { gen := gen, patches := es, list := pla, words := ws }

/-- The patch list of a trigger as its instance reads it: of a word that the host has changed meanwhile, the old or the new
value; should the words so read be no list, those that were accepted (R7, R424). DESIGN CHOICE, log entry 8. -/
def State.rereadList (s : State) (g : Graph) (t : Trigger) : Trigger :=
  if t.list = 0 then t
  else
    let pick (i : Nat) (now : Word) : Word := if Config.freeBool s.tick (2 ^ 50 + i) then now else t.words.getD i now
    match s.unitRead t.list 8 with
    | .ok hb =>
      let h := pick 0 (BitVec.ofNat 64 (bytesToNat hb))
      let count := (field h 0 13).toNat
      (match s.unitRead (t.list + 8) (16 * count) with
       | .ok bs =>
         (match patchWords g (h :: (wordsOf (2 * count) bs).zipIdx.map (fun p => pick (p.2 + 1) p.1)) with
          | some (gen, es) => { t with gen := gen, patches := es }
          | none => t)
       | _ => t)
    | _ => t

/-- A write to LTRIG (R424); none while a stack holds the patch list back. -/
def ltrigWrite (v : Word) (s : State) : Option State :=
  let l := s.launch
  let gid : BitVec 8 := v.truncate 8
  let refuse (r : Nat) : Option State := some { s with launch := l.error 1 gid.toNat 0 r }
  if !s.luReady then some s
  else
    match (if field v 57 7 = 0#64 then l.graphs.get none gid else none) with
    | none => refuse 1
    | some g =>
      match s.patchList g ((field v 8 49).toNat * 8) with
      | .wait => none
      | .refused r => refuse r
      | .ok t =>
        if 4 ≤ g.pending.length then refuse 4
        else some { s with launch := { l with graphs := l.graphs.set gid (some { g with pending := g.pending ++ [t] }) } }

/-! ## Instances (R426) -/

/-- Write one patch of a trigger into the master parameter blocks in scheduler memory (R425). -/
def applyPatch (g : Graph) (m : Memory) (p : Nat × Nat × Bool × Word) : Memory :=
  match g.nodes[p.1]? with
  | none => m
  | some n => Memory.writeNat m (n.poff + 4 * p.2.1) (if p.2.2.1 then 8 else 4) p.2.2.2.toNat

/-- Nodes become ready, in ascending order of their numbers (R427). -/
def Launch.makeReady (l : Launch) (gid : BitVec 8) (g : Graph) : List Nat → Launch
  | [] => l
  | i :: rest =>
    let cls := (g.nodes[i]?.map (fun n => n.cls)).getD 0#2
    Launch.makeReady
      { l with ready := l.ready ++ [{ gid := gid, node := BitVec.ofNat 12 i, cls := cls, order := l.clock }]
               clock := l.clock + 1 } gid g rest

/-- INSTANCE_START: the oldest pending trigger of a graph that runs no instance starts one (R426). -/
def instanceStart (gid : BitVec 8) (s : State) : State :=
  let l := s.launch
  match l.graphs.get none gid with
  | none => s
  | some g =>
    match g.inst, g.pending with
    | none, t0 :: rest =>
      let t := s.rereadList g t0
      let mem := t.patches.foldl (applyPatch g) l.mem
      let gen := t.gen.getD g.gen
      let roots := (List.range g.nodes.length).filter (fun i =>
        (g.nodes[i]?.map (fun n => decide (n.npred = 0))).getD false)
      let inst : Inst :=
        { num := g.count + 1#32, gen := gen
          params := g.nodes.map (fun n => Memory.write [] 0 (Memory.read mem n.poff n.pbytes))
          nodes := (List.range g.nodes.length).map (fun i => if roots.contains i then .ready else .waiting)
          preds := g.nodes.map (fun n => n.npred) }
      let g' : Graph := { g with pending := rest, gen := gen, count := g.count + 1#32, inst := some inst }
      let l' : Launch := { l with mem := mem, graphs := l.graphs.set gid (some g') }
      let s1 := { s with launch := l'.makeReady gid g roots }
      if t0.list = 0 then s1 else s1.advanceTick
    | _, _ => s

/-- GENCNT[g]: running instances stamped with a generation (R420). -/
def Launch.gencnt (l : Launch) (gen : BitVec 6) : Word :=
  BitVec.ofNat 64 ((l.graphs.filter (fun e =>
    match e.2 with
    | some g => (match g.inst with | some i => decide (i.gen = gen) | none => false)
    | none => false)).length % 65536)

/-! ## Placement (R427 to R429) -/

/-- A table's TBL bit is set (R428, R441). -/
def State.tableReady (s : State) (tb : TableId) : Bool := (s.die (tableDie tb)).dready.getLsbD (tb.toNat % 16)

/-- A table on which nodes may be placed: its TBL bit is set and it is free (R428). -/
def State.tableOpen (s : State) (tb : TableId) : Bool := s.tableReady tb && s.tableFree tb

/-- The free tables, in (die, table) order. -/
def State.openTables (s : State) : List TableId := allTables.filter s.tableOpen

/-- The tables a node of p tables takes: of the lowest die that has p free ones, else of the package; none when there are
too few (R428). -/
def State.chooseTables (s : State) (p : Nat) : Option (List TableId) :=
  let free := s.openTables
  let onDie := (List.range 8).findSome? (fun d =>
    let mine := free.filter (fun tb => decide ((tableDie tb).toNat = d))
    if p ≤ 16 ∧ p ≤ mine.length then some (mine.take p) else none)
  match onDie with
  | some ts => some ts
  | none => if p ≤ free.length then some (free.take p) else none

/-- The status register at task start (R17, R429). -/
def startCst (n : Node) : Word :=
  (n.rm.zeroExtend 64 <<< 2) ||| (if n.pl then 0x800#64 else 0#64) ||| (if n.xe then 0x8000#64 else 0#64)

/-- A core at task start: reset, then the values of R429. -/
def startCore (n : Node) (rank p : Nat) (c : Core) : Core :=
  { c with
      ctl := (({ cst := startCst n, asid := n.asid } : Ctl).setReg 1#5 (BitVec.ofNat 64 rank)).setReg 2#5 (BitVec.ofNat 64 p)
      front := { run := true, pc := n.entry }
      seat := { st := .seated } }

/-- Start a task on one table of its plot (R429). DEDUCED, log entry 5. -/
def startTable (n : Node) (t : Task) (tb : TableId) (s : State) : State :=
  let s1 := (tableCores tb).foldl resetCore s
  let s2 := (tableCores tb).foldl (fun s k => s.modCore k (startCore n t.rank t.plot.length)) s1
  s2.modTable tb (fun old => { succ := some n.entry, task := some t, tlb := old.tlb, icache := old.icache })

/-- Start a node on its plot: the pending saves of contexts suspended on its tables first, then every table; none when a
save has no room (R410, R429). -/
def startNode (it : ReadyItem) (g : Graph) (i : Inst) (n : Node) (plot : List TableId) (s : State) : Option State :=
  let saved := plot.foldl (fun (acc : Option State) tb =>
    acc.bind (fun s => laterSaves tb n.foot (fun _ => false) s.launch.suspended s)) (some s)
  saved.map (fun s1 =>
    let l := s1.launch
    let started := l.clock
    let i' : Inst := { i with nodes := i.nodes.set it.node.toNat .running }
    let l' : Launch :=
      { l with clock := l.clock + 1, claims := l.claims.filter (fun c => !(decide (c.1 = it.gid) && decide (c.2.1 = it.node)))
               ready := l.ready.filter (fun r => !(decide (r.gid = it.gid) && decide (r.node = it.node)))
               graphs := l.graphs.set it.gid (some { g with inst := some i' }) }
    plot.zipIdx.foldl (fun s p =>
      startTable n
        { gid := it.gid, instance_ := i.num, node := it.node, rank := p.2, plot := plot, entry := n.entry, nbnd := n.nbnd
          patch := n.patch, params := (i.params[it.node.toNat]?).getD [], foot := n.foot, cls := n.cls, started := started
          ready := it.order } p.1 s) { s1 with launch := l' })

/-- What stands in the order of R427. -/
inductive Cand where
  | node (i : ReadyItem)
  | task (t : Task)

/-- A candidate's class and readiness. -/
def Cand.key : Cand → Nat × Nat
  | .node i => (i.cls.toNat, i.order)
  | .task t => (t.cls.toNat, t.ready)

/-- The order of R427: class, then readiness. -/
def keyBefore (a b : Nat × Nat) : Bool := decide (a.1 < b.1) || (decide (a.1 = b.1) && decide (a.2 < b.2))

/-- The first of the ready nodes and suspended tasks; a context whose resume failed waits for its abort (R427, R433).
DEDUCED, log entry 43. -/
def Launch.first (l : Launch) : Option Cand :=
  let cands := l.ready.map Cand.node ++
    (l.suspended.filter (fun u => !(l.suspended.any (fun x => x.failed && sameTask x.task u.task)))).map (fun u => Cand.task u.task)
  cands.foldl (fun best c =>
    match best with
    | none => some c
    | some b => if keyBefore c.key b.key then some c else some b) none

/-- A node of a class may pre-empt tables that run tasks of another (R432). -/
def mayPreempt (cls victim : BitVec 2) : Bool :=
  (decide (cls = 0#2) && (decide (victim = 2#2) || decide (victim = 3#2))) || (decide (cls = 1#2) && decide (victim = 3#2))

/-- A victim's place in the order of R432: class 3 first, then the latest start, then the highest table. -/
def victimBefore (a b : Task × TableId) : Bool :=
  if a.1.cls ≠ b.1.cls then decide (b.1.cls.toNat < a.1.cls.toNat)
  else if a.1.started ≠ b.1.started then decide (b.1.started < a.1.started)
  else decide (b.2.toNat < a.2.toNat)

/-- Put a table in its place among the victims. -/
def insertVictim (x : Task × TableId) : List (Task × TableId) → List (Task × TableId)
  | [] => [x]
  | y :: rest => if victimBefore x y then x :: y :: rest else y :: insertVictim x rest

/-- The tables a class may pre-empt, in the order of R432; a table that is being saved is none of them, nor one that could
take no node afterwards (R428). -/
def State.victims (s : State) (cls : BitVec 2) : List TableId :=
  (allTables.foldl (fun vs tb =>
    match (s.table tb).task with
    | some t => if mayPreempt cls t.cls && !(s.table tb).stop && s.tableReady tb then insertVictim (t, tb) vs else vs
    | none => vs) []).map (fun v => v.2)

/-- The areas that tables which are being saved will take (R432). -/
def State.owedAreas (s : State) : List Nat :=
  (allTables.filter (fun tb => (s.table tb).stop && (s.table tb).task.isSome)).map (fun tb => s.saveSize tb (s.incomingFoot tb))

/-- Start a pre-emption for a node that cannot be placed, when enough tables may be taken and the pool has room for their
areas, beside those of tables that are being saved (R432). DEDUCED, log entry 44. -/
def preemptFor (it : ReadyItem) (n : Node) (s : State) : State :=
  let free := s.openTables
  let vs := (s.victims it.cls).take (n.plot - free.length)
  if free.length + vs.length < n.plot then s
  else if !s.launch.fitsAll (s.owedAreas ++ vs.map (fun tb => s.saveSize tb n.foot)) then s
  else
    let plot := allTables.filter (fun tb => free.contains tb || vs.contains tb)
    vs.foldl (fun s tb => requestStop tb s)
      { s with launch := { s.launch with claims := (it.gid, it.node, plot) :: s.launch.claims } }

/-- A ready node with its graph, its instance and its descriptor. -/
def Launch.lookup (l : Launch) (gid : BitVec 8) (node : BitVec 12) : Option (Graph × Inst × Node) :=
  match l.graphs.get none gid with
  | some g =>
    match g.inst, g.nodes[node.toNat]? with
    | some i, some n => some (g, i, n)
    | _, _ => none
  | none => none

/-- The tables that a node's pre-emption frees for it. -/
def Launch.claimOf (l : Launch) (it : ReadyItem) : Option (List TableId) :=
  (l.claims.find? (fun c => decide (c.1 = it.gid) && decide (c.2.1 = it.node))).map (fun c => c.2.2)

/-- A node forgets the tables that it pre-empted. -/
def dropClaim (it : ReadyItem) (s : State) : State :=
  { s with launch := { s.launch with
      claims := s.launch.claims.filter (fun c => !(decide (c.1 = it.gid) && decide (c.2.1 = it.node))) } }

/-- A node that has no tables yet takes free ones, or pre-empts, or waits (R428, R432). -/
def placeFresh (it : ReadyItem) (g : Graph) (i : Inst) (n : Node) (s : State) : State :=
  match s.chooseTables n.plot with
  | some plot => (startNode it g i n plot s).getD s
  | none => preemptFor it n s

/-- NODE_PLACE: the first of the order is placed, or starts a pre-emption, or waits (R427, R428, R432, R458). A node that has
pre-empted waits while its tables are saved; should one of them have gone to a node ahead of it, it chooses anew. DEDUCED,
log entry 44. -/
def nodePlace (s : State) : State :=
  let l := s.launch
  if s.fabric.quiesced || s.fabric.quiescing then s
  else
    match l.first with
    | some (.node it) =>
      match l.lookup it.gid it.node with
      | none => s
      | some (g, i, n) =>
        match l.claimOf it with
        | none => placeFresh it g i n s
        | some plot =>
          if plot.all s.tableOpen then (startNode it g i n plot s).getD s
          else if plot.any (fun tb => (s.table tb).stop) then s
          else placeFresh it g i n (dropClaim it s)
    | _ => s

/-- TASK_RESUME: the task of the n-th suspended context, when it is the first of the order (R427, R433). -/
def taskResume (n : Nat) (s : State) : State :=
  if s.fabric.quiesced || s.fabric.quiescing then s
  else
    match s.launch.suspended[n]?, s.launch.first with
    | some u, some (.task t) => if sameTask u.task t then (resumeTask t s).getD s else s
    | _, _ => s

/-! ## Completion (R430, R431) and abort (R435) -/

/-- A core is idle: it has halted, or a double trap or a token deadlock stopped it, and its queues are empty (R90). -/
def Core.idle (c : Core) : Bool :=
  !c.front.run && decide (c.seat.st = .out) && c.vq.isEmpty && c.mq.isEmpty && c.dq.isEmpty && c.fq.isEmpty

/-- A query of a core's running task is still being scanned, or a triple of it can still be written (R370, R373). -/
def State.scanning (s : State) (k : CoreId) : Bool :=
  s.hbm.any (fun e => e.2.scans.any (fun x => decide (x.qp.core = k) && x.qp.ctx.isNone && x.qp.reply))
    || (s.core k).inbox.any (s.core k).ringRoom

/-- A table's task has ended: its dealer is Done, every seat is idle, and everything its cores sent is performed, the scans
of their queries too (R142, R430, R431). -/
def State.tableEnded (s : State) (tb : TableId) : Bool :=
  (tableCores tb).all (fun k => (s.core k).idle && !s.scanning k) && s.drained tb

/-- Operations of cores that were reset are still to be performed (R34). -/
def State.strays (s : State) : Bool :=
  s.hbm.any (fun e => e.2.queue.any (fun q => !q.reply) || e.2.sent.any (fun q => !q.reply) || e.2.deltas.any (fun d => !d.reply)
    || e.2.queryq.any (fun q => !q.reply) || e.2.scans.any (fun x => !x.qp.reply))

/-- The completion record (R431). -/
def recordWord (gid : BitVec 8) (status : Nat) (i : Inst) : Nat :=
  gid.toNat + status * 2 ^ 8 + i.num.toNat * 2 ^ 16 + i.gen.toNat * 2 ^ 48

/-- Raise a completion's vector, if it has one (R431). -/
def raiseVec (v : Option (BitVec 11)) (s : State) : State :=
  match v with
  | some v => { s with pkg := { s.pkg with msix := s.pkg.msix ++ [v.toNat] } }
  | none => s

/-- The oldest completion record that waits is written, and then its vector raised (R431); nothing while a stack holds it
back. -/
def flushRecord (s : State) : State :=
  match s.launch.records with
  | [] => s
  | (a, w, v) :: rest =>
    match s.unitWrite a.toNat (natToBytes 8 w) with
    | some s1 => raiseVec v { s1 with launch := { s1.launch with records := rest } }
    | none => s

/-- Complete an instance: GENCNT counts it no more, then its record is written, then its vector is raised; the record waits
behind those that a stack holds back (R431). -/
def finishInstance (gid : BitVec 8) (g : Graph) (i : Inst) (status : Nat) (s : State) : State :=
  let l := s.launch
  let s1 := { s with launch :=
    { l with graphs := l.graphs.set gid (some { g with inst := none })
             records := l.records ++ [(g.caddr, recordWord gid status i, g.vec)] } }
  if l.records.isEmpty then flushRecord s1 else s1

/-- The tables that run a node of the running instance. -/
def State.tablesOf (s : State) (gid : BitVec 8) (num : BitVec 32) (node : Option (BitVec 12)) : List TableId :=
  allTables.filter (fun tb =>
    match (s.table tb).task with
    | some t => decide (t.gid = gid) && decide (t.instance_ = num) && (match node with | some n => decide (t.node = n) | none => true)
    | none => false)

/-- An aborted instance completes once what its tasks had sent is performed (R34, R431, R435). DEDUCED, log entry 45. -/
def finishAborted (gid : BitVec 8) (s : State) : State :=
  match s.launch.graphs.get none gid with
  | some g =>
    match g.inst with
    | some i => if i.aborted && !s.strays then finishInstance gid g i (if i.ctxErr then 2 else 1) s else s
    | none => s
  | none => s

/-- The successors of a node each wait for one predecessor less, once for each edge. -/
def lessPreds (succs : List Nat) (preds : List Nat) : List Nat :=
  preds.zipIdx.map (fun p => p.1 - succs.count p.2)

/-- A node completes: its tables become free, its successors that wait for no other become ready, and with the last node
the instance completes (R426, R431). -/
def nodeComplete (gid : BitVec 8) (node : BitVec 12) (s : State) : State :=
  match s.launch.lookup gid node with
  | none => s
  | some (g, i, n) =>
    if i.aborted then finishAborted gid s
    else
      let tabs := s.tablesOf gid i.num (some node)
      let susp := s.launch.suspended.any (fun u =>
        decide (u.task.gid = gid) && decide (u.task.instance_ = i.num) && decide (u.task.node = node))
      if decide (i.nodes[node.toNat]? ≠ some .running) || susp || tabs.isEmpty || !tabs.all s.tableEnded then s
      else
        let preds := lessPreds n.succs i.preds
        let news := (List.range g.nodes.length).filter (fun m =>
          n.succs.contains m && decide (i.nodes[m]? = some .waiting) && decide (preds[m]? = some 0))
        let nodes := news.foldl (fun ns m => ns.set m .ready) (i.nodes.set node.toNat .done)
        let i' : Inst := { i with nodes := nodes, preds := preds }
        let s0 := (tabs.flatMap tableCores).foldl State.performed s
        let s1 := tabs.foldl (fun s tb => s.modTable tb (fun t => { t with task := none, stop := false })) s0
        if nodes.all (fun x => decide (x = .done)) then podSettle (finishInstance gid g i' 0 s1)
        else
          let g' : Graph := { g with inst := some i' }
          let l : Launch := { s1.launch with graphs := s1.launch.graphs.set gid (some g') }
          podSettle { s1 with launch := l.makeReady gid g news }

/-- The suspended contexts of an instance go, with their save areas (R435). -/
def Launch.dropContexts (l : Launch) (gid : BitVec 8) (num : BitVec 32) : Launch :=
  let mine (u : Suspended) : Bool := decide (u.task.gid = gid) && decide (u.task.instance_ = num)
  let blocks := (l.suspended.filter mine).flatMap (fun u => (u.base, u.size) :: u.blocks)
  let l1 := l.free blocks
  { l1 with suspended := l1.suspended.filter (fun u => !mine u) }

/-- The scans of contexts that are gone complete, and their triples have nobody to go to (R34, R376, R435). -/
def State.disownScans (s : State) : State :=
  let live (q : QueryPacket) : Bool :=
    match q.ctx with
    | some o => s.launch.suspended.any (fun u => decide (u.order = o))
    | none => true
  let own (q : QueryPacket) : QueryPacket := if live q then q else { q with reply := false }
  let f (e : StackId × Stack) : StackId × Stack := (e.1, { e.2 with scans := e.2.scans.map (fun x => { x with qp := own x.qp }) })
  { s with hbm := s.hbm.map f }

/-- A write to LABORT (R435). -/
def labortWrite (v : Word) (s : State) : State :=
  let gid : BitVec 8 := v.truncate 8
  if !s.luReady then s
  else
    match s.launch.graphs.get none gid with
    | none => s
    | some g =>
      let g1 : Graph := { g with pending := [], inst := g.inst.map (fun i => { i with aborted := true }) }
      let l := { s.launch with graphs := s.launch.graphs.set gid (some g1) }
      match g.inst with
      | none => { s with launch := l }
      | some i =>
        let l1 := l.dropContexts gid i.num
        let l2 : Launch :=
          { l1 with ready := l1.ready.filter (fun r => decide (r.gid ≠ gid))
                    claims := l1.claims.filter (fun c => decide (c.1 ≠ gid)) }
        let s1 := (s.tablesOf gid i.num none).foldl (fun s tb =>
          (resetTable s tb).modTable tb (fun t => { t with task := none, stop := false })) { s with launch := l2 }
        podSettle (finishAborted gid s1.disownScans)

/-- A write to LERR: 1 to V clears V and LOST (R420). -/
def lerrWrite (v : Word) (s : State) : State :=
  if s.luReady && bit v 63 then
    { s with launch := { s.launch with lerr := setField (setBit s.launch.lerr 63 false) 40 8 0#64 } }
  else s

/-- An 8-byte read of the launch registers (R420). -/
def Launch.regRead (l : Launch) (off : Nat) : Word :=
  if off = 0x010 then l.lgstat
  else if off = 0x018 then l.lspbase
  else if off = 0x020 then l.lspsize
  else if off = 0x030 then l.lerr
  else if 0x100 ≤ off ∧ off < 0x300 ∧ off % 8 = 0 then l.gencnt (BitVec.ofNat 6 ((off - 0x100) / 8))
  else 0#64

/-! ## Events -/

/-- INSTANCE_START (R426). -/
def execInstanceStart (gid : BitVec 8) (s : State) : Host.Outcome State Fault Refusal := .next (instanceStart gid s)

/-- NODE_PLACE (R428). -/
def execNodePlace (s : State) : Host.Outcome State Fault Refusal := .next (nodePlace s)

/-- NODE_COMPLETE (R431). -/
def execNodeComplete (gid : BitVec 8) (node : BitVec 12) (s : State) : Host.Outcome State Fault Refusal :=
  .next (quiesceStep (nodeComplete gid node s))

/-- TASK_RESUME of the n-th suspended context's task (R414, R433). -/
def execTaskResume (n : Nat) (s : State) : Host.Outcome State Fault Refusal := .next (taskResume n s)

end Sys2Proof.Machine
end

