-- ==== Sys2Proof/Machine/Package.lean ====
section
/-! DEFINITION. Events of the package: resets (R32, R33), signed firmware and attestation (R443), repair (R442), readiness
(R441), the host link and host accesses (R437 to R439), events and interrupts (R440, R444), power (R445). -/

namespace Sys2Proof.Machine

/-! ## Resets -/

/-- The package after power-on: as reset leaves it, the boot ROMs and the host being what they were (R33). -/
def powerOn (s : State) : State :=
  { State.reset with rom := s.rom, host := s.host, agenda := s.agenda, focus := s.focus, exe := s.exe, tick := s.tick }

/-- POWER_ON_RESET (R33). -/
def execPowerOnReset (s : State) : Host.Outcome State Fault Refusal := .next (powerOn s)

/-- What a die controller resets (R32). -/
def resetTarget : ResetTarget → State → State
  | .core k, s => resetCore s k
  | .table tb, s => resetTable s tb

/-- CORE_RESET (R32, R33, R34). -/
def execCoreReset (what : ResetTarget) (s : State) : Host.Outcome State Fault Refusal := .next (resetTarget what s)

/-! ## Firmware, attestation, repair (R442, R443) -/

/-- Set or clear a bit of a die's DREADY. -/
def Die.setReady (x : Die) (i : Nat) (b : Bool) : Die :=
  { x with dready := if b then x.dready ||| (1#24 <<< i) else x.dready &&& ~~~(1#24 <<< i) }

/-- A remap table with some entries written: V and ROW are writable (R211). -/
def putRemap (m : Bank (BitVec 11) (BitVec 32)) (es : List (BitVec 11 × BitVec 32)) : Bank (BitVec 11) (BitVec 32) :=
  es.foldl (fun m e => m.set e.1 (e.2 &&& 0x8000003F#32)) m

/-- Write the known-bad rows of a blob into the remap table of a core (R209, R442). -/
def writeKnownBad (blob : List (Nat × BitVec 8)) (s : State) (k : CoreId) : State :=
  s.modCore k (fun c => { c with tower := { c.tower with remap := putRemap c.tower.remap (Config.knownBad blob k) } })

/-- The firmware and the blob of a die are accepted: the firmware runs, DC is set, the known-bad rows stand in the remap
tables, and the stacks that have trained are ready (R441 to R443). -/
def startFirmware (d : DieId) (firmware blob : List (Nat × BitVec 8)) (s : State) : State :=
  let s1 := ((List.range 256).map (fun i => (d ++ BitVec.ofNat 8 i : CoreId))).foldl (writeKnownBad blob) s
  readyStacks d (s1.modDie d (fun x => { x with verified := true, firmware := firmware, blob := blob }.setReady 21 true))

/-- A table's number on its die. -/
def tableNo (tb : TableId) : BitVec 4 := tb.extractLsb' 0 4

/-- The boot ROM of a die, by offset. -/
def State.romBytes (s : State) (d : DieId) : List (Nat × BitVec 8) :=
  (s.rom.filter (fun c => decide (c.1 / 2 ^ 20 = d.toNat))).map (fun c => (c.1 % 2 ^ 20, c.2))

/-- Both signatures of an image verify, over one digest, under the keys whose hashes a boot ROM holds (R443). -/
def accepted (rom : List (Nat × BitVec 8)) (i : SignedImage) : Bool :=
  Config.rsaVerifies rom (Config.digest i.bytes) i.rsa && Config.slhVerifies rom (Config.digest i.bytes) i.slh

/-- FIRMWARE_VERIFY: the boot ROM of a die verifies the firmware and the blob, once in a boot; if either fails the die stays
in recovery (R443). -/
def execFirmwareVerify (d : DieId) (images : BootImages) (s : State) : Host.Outcome State Fault Refusal :=
  .next (if (s.die d).verified || (s.die d).recovery then s
    else if accepted (s.romBytes d) images.firmware && accepted (s.romBytes d) images.blob then
      startFirmware d images.firmware.bytes images.blob.bytes s
    else s.modDie d (fun x => { x with recovery := true }))

/-- The bytes of a remap table as they are measured, entry by entry. -/
def remapBytes (m : Bank (BitVec 11) (BitVec 32)) : List (Nat × BitVec 8) :=
  ((List.range 2048).flatMap (fun i => natToBytes 4 (m.get 0#32 (BitVec.ofNat 11 i)).toNat)).zipIdx.map (fun p =>
    (p.2, p.1))

/-- The remap table of a table's seventeenth core: the unused spare, which holds its known-bad rows once the die's images
are verified, or the core whose seat the spare took over (R209, R211, R442). -/
def State.idleRemap (s : State) (tb : TableId) : Bank (BitVec 11) (BitVec 32) :=
  let x := s.die (tableDie tb)
  if (x.seatmap.get 0#8 (tableNo tb)).getLsbD 7 then x.retired.get [] (tableNo tb)
  else if x.verified then putRemap [] (Config.knownBadSpare x.blob tb)
  else []

/-- Every remap table of the package: those of the seats in the order of their cores, then one for each table (R443). -/
def State.remaps (s : State) : List (Bank (BitVec 11) (BitVec 32)) :=
  (List.range 2048).map (fun i => (s.core (BitVec.ofNat 11 i)).tower.remap) ++ allTables.map s.idleRemap

/-- A measurement and its two signatures (R443). -/
def measured (bytes : List (Nat × BitVec 8)) : BitVec 384 × List (BitVec 8) × List (BitVec 8) :=
  let m := Config.digest bytes
  (m, Config.rsaSignature m, Config.slhSignature m)

/-- SPDM_MEASUREMENT: CD0's controller answers with the measurements of the boot ROM, the firmware, the blob and every
remap table, or those of them that the request asks for, `count` from `first` on (R443; PRESUMED, log entry 82); without
running firmware nothing answers. -/
def execSpdmMeasurement (first count : Nat) (s : State) : Host.Outcome State Fault Refusal :=
  let x := s.die 0#3
  let tables := s.remaps.map (fun m => measured (remapBytes m))
  .next (if x.verified then
      { s with pkg := { s.pkg with spdm :=
          s.pkg.spdm ++ ((([measured (s.romBytes 0#3), measured x.firmware, measured x.blob] ++ tables).drop first).take count) } }
    else s)

/-- A ready bit clears, with its event (R441, R444). -/
def clearReady (d : DieId) (i : Nat) (s : State) : State :=
  if (s.die d).dready.getLsbD i then (s.modDie d (fun x => x.setReady i false)).event d 5 i else s

/-! ### The boot march test (R295 to R298, R442) -/

/-- A seat's number in a die's list of faulty ones. -/
def faultyNo (tb : TableId) (seat : BitVec 4) : Nat := (tableNo tb).toNat * 16 + seat.toNat

/-- The seats of a table whose march test failed and that no spare has taken over. -/
def State.faultySeats (s : State) (tb : TableId) : List Nat :=
  (s.die (tableDie tb)).faulty.filter (fun n => decide (n / 16 = (tableNo tb).toNat))

/-- A table may run the boot march test: its die's firmware runs, and the table has no TBL bit, no task, no test under way
and no seat that failed (R442, R443). -/
def State.mayBoot (s : State) (tb : TableId) : Bool :=
  let x := s.die (tableDie tb)
  x.verified && !s.tableReady tb && (s.table tb).task.isNone && !Marks.has x.booting (tableNo tb).toNat
    && !Marks.has x.spent (tableNo tb).toNat && (s.faultySeats tb).isEmpty

/-- A core at the boot ROM's first bundle, seated under its dealer (R32, R295). -/
def Core.boot (c : Core) : Core := { c with front := { run := true }, seat := { st := .seated } }

/-- A table's cores enter the boot march test in the boot ROM (R295, R442). DEDUCED, log entry 32. -/
def bootTable (tb : TableId) (s : State) : State :=
  if s.mayBoot tb then
    let s1 := resetTable s tb
    (((tableCores tb).foldl (fun s k => s.modCore k Core.boot) s1).modTable tb (fun t => { t with succ := some 0#51 })).modDie
      (tableDie tb) (fun x => { x with booting := Marks.put x.booting (tableNo tb).toNat true })
  else s

/-- A summary word shows a failure: UNREP or RFERR (R297). -/
def summaryFails (w : Nat) : Bool := decide (w % 4 ≠ 0)

/-- A table that has no faulty seat passes: its TBL bit is set, unless it has had a second failing core (R441, R442). -/
def passTable (tb : TableId) (s : State) : State :=
  let t := (tableNo tb).toNat
  if (s.faultySeats tb).isEmpty then
    s.modDie (tableDie tb) (fun x => if Marks.has x.spent t then x else x.setReady t true)
  else s

/-- The march test of a table ends once its cores have halted: the die controller reads their summary words through the
aperture (R297); with two failing seats, or one beside a spare in use, the table never sets its TBL bit (R442). A core that
stops without halting counts as ended: DESIGN CHOICE, log entry 86. -/
def marchDone (tb : TableId) (s : State) : State :=
  let d := tableDie tb
  let t := (tableNo tb).toNat
  if Marks.has (s.die d).booting t && s.tableEnded tb then
    let s1 := (tableCores tb).foldl (fun s k => s.scrubTower k 0 8) s
    let bad := (tableCores tb).filter (fun k => summaryFails (bytesToNat ((s1.core k).tower.read 0 8)))
    let used := ((s1.die d).seatmap.get 0#8 (tableNo tb)).getLsbD 7
    passTable tb (s1.modDie d (fun x =>
      { x with booting := Marks.put x.booting t false
               faulty := x.faulty ++ bad.map (fun k => faultyNo tb (seatOf k))
               spent := if 2 ≤ bad.length ∨ (used ∧ bad ≠ []) then Marks.put x.spent t true else x.spent }))
  else s

/-- The byte of a cell after a march test that passed, with a summary word: each row that serves holds ones but for the
summary in the first word (R297, R298); a row that does not serve holds zero. -/
def Tower.marchByte (t : Tower) (summary key : Nat) : BitVec 8 :=
  let sub := key / 33792
  let row := key % 33792 / 512
  match (List.range 64).find? (fun r => decide (t.servRow sub r = row)) with
  | some r => if sub = 0 ∧ r = 0 ∧ key % 512 < 8 then BitVec.ofNat 8 (summary / 256 ^ (key % 512)) else 0xFF#8
  | none => 0#8

/-- The cells of a tower after a march test that passed. -/
def Tower.marchCells (t : Tower) (summary : Nat) : Memory :=
  (List.range (1024 * 33792)).filterMap (fun key =>
    if t.marchByte summary key = 0#8 then none else some (key, t.marchByte summary key))

/-- A spare core's tower as its own test leaves it, with the rows that its list names and those it repaired (R209, R296 to
R298, R442). DEDUCED, log entry 47. -/
def spareTower (blob : List (Nat × BitVec 8)) (tb : TableId) (repairs : List (BitVec 11 × BitVec 32)) : Tower :=
  let t : Tower := { remap := putRemap (putRemap [] (Config.knownBadSpare blob tb)) repairs }
  { t with cells := t.marchCells (repairs.length * 65536 + (repairs.length + 1) * 256) }

/-- SPARE_CORE_TAKEOVER: a seat that failed its march test is moved to its table's spare core, whose tower, tested before,
takes its place (R442). DEDUCED, log entry 47. -/
def execSpareCoreTakeover (tb : TableId) (sp : SpareSeat) (s : State) :
    Host.Outcome State Fault Refusal :=
  let d := tableDie tb
  let x := s.die d
  let k := coreAt tb sp.seat
  .next (if !Marks.has x.faulty (faultyNo tb sp.seat) || (x.seatmap.get 0#8 (tableNo tb)).getLsbD 7 then s
    else
      passTable tb (((resetCore s k).modCore k (fun c => { c with tower := spareTower x.blob tb sp.repairs })).modDie d (fun x =>
        { x with seatmap := x.seatmap.set (tableNo tb) (8#4 ++ sp.seat)
                 retired := x.retired.set (tableNo tb) (s.core k).tower.remap
                 faulty := Marks.put x.faulty (faultyNo tb sp.seat) false })))

/-- The launch unit comes to accept registers, once the firmware of die 0 runs: LU (R441). DESIGN CHOICE, log entry 39. -/
def launchReady (s : State) : State :=
  if (s.die 0#3).verified then s.modDie 0#3 (fun x => x.setReady 22 true) else s

/-! ## The host (R437 to R439) -/

/-- The generation and width at which the host link trains (R437). -/
def linkOf (gen7 gen6 x16 x8 : Bool) : Option (Nat × Nat) :=
  if gen7 && x16 then some (7, 16)
  else if gen6 && x16 then some (6, 16)
  else if gen7 && x8 then some (7, 8)
  else if gen6 && x8 then some (6, 8)
  else none

/-- HOST_LINK_TRAINING: the link trains at the best generation and width that both ends can, and HOST is set; a link that
cannot train is lost, and HOST clears (R437, R441). -/
def execHostLinkTraining (host : HostEnd) (gen6 x16 x8 : Bool) (s : State) : Host.Outcome State Fault Refusal :=
  let l := (linkOf host.gen7 gen6 x16 x8).map (fun l => ({ gen := l.1, width := l.2, host := host.kind } : HostLink))
  let s1 := { s with pkg := { s.pkg with link := l } }
  .next (if l.isSome then s1.modDie 0#3 (fun x => x.setReady 23 true) else clearReady 0#3 23 s1)

/-- What a host access reaches (R439): n bytes of a usable tier, of the aperture, or a register of a die control space by
an aligned 8-byte access. -/
def State.hostTarget (s : State) (pa n : Nat) : Option Target :=
  if n = 0 then none
  else
    match regionOf pa, regionOf (pa + n - 1) with
    | .near t, .near _ => if s.tierUsable false then some (.ext false t 2#3) else none
    | .far t, .far _ => if s.tierUsable true then some (.ext true t 2#3) else none
    | .aperture k off, .aperture k' _ => if k = k' then some (.aperture k off) else none
    | .die d off, _ => if n = 8 ∧ off % 8 = 0 then some (.die d off) else none
    | _, _ => none

/-- A completion to the host. -/
def State.answerHost (s : State) (r : Option (List (BitVec 8))) : State :=
  { s with pkg := { s.pkg with hostReplies := s.pkg.hostReplies ++ [r] } }

/-- A host access through BAR4 (R439): performed, or completed with Unsupported Request; none while a stack holds it back.
DESIGN CHOICE, log entry 50. -/
def hostAccess (off : BitVec 36) (acc : HostAccess) (s : State) : Option State :=
  let pa := s.pkg.hwbase.toNat + off.toNat
  match acc with
  | .read n =>
    match s.hostTarget pa n with
    | none => some (s.answerHost none)
    | some (.ext far t il) =>
      if s.extBlocked far t n il false then none
      else let s1 := s.extTouch far t n il; some (s1.answerHost (some (s1.extRead far t n il)))
    | some (.aperture k o) => let s1 := s.scrubTower k o n; some (s1.answerHost (some ((s1.core k).tower.read o n)))
    | some (.die d o) => some (s.answerHost (some (natToBytes 8 (s.dieRead d o).toNat)))
    | some _ => some (s.answerHost none)
  | .write bs =>
    match s.hostTarget pa bs.length with
    | none => some (s.answerHost none)
    | some (.ext far t il) =>
      if s.extBlocked far t bs.length il true then none else some ((s.extWrite far t il bs).answerHost (some []))
    | some (.aperture k o) => some ((s.modCore k (fun c => c.towerWrite o bs)).answerHost (some []))
    | some (.die d o) => some ((s.dieWrite d o (BitVec.ofNat 64 (bytesToNat bs))).answerHost (some []))
    | some _ => some (s.answerHost none)

/-- Memory devices behind the host's switches hold some sectors (R437). -/
def hostMap (devices : List (Nat × Nat)) (s : State) : State := { s with host := { s.host with devices := devices } }

/-- HOST_MEMORY_REQUEST: how the host completes requests to one sector of its memory from now on: with data, or not
(R438). -/
def execHostMemoryRequest (off : BitVec 50) (ans : HostAnswer) (s : State) : Host.Outcome State Fault Refusal :=
  let sec := off.toNat / 32
  let h := s.host
  .next { s with host :=
    match ans with
    | .data bs => { h with cells := Memory.write h.cells (32 * sec) (bs.take 32), bad := h.bad.erase sec }
    | .unsupported => { h with bad := h.bad.set sec (some .unsupported) }
    | .abort => { h with bad := h.bad.set sec (some .abort) }
    | .poisoned => { h with bad := h.bad.set sec (some .poisoned) } }

/-! ## Events and interrupts (R440, R444) -/

/-- IPOST: a write to IPOST (R440). -/
def execIpost (_d : DieId) (v : Word) (s : State) : Host.Outcome State Fault Refusal := .next (s.writeIpost v)

/-- The cause word of a forwarded event (R444). -/
def DieEvent.cause (e : DieEvent) : Word := BitVec.ofNat 64 (e.source % 2 ^ 16 + e.detail % 2 ^ 16 * 2 ^ 16)

/-- EVENT_FORWARD: the oldest event a die controller has collected goes to the host, and to a core when firmware names one
(R444). -/
def execEventForward (d : DieId) (tgt : Option CoreId) (s : State) : Host.Outcome State Fault Refusal :=
  match (s.die d).events with
  | [] => .next s
  | e :: rest =>
    let s1 := s.modDie d (fun x => { x with events := rest })
    let s2 := { s1 with pkg := { s1.pkg with msix := s1.pkg.msix ++ [1024 + 64 * d.toNat + e.source] } }
    .next (match tgt with
      | some k => s2.modCore k (fun c => { c with irq := c.irq ++ [e.cause] })
      | none => s2)

/-- HOST_DOORBELL: CD0's controller collects it (R444). DEDUCED, log entry 48. -/
def execHostDoorbell (v : Word) (s : State) : Host.Outcome State Fault Refusal :=
  .next (s.event 0#3 8 (field v 0 16).toNat)

/-! ## Power (R445) -/

/-- PLIM as a write leaves it: clamped to 1,000 to 3,200 W. -/
def plimOf (v : Word) : BitVec 12 := BitVec.ofNat 12 (min 3200 (max 1000 (field v 0 12).toNat))

/-- PLIM: a write to PLIM (R445). -/
def execPlim (v : Word) (s : State) : Host.Outcome State Fault Refusal := .next { s with pkg := { s.pkg with plim := plimOf v } }

/-- A change of the clock: source 7 once for each change of direction (R445). DESIGN CHOICE, log entry 49. -/
def setClock (c : Nat) (down : Bool) (s : State) : State :=
  let s1 := { s with pkg := { s.pkg with clock := c, slowing := down } }
  if s.pkg.slowing = down then s1 else s1.event 0#3 7 c

/-- POWER_CAP_INTERVAL: above the limit the clock falls by 100 MHz, to no less than 1.0 GHz; below 95 % of it the clock
rises by the same step, to no more than its nominal 2.0 GHz (R445). -/
def execPowerCapInterval (watts : Nat) (s : State) : Host.Outcome State Fault Refusal :=
  let lim := s.pkg.plim.toNat
  let c := s.pkg.clock
  .next (if lim < watts then (if 10 < c then setClock (c - 1) true s else s)
    else if 100 * watts < 95 * lim then (if c < 20 then setClock (c + 1) false s else s)
    else s)

end Sys2Proof.Machine
end

