-- ==== Sys2Proof/Machine/Fabric.lean ====
section
/-! DEFINITION. The scale-up fabric: ports (R446, R454), packets, lanes and keys (R447 to R449), the mailbox (R450, R451),
descriptors (R452, R453), link failure (R455), pod barriers (R457), quiescing (R458); register writes (R8) and the reads of
BAR0 (R439). -/

namespace Sys2Proof.Machine

/-! ## Memory as the fabric reaches it (R448, R452) -/

/-- n bytes from a physical address lie in one usable tier or in the aperture. -/
def State.fabRegion (s : State) (pa n : Nat) : Bool :=
  if n = 0 then false
  else
    match regionOf pa, regionOf (pa + n - 1) with
    | .near _, .near _ => s.tierUsable false
    | .far _, .far _ => s.tierUsable true
    | .aperture _ _, .aperture _ _ => true
    | _, _ => false

/-- A stack holds an access back (R235). -/
def State.fabHeld (s : State) (pa n : Nat) (write : Bool) : Bool :=
  match tierOf pa with
  | some (far, t) => s.extBlocked far t n 2#3 write
  | none => false

/-- A byte with the poison bit of its sector (R346). -/
def State.fabByte (s : State) (pa : Nat) : BitVec 8 × Bool :=
  match regionOf pa with
  | .aperture k off => ((s.core k).tower.byte off, (s.core k).tower.poisoned off)
  | _ => ((s.physRead pa 1).getD 0 0#8, s.physPoison pa)

/-- What reading bytes finds and mends: check bits of towers, lost units of a tier (R205, R232). -/
def State.fabTouch (s : State) (pa n : Nat) : State :=
  match regionOf pa with
  | .aperture k off =>
    let s1 := s.scrubTower k off (min n (2 ^ 25 - off))
    if n ≤ 2 ^ 25 - off then s1 else s1.scrubTower (k + 1#11) 0 (n - (2 ^ 25 - off))
  | _ =>
    match tierOf pa with
    | some (far, t) => s.extTouch far t n 2#3
    | none => s

/-- Bytes with their poison bits. -/
def State.fabData (s : State) (pa n : Nat) : List (BitVec 8 × Bool) := (List.range n).map (fun i => s.fabByte (pa + i))

/-- Write bytes to one tower, poison carried (R207, R346). -/
def putTower (k : CoreId) (off : Nat) (d : List (BitVec 8 × Bool)) (s : State) : State :=
  s.modCore k (fun c =>
    let c1 := c.towerWrite off (d.map (fun b => b.1))
    { c1 with tower := d.zipIdx.foldl (fun t p => if p.1.2 then t.setPoison (off + p.2) true else t) c1.tower })

/-- Write bytes with their poison bits to a tier or to the towers of the aperture (R346). -/
def State.fabPut (s : State) (pa : Nat) (d : List (BitVec 8 × Bool)) : State :=
  match regionOf pa with
  | .aperture k off =>
    let n := 2 ^ 25 - off
    let s1 := putTower k off (d.take n) s
    if d.length ≤ n then s1 else putTower (k + 1#11) 0 (d.drop n) s1
  | _ => s.physPut pa d

/-- The bytes of a packet, each with its poison. -/
def withPoison (addr : Nat) (bytes : List (BitVec 8)) (poison : List Nat) : List (BitVec 8 × Bool) :=
  bytes.zipIdx.map (fun p => (p.1, poison.contains ((addr + p.2) / 32 - addr / 32)))

/-- The bytes of a sector that lie at a local address from `la` on, counted from there, have all come clean. -/
def FabDesc.coversClean (x : FabDesc) (sec : Nat) : Bool :=
  (List.range 32).all (fun i => decide (x.laddr.toNat ≤ 32 * sec + i) && x.clean.contains (32 * sec + i - x.laddr.toNat))

/-- The bytes of a packet that do not cover their local sector whole and came clean, counted from a read's first byte. -/
def cleanParts (la off : Nat) (d : List (BitVec 8 × Bool)) : List Nat :=
  (d.zipIdx.filter (fun p =>
    let sec := (la + off + p.2) / 32
    !p.1.2 && (decide (32 * sec < la + off) || decide (la + off + d.length < 32 * sec + 32)))).map (fun p => off + p.2)

/-- A read that has covered a sector in parts with clean bytes leaves it without poison (R346): the sector is written again
as it stands. -/
def State.sweepClean (s : State) (x : FabDesc) (off n : Nat) : State :=
  (((List.range n).map (fun i => (x.laddr.toNat + off + i) / 32)).eraseDups.filter x.coversClean).foldl (fun s sec =>
    s.fabPut (32 * sec) ((List.range 32).map (fun i => ((s.fabByte (32 * sec + i)).1, false)))) s

/-- The sectors of n bytes from an address, counted from the first, that carry poison. -/
def poisonOf (addr : Nat) (d : List (BitVec 8 × Bool)) : List Nat :=
  ((d.zipIdx.filter (fun p => p.1.2)).map (fun p => (addr + p.2) / 32 - addr / 32)).eraseDups

/-! ## The mailbox (R450, R451, R457, R458) -/

/-- A routing entry's valid bit and its mask (R448). -/
def routeOk (w : Word) : Bool := bit w 24
/-- PMASK of a routing entry. -/
def routePorts (w : Word) : BitVec 24 := w.truncate 24

/-- An OP of the mailbox: RESULT, and the package after it. DEDUCED, log entry 51. -/
def fmOp (op idx : Nat) (s : State) : Nat × State :=
  let f := s.fabric
  let w := f.fmdata
  let set (f : Fabric) : Nat × State := (0, { s with fabric := f })
  match op with
  | 0 =>
    if field w 48 16 ≠ 0#64 ∨ field w 25 7 ≠ 0#64 then (1, s) else set { f with routes := f.routes.set (BitVec.ofNat 14 idx) w }
  | 1 => set { f with fmdata := f.routes.get 0#64 (BitVec.ofNat 14 idx) }
  | 2 => if 16 ≤ idx ∨ field w 17 47 ≠ 0#64 then (1, s) else set { f with keys := f.keys.set (BitVec.ofNat 4 idx) w }
  | 3 => if 16 ≤ idx then (1, s) else set { f with fmdata := f.keys.get 0#64 (BitVec.ofNat 4 idx) }
  | 4 =>
    if field w 14 50 ≠ 0#64 then (1, s)
    else if s.dies.any (fun e => !e.2.descs.isEmpty) then (2, s)
    else (0, podSettle { s with fabric := { f with id := w.truncate 14 } })
  | 5 =>
    if 64 ≤ idx ∨ field w 14 2 ≠ 0#64 ∨ field w 17 47 ≠ 0#64 then (1, s)
    else (0, podSettle { s with fabric := { f with members := f.members.set (BitVec.ofNat 6 idx) w } })
  | 6 =>
    if 4 ≤ idx then (1, s) else (0, podSettle { s with fabric := { f with mask := f.mask.set (BitVec.ofNat 2 idx) w } })
  | 8 => if f.quiesced then set { f with quiesced := false } else (2, s)
  | _ => (1, s)

/-- OP 7: placement stops, every running task is pre-empted (R458). -/
def quiesce (s : State) : State :=
  quiesceStep (allTables.foldl (fun s tb => requestStop tb s)
    { s with fabric := { s.fabric with quiescing := true }, launch := { s.launch with claims := [] } })

/-- A write to FMCMD: discarded while BUSY; else OP is performed and RESULT written (R451). -/
def fmCommand (v : Word) (s : State) : State :=
  let op := (field v 0 4).toNat
  if s.fabric.quiescing then s
  else if field v 4 12 ≠ 0#64 ∨ field v 30 34 ≠ 0#64 then { s with fabric := { s.fabric with result := 1#8 } }
  else if op = 7 then quiesce s
  else
    let r := fmOp op (field v 16 14).toNat s
    { r.2 with fabric := { r.2.fabric with result := BitVec.ofNat 8 r.1 } }

/-- FM_WRITE_ROUTE (R450). -/
def execFmWriteRoute (v : Word) (s : State) : Host.Outcome State Fault Refusal := .next (fmCommand v s)
/-- FM_READ_ROUTE (R451). -/
def execFmReadRoute (v : Word) (s : State) : Host.Outcome State Fault Refusal := .next (fmCommand v s)
/-- FM_WRITE_KEY (R450). -/
def execFmWriteKey (v : Word) (s : State) : Host.Outcome State Fault Refusal := .next (fmCommand v s)
/-- FM_READ_KEY (R451). -/
def execFmReadKey (v : Word) (s : State) : Host.Outcome State Fault Refusal := .next (fmCommand v s)
/-- FM_SET_ID (R451). -/
def execFmSetId (v : Word) (s : State) : Host.Outcome State Fault Refusal := .next (fmCommand v s)
/-- FM_WRITE_POD_MEMBER (R457). -/
def execFmWritePodMember (v : Word) (s : State) : Host.Outcome State Fault Refusal := .next (fmCommand v s)
/-- FM_WRITE_GRAPH_MASK (R457). -/
def execFmWriteGraphMask (v : Word) (s : State) : Host.Outcome State Fault Refusal := .next (fmCommand v s)
/-- FM_QUIESCE (R458). -/
def execFmQuiesce (v : Word) (s : State) : Host.Outcome State Fault Refusal := .next (fmCommand v s)
/-- FM_RESUME (R458). -/
def execFmResume (v : Word) (s : State) : Host.Outcome State Fault Refusal := .next (fmCommand v s)

/-- FMLINK_CLEAR: writing 1 clears FAIL bits (R451). -/
def execFmlinkClear (v : Word) (s : State) : Host.Outcome State Fault Refusal :=
  .next { s with fabric := { s.fabric with fail := s.fabric.fail &&& ~~~((field v 24 24).truncate 24) } }

/-! ## Descriptors (R452, R453) -/

/-- FQTAIL: a write posts descriptors (R452). -/
def execFqtail (d : DieId) (v : Word) (s : State) : Host.Outcome State Fault Refusal := .next (s.dieWrite d 0x100008 v)

/-- A descriptor from its four words: its status is 6 when a reserved field is not zero or LEN is 0, and 4 when its local
range is refused (R452, R453). -/
def State.descOf (s : State) (num home : Nat) (w0 w1 w2 w3 : Word) : FabDesc :=
  let len := (field w3 0 32).toNat
  let bad := decide (2 ≤ (field w0 0 2).toNat) || decide (field w0 4 12 ≠ 0#64) || decide (field w0 30 34 ≠ 0#64)
    || decide (field w1 52 12 ≠ 0#64) || decide (field w2 52 12 ≠ 0#64) || decide (field w3 40 24 ≠ 0#64) || decide (len = 0)
  let laddr : BitVec 52 := w2.truncate 52
  { num := num, home := home, write := decide (field w0 0 2 = 0#64), cls := (field w0 2 2).truncate 2, dst := (field w0 16 14).truncate 14
    raddr := w1.truncate 52, laddr := laddr, len := len
    status := if bad then 6#8 else if s.fabRegion laddr.toNat len then 1#8 else 4#8 }

/-- DESCRIPTOR_START: the engine of a die reads and starts its next descriptor, unless the package quiesces (R453,
R458). -/
def execDescriptorStart (d : DieId) (s : State) : Host.Outcome State Fault Refusal :=
  let x := s.die d
  let pa := x.fqbase.toNat + 32 * x.fqhead.toNat
  .next (if decide (x.fqhead = x.fqtail) || s.fabric.quiesced || s.fabric.quiescing then s
    else
      match tierOf pa with
      | none => s
      | some (far, t) =>
        if !s.tierUsable far || s.extBlocked far t 32 2#3 false then s
        else
          let s1 := s.extTouch far t 32 2#3
          match wordsOf 4 (s1.physRead pa 32) with
          | [w0, w1, w2, w3] =>
            let desc := s1.descOf x.started pa w0 w1 w2 w3
            s1.modDie d (fun x => { x with fqhead := x.fqhead + 1#7, started := x.started + 1, descs := x.descs ++ [desc] })
          | _ => s)

/-- A descriptor has nothing left to do: it sent every byte, or stopped, and every packet is acknowledged. -/
def FabDesc.over (x : FabDesc) : Bool := decide (x.open_ = 0) && (decide (x.status ≠ 1#8) || decide (x.sent = x.len))

/-- DESCRIPTOR_COMPLETE: the engine writes STATUS where it read the descriptor (R453). -/
def execDescriptorComplete (d : DieId) (n : Nat) (s : State) : Host.Outcome State Fault Refusal :=
  let x := s.die d
  .next (match x.descs[n]? with
    | some desc =>
      if desc.over then
        match s.unitWrite (desc.home + 28) [desc.status] with
        | some s1 => s1.modDie d (fun y => { y with descs := y.descs.eraseIdx n })
        | none => s
      else s
    | none => s)

/-! ## Packets (R447 to R449) -/

/-- The hash lane of a physical address (R258). -/
def hashLane (a : BitVec 52) : BitVec 4 :=
  a.extractLsb' 6 4 ^^^ (a.extractLsb' 10 4 ^^^ (a.extractLsb' 14 3).zeroExtend 4)

/-- A pair of destination and lane. -/
def Fabric.pair (f : Fabric) (dst : BitVec 14) (lane : BitVec 4) : Pair := f.pairs.get { port := 0#5 } (dst, lane)
/-- Replace a pair. -/
def Fabric.setPair (f : Fabric) (dst : BitVec 14) (lane : BitVec 4) (p : Pair) : Fabric := { f with pairs := f.pairs.set (dst, lane) p }
/-- A port is linked up (R446, R454). -/
def Fabric.portUp (f : Fabric) (p : BitVec 5) : Bool := f.up.getLsbD p.toNat
/-- Some port of a mask is linked up. -/
def Fabric.anyUp (f : Fabric) (mask : BitVec 24) : Bool := decide (mask &&& f.up ≠ 0#24)

/-- Change the descriptor of a die that has a number. -/
def modDesc (d : DieId) (num : Nat) (g : FabDesc → FabDesc) (s : State) : State :=
  s.modDie d (fun x => { x with descs := x.descs.map (fun y => if y.num = num then g y else y) })

/-- The next sequence number from this device to a destination, by lane (R447). -/
def Fabric.nextSeq (f : Fabric) (dst : BitVec 14) (lane : BitVec 4) : Nat := f.seqs.get 0 (f.id, dst, lane)
/-- A packet of a pair leaves on a port, with the pair's next number (R447, R449). -/
def Fabric.send (f : Fabric) (p : FabricPacket) (port : BitVec 5) : Fabric :=
  let pr := f.pair p.dst p.lane
  { f.setPair p.dst p.lane { pr with port := port, inflight := pr.inflight ++ [p] } with
    seqs := f.seqs.set (f.id, p.dst, p.lane) (f.nextSeq p.dst p.lane + 1) }

/-- A descriptor stops with a status, the first one standing. -/
def FabDesc.stops (st : BitVec 8) (x : FabDesc) : FabDesc := if x.status = 1#8 then { x with status := st } else x

/-- Bytes of a descriptor's next packet: those of one 64-byte line at the destination, so that each packet has one lane and
the writes to a line stay in order (R258). DEDUCED, log entry 53. -/
def FabDesc.piece (x : FabDesc) : Nat := min (x.len - x.sent) (64 - (x.raddr.toNat + x.sent) % 64)

/-- A descriptor in progress has a packet for a destination and lane still to send; sixteen lines in a row have every
lane. -/
def FabDesc.owes (x : FabDesc) (dst : BitVec 14) (lane : BitVec 4) : Bool :=
  let first := (x.raddr.toNat + x.sent) / 64
  let last := (x.raddr.toNat + x.len - 1) / 64
  decide (x.status = 1#8) && decide (x.sent < x.len) && decide (x.dst = dst)
    && (List.range (min 32 (last - first + 1))).any (fun i => decide (hashLane (BitVec.ofNat 52 (64 * (first + i))) = lane))

/-- The port a pair's next packet leaves on: with nothing in flight any port of the mask that is up; else the current one,
while the mask names it and it is up; none when the packet waits (R449, R455). -/
def Fabric.sendPort (f : Fabric) (p : Pair) (mask : BitVec 24) (port : BitVec 5) : Option (BitVec 5) :=
  if !p.retry.isEmpty then none
  else if p.inflight.isEmpty then (if mask.getLsbD port.toNat && f.portUp port then some port else none)
  else if mask.getLsbD p.port.toNat && f.portUp p.port then some p.port
  else none

/-- FABRIC_PACKET_SEND: the next packet of a die's n-th descriptor leaves on its pair's current port, or on the port named
when the pair has none in flight, after what earlier descriptors of the die send on its lane; with no route it is refused
locally (R258, R449, R453). While the package quiesces nothing is sent (R458; DEDUCED, log entry 52). -/
def execFabricPacketSend (d : DieId) (n : Nat) (port : BitVec 5) (s : State) : Host.Outcome State Fault Refusal :=
  let f := s.fabric
  .next (match (s.die d).descs[n]? with
    | none => s
    | some x =>
      if decide (x.status ≠ 1#8) || decide (x.len ≤ x.sent) then s
      else
        let route := f.routes.get 0#64 x.dst
        let addr := x.raddr + BitVec.ofNat 52 x.sent
        let lane := hashLane addr
        let p := f.pair x.dst lane
        let len := x.piece
        let la := x.laddr.toNat + x.sent
        if f.quiescing || f.quiesced || ((s.die d).descs.take n).any (fun y => y.owes x.dst lane) then s
        else if !routeOk route || !f.anyUp (routePorts route) then modDesc d x.num (FabDesc.stops 3#8) s
        else
          match f.sendPort p (routePorts route) port with
          | none => s
          | some q =>
            if x.write && !s.fabRegion la len then modDesc d x.num (FabDesc.stops 4#8) s
            else if x.write && s.fabHeld la len false then s
            else
              let s := if x.write then s.fabTouch la len else s
              let data := if x.write then s.fabData la len else []
              let pkt : FabricPacket :=
                { src := f.id, dst := x.dst, cls := x.cls, key := (field route 32 16).truncate 16, addr := addr, lane := lane
                  seq := f.nextSeq x.dst lane, write := x.write, len := len, bytes := data.map (fun b => b.1)
                  poison := poisonOf addr.toNat data, die := d, desc := x.num }
              modDesc d x.num (fun y => { y with sent := y.sent + len, open_ := y.open_ + 1 })
                { s with fabric := f.send pkt q })

/-- A key is accepted (R448). -/
def Fabric.accepts (f : Fabric) (key : BitVec 16) : Bool :=
  (List.range 16).any (fun i =>
    let w := f.keys.get 0#64 (BitVec.ofNat 4 i)
    bit w 16 && decide (w.truncate 16 = key))

/-- Answer a packet that arrived. -/
def answerPacket (p : FabricPacket) (status : BitVec 8) (d : List (BitVec 8 × Bool)) (s : State) : State :=
  { s with fabric := { s.fabric with outbox := s.fabric.outbox ++
      [{ src := p.src, lane := p.lane, seq := p.seq, status := status, bytes := d.map (fun b => b.1)
         poison := poisonOf p.addr.toNat d }] } }

/-- Note that a packet's number is performed (R447). -/
def markPerformed (p : FabricPacket) (s : State) : State :=
  { s with fabric := { s.fabric with performed := (p.src, p.dst, p.lane, p.seq) :: s.fabric.performed } }

/-- Two packets have one source, destination and lane (R258, R447). -/
def sameLane (p q : FabricPacket) : Bool :=
  decide (p.src = q.src) && decide (p.dst = q.dst) && decide (p.lane = q.lane)

/-- A packet that arrived is performed if its key was accepted and it addresses a tier or the aperture; else its source
receives a refusal (R448, R453); none while a stack holds it back. DEDUCED, log entry 54. -/
def takePacket (p : FabricPacket) (ok : Bool) (s : State) : Option State :=
  let a := p.addr.toNat
  let n := if p.write then p.bytes.length else p.len
  if !ok then some (answerPacket p 2#8 [] s)
  else if !s.fabRegion a n then some (answerPacket p 4#8 [] s)
  else if s.fabHeld a n p.write then none
  else if p.write then some (answerPacket p 1#8 [] (markPerformed p (s.fabPut a (withPoison a p.bytes p.poison))))
  else
    let s1 := s.fabTouch a n
    some (answerPacket p 1#8 (s1.fabData a n) (markPerformed p s1))

/-- The packet's number was performed (R447). -/
def Fabric.passed (f : Fabric) (p : FabricPacket) : Bool := f.performed.contains (p.src, p.dst, p.lane, p.seq)

/-- FABRIC_PACKET_ARRIVAL: a packet for this device is performed once, behind those of its lane that a stack holds back,
its key checked as it arrives (R235, R258, R447, R448, R450). -/
def execFabricPacketArrival (p : FabricPacket) (s : State) : Host.Outcome State Fault Refusal :=
  let f := s.fabric
  let ok := f.accepts p.key
  let queued : State := { s with fabric := { f with inbound := f.inbound ++ [(p, ok)] } }
  .next (if decide (p.dst ≠ f.id) || f.passed p then s
    else if f.inbound.any (fun q => sameLane p q.1 && decide (p.seq = q.1.seq)) then s
    else if f.inbound.any (fun q => sameLane p q.1) then queued
    else (takePacket p ok s).getD queued)

/-- The n-th packet that a stack held back is tried again, behind the earlier ones of its lane. -/
def retryPacket (n : Nat) (s : State) : State :=
  let f := s.fabric
  match f.inbound[n]? with
  | none => s
  | some (p, ok) =>
    if (f.inbound.take n).any (fun q => sameLane p q.1) then s
    else (takePacket p ok { s with fabric := { f with inbound := f.inbound.eraseIdx n } }).getD s

/-- END_TO_END_ACKNOWLEDGEMENT: the packet with a number leaves its pair's in-flight set; the bytes of a read are written
at the local address; a refusal stops its descriptor (R449, R453). -/
def execEndToEndAcknowledgement (dst : BitVec 14) (lane : BitVec 4) (seq : Nat) (status : BitVec 8) (bytes : List (BitVec 8))
    (poison : List Nat) (s : State) : Host.Outcome State Fault Refusal :=
  let p := s.fabric.pair dst lane
  .next (match (p.inflight ++ p.retry).find? (fun x => decide (x.seq = seq)) with
    | none => s
    | some k =>
      let p' : Pair :=
        { p with inflight := p.inflight.filter (fun x => decide (x.seq ≠ seq)), retry := p.retry.filter (fun x => decide (x.seq ≠ seq)) }
      let s1 := { s with fabric := s.fabric.setPair dst lane p' }
      let close (st : BitVec 8) (s : State) : State :=
        quiesceStep (modDesc k.die k.desc (fun y => { y.stops st with open_ := y.open_ - 1 }) s)
      match (s.die k.die).descs.find? (fun y => decide (y.num = k.desc)) with
      | none => quiesceStep s1
      | some x =>
        let off := (k.addr - x.raddr).toNat
        let la := x.laddr.toNat + off
        let d := withPoison k.addr.toNat (bytes.take k.len) poison
        let x' : FabDesc := { x with clean := x.clean ++ cleanParts x.laddr.toNat off d }
        if status ≠ 1#8 then close status s1
        else if k.write then close 1#8 s1
        else if !s.fabRegion la k.len then close 4#8 s1
        else if s.fabHeld la k.len true then s
        else close 1#8 (modDesc k.die k.desc (fun _ => x') ((s1.fabPut la d).sweepClean x' off k.len)))

/-! ## Ports (R446, R454, R455) -/

/-- A port's die and its PORT bit of DREADY (R441, R446). -/
def portBit (port : BitVec 5) : DieId × Nat := (BitVec.ofNat 3 (port.toNat / 3), 18 + port.toNat % 3)

/-- PORT_LINK_UP (R446). -/
def execPortLinkUp (port : BitVec 5) (s : State) : Host.Outcome State Fault Refusal :=
  .next (if 24 ≤ port.toNat then s
    else
      ({ s with fabric := { s.fabric with up := s.fabric.up ||| (1#24 <<< port.toNat) } }).modDie (portBit port).1 (fun x =>
        x.setReady (portBit port).2 true))

/-- The packets of a failed port wait to be resent, in their order (R455). -/
def Pair.fails (port : BitVec 5) (p : Pair) : Pair :=
  if p.port = port then { p with inflight := [], retry := p.retry ++ p.inflight } else p

/-- All dies of the package. -/
def allDies : List DieId := (List.range 8).map (fun d => BitVec.ofNat 3 d)

/-- A port fails: UP clears, FAIL is set, source 4 is raised to every die controller, and the port's packets wait to be
resent (R454, R455). -/
def portFails (port : BitVec 5) (s : State) : State :=
  let f := s.fabric
  let f' : Fabric :=
    { f with up := f.up &&& ~~~(1#24 <<< port.toNat), fail := f.fail ||| (1#24 <<< port.toNat)
             pairs := f.pairs.map (fun e => (e.1, e.2.fails port)) }
  allDies.foldl (fun s d => s.event d 4 port.toNat) { s with fabric := f' }

/-- PORT_FAILURE (R441, R454, R455). -/
def execPortFailure (port : BitVec 5) (s : State) : Host.Outcome State Fault Refusal :=
  .next (if 24 ≤ port.toNat then s else clearReady (portBit port).1 (portBit port).2 (portFails port s))

/-- What a function that failed takes with it: a stack is no longer trained, a port fails, the host link is no longer
trained (R441, R454). -/
def loseFunction (d : DieId) (i : Nat) (s : State) : State :=
  if i = 16 then s.modStack (0#1 ++ d) (fun x => { x with trained := false })
  else if i = 17 then s.modStack (1#1 ++ d) (fun x => { x with trained := false })
  else if 18 ≤ i ∧ i ≤ 20 then portFails (BitVec.ofNat 5 (3 * d.toNat + (i - 18))) s
  else if i = 23 then { s with pkg := { s.pkg with link := none } }
  else s

/-- READY_BIT_CLEAR: a function fails (R441). -/
def execReadyBitClear (d : DieId) (i : BitVec 5) (s : State) : Host.Outcome State Fault Refusal :=
  .next (if (s.die d).dready.getLsbD i.toNat then clearReady d i.toNat (loseFunction d i.toNat s) else s)

/-- PACKET_RESEND: the packets of a failed port leave again, in their order, on a port of the mask that is up (R455).
DEDUCED, log entry 55. -/
def execPacketResend (dst : BitVec 14) (lane : BitVec 4) (port : BitVec 5) (s : State) : Host.Outcome State Fault Refusal :=
  let f := s.fabric
  let p := f.pair dst lane
  let route := f.routes.get 0#64 dst
  .next (if !p.retry.isEmpty && routeOk route && (routePorts route).getLsbD port.toNat && f.portUp port then
      { s with fabric := f.setPair dst lane { p with port := port, inflight := p.inflight ++ p.retry, retry := [] } }
    else s)

/-- LANE_TIMEOUT: with no port of the mask up, the pair's packets are dropped and their descriptors stop with status 5
(R455). -/
def execLaneTimeout (dst : BitVec 14) (lane : BitVec 4) (s : State) : Host.Outcome State Fault Refusal :=
  let f := s.fabric
  let p := f.pair dst lane
  let route := f.routes.get 0#64 dst
  .next (if p.retry.isEmpty || (routeOk route && f.anyUp (routePorts route)) then s
    else
      quiesceStep (p.retry.foldl (fun s k => modDesc k.die k.desc (fun y => { y.stops 5#8 with open_ := y.open_ - 1 }) s)
        { s with fabric := f.setPair dst lane { p with retry := [] } }))

/-! ## Pod barriers (R457) -/

/-- POD_BARRIER_ARRIVAL: a member's arrival counts for its next instance, which goes as far as it now can; a device with no
local participant completes locally at once (R457). -/
def execPodBarrierArrival (member : BitVec 6) (id : BitVec 4) (s : State) : Host.Outcome State Fault Refusal :=
  let f := s.fabric
  .next (if s.podMembers.contains member then
      podTry id { s with fabric := { f with arrivals := f.arrivals.set (member, id) (f.arrivals.get 0 (member, id) + 1) } }
    else s)

/-! ## Registers (R8, R420, R439, R451) -/

/-- A write to a register that has no behaviour of its own: its writable fields take the value; a read-only register
ignores it (R8). DEDUCED, log entry 56. -/
def writeReg (r : DevReg) (v : Word) (s : State) : State :=
  match r with
  | .tiva d => s.dieWrite d 0x1000 v
  | .tilen d => s.dieWrite d 0x1008 v
  | .asdt d => s.dieWrite d 0x1020 v
  | .fqbase d => s.dieWrite d 0x100000 v
  | .tistat _ => s
  | .pkgid _ => s
  | .dready _ => s
  | .seatmap0 _ => s
  | .seatmap1 _ => s
  | .fqhead _ => s
  | .lspbase => if s.luReady then { s with launch := { s.launch with lspbase := keepBits v 16 36 } } else s
  | .lspsize => if s.luReady then { s with launch := { s.launch with lspsize := keepBits v 16 32 } } else s
  | .lgstat => s
  | .gencnt _ => s
  | .hwbase => { s with pkg := { s.pkg with hwbase := keepBits v 36 16 } }
  | .fmdata => { s with fabric := { s.fabric with fmdata := v } }
  | .fmstat => s
  | .fmid => s

/-- REGISTER_WRITE (R8). -/
def execRegisterWrite (r : DevReg) (v : Word) (s : State) : Host.Outcome State Fault Refusal := .next (writeReg r v s)

/-- FMSTAT (R451). -/
def Fabric.fmstat (f : Fabric) : Word :=
  (if f.quiescing then 1#64 else 0#64) ||| (if f.quiesced then 2#64 else 0#64) ||| (f.result.zeroExtend 64 <<< 8)

/-- An aligned 8-byte read of BAR0; an offset that names no register reads 0 (R420, R439, R441, R451). -/
def State.bar0Read (s : State) (off : Nat) : Word :=
  if off < 0x10000 then s.launch.regRead off
  else if 0x10000 ≤ off ∧ off < 0x10040 ∧ off % 8 = 0 then
    (s.die (BitVec.ofNat 3 ((off - 0x10000) / 8))).dready.zeroExtend 64
  else
    match off with
    | 0x10100 => s.pkg.hwbase
    | 0x10200 => s.pkg.plim.zeroExtend 64
    | 0x10300 => s.dieRead 0#3 0
    | 0x20008 => s.fabric.fmdata
    | 0x20010 => s.fabric.fmstat
    | 0x20018 => s.fabric.up.zeroExtend 64 ||| (s.fabric.fail.zeroExtend 64 <<< 24)
    | 0x20020 => s.fabric.id.zeroExtend 64
    | _ => 0#64

end Sys2Proof.Machine
end

