-- ==== Sys2Proof/Machine/HostPort.lean ====
section
/-! DEFINITION. The host's requests: BAR0, BAR2 and BAR4 (R420, R439, R451), kept in their order where a stack holds one back
(R430), and the launch registers that the opcode table names as events. -/

namespace Sys2Proof.Machine

/-- An 8-byte write of BAR0, by offset (R420, R439, R445, R451); none while a stack holds it back; an offset that names no
register ignores it. -/
def State.bar0Write (s : State) (off : Nat) (v : Word) : Option State :=
  match off with
  | 0x00000 => ltrigWrite v s
  | 0x00008 => some (lgregWrite v s)
  | 0x00018 => some (writeReg .lspbase v s)
  | 0x00020 => some (writeReg .lspsize v s)
  | 0x00028 => some (labortWrite v s)
  | 0x00030 => some (lerrWrite v s)
  | 0x10100 => some (writeReg .hwbase v s)
  | 0x10200 => some { s with pkg := { s.pkg with plim := plimOf v } }
  | 0x20000 => some (fmCommand v s)
  | 0x20008 => some (writeReg .fmdata v s)
  | 0x20018 => some { s with fabric := { s.fabric with fail := s.fabric.fail &&& ~~~((field v 24 24).truncate 24) } }
  | _ => some s

/-- A host access of BAR0: an aligned 8-byte one reaches a register, any other writes nothing and reads 0 (R420, R451). -/
def hostBar0 (off : Nat) (acc : HostAccess) (s : State) : Option State :=
  match acc with
  | .read n =>
    some (s.answerHost (some (if n = 8 ∧ off % 8 = 0 then natToBytes 8 (s.bar0Read off).toNat else List.replicate n 0#8)))
  | .write bs => if bs.length = 8 ∧ off % 8 = 0 then s.bar0Write off (BitVec.ofNat 64 (bytesToNat bs)) else some s

/-- A host access of BAR2: the bytes of scheduler memory (R420, R439). -/
def hostBar2 (off : Nat) (acc : HostAccess) (s : State) : State :=
  match acc with
  | .read n => s.answerHost (some (Memory.read s.launch.mem off (min n (schedSize - off))))
  | .write bs => { s with launch := { s.launch with mem := Memory.write s.launch.mem off (bs.take (schedSize - off)) } }

/-- Perform a request of the host; none while a stack holds it back. -/
def hostDo (r : HostReq) (s : State) : Option State :=
  match r with
  | .bar0 off acc => hostBar0 off.toNat acc s
  | .bar2 off acc => some (hostBar2 off.toNat acc s)
  | .bar4 off acc => hostAccess off acc s

/-- A request of the host comes behind those that wait (R430, R439): it is performed when it can be. -/
def hostPost (r : HostReq) (s : State) : State :=
  let waits : State := { s with pkg := { s.pkg with posted := s.pkg.posted ++ [r] } }
  if s.pkg.posted.isEmpty then (hostDo r s).getD waits else waits

/-- The oldest request that waits is tried again. -/
def hostRetry (s : State) : State :=
  match s.pkg.posted with
  | r :: rest => (hostDo r { s with pkg := { s.pkg with posted := rest } }).getD s
  | [] => s

/-- The host's write of a launch register. -/
def launchWrite (off : BitVec 20) (v : Word) : HostReq := .bar0 off (.write (natToBytes 8 v.toNat))

/-! ## Events -/

/-- LTRIG (R424). -/
def execLtrig (v : Word) (s : State) : Host.Outcome State Fault Refusal := .next (hostPost (launchWrite 0x000#20 v) s)

/-- LGREG_REGISTER: a write to LGREG (R423). -/
def execLgregRegister (v : Word) (s : State) : Host.Outcome State Fault Refusal := .next (hostPost (launchWrite 0x008#20 v) s)

/-- LGREG_UNREGISTER: a write to LGREG (R423). -/
def execLgregUnregister (v : Word) (s : State) : Host.Outcome State Fault Refusal := .next (hostPost (launchWrite 0x008#20 v) s)

/-- LABORT (R435). -/
def execLabort (v : Word) (s : State) : Host.Outcome State Fault Refusal := .next (hostPost (launchWrite 0x028#20 v) s)

/-- LERR_CLEAR (R420). -/
def execLerrClear (v : Word) (s : State) : Host.Outcome State Fault Refusal := .next (hostPost (launchWrite 0x030#20 v) s)

/-- HOST_BAR4_ACCESS (R439). -/
def execHostBar4Access (off : BitVec 36) (acc : HostAccess) (s : State) : Host.Outcome State Fault Refusal :=
  .next (hostPost (.bar4 off acc) s)

/-! ## What comes from outside (R234, R295, R437, R441, R442) -/

/-- What comes to the package from outside that the opcode table does not name. -/
def outsideTurn (o : Outside) (s : State) : State :=
  match o with
  | .host r => hostPost r s
  | .hostMap ds => hostMap ds s
  | .unitLost st pc r => unitUncorrectable st pc r s
  | .rowRefresh st pc bank row => rowRefreshed st pc bank row s
  | .counterUpset st pc bank row => counterUpset st pc bank row s
  | .wordUpset k off two => wordUpset k off two s
  | .cellStuck k sub row byte b => cellStuck k sub row byte b s
  | .bootTable tb => bootTable tb s
  | .marchDone tb => marchDone tb s
  | .launchReady => launchReady s

end Sys2Proof.Machine
end

