-- ==== Sys2Proof/Machine/ScalarFp.lean ====
section
/-! DEFINITION. The scalar floating-point instructions (R73 to R77). -/

namespace Sys2Proof.Machine

/-- FP32 or BF16 (R50, R73). -/
def fpFmt (ty : BitVec 1) : Fmt := if ty = 0#1 then .fp32 else .bf16
/-- The floating-point operand in a register (R73). -/
def fpRead (ty : BitVec 1) (w : Word) : Val := (fpFmt ty).decode (w.toNat % 2 ^ (fpFmt ty).width)
/-- A rounded result: its bits, zero-extended, and the flags (R73, R76). -/
def fpWrite (ty : BitVec 1) (m : Mode) (r : Val × Fl) : Word × Fl :=
  let (bits, fl) := (fpFmt ty).round m r.1
  (BitVec.ofNat 64 bits, r.2 ||| fl)
/-- Write a result and raise its flags. -/
def putFl (c : Ctl) (d : BitVec 5) (r : Word × Fl) : Ctl := (c.setReg d r.1).raise r.2
/-- An instruction of two operands that rounds once (R76). -/
def fpBinC (d a b : BitVec 5) (r : BitVec 3) (ty : BitVec 1) (f : Mode → Val → Val → Val × Fl) (c : Ctl) : Ctl :=
  let m := modeOf r c.rm
  putFl c d (fpWrite ty m (f m (fpRead ty (c.reg a)) (fpRead ty (c.reg b))))
/-- An instruction that delivers one operand unrounded (R76). -/
def fpPickC (d a b : BitVec 5) (ty : BitVec 1) (f : Val → Val → Val) (c : Ctl) : Ctl :=
  putFl c d (fpWrite ty .rne (f (fpRead ty (c.reg a)) (fpRead ty (c.reg b)), 0#6))
/-- A comparison: 0 on a NaN operand, which raises NV where the comparison is ordered (R76). -/
def fpCmpC (d a b : BitVec 5) (ty : BitVec 1) (ordered : Bool) (f : Int → Bool) (c : Ctl) : Ctl :=
  let x := fpRead ty (c.reg a)
  let y := fpRead ty (c.reg b)
  let nan := x.isNan || y.isNan
  putFl c d (flagWord (!nan && f (Val.cmp x y)), Fl.when (nan && ordered) Fl.nv)
/-- Subtraction is addition of the negated operand. -/
def fpSub (m : Mode) (a b : Val) : Val × Fl := Val.add m a b.negate
/-- Conversion from an integer: rounded once; 0 gives +0 (R77). -/
def fcvtFromInt (ty : BitVec 1) (m : Mode) (n : Int) : Word × Fl := fpWrite ty m (Val.ofInt n, 0#6)
/-- Conversion to an integer between bounds (R77). -/
def fcvtToInt (m : Mode) (lo hi : Int) (v : Val) : Word × Fl :=
  let (n, fl) := floatToInt m lo hi v
  (BitVec.ofInt 64 n, fl)
/-- The conversions of `fcvt` (R77). -/
def fcvtW (k : BitVec 5) (ty : BitVec 1) (m : Mode) (a : Word) : Word × Fl :=
  match k.toNat with
  | 0 => fcvtFromInt ty m a.toInt
  | 1 => fcvtFromInt ty m a.toNat
  | 2 => fcvtToInt m (-(2 ^ 63)) (2 ^ 63 - 1) (fpRead ty a)
  | 3 => fcvtToInt m 0 (2 ^ 64 - 1) (fpRead ty a)
  | 4 => fcvtToInt m (-(2 ^ 31)) (2 ^ 31 - 1) (fpRead ty a)
  | 5 => fcvtToInt m 0 (2 ^ 32 - 1) (fpRead ty a)
  | 6 => fcvtFromInt ty m (a.truncate 32).toInt
  | 7 => fcvtFromInt ty m (a.truncate 32).toNat
  | _ => fpWrite ty m (fpRead (if ty = 0#1 then 1#1 else 0#1) a, 0#6)
/-- The sign bit of an operand. -/
def fpSign (ty : BitVec 1) : Word := if ty = 0#1 then 0x80000000#64 else 0x8000#64
/-- The operand's bits, zero-extended. -/
def fpBits (ty : BitVec 1) (w : Word) : Word := if ty = 0#1 then w &&& 0xFFFFFFFF#64 else w &&& 0xFFFF#64

/-- `fadd` (R76). -/
def execFadd (d a b : BitVec 5) (r : BitVec 3) (ty : BitVec 1) (t : Option Tok) (s : State) : Host.Outcome State Fault Refusal :=
  runCtl t (fpBinC d a b r ty Val.add) s

/-- `fsub` (R76). -/
def execFsub (d a b : BitVec 5) (r : BitVec 3) (ty : BitVec 1) (t : Option Tok) (s : State) : Host.Outcome State Fault Refusal :=
  runCtl t (fpBinC d a b r ty fpSub) s

/-- `fmul` (R76). -/
def execFmul (d a b : BitVec 5) (r : BitVec 3) (ty : BitVec 1) (t : Option Tok) (s : State) : Host.Outcome State Fault Refusal :=
  runCtl t (fpBinC d a b r ty (fun _ x y => Val.mul x y)) s

/-- `ffma`: the product is exact (R76). -/
def execFfma (d a b : BitVec 5) (r : BitVec 3) (ty : BitVec 1) (c : BitVec 5) (t : Option Tok) (s : State) : Host.Outcome State Fault Refusal :=
  runCtl t (fun x =>
    let m := modeOf r x.rm
    putFl x d (fpWrite ty m (Val.fma m (fpRead ty (x.reg a)) (fpRead ty (x.reg b)) (fpRead ty (x.reg c))))) s

/-- `fdiv`: from the exact quotient (R76, R129). -/
def execFdiv (d a b : BitVec 5) (r : BitVec 3) (ty : BitVec 1) (t : Option Tok) (s : State) : Host.Outcome State Fault Refusal :=
  runCtl t (fpBinC d a b r ty (fun _ x y => Val.div x y)) s

/-- `fsqrt` (R76). -/
def execFsqrt (d a : BitVec 5) (r : BitVec 3) (ty : BitVec 1) (t : Option Tok) (s : State) : Host.Outcome State Fault Refusal :=
  runCtl t (fpBinC d a a r ty (fun _ x _ => Val.sqrt x)) s

/-- `fmin` (R76). -/
def execFmin (d a b : BitVec 5) (ty : BitVec 1) (t : Option Tok) (s : State) : Host.Outcome State Fault Refusal :=
  runCtl t (fpPickC d a b ty Val.min) s

/-- `fmax` (R76). -/
def execFmax (d a b : BitVec 5) (ty : BitVec 1) (t : Option Tok) (s : State) : Host.Outcome State Fault Refusal :=
  runCtl t (fpPickC d a b ty Val.max) s

/-- `feq`: a NaN raises no flag (R76). -/
def execFeq (d a b : BitVec 5) (ty : BitVec 1) (t : Option Tok) (s : State) : Host.Outcome State Fault Refusal :=
  runCtl t (fpCmpC d a b ty false (fun o => decide (o = 0))) s

/-- `flt` (R76). -/
def execFlt (d a b : BitVec 5) (ty : BitVec 1) (t : Option Tok) (s : State) : Host.Outcome State Fault Refusal :=
  runCtl t (fpCmpC d a b ty true (fun o => decide (o < 0))) s

/-- `fle` (R76). -/
def execFle (d a b : BitVec 5) (ty : BitVec 1) (t : Option Tok) (s : State) : Host.Outcome State Fault Refusal :=
  runCtl t (fpCmpC d a b ty true (fun o => decide (o ≤ 0))) s

/-- `fcvt` (R77). -/
def execFcvt (d a k : BitVec 5) (r : BitVec 3) (ty : BitVec 1) (t : Option Tok) (s : State) : Host.Outcome State Fault Refusal :=
  runCtl t (fun c => putFl c d (fcvtW k ty (modeOf r c.rm) (c.reg a))) s

/-- `fneg`: the sign bit inverted, every other bit kept (R76). -/
def execFneg (d a : BitVec 5) (ty : BitVec 1) (t : Option Tok) (s : State) : Host.Outcome State Fault Refusal :=
  runCtl t (unC d a (fun x => fpBits ty (x ^^^ fpSign ty))) s

/-- `fabs`: the sign bit cleared, every other bit kept (R76). -/
def execFabs (d a : BitVec 5) (ty : BitVec 1) (t : Option Tok) (s : State) : Host.Outcome State Fault Refusal :=
  runCtl t (unC d a (fun x => fpBits ty (x &&& ~~~fpSign ty))) s

end Sys2Proof.Machine
end

