-- ==== Sys2Proof/Machine/Dispatch.lean ====
section
/-! DEFINITION. The dispatch: one arm per instruction of the five engines and per event of the package. -/

namespace Sys2Proof.Machine

/-- What an instruction or event does. -/
def exec (i : Instr) (s : State) : Host.Outcome State Fault Refusal :=
  match i with
  | .nop tok => Sys2Proof.Machine.execNop tok s
  | .add d a b tok => Sys2Proof.Machine.execAdd d a b tok s
  | .sub d a b tok => Sys2Proof.Machine.execSub d a b tok s
  | .mul d a b tok => Sys2Proof.Machine.execMul d a b tok s
  | .mulhI d a b tok => Sys2Proof.Machine.execMulhI d a b tok s
  | .mulhN d a b tok => Sys2Proof.Machine.execMulhN d a b tok s
  | .divI d a b tok => Sys2Proof.Machine.execDivI d a b tok s
  | .divN d a b tok => Sys2Proof.Machine.execDivN d a b tok s
  | .remI d a b tok => Sys2Proof.Machine.execRemI d a b tok s
  | .remN d a b tok => Sys2Proof.Machine.execRemN d a b tok s
  | .and d a b tok => Sys2Proof.Machine.execAnd d a b tok s
  | .or d a b tok => Sys2Proof.Machine.execOr d a b tok s
  | .xor d a b tok => Sys2Proof.Machine.execXor d a b tok s
  | .andn d a b tok => Sys2Proof.Machine.execAndn d a b tok s
  | .sll d a b tok => Sys2Proof.Machine.execSll d a b tok s
  | .srl d a b tok => Sys2Proof.Machine.execSrl d a b tok s
  | .sra d a b tok => Sys2Proof.Machine.execSra d a b tok s
  | .rol d a b tok => Sys2Proof.Machine.execRol d a b tok s
  | .fsh d a b c tok => Sys2Proof.Machine.execFsh d a b c tok s
  | .clz d a w tok => Sys2Proof.Machine.execClz d a w tok s
  | .ctz d a w tok => Sys2Proof.Machine.execCtz d a w tok s
  | .ffs d a w tok => Sys2Proof.Machine.execFfs d a w tok s
  | .popc d a w tok => Sys2Proof.Machine.execPopc d a w tok s
  | .bswap d a w tok => Sys2Proof.Machine.execBswap d a w tok s
  | .minI d a b tok => Sys2Proof.Machine.execMinI d a b tok s
  | .minN d a b tok => Sys2Proof.Machine.execMinN d a b tok s
  | .maxI d a b tok => Sys2Proof.Machine.execMaxI d a b tok s
  | .maxN d a b tok => Sys2Proof.Machine.execMaxN d a b tok s
  | .seq d a b tok => Sys2Proof.Machine.execSeq d a b tok s
  | .sne d a b tok => Sys2Proof.Machine.execSne d a b tok s
  | .sltI d a b tok => Sys2Proof.Machine.execSltI d a b tok s
  | .sltN d a b tok => Sys2Proof.Machine.execSltN d a b tok s
  | .sleI d a b tok => Sys2Proof.Machine.execSleI d a b tok s
  | .sleN d a b tok => Sys2Proof.Machine.execSleN d a b tok s
  | .sel d a b c tok => Sys2Proof.Machine.execSel d a b c tok s
  | .addi d a imm tok => Sys2Proof.Machine.execAddi d a imm tok s
  | .andi d a imm tok => Sys2Proof.Machine.execAndi d a imm tok s
  | .ori d a imm tok => Sys2Proof.Machine.execOri d a imm tok s
  | .xori d a imm tok => Sys2Proof.Machine.execXori d a imm tok s
  | .slli d a imm tok => Sys2Proof.Machine.execSlli d a imm tok s
  | .srli d a imm tok => Sys2Proof.Machine.execSrli d a imm tok s
  | .srai d a imm tok => Sys2Proof.Machine.execSrai d a imm tok s
  | .roli d a imm tok => Sys2Proof.Machine.execRoli d a imm tok s
  | .seqi d a imm tok => Sys2Proof.Machine.execSeqi d a imm tok s
  | .sltiI d a imm tok => Sys2Proof.Machine.execSltiI d a imm tok s
  | .sltiN d a imm tok => Sys2Proof.Machine.execSltiN d a imm tok s
  | .muli d a imm tok => Sys2Proof.Machine.execMuli d a imm tok s
  | .li d lit tok => Sys2Proof.Machine.execLi d lit tok s
  | .lip d lit tok => Sys2Proof.Machine.execLip d lit tok s
  | .fadd d a b r t tok => Sys2Proof.Machine.execFadd d a b r t tok s
  | .fsub d a b r t tok => Sys2Proof.Machine.execFsub d a b r t tok s
  | .fmul d a b r t tok => Sys2Proof.Machine.execFmul d a b r t tok s
  | .ffma d a b r t c tok => Sys2Proof.Machine.execFfma d a b r t c tok s
  | .fdiv d a b r t tok => Sys2Proof.Machine.execFdiv d a b r t tok s
  | .fsqrt d a r t tok => Sys2Proof.Machine.execFsqrt d a r t tok s
  | .fmin d a b t tok => Sys2Proof.Machine.execFmin d a b t tok s
  | .fmax d a b t tok => Sys2Proof.Machine.execFmax d a b t tok s
  | .feq d a b t tok => Sys2Proof.Machine.execFeq d a b t tok s
  | .flt d a b t tok => Sys2Proof.Machine.execFlt d a b t tok s
  | .fle d a b t tok => Sys2Proof.Machine.execFle d a b t tok s
  | .fcvt d a k r t tok => Sys2Proof.Machine.execFcvt d a k r t tok s
  | .fneg d a t tok => Sys2Proof.Machine.execFneg d a t tok s
  | .fabs d a t tok => Sys2Proof.Machine.execFabs d a t tok s
  | .beq a b j off tok => Sys2Proof.Machine.execBeq a b j off tok s
  | .bne a b j off tok => Sys2Proof.Machine.execBne a b j off tok s
  | .bltI a b j off tok => Sys2Proof.Machine.execBltI a b j off tok s
  | .bltN a b j off tok => Sys2Proof.Machine.execBltN a b j off tok s
  | .bgeI a b j off tok => Sys2Proof.Machine.execBgeI a b j off tok s
  | .bgeN a b j off tok => Sys2Proof.Machine.execBgeN a b j off tok s
  | .brx a j tok => Sys2Proof.Machine.execBrx a j tok s
  | .loop a j off tok => Sys2Proof.Machine.execLoop a j off tok s
  | .fold j tok => Sys2Proof.Machine.execFold j tok s
  | .join j tok => Sys2Proof.Machine.execJoin j tok s
  | .seat d tok => Sys2Proof.Machine.execSeat d tok s
  | .jmp o tok => Sys2Proof.Machine.execJmp o tok s
  | .call o tok => Sys2Proof.Machine.execCall o tok s
  | .ret a tok => Sys2Proof.Machine.execRet a tok s
  | .ldI8 d a imm tok => Sys2Proof.Machine.execLdI8 d a imm tok s
  | .ldN8 d a imm tok => Sys2Proof.Machine.execLdN8 d a imm tok s
  | .ldI16 d a imm tok => Sys2Proof.Machine.execLdI16 d a imm tok s
  | .ldN16 d a imm tok => Sys2Proof.Machine.execLdN16 d a imm tok s
  | .ldI32 d a imm tok => Sys2Proof.Machine.execLdI32 d a imm tok s
  | .ldN32 d a imm tok => Sys2Proof.Machine.execLdN32 d a imm tok s
  | .ldI64 d a imm tok => Sys2Proof.Machine.execLdI64 d a imm tok s
  | .stI8 d a imm tok => Sys2Proof.Machine.execStI8 d a imm tok s
  | .stI16 d a imm tok => Sys2Proof.Machine.execStI16 d a imm tok s
  | .stI32 d a imm tok => Sys2Proof.Machine.execStI32 d a imm tok s
  | .stI64 d a imm tok => Sys2Proof.Machine.execStI64 d a imm tok s
  | .amo d a b o z tok => Sys2Proof.Machine.execAmo d a b o z tok s
  | .bind a b scope c tok => Sys2Proof.Machine.execBind a b scope c tok s
  | .unbind a tok => Sys2Proof.Machine.execUnbind a tok s
  | .acqX a tok => Sys2Proof.Machine.execAcqX a tok s
  | .acqS a tok => Sys2Proof.Machine.execAcqS a tok s
  | .rel a tok => Sys2Proof.Machine.execRel a tok s
  | .fence scope tok => Sys2Proof.Machine.execFence scope tok s
  | .bar scope imm tok => Sys2Proof.Machine.execBar scope imm tok s
  | .iflush a b tok => Sys2Proof.Machine.execIflush a b tok s
  | .tlook d a tok => Sys2Proof.Machine.execTlook d a tok s
  | .tset a b tok => Sys2Proof.Machine.execTset a b tok s
  | .tclr a tok => Sys2Proof.Machine.execTclr a tok s
  | .rowpin d a k tok => Sys2Proof.Machine.execRowpin d a k tok s
  | .rowwb d tok => Sys2Proof.Machine.execRowwb d tok s
  | .rowrel d tok => Sys2Proof.Machine.execRowrel d tok s
  | .ringInit d a b tok => Sys2Proof.Machine.execRingInit d a b tok s
  | .ringAcq d a tok => Sys2Proof.Machine.execRingAcq d a tok s
  | .ringRel a tok => Sys2Proof.Machine.execRingRel a tok s
  | .shld d a tok => Sys2Proof.Machine.execShld d a tok s
  | .shset d a b tok => Sys2Proof.Machine.execShset d a b tok s
  | .shget d a b tok => Sys2Proof.Machine.execShget d a b tok s
  | .mfs x n tok => Sys2Proof.Machine.execMfs x n tok s
  | .mts x n tok => Sys2Proof.Machine.execMts x n tok s
  | .trap imm tok => Sys2Proof.Machine.execTrap imm tok s
  | .sys imm tok => Sys2Proof.Machine.execSys imm tok s
  | .eret tok => Sys2Proof.Machine.execEret tok s
  | .halt tok => Sys2Proof.Machine.execHalt tok s
  | .refdefer a b tok => Sys2Proof.Machine.execRefdefer a b tok s
  | .poison a tok => Sys2Proof.Machine.execPoison a tok s
  | .vNop tok => Sys2Proof.Machine.execVNop tok s
  | .vAdd d a b p n x tok => Sys2Proof.Machine.execVAdd d a b p n x tok s
  | .vSub d a b p n x tok => Sys2Proof.Machine.execVSub d a b p n x tok s
  | .vMul d a b p n x tok => Sys2Proof.Machine.execVMul d a b p n x tok s
  | .vFma d a b p n x tok => Sys2Proof.Machine.execVFma d a b p n x tok s
  | .vMin d a b p n x tok => Sys2Proof.Machine.execVMin d a b p n x tok s
  | .vMax d a b p n x tok => Sys2Proof.Machine.execVMax d a b p n x tok s
  | .vAbs d a p n x tok => Sys2Proof.Machine.execVAbs d a p n x tok s
  | .vNeg d a p n x tok => Sys2Proof.Machine.execVNeg d a p n x tok s
  | .vDiv d a b p n x tok => Sys2Proof.Machine.execVDiv d a b p n x tok s
  | .vSqrt d a p n x tok => Sys2Proof.Machine.execVSqrt d a p n x tok s
  | .vRcp d a p n x tok => Sys2Proof.Machine.execVRcp d a p n x tok s
  | .vRsqrt d a p n x tok => Sys2Proof.Machine.execVRsqrt d a p n x tok s
  | .vExp2 d a p n x tok => Sys2Proof.Machine.execVExp2 d a p n x tok s
  | .vLog2 d a p n x tok => Sys2Proof.Machine.execVLog2 d a p n x tok s
  | .vTanh d a p n x tok => Sys2Proof.Machine.execVTanh d a p n x tok s
  | .vIadd d a b p n x tok => Sys2Proof.Machine.execVIadd d a b p n x tok s
  | .vIsub d a b p n x tok => Sys2Proof.Machine.execVIsub d a b p n x tok s
  | .vImul d a b p n x tok => Sys2Proof.Machine.execVImul d a b p n x tok s
  | .vImin d a b p n x tok => Sys2Proof.Machine.execVImin d a b p n x tok s
  | .vNmin d a b p n x tok => Sys2Proof.Machine.execVNmin d a b p n x tok s
  | .vImax d a b p n x tok => Sys2Proof.Machine.execVImax d a b p n x tok s
  | .vNmax d a b p n x tok => Sys2Proof.Machine.execVNmax d a b p n x tok s
  | .vIabs d a p n x tok => Sys2Proof.Machine.execVIabs d a p n x tok s
  | .vAnd d a b p n x tok => Sys2Proof.Machine.execVAnd d a b p n x tok s
  | .vOr d a b p n x tok => Sys2Proof.Machine.execVOr d a b p n x tok s
  | .vXor d a b p n x tok => Sys2Proof.Machine.execVXor d a b p n x tok s
  | .vNot d a p n x tok => Sys2Proof.Machine.execVNot d a p n x tok s
  | .vShl d a b p n x tok => Sys2Proof.Machine.execVShl d a b p n x tok s
  | .vShr d a b p n x tok => Sys2Proof.Machine.execVShr d a b p n x tok s
  | .vSar d a b p n x tok => Sys2Proof.Machine.execVSar d a b p n x tok s
  | .vFsh d a b p n x tok => Sys2Proof.Machine.execVFsh d a b p n x tok s
  | .vClz d a p n x tok => Sys2Proof.Machine.execVClz d a p n x tok s
  | .vPopc d a p n x tok => Sys2Proof.Machine.execVPopc d a p n x tok s
  | .vFfs d a p n x tok => Sys2Proof.Machine.execVFfs d a p n x tok s
  | .vShli d a imm p n x tok => Sys2Proof.Machine.execVShli d a imm p n x tok s
  | .vShri d a imm p n x tok => Sys2Proof.Machine.execVShri d a imm p n x tok s
  | .vSari d a imm p n x tok => Sys2Proof.Machine.execVSari d a imm p n x tok s
  | .vRshr d a imm p n x tok => Sys2Proof.Machine.execVRshr d a imm p n x tok s
  | .vFeq q a b p n x tok => Sys2Proof.Machine.execVFeq q a b p n x tok s
  | .vFlt q a b p n x tok => Sys2Proof.Machine.execVFlt q a b p n x tok s
  | .vFle q a b p n x tok => Sys2Proof.Machine.execVFle q a b p n x tok s
  | .vIeq q a b p n x tok => Sys2Proof.Machine.execVIeq q a b p n x tok s
  | .vIlt q a b p n x tok => Sys2Proof.Machine.execVIlt q a b p n x tok s
  | .vNlt q a b p n x tok => Sys2Proof.Machine.execVNlt q a b p n x tok s
  | .vSel d a b p n x tok => Sys2Proof.Machine.execVSel d a b p n x tok s
  | .vCvtIf d a p n x tok => Sys2Proof.Machine.execVCvtIf d a p n x tok s
  | .vCvtFi d a p n x tok => Sys2Proof.Machine.execVCvtFi d a p n x tok s
  | .vCvtFf d a p n x tok => Sys2Proof.Machine.execVCvtFf d a p n x tok s
  | .vQnt d a b p n x tok => Sys2Proof.Machine.execVQnt d a b p n x tok s
  | .vDp4 d a b p n x tok => Sys2Proof.Machine.execVDp4 d a b p n x tok s
  | .vRadd d a p n x tok => Sys2Proof.Machine.execVRadd d a p n x tok s
  | .vRmax d a p n x tok => Sys2Proof.Machine.execVRmax d a p n x tok s
  | .vRmin d a p n x tok => Sys2Proof.Machine.execVRmin d a p n x tok s
  | .vScan d a p n x tok => Sys2Proof.Machine.execVScan d a p n x tok s
  | .vPerm d a b p n x tok => Sys2Proof.Machine.execVPerm d a b p n x tok s
  | .vBcast d scope p n x tok => Sys2Proof.Machine.execVBcast d scope p n x tok s
  | .vIns d a scope p n x tok => Sys2Proof.Machine.execVIns d a scope p n x tok s
  | .vExt d a scope p n x tok => Sys2Proof.Machine.execVExt d a scope p n x tok s
  | .vLse d a b p n x tok => Sys2Proof.Machine.execVLse d a b p n x tok s
  | .vCex d a b p n x tok => Sys2Proof.Machine.execVCex d a b p n x tok s
  | .vSeed scope p n x tok => Sys2Proof.Machine.execVSeed scope p n x tok s
  | .vLd v scope imm p n x tok => Sys2Proof.Machine.execVLd v scope imm p n x tok s
  | .vSt v scope imm p n x tok => Sys2Proof.Machine.execVSt v scope imm p n x tok s
  | .vLdu v scope imm p n x tok => Sys2Proof.Machine.execVLdu v scope imm p n x tok s
  | .vStu v scope imm p n x tok => Sys2Proof.Machine.execVStu v scope imm p n x tok s
  | .vStm v scope imm p n x tok => Sys2Proof.Machine.execVStm v scope imm p n x tok s
  | .vGth d a scope p n x tok => Sys2Proof.Machine.execVGth d a scope p n x tok s
  | .vSct d a scope p n x tok => Sys2Proof.Machine.execVSct d a scope p n x tok s
  | .pAnd q a b tok => Sys2Proof.Machine.execPAnd q a b tok s
  | .pOr q a b tok => Sys2Proof.Machine.execPOr q a b tok s
  | .pXor q a b tok => Sys2Proof.Machine.execPXor q a b tok s
  | .pAndn q a b tok => Sys2Proof.Machine.execPAndn q a b tok s
  | .pNot q a tok => Sys2Proof.Machine.execPNot q a tok s
  | .pCnt a scope tok => Sys2Proof.Machine.execPCnt a scope tok s
  | .mNop tok => Sys2Proof.Machine.execMNop tok s
  | .mMma a b r c m tok => Sys2Proof.Machine.execMMma a b r c m tok s
  | .mMmaI a b r c tok => Sys2Proof.Machine.execMMmaI a b r c tok s
  | .mMmaK4 a b r c tok => Sys2Proof.Machine.execMMmaK4 a b r c tok s
  | .mScacc a b r c m tok => Sys2Proof.Machine.execMScacc a b r c m tok s
  | .mZero tok => Sys2Proof.Machine.execMZero tok s
  | .mSwap tok => Sys2Proof.Machine.execMSwap tok s
  | .mDrain d m scope r h tok => Sys2Proof.Machine.execMDrain d m scope r h tok s
  | .mDrainAmax d e m scope r h tok => Sys2Proof.Machine.execMDrainAmax d e m scope r h tok s
  | .mKat id fmt tok => Sys2Proof.Machine.execMKat id fmt tok s
  | .mChk sig tok => Sys2Proof.Machine.execMChk sig tok s
  | .mEpi d m scope r h tok => Sys2Proof.Machine.execMEpi d m scope r h tok s
  | .mEpiLd a tok => Sys2Proof.Machine.execMEpiLd a tok s
  | .mGang m g => Sys2Proof.Machine.execMGang m g s
  | .mAcct t tok => Sys2Proof.Machine.execMAcct t tok s
  | .dNop tok => Sys2Proof.Machine.execDNop tok s
  | .dCopy x y z tok => Sys2Proof.Machine.execDCopy x y z tok s
  | .dCopyRg y z r m tok => Sys2Proof.Machine.execDCopyRg y z r m tok s
  | .dBcast x y z tok => Sys2Proof.Machine.execDBcast x y z tok s
  | .dStore x y z w tok => Sys2Proof.Machine.execDStore x y z w tok s
  | .dSpill x y t r tok => Sys2Proof.Machine.execDSpill x y t r tok s
  | .dFill x y t r tok => Sys2Proof.Machine.execDFill x y t r tok s
  | .dAtom x y z o scope tok => Sys2Proof.Machine.execDAtom x y z o scope tok s
  | .dAtomNr x y z o scope tok => Sys2Proof.Machine.execDAtomNr x y z o scope tok s
  | .dAfence scope tok => Sys2Proof.Machine.execDAfence scope tok s
  | .dQpost x imm tok => Sys2Proof.Machine.execDQpost x imm tok s
  | .dQget x imm tok => Sys2Proof.Machine.execDQget x imm tok s
  | .dAppend x y z tok => Sys2Proof.Machine.execDAppend x y z tok s
  | .dPref x z tok => Sys2Proof.Machine.execDPref x z tok s
  | .dTfill x y tok => Sys2Proof.Machine.execDTfill x y tok s
  | .fNop tok => Sys2Proof.Machine.execFNop tok s
  | .fFur d x y z tok => Sys2Proof.Machine.execFFur d x y z tok s
  | .fFurQm x y z m tok => Sys2Proof.Machine.execFFurQm x y z m tok s
  | .fSys d x y z tok => Sys2Proof.Machine.execFSys d x y z tok s
  | .fHead x y z tok => Sys2Proof.Machine.execFHead x y z tok s
  | .fRing x y z r tok => Sys2Proof.Machine.execFRing x y z r tok s
  | .fGbcast x y z m tok => Sys2Proof.Machine.execFGbcast x y z m tok s
  | .dealerFetch tb => Sys2Proof.Machine.execDealerFetch tb s
  | .privateFetch tb => Sys2Proof.Machine.execPrivateFetch tb s
  | .instructionHandOver k => Sys2Proof.Machine.execInstructionHandOver k s
  | .joinComplete tb => Sys2Proof.Machine.execJoinComplete tb s
  | .vacancyRule tb => Sys2Proof.Machine.execVacancyRule tb s
  | .instructionStart k e => Sys2Proof.Machine.execInstructionStart k e s
  | .instructionRetire k e => Sys2Proof.Machine.execInstructionRetire k e s
  | .tokdead k ck => Sys2Proof.Machine.execTokdead k ck s
  | .tokdeadEvent k ck => Sys2Proof.Machine.execTokdeadEvent k ck s
  | .gangStart tb q => Sys2Proof.Machine.execGangStart tb q s
  | .gangCompletion tb q => Sys2Proof.Machine.execGangCompletion tb q s
  | .trapEntry k => Sys2Proof.Machine.execTrapEntry k s
  | .interruptRequest k cause => Sys2Proof.Machine.execInterruptRequest k cause s
  | .intr k => Sys2Proof.Machine.execIntr k s
  | .automaticRefetch k off => Sys2Proof.Machine.execAutomaticRefetch k off s
  | .subarrayRefresh k sub age => Sys2Proof.Machine.execSubarrayRefresh k sub age s
  | .forcedRefresh k sub age => Sys2Proof.Machine.execForcedRefresh k sub age s
  | .towerOverTemperature k => Sys2Proof.Machine.execTowerOverTemperature k s
  | .acquireFill k e => Sys2Proof.Machine.execAcquireFill k e s
  | .acquireDrain k e => Sys2Proof.Machine.execAcquireDrain k e s
  | .drillLineBeat k => Sys2Proof.Machine.execDrillLineBeat k s
  | .readPacket src tag a il len => Sys2Proof.Machine.execReadPacket src tag a il len s
  | .writePacket src tag a il bytes => Sys2Proof.Machine.execWritePacket src tag a il bytes s
  | .atomicPacket src tag a il aop sz val cmp nr => Sys2Proof.Machine.execAtomicPacket src tag a il aop sz val cmp nr s
  | .appendPacket src tag a il bytes => Sys2Proof.Machine.execAppendPacket src tag a il bytes s
  | .parityDelta st n => Sys2Proof.Machine.execParityDelta st n s
  | .packetReply k tag => Sys2Proof.Machine.execPacketReply k tag s
  | .spareLayerMigration st layer => Sys2Proof.Machine.execSpareLayerMigration st layer s
  | .migrationRowCopy st => Sys2Proof.Machine.execMigrationRowCopy st s
  | .precharge st pc bank row => Sys2Proof.Machine.execPrecharge st pc bank row s
  | .criticalTemperatureRise st => Sys2Proof.Machine.execCriticalTemperatureRise st s
  | .criticalTemperatureFall st => Sys2Proof.Machine.execCriticalTemperatureFall st s
  | .thermalHold st => Sys2Proof.Machine.execThermalHold st s
  | .translationWalk k w => Sys2Proof.Machine.execTranslationWalk k w s
  | .tictlGo d v => Sys2Proof.Machine.execTictlGo d v s
  | .shootdownComplete d => Sys2Proof.Machine.execShootdownComplete d s
  | .objectGrant obj => Sys2Proof.Machine.execObjectGrant obj s
  | .fenceComplete k => Sys2Proof.Machine.execFenceComplete k s
  | .barrierComplete k lvl id => Sys2Proof.Machine.execBarrierComplete k lvl id s
  | .attentionPosition unit => Sys2Proof.Machine.execAttentionPosition unit s
  | .queryPacket st n => Sys2Proof.Machine.execQueryPacket st n s
  | .tripleWrite k => Sys2Proof.Machine.execTripleWrite k s
  | .preemptionRequest tb => Sys2Proof.Machine.execPreemptionRequest tb s
  | .preemptionDrainComplete tb => Sys2Proof.Machine.execPreemptionDrainComplete tb s
  | .taskResume n => Sys2Proof.Machine.execTaskResume n s
  | .ltrig v => Sys2Proof.Machine.execLtrig v s
  | .lgregRegister v => Sys2Proof.Machine.execLgregRegister v s
  | .lgregUnregister v => Sys2Proof.Machine.execLgregUnregister v s
  | .labort v => Sys2Proof.Machine.execLabort v s
  | .lerrClear v => Sys2Proof.Machine.execLerrClear v s
  | .instanceStart gid => Sys2Proof.Machine.execInstanceStart gid s
  | .nodePlace => Sys2Proof.Machine.execNodePlace s
  | .nodeComplete gid node => Sys2Proof.Machine.execNodeComplete gid node s
  | .powerOnReset => Sys2Proof.Machine.execPowerOnReset s
  | .coreReset what => Sys2Proof.Machine.execCoreReset what s
  | .firmwareVerify d images => Sys2Proof.Machine.execFirmwareVerify d images s
  | .spdmMeasurement first count => Sys2Proof.Machine.execSpdmMeasurement first count s
  | .spareCoreTakeover tb sp => Sys2Proof.Machine.execSpareCoreTakeover tb sp s
  | .hostLinkTraining host g6 x16 x8 => Sys2Proof.Machine.execHostLinkTraining host g6 x16 x8 s
  | .readyBitClear d bit => Sys2Proof.Machine.execReadyBitClear d bit s
  | .ipost d v => Sys2Proof.Machine.execIpost d v s
  | .eventForward d tgt => Sys2Proof.Machine.execEventForward d tgt s
  | .plim v => Sys2Proof.Machine.execPlim v s
  | .powerCapInterval watts => Sys2Proof.Machine.execPowerCapInterval watts s
  | .hostBar4Access off acc => Sys2Proof.Machine.execHostBar4Access off acc s
  | .hostMemoryRequest off ans => Sys2Proof.Machine.execHostMemoryRequest off ans s
  | .fmWriteRoute v => Sys2Proof.Machine.execFmWriteRoute v s
  | .fmReadRoute v => Sys2Proof.Machine.execFmReadRoute v s
  | .fmWriteKey v => Sys2Proof.Machine.execFmWriteKey v s
  | .fmReadKey v => Sys2Proof.Machine.execFmReadKey v s
  | .fmSetId v => Sys2Proof.Machine.execFmSetId v s
  | .fmWritePodMember v => Sys2Proof.Machine.execFmWritePodMember v s
  | .fmWriteGraphMask v => Sys2Proof.Machine.execFmWriteGraphMask v s
  | .fmQuiesce v => Sys2Proof.Machine.execFmQuiesce v s
  | .fmResume v => Sys2Proof.Machine.execFmResume v s
  | .fmlinkClear v => Sys2Proof.Machine.execFmlinkClear v s
  | .fqtail d v => Sys2Proof.Machine.execFqtail d v s
  | .descriptorStart d => Sys2Proof.Machine.execDescriptorStart d s
  | .descriptorComplete d n => Sys2Proof.Machine.execDescriptorComplete d n s
  | .fabricPacketSend d n port => Sys2Proof.Machine.execFabricPacketSend d n port s
  | .fabricPacketArrival p => Sys2Proof.Machine.execFabricPacketArrival p s
  | .portLinkUp port => Sys2Proof.Machine.execPortLinkUp port s
  | .portFailure port => Sys2Proof.Machine.execPortFailure port s
  | .packetResend dst lane port => Sys2Proof.Machine.execPacketResend dst lane port s
  | .laneTimeout dst lane => Sys2Proof.Machine.execLaneTimeout dst lane s
  | .podBarrierArrival member id => Sys2Proof.Machine.execPodBarrierArrival member id s
  | .registerWrite reg v => Sys2Proof.Machine.execRegisterWrite reg v s
  | .towerTemperatureFall k => Sys2Proof.Machine.execTowerTemperatureFall k s
  | .stackTraining st => Sys2Proof.Machine.execStackTraining st s
  | .markedFailed st what => Sys2Proof.Machine.execMarkedFailed st what s
  | .endToEndAcknowledgement dst lane seq status bytes poison => Sys2Proof.Machine.execEndToEndAcknowledgement dst lane seq status bytes poison s
  | .hostDoorbell v => Sys2Proof.Machine.execHostDoorbell v s

end Sys2Proof.Machine
end

