-- ==== Sys2Proof/Machine/Turns.lean ====
section
/-! DEFINITION. What the package does by itself while the agenda is empty: the engines of a core, its queries and triples,
and the packets that wait at the stacks (log entry 1). -/

namespace Sys2Proof.Machine

/-- The first of some moves that changes the state. -/
def firstMove (s : State) : List (State → State) → Option State
  | [] => none
  | f :: rest => let s' := f s; if s' = s then firstMove s rest else some s'

/-- The engines of a core that hold instructions. -/
def Core.busyEngines (c : Core) : List Engine := ([.v, .m, .d, .f] : List Engine).filter (fun e => !(c.queue e).isEmpty)

/-- A stack performs the first return-free atomic it was sent. -/
def sentMove (n : StackId) (s : State) : State :=
  match (s.stack n).sent with
  | [] => s
  | x :: rest => (performSent x (s.modStack n (fun st => { st with sent := rest }))).getD s

/-- What waits at a stack: packets, deltas, atomics, query packets, scans. -/
def stackMoves (n : StackId) (st : Stack) : List (State → State) :=
  (if st.queue.isEmpty then [] else [fun s => serveQueue n (s.stack n).queue [] s])
    ++ (if st.deltas.isEmpty then [] else [applyDelta n 0])
    ++ (if st.sent.isEmpty then [] else [sentMove n])
    ++ (if st.queryq.isEmpty then [] else [acceptQuery n 0])
    ++ (st.scans.map (fun x => scanTurn x.unit))

/-- What waits at the host port, in the launch unit and on the fabric: a held request, a registration, a completion record,
packets that arrived. -/
def State.portMoves (s : State) : List (State → State) :=
  (if s.pkg.posted.isEmpty then [] else [hostRetry]) ++ (if s.launch.lgop.isSome then [lgRetry] else [])
    ++ (if s.launch.records.isEmpty then [] else [flushRecord])
    ++ (List.range s.fabric.inbound.length).map retryPacket

/-- What waits for the package to move, for a focused core: its engines, its triples, its table's ganged commands, the
stacks, the package's ports. -/
def State.moves (s : State) (k : CoreId) : List (State → State) :=
  let c := s.core k
  c.busyEngines.map (fun e => engineMove k e)
    ++ (if c.inbox.isEmpty then [] else [writeTriple k])
    ++ ((s.table (tableOf k)).gangs.map (fun g => gangCompletion (tableOf k) g.quad))
    ++ s.hbm.flatMap (fun e => stackMoves e.1 e.2) ++ s.portMoves

/-- Work that goes on beside the control unit of the focused core. -/
def State.background (s : State) (k : CoreId) : Option State := firstMove s (s.moves k)

/-- The bundle in which an opcode-table word stands, a refused word standing in a control slot. -/
def wordBundle (w : Nat) : BitVec 256 :=
  (tableEngine (BitVec.ofNat 32 w)).getD (bundleOf [(1#4, BitVec.ofNat 32 w)])

/-- A core at the first bundle of a stream at bundle address 0, as a task start leaves it (R429). -/
def Core.atZero (c : Core) : Core :=
  { c with ctl := { c.ctl with cst := setBit c.ctl.cst 15 false }, front := { run := true }, seat := { st := .seated } }

/-- A table whose stream begins at bundle address 0 (R141, R429). -/
def Table.atZero (t : Table) : Table := { succ := some 0#51, tlb := t.tlb }

/-- The boot ROM of a die with a bundle at its start. -/
def romWith (rom : Memory) (d : DieId) (b : BitVec 256) : Memory :=
  Memory.write rom (d.toNat * 2 ^ 20) (natToBytes 32 b.toNat)

end Sys2Proof.Machine
end

