-- ==== Sys2Proof/Machine/Step.lean ====
section
/-! DEFINITION. One step of the package: the next turn of the agenda, or, with an empty agenda, the work of the focused
core; and the placing of an opcode-table word where the next step fetches it. -/

namespace Sys2Proof.Machine

/-- What a control unit's preparation leads to. -/
def Prep.go : Prep → Host.Outcome State Fault Refusal
  | .run i s => exec i s
  | .out s => .next s

/-- A control unit's turn. -/
def controlTurn (k : CoreId) (s : State) : Host.Outcome State Fault Refusal := guardTrap k s (controlPrep k s).go

/-- The instruction at a control unit's slot faults in the ck in which engines of its core find faults, and its trap, of the
lowest engine number, is the one taken (R389); of an instruction that does not fault, nothing. -/
def sameTurn (k : CoreId) (s : State) : Host.Outcome State Fault Refusal :=
  let c := s.core k
  match c.front.bundle with
  | none => .next s
  | some b =>
    if !c.front.run || (s.table (tableOf k)).stop || s.held k then .next s
    else
      match (bundlePrep k b s).go with
      | .next u =>
        if (u.core k).seat.depth = c.seat.depth + 1#8 ∧ field (u.core k).ctl.xcause 8 3 = 0#64 then .next u else .next s
      | r => r

/-- A turn of the agenda; an instruction of an engine is no event. -/
def takeTurn (t : Turn) (s : State) : Host.Outcome State Fault Refusal :=
  match t with
  | .control k => controlTurn k s
  | .engine k e n => .next (engineTurnLate .whole k e n s)
  | .part k e n u => .next (engineTurnLate (.part u) k e n s)
  | .early k a sz => .next (readAhead k a (2 ^ sz.toNat) s)
  | .same k => sameTurn k s
  | .land k n => .next (engineTurnLate .land k .m n s)
  | .found k e n => .next (engineTurnLate .found k e n s)
  | .prefetch k pc => .next (prefetch k pc s)
  | .outside o => .next (outsideTurn o s)
  | .event i => if i.engine?.isSome then .next s else exec i s

/-- One move of the package: the first turn of the agenda; with none, what goes on beside the focused core's control unit,
else that unit's turn (log entry 1). -/
def move (s : State) : Host.Outcome State Fault Refusal :=
  match s.agenda with
  | t :: rest => takeTurn t { s with agenda := rest }
  | [] =>
    match s.background s.focus with
    | some s' => .next s'
    | none => controlTurn s.focus s

/-- One step: the seats do what they can at once (R146, R147), then comes a move. -/
def step (s : State) : Host.Outcome State Fault Refusal := move s.settleSeats

/-- An opcode-table word placed as the first bundle of the focused core's stream, in its die's boot ROM.
DESIGN CHOICE, log entry 6. -/
def State.withFetchWord (s : State) (_nbits w : Nat) : State :=
  let s1 := (s.modCore s.focus Core.atZero).modTable (tableOf s.focus) Table.atZero
  { s1 with rom := romWith s.rom (dieOf s.focus) (wordBundle w), agenda := [] }

end Sys2Proof.Machine
end

