-- ==== Sys2Proof/Safety.lean ====
section
/-! DEFINITION. What counts as a safe run, and the words the statements are written in: when an instruction can run and
retire at once, and the state it leaves besides its own effect. -/

namespace Sys2Proof.Machine

/-! ## Safe runs -/

/-- Every memory of a core lists its bytes in canonical form: the cells and the pinned lines of its tower. -/
def Core.memOk (c : Core) : Bool :=
  Memory.wf c.tower.cells && c.tower.lines.all (fun e =>
    match e.2 with
    | some l => Memory.wf l.data
    | none => true)

/-- Every memory of the package is in canonical form. -/
def State.memOk (s : State) : Bool :=
  s.cores.all (fun e => Core.memOk e.2) && s.hbm.all (fun e => Memory.wf e.2.cells)
    && s.spaces.all (fun e => e.2.hbm.all (fun x => Memory.wf x.2.cells)) && Memory.wf s.launch.mem
    && Memory.wf s.host.cells && Memory.wf s.rom

/-- A run of n steps that no fault and no refusal stops. -/
def runsOn (n : Nat) (s : State) : Prop := ∃ t, Sys2Proof.core.run n s = .next t

/-! ## A control instruction at its slot -/

/-- The executing core's control unit can run a control instruction with this token word and retire it: it does not wait
from an earlier turn, the tokens are there, none carries a gang's fault mask, and the POST queue has room (R301, R313). -/
def State.goes (s : State) (t : Option Tok) : Prop :=
  (s.core s.exe).front.done = false ∧ (s.core s.exe).front.started = false ∧ (s.core s.exe).tok.ready t = true ∧
    (s.core s.exe).tok.gangFault t = none ∧ ((s.core s.exe).tok.pop t).room t = true

/-- The control instruction of core k has retired: with a POST token its core's earlier stores are performed, its tokens are
popped and posted, and the control unit has left its slot (R247, R301). -/
def State.went (s : State) (k : CoreId) (t : Option Tok) : State :=
  (performedBy k t s).modCore k (fun c => { c with tok := (c.tok.pop t).push t, front := c.front.advance })

/-! ## An engine instruction at the control unit's slot -/

/-- The executing core can hand an engine instruction over, start it and retire it at once: its queue is empty, its tokens
are there, none carries a fault mask, and its POST queue has room (R46, R299 to R301); none of its stores is still to be
seen, no matrix command is at work or still writing, no pre-emption is under way, and of its return-free atomics, before a D
instruction, none is unperformed (R246, R260, R261, R403). -/
def State.engineGoes (s : State) (e : Engine) (t : Option Tok) : Prop :=
  (s.core s.exe).queue e = [] ∧ (s.core s.exe).tok.ready t = true ∧ (s.core s.exe).tok.gangFault t = none ∧
    ((s.core s.exe).tok.pop t).room t = true ∧ (∀ l ∈ s.late, l.core ≠ s.exe) ∧ (s.core s.exe).mtx.before = [] ∧
    (s.core s.exe).midMul = false ∧
    (s.table (tableOf s.exe)).stop = false ∧ (e = .d → s.anySent s.exe = false)

/-- The executing core's control instruction has started and waits: its tokens are popped (R301). -/
def State.waits (s : State) (t : Option Tok) : State :=
  s.modCore s.exe (fun c => { c with tok := c.tok.pop t, front := { c.front with started := true, vec := false } })

/-- An engine instruction of core k has retired and the control unit has left its slot: tokens popped and posted, and
for `d.qget` the query id freed (R301, R374). -/
def State.engineWent (s : State) (k : CoreId) (i : Instr) : State :=
  leaveSlot k (s.modCore k (fun c => retireEffect i { c with tok := (c.tok.pop i.tok?).push i.tok? }))

/-! ## Values and next states of control instructions -/

/-- What the executing core reads from a scalar register. -/
def State.val (s : State) (r : BitVec 5) : Word := s.reg s.exe r

/-- The address of the executing core's bundle. -/
def State.here (s : State) : Pc := (s.core s.exe).front.pc

/-- A control instruction has written v to d and retired. -/
def State.puts (s : State) (d : BitVec 5) (v : Word) (t : Option Tok) : State := (s.setReg s.exe d v).went s.exe t

/-- A control instruction has written a value to d, raised its flags and retired. -/
def State.putsFl (s : State) (d : BitVec 5) (r : Word × Fl) (t : Option Tok) : State :=
  (s.modCore s.exe (fun c => (c.setReg d r.1).raise r.2)).went s.exe t

/-- A control transfer has retired: the bundle will end at `pc`, a fold recording the join id j; taken or not (R30, R83,
R277). -/
def State.jumps (s : State) (pc : Pc) (j : BitVec 4) (t : Option Tok) (taken : Bool := true) : State :=
  (s.modCore s.exe (fun c => { c with front := c.front.goto pc j taken })).went s.exe t

/-- The executing core has changed by f, and its control instruction has retired. -/
def State.did (s : State) (f : Core → Core) (t : Option Tok) : State := (s.modCore s.exe f).went s.exe t

/-- The executing core has changed by f, and its engine instruction has retired. -/
def State.engineDid (s : State) (f : Core → Core) (i : Instr) : State := (s.modCore s.exe f).engineWent s.exe i

/-- The executing core's engine instruction i stands faulted in its queue, and the core traps (R387, R388). -/
def State.engineTraps (s : State) (e : Engine) (i : Instr) (tr : TrapInfo) : State :=
  takeEngineTrap s.exe { tr with eng := e.num } (leaveSlot s.exe (enqueue s.exe e
    { ins := i, slots := i.slots, cap := capOf i (s.core s.exe), faulted := some tr } s))

/-- The executing core's engine instruction i has started and taken part of its effect, which led from s to s'; it stands
faulted in its queue at a resume point, and the core traps (R345, R387, R388). -/
def State.engineFaults (s s' : State) (e : Engine) (i : Instr) (tr : TrapInfo) (r : Nat) : State :=
  takeEngineTrap s.exe { tr with eng := e.num } (leaveSlot s.exe (enqueue s.exe e
    { ins := i, slots := i.slots, cap := startCap i (s.core s.exe) s.tick (capOf i (s.core s.exe)), faulted := some tr
      started := true, resume := BitVec.ofNat 64 r } (s'.modCore s.exe (fun c => { c with tok := c.tok.pop i.tok? }))))

/-- The same instruction has started and waits in its queue at a resume point. -/
def State.engineHolds (s s' : State) (e : Engine) (i : Instr) (r : Nat) : State :=
  leaveSlot s.exe (enqueue s.exe e
    { ins := i, slots := i.slots, cap := startCap i (s.core s.exe) s.tick (capOf i (s.core s.exe)), started := true
      resume := BitVec.ofNat 64 r }
    (s'.modCore s.exe (fun c => { c with tok := c.tok.pop i.tok? })))

/-- Core k has read pieces of memory: what a read finds in error is mended on its way (R205, R232). -/
def State.touched (s : State) (k : CoreId) (ps : List Piece) : State := ps.foldl (fun s p => s.touchPiece k p) s

/-- A core writes to pieces of memory: what the walker finds in error on its way is mended (R232, R238). -/
def State.walkedOn (s : State) (ps : List Piece) : State := ps.foldl State.touchWalk s

/-- Core k has moved n bytes from pieces to pieces, with the poison of their sectors (R346). -/
def State.moved (s : State) (k : CoreId) (from_ to_ : List Piece) (n : Nat) : State :=
  let s1 := (s.touched k (takePieces from_ n)).walkedOn (takePieces to_ n)
  s1.putData k (takePieces to_ n) (s1.takeData k (takePieces from_ n))

/-! ## What an instruction leaves as it was -/

/-- The destination of a control instruction that writes one scalar register and, if `true` stands beside it, may raise
sticky flags, and does nothing else (R63 to R77, R151, R279, R288). -/
def scalarDest : Instr → Option (BitVec 5 × Bool)
  | .add d _ _ _ => some (d, false)
  | .sub d _ _ _ => some (d, false)
  | .mul d _ _ _ => some (d, false)
  | .mulhI d _ _ _ => some (d, false)
  | .mulhN d _ _ _ => some (d, false)
  | .divI d _ _ _ => some (d, true)
  | .divN d _ _ _ => some (d, true)
  | .remI d _ _ _ => some (d, true)
  | .remN d _ _ _ => some (d, true)
  | .and d _ _ _ => some (d, false)
  | .or d _ _ _ => some (d, false)
  | .xor d _ _ _ => some (d, false)
  | .andn d _ _ _ => some (d, false)
  | .sll d _ _ _ => some (d, false)
  | .srl d _ _ _ => some (d, false)
  | .sra d _ _ _ => some (d, false)
  | .rol d _ _ _ => some (d, false)
  | .fsh d _ _ _ _ => some (d, false)
  | .clz d _ _ _ => some (d, false)
  | .ctz d _ _ _ => some (d, false)
  | .ffs d _ _ _ => some (d, false)
  | .popc d _ _ _ => some (d, false)
  | .bswap d _ _ _ => some (d, false)
  | .minI d _ _ _ => some (d, false)
  | .minN d _ _ _ => some (d, false)
  | .maxI d _ _ _ => some (d, false)
  | .maxN d _ _ _ => some (d, false)
  | .seq d _ _ _ => some (d, false)
  | .sne d _ _ _ => some (d, false)
  | .sltI d _ _ _ => some (d, false)
  | .sltN d _ _ _ => some (d, false)
  | .sleI d _ _ _ => some (d, false)
  | .sleN d _ _ _ => some (d, false)
  | .sel d _ _ _ _ => some (d, false)
  | .addi d _ _ _ => some (d, false)
  | .andi d _ _ _ => some (d, false)
  | .ori d _ _ _ => some (d, false)
  | .xori d _ _ _ => some (d, false)
  | .slli d _ _ _ => some (d, false)
  | .srli d _ _ _ => some (d, false)
  | .srai d _ _ _ => some (d, false)
  | .roli d _ _ _ => some (d, false)
  | .seqi d _ _ _ => some (d, false)
  | .sltiI d _ _ _ => some (d, false)
  | .sltiN d _ _ _ => some (d, false)
  | .muli d _ _ _ => some (d, false)
  | .li d _ _ => some (d, false)
  | .lip d _ _ => some (d, false)
  | .fadd d _ _ _ _ _ => some (d, true)
  | .fsub d _ _ _ _ _ => some (d, true)
  | .fmul d _ _ _ _ _ => some (d, true)
  | .ffma d _ _ _ _ _ _ => some (d, true)
  | .fdiv d _ _ _ _ _ => some (d, true)
  | .fsqrt d _ _ _ _ => some (d, true)
  | .fmin d _ _ _ _ => some (d, true)
  | .fmax d _ _ _ _ => some (d, true)
  | .feq d _ _ _ _ => some (d, true)
  | .flt d _ _ _ _ => some (d, true)
  | .fle d _ _ _ _ => some (d, true)
  | .fcvt d _ _ _ _ _ => some (d, true)
  | .fneg d _ _ _ => some (d, false)
  | .fabs d _ _ _ => some (d, false)
  | .seat d _ => some (d, false)
  | .shget d _ _ _ => some (d, false)
  | .tlook d _ _ => some (d, false)
  | _ => none

/-- Everything of the package outside core k is the same in t as in s; of the stores still to be seen by the engines of
their cores, and of the locations read ahead, those of other cores. -/
structure State.Keeps (s t : State) (k : CoreId) : Prop where
  cores : ∀ k', k' ≠ k → t.core k' = s.core k'
  tables : t.tables = s.tables
  dies : t.dies = s.dies
  hbm : t.hbm = s.hbm
  spaces : t.spaces = s.spaces
  late : ∀ l, l.core ≠ k → (l ∈ t.late ↔ l ∈ s.late)
  early : ∀ e, e.core ≠ k → (e ∈ t.early ↔ e ∈ s.early)
  objects : t.objects = s.objects
  launch : t.launch = s.launch
  pkg : t.pkg = s.pkg
  fabric : t.fabric = s.fabric
  host : t.host = s.host
  rom : t.rom = s.rom
  agenda : t.agenda = s.agenda
  focus : t.focus = s.focus
  exe : t.exe = s.exe
  tick : t.tick = s.tick

/-- Every byte that any access can read is the same in t as in s: towers, tiers, host memory, boot ROM. -/
structure State.SameBytes (s t : State) : Prop where
  tower : ∀ k o, (t.core k).tower.byte o = (s.core k).tower.byte o
  tier : ∀ far h, t.unitByte far h = s.unitByte far h
  host : ∀ a, Memory.get t.host.cells a = Memory.get s.host.cells a
  rom : ∀ a, Memory.get t.rom a = Memory.get s.rom a

/-- Everything of a core beside its scalar side, its control unit's place and its tokens is the same in d as in c. -/
structure Core.Keeps (c d : Core) : Prop where
  seat : d.seat = c.seat
  vec : d.vec = c.vec
  mtx : d.mtx = c.mtx
  vq : d.vq = c.vq
  mq : d.mq = c.mq
  dq : d.dq = c.dq
  fq : d.fq = c.fq
  tower : d.tower = c.tower
  binds : d.binds = c.binds
  rings : d.rings = c.rings
  tags : d.tags = c.tags
  shapes : d.shapes = c.shapes
  queries : d.queries = c.queries
  inbox : d.inbox = c.inbox
  spill : d.spill = c.spill
  replies : d.replies = c.replies
  refused : d.refused = c.refused
  irq : d.irq = c.irq
  tlb : d.tlb = c.tlb
  icache : d.icache = c.icache
  arrived : d.arrived = c.arrived
  released : d.released = c.released
  deadCk : d.deadCk = c.deadCk

/-- Every special register of the scalar side but `cst` is the same in d as in c. -/
structure Ctl.Keeps (c d : Ctl) : Prop where
  xpc : d.xpc = c.xpc
  xcause : d.xcause = c.xcause
  xaddr : d.xaddr = c.xaddr
  xvec : d.xvec = c.xvec
  asid : d.asid = c.asid
  cyc : d.cyc = c.cyc
  stbank : d.stbank = c.stbank
  sttok : d.sttok = c.sttok
  stfetch : d.stfetch = c.stfetch
  vrb : d.vrb = c.vrb
  prb : d.prb = c.prb
  sscr : d.sscr = c.sscr

/-- The state in which a reset leaves core k (R32, with the values of R17 and R21). -/
structure State.CoreReset (s : State) (k : CoreId) : Prop where
  pc : (s.core k).front.pc = 0#51
  idle : (s.core k).front.run = false ∧ (s.core k).front.bundle = none
  cst : (s.core k).ctl.cst = 0x800#64
  regs : ∀ r, s.reg k r = 0#64
  trapRegs : (s.core k).ctl.xpc = 0#54 ∧ (s.core k).ctl.xcause = 0#64 ∧ (s.core k).ctl.xaddr = 0#64 ∧
    (s.core k).ctl.xvec = 0#51
  sysRegs : (s.core k).ctl.asid = 0#16 ∧ (s.core k).ctl.cyc = 0#64 ∧ (s.core k).ctl.stbank = 0#64 ∧
    (s.core k).ctl.sttok = 0#64 ∧ (s.core k).ctl.stfetch = 0#64 ∧ (s.core k).ctl.vrb = 0#5 ∧
    (s.core k).ctl.prb = 0#3 ∧ (s.core k).ctl.sscr = 0#64
  preds : (s.core k).vec.pred 0#4 = BitVec.allOnes 64 ∧ ∀ p, p ≠ 0#4 → (s.core k).vec.pred p = 0#64
  tiles : (∀ r, (s.core k).vec.acc0.get 0#1024 r = 0#1024) ∧ (∀ r, (s.core k).vec.acc1.get 0#1024 r = 0#1024) ∧
    (s.core k).vec.exposed = false
  shapes : ∀ n, (s.core k).shapes.get 0#512 n = 0#512
  queues : ∀ e : Engine, (s.core k).queue e = []
  tokens : ∀ q, (s.core k).tok.held q = 0
  lines : ∀ n, (s.core k).tower.line n = none
  rings : ∀ n, ((s.core k).ring n).val = false
  tags : ∀ n, tagV ((s.core k).tags.get 0#128 n) = false
  seat : (s.core k).seat.stack = [] ∧ (s.core k).seat.st = .out

/-- No two lines of a tower are pinned to one row, and the pins of a subarray are of one line (R196). -/
def linesApart (t : Tower) : Prop :=
  ∀ k k' l l', t.line k = some l → t.line k' = some l' →
    subOf (l.row.toNat * 512) = subOf (l'.row.toNat * 512) → k = k'

/-- The executing core traps at the slot it executes (R31). -/
def State.traps (s : State) (tr : TrapInfo) : State :=
  takeTrap s.exe tr (s.core s.exe).front.pc (s.core s.exe).front.slot s

/-- The executing core's control unit has left its slot: its instruction completed. -/
def State.leftSlot (s t : State) : Prop :=
  (t.core s.exe).front = { (s.core s.exe).front with slot := (s.core s.exe).front.next, vec := false }

/-- The piece that n bytes at an address of the executing core are, its place being p. -/
def State.pieceAt (s : State) (a n : Nat) (p : Place) : Piece :=
  let c := (s.core s.exe).ctl
  { a := a, len := n, at_ := p, walk := s.walked s.exe c.asid c.xe a }

/-- A control store at an address is in memory; the engines of its core may still find the old bytes until a token or a
fence of the control unit (R247, R248, R260). -/
def State.storedLate (s : State) (a : Nat) (p : Place) (old new : List (BitVec 8)) (x : State) : State :=
  let group := (s.late.map (fun l => l.group)).foldl max 0 + 1
  { x with late := ((s.pieceAt a new.length p).each.zip (old.zip new)).map (fun b =>
      { core := s.exe, at_ := b.1, old := b.2.1, new := b.2.2, group := group }) ++ s.late }

/-- What the walker finds and mends on its way to an address (R232, R238). -/
def State.walkedTo (s : State) (a n : Nat) (p : Place) : State := s.touchWalk (s.pieceAt a n p)

/-- Nothing stands read ahead for the loads of the executing core (R248). -/
def State.nothingAhead (s : State) : Prop := ∀ e ∈ s.early, e.core ≠ s.exe

/-- n bytes at a physical address wait for a stack, for the core's 256 packets, or behind a packet of the core to a common
byte (R224, R225, R232, R233, R235). -/
def State.mustWait (s : State) (far : Bool) (o n : Nat) (il : BitVec 3) (write : Bool) (p : Place) : Prop :=
  s.extBlocked far o n il write = true ∨ 256 ≤ s.packetsOut s.exe ∨ s.pieceBehind s.exe (s.pieceAt 0 n p) = true

/-- The executing core reads n bytes at an address, aligned to al, as a control instruction of a kind: these bytes, and
the state with what the read mended on its way. -/
def State.reads (s : State) (kind : Kind) (al a n : Nat) (bs : List (BitVec 8)) (s' : State) : Prop :=
  s.ctlLoad s.exe kind al a n = .ok bs s'

/-! ## Taking an item -/

/-- Core k's control unit goes on in its bundle, and nothing else comes first: it runs, no prefix waits, its table is not
being pre-empted, no matrix or vector instruction is at work, no fault is marked, no interrupt is taken (R28, R388, R389,
R394, R403). -/
def State.goesOn (s : State) (k : CoreId) : Prop :=
  (s.core k).front.run = true ∧ (s.core k).front.pfx = none ∧ (s.table (tableOf k)).stop = false ∧
    (s.core k).midway = false ∧ (s.core k).marked = false ∧ takeIntr k s = none

/-- Core k's control unit stands at an instruction of its bundle, for which the control queue has room, and nothing else
comes first (R28, R46). -/
def State.standsAt (s : State) (k : CoreId) (it : Item) : Prop :=
  s.goesOn k ∧ (s.core k).front.controlRoom it = true ∧
    ∃ b items, (s.core k).front.bundle = some b ∧ decodeBundle b = .ok items ∧
      items.find? (fun x => decide ((s.core k).front.slot ≤ x.slot)) = some it

/-- The same core, with all of its bundle's instructions behind it. -/
def State.standsAtEnd (s : State) (k : CoreId) : Prop :=
  s.goesOn k ∧
    ∃ b items, (s.core k).front.bundle = some b ∧ decodeBundle b = .ok items ∧
      items.find? (fun x => decide ((s.core k).front.slot ≤ x.slot)) = none

/-! ## Element-wise vector instructions -/

/-- What a vector instruction reads at the executing core. -/
def State.vin (s : State) (i : Instr) (x : VExt) : VIn := { c := s.core s.exe, cap := capOf i (s.core s.exe), x := x, tick := s.tick }

/-- A lane's generator after n advances (R121, R122). -/
def gensAfter : Nat → BitVec 32 → BitVec 32
  | 0, g => g
  | n + 1, g => gensAfter n (rsAdvance g)

/-- The active elements below e that lie in a lane: those whose draws come before. -/
def VIn.drawsBefore (v : VIn) (p : BitVec 4) (n : BitVec 1) (lane e : Nat) : Nat :=
  ((List.range e).filter (fun j => v.active p n j && decide (laneOf v.n j = lane))).length

/-- The rounding mode of element e: under RS its own draw from its lane's generator, in ascending order (R121, R166). -/
def VIn.modeAt (v : VIn) (p : BitVec 4) (n : BitVec 1) (draws : Bool) (e : Nat) : Mode :=
  let m := vMode v.x v.cap
  if draws ∧ m = 4#3 then
    .rs (gensAfter (v.drawsBefore p n (laneOf v.n e) e + 1) (v.c.vec.gen (laneOf v.n e)))
  else modeOf m m

/-- What an element-wise instruction leaves of the vector unit: each active element of vd takes its delivered result, each
other element and row stays, and under RS each lane's generator has advanced once for each active element it holds (R135,
R162, R163, R166). -/
structure VIn.Lanes (v : VIn) (d : BitVec 6) (p : BitVec 4) (n : BitVec 1) (conv draws : Bool) (f : Nat → Mode → VRes)
    (u : Vec) : Prop where
  active : ∀ e, e < v.n → v.active p n e = true → elemAt (u.row (vrow v.cap.vrb d)) v.w e =
    (deliverRes v.w v.ef v.x conv (v.modeAt p n draws e) (v.el d e) (f e (v.modeAt p n draws e))).1 % 2 ^ v.w
  inactive : ∀ e, e < v.n → v.active p n e = false → elemAt (u.row (vrow v.cap.vrb d)) v.w e = v.el d e
  rows : ∀ r, r ≠ vrow v.cap.vrb d → u.row r = v.c.vec.row r
  engaged : u.tile true = v.c.vec.tile true
  preds : u.preds = v.c.vec.preds
  exposed : u.exposed = v.c.vec.exposed
  gens : ∀ lane, lane < 32 → u.gen lane =
    if draws ∧ vMode v.x v.cap = 4#3 then gensAfter (v.drawsBefore p n lane v.n) (v.c.vec.gen lane) else v.c.vec.gen lane

/-- What an instruction that writes row vd alone leaves of the vector unit: element e of vd takes f e, and the rest stays. -/
structure VIn.Row (v : VIn) (d : BitVec 6) (f : Nat → Nat) (u : Vec) : Prop where
  elems : ∀ e, e < v.n → elemAt (u.row (vrow v.cap.vrb d)) v.w e = f e % 2 ^ v.w
  rows : ∀ r, r ≠ vrow v.cap.vrb d → u.row r = v.c.vec.row r
  engaged : u.tile true = v.c.vec.tile true
  preds : u.preds = v.c.vec.preds
  exposed : u.exposed = v.c.vec.exposed
  gens : u.gens = v.c.vec.gens

/-- The flags of an element-wise instruction: those of its active elements (R135, R162). -/
def VIn.flags (v : VIn) (d : BitVec 6) (p : BitVec 4) (n : BitVec 1) (conv draws : Bool) (f : Nat → Mode → VRes) : Fl :=
  ((List.range v.n).filter (v.active p n)).foldl (fun fl e =>
    fl ||| (deliverRes v.w v.ef v.x conv (v.modeAt p n draws e) (v.el d e) (f e (v.modeAt p n draws e))).2) 0#6

/-- The executing core's element-wise instruction i runs and retires: its elements are delivered, its flags raised, and
nothing else changes. -/
def State.lanes (s : State) (i : Instr) (x : VExt) (d : BitVec 6) (p : BitVec 4) (n : BitVec 1) (conv draws : Bool)
    (f : VIn → Nat → Mode → VRes) : Prop :=
  let v := s.vin i x
  let g : Nat → Mode → VRes := fun e m => f (v.for e) e m
  ∃ u, v.Lanes d p n conv draws g u ∧ exec i s = .next
    ((s.setCore s.exe ({ s.core s.exe with vec := u }.raise (v.flags d p n conv draws g))).engineWent s.exe i)

end Sys2Proof.Machine
end

