-- ==== Sys2Proof/WellFormed.lean ====
section
/-! DEFINITION. Which terms of the syntax are instructions a bundle can hold: no reserved field value, a valid
extension, a valid token word, at most three slots (R38, R45, R50 to R60). -/

namespace Sys2Proof

/-- A well-formed instruction. An event has no encoding and is always well formed. -/
def Instr.wf (i : Instr) : Bool :=
  match i.engine? with
  | none => true
  | some _ => i.fieldsOk && i.extOk && i.tokOk && decide (i.slots ≤ 3)

end Sys2Proof
end

