-- ==== Sys2Proof/Certificates/Slice0/Obligations.lean ====
section
/-! DEFINITION. The statements for the provers. `exec i s` is said of the core `s.exe`, which stands at i; the words they
are written in (`goes`, `went`, `engineGoes`, `engineWent`, `puts`, `traps`) are in Safety.lean. -/

section
open Sys2Proof Sys2Proof.Machine

/-! ## Scalar instructions -/

/-- R63: each register-register integer instruction writes the value of its table row, modulo 2^64, to d, changes no
flag, and retires; the words are those of format CR with fn = 0. -/
def Obligations.IntegerResults : Prop :=
  ∀ (d a b : BitVec 5) (t : Option Tok) (s : State),
    (encodeFirst (.add d a b t) = (0x01#8 ++ d ++ a ++ b ++ 0#9 : BitVec 32) ∧
      encodeFirst (.sub d a b t) = (0x02#8 ++ d ++ a ++ b ++ 0#9 : BitVec 32) ∧
      encodeFirst (.mul d a b t) = (0x03#8 ++ d ++ a ++ b ++ 0#9 : BitVec 32) ∧
      encodeFirst (.mulhI d a b t) = (0x04#8 ++ d ++ a ++ b ++ 0#9 : BitVec 32) ∧
      encodeFirst (.mulhN d a b t) = (0x05#8 ++ d ++ a ++ b ++ 0#9 : BitVec 32) ∧
      encodeFirst (.and d a b t) = (0x0A#8 ++ d ++ a ++ b ++ 0#9 : BitVec 32) ∧
      encodeFirst (.or d a b t) = (0x0B#8 ++ d ++ a ++ b ++ 0#9 : BitVec 32) ∧
      encodeFirst (.xor d a b t) = (0x0C#8 ++ d ++ a ++ b ++ 0#9 : BitVec 32) ∧
      encodeFirst (.andn d a b t) = (0x0D#8 ++ d ++ a ++ b ++ 0#9 : BitVec 32)) ∧
    (s.goes t →
      exec (.add d a b t) s = .next (s.puts d (s.val a + s.val b) t) ∧
      exec (.sub d a b t) s = .next (s.puts d (s.val a - s.val b) t) ∧
      exec (.mul d a b t) s = .next (s.puts d (BitVec.ofNat 64 ((s.val a).toNat * (s.val b).toNat)) t) ∧
      exec (.mulhI d a b t) s = .next (s.puts d
        (((s.val a).signExtend 128 * (s.val b).signExtend 128).extractLsb' 64 64) t) ∧
      exec (.mulhN d a b t) s = .next (s.puts d
        (((s.val a).zeroExtend 128 * (s.val b).zeroExtend 128).extractLsb' 64 64) t) ∧
      exec (.and d a b t) s = .next (s.puts d (s.val a &&& s.val b) t) ∧
      exec (.or d a b t) s = .next (s.puts d (s.val a ||| s.val b) t) ∧
      exec (.xor d a b t) s = .next (s.puts d (s.val a ^^^ s.val b) t) ∧
      exec (.andn d a b t) s = .next (s.puts d (s.val a &&& ~~~s.val b) t))

/-- R64: a zero divisor gives all ones or the dividend, and DZ; otherwise the quotient is truncated, the remainder has
the dividend's sign, the overflowing pair gives -2^63 and 0, and no flag changes. -/
def Obligations.DivisionResults : Prop :=
  ∀ (d a b : BitVec 5) (t : Option Tok) (s : State),
    (encodeFirst (.divI d a b t) = (0x06#8 ++ d ++ a ++ b ++ 0#9 : BitVec 32) ∧
      encodeFirst (.divN d a b t) = (0x07#8 ++ d ++ a ++ b ++ 0#9 : BitVec 32) ∧
      encodeFirst (.remI d a b t) = (0x08#8 ++ d ++ a ++ b ++ 0#9 : BitVec 32) ∧
      encodeFirst (.remN d a b t) = (0x09#8 ++ d ++ a ++ b ++ 0#9 : BitVec 32)) ∧
    (s.goes t →
      (s.val b = 0#64 →
        exec (.divN d a b t) s = .next (s.putsFl d (0xFFFFFFFFFFFFFFFF#64, Fl.dz) t) ∧
        exec (.remN d a b t) s = .next (s.putsFl d (s.val a, Fl.dz) t) ∧
        exec (.divI d a b t) s = .next (s.putsFl d (0xFFFFFFFFFFFFFFFF#64, Fl.dz) t) ∧
        exec (.remI d a b t) s = .next (s.putsFl d (s.val a, Fl.dz) t)) ∧
      (s.val b ≠ 0#64 →
        exec (.divN d a b t) s = .next (s.puts d (BitVec.ofNat 64 ((s.val a).toNat / (s.val b).toNat)) t) ∧
        exec (.remN d a b t) s = .next (s.puts d (BitVec.ofNat 64 ((s.val a).toNat % (s.val b).toNat)) t)) ∧
      (s.val a = 0x8000000000000000#64 → s.val b = 0xFFFFFFFFFFFFFFFF#64 →
        exec (.divI d a b t) s = .next (s.puts d 0x8000000000000000#64 t) ∧
        exec (.remI d a b t) s = .next (s.puts d 0#64 t)) ∧
      (s.val b ≠ 0#64 → ¬(s.val a = 0x8000000000000000#64 ∧ s.val b = 0xFFFFFFFFFFFFFFFF#64) →
        ∃ q r : Word, exec (.divI d a b t) s = .next (s.puts d q t) ∧ exec (.remI d a b t) s = .next (s.puts d r t) ∧
          q.toInt = Int.tdiv (s.val a).toInt (s.val b).toInt ∧
          (s.val a).toInt = (s.val b).toInt * q.toInt + r.toInt ∧
          (r.toInt = 0 ∨ (r.toInt < 0 ↔ (s.val a).toInt < 0))))

/-- R65: the register shifts take n from b[5:0]; `rol` is a when n = 0. R66: `fsh` returns the upper half of the
128-bit value a:b shifted left by c[6:0]: a for 0, b for 64, b shifted by n - 64 above it; and `rol` agrees with `fsh`
of a:a whenever b[6] = 0. -/
def Obligations.ShiftResults : Prop :=
  (∀ (d a b : BitVec 5) (t : Option Tok) (s : State),
     (encodeFirst (.sll d a b t) = (0x0E#8 ++ d ++ a ++ b ++ 0#9 : BitVec 32) ∧
       encodeFirst (.srl d a b t) = (0x0F#8 ++ d ++ a ++ b ++ 0#9 : BitVec 32) ∧
       encodeFirst (.sra d a b t) = (0x10#8 ++ d ++ a ++ b ++ 0#9 : BitVec 32) ∧
       encodeFirst (.rol d a b t) = (0x11#8 ++ d ++ a ++ b ++ 0#9 : BitVec 32)) ∧
     (s.goes t →
       let n := ((s.val b).extractLsb' 0 6).toNat
       exec (.sll d a b t) s = .next (s.puts d (s.val a <<< n) t) ∧
       exec (.srl d a b t) s = .next (s.puts d (s.val a >>> n) t) ∧
       exec (.sra d a b t) s = .next (s.puts d ((s.val a).sshiftRight n) t) ∧
       exec (.rol d a b t) s = .next (s.puts d ((s.val a <<< n) ||| (s.val a >>> (64 - n))) t) ∧
       (n = 0 → exec (.rol d a b t) s = .next (s.puts d (s.val a) t)))) ∧
  (∀ (d a b c : BitVec 5) (t : Option Tok) (s : State),
     encodeFirst (.fsh d a b c t) = (0x12#8 ++ d ++ a ++ b ++ c ++ 0#4 : BitVec 32) ∧
     (s.goes t →
       let n := ((s.val c).extractLsb' 0 7).toNat
       exec (.fsh d a b c t) s = .next (s.puts d (((s.val a ++ s.val b : BitVec 128) <<< n).extractLsb' 64 64) t) ∧
       (n = 0 → exec (.fsh d a b c t) s = .next (s.puts d (s.val a) t)) ∧
       (n = 64 → exec (.fsh d a b c t) s = .next (s.puts d (s.val b) t)) ∧
       (64 < n → exec (.fsh d a b c t) s = .next (s.puts d (s.val b <<< (n - 64)) t)) ∧
       ((s.val b).getLsbD 6 = false → exec (.rol d a b t) s = exec (.fsh d a a b t) s)))

/-- R67: the bit counts and the byte swap look at x = a[w-1:0], w = 8 << wd, and zero-extend their result. R68:
minimum, maximum, comparison and selection, signed for `.i` and unsigned for `.n`. R69, R71, R72: the immediate forms
use the sign-extended immediate (a shift's immediate lies in 0 to 63, any other being refused at decode), and a
literal is one slot sign-extended or two slots. -/
def Obligations.ScalarValues : Prop :=
  (∀ (d a : BitVec 5) (wd : BitVec 2) (t : Option Tok) (s : State), s.goes t →
     let w := 8 <<< wd.toNat
     let x := (s.val a).toNat % 2 ^ w
     (x = 0 →
       exec (.clz d a wd t) s = .next (s.puts d (BitVec.ofNat 64 w) t) ∧
       exec (.ctz d a wd t) s = .next (s.puts d (BitVec.ofNat 64 w) t) ∧
       exec (.ffs d a wd t) s = .next (s.puts d (BitVec.ofNat 64 w) t)) ∧
     (∀ h l, h < w → x.testBit h = true → (∀ j, h < j → j < w → x.testBit j = false) →
       x.testBit l = true → (∀ j, j < l → x.testBit j = false) →
       exec (.ffs d a wd t) s = .next (s.puts d (BitVec.ofNat 64 h) t) ∧
       exec (.clz d a wd t) s = .next (s.puts d (BitVec.ofNat 64 (w - 1 - h)) t) ∧
       exec (.ctz d a wd t) s = .next (s.puts d (BitVec.ofNat 64 l) t)) ∧
     exec (.popc d a wd t) s =
       .next (s.puts d (BitVec.ofNat 64 ((Finset.range w).filter (fun i => x.testBit i = true)).card) t) ∧
     (∃ y, y < 2 ^ w ∧ exec (.bswap d a wd t) s = .next (s.puts d (BitVec.ofNat 64 y) t) ∧
       ∀ i, i < w / 8 → y / 256 ^ i % 256 = x / 256 ^ (w / 8 - 1 - i) % 256)) ∧
  (∀ (d a b c : BitVec 5) (t : Option Tok) (s : State), s.goes t →
     exec (.minI d a b t) s = .next (s.puts d (if (s.val a).toInt ≤ (s.val b).toInt then s.val a else s.val b) t) ∧
     exec (.minN d a b t) s = .next (s.puts d (if (s.val a).toNat ≤ (s.val b).toNat then s.val a else s.val b) t) ∧
     exec (.maxI d a b t) s = .next (s.puts d (if (s.val a).toInt ≤ (s.val b).toInt then s.val b else s.val a) t) ∧
     exec (.maxN d a b t) s = .next (s.puts d (if (s.val a).toNat ≤ (s.val b).toNat then s.val b else s.val a) t) ∧
     exec (.seq d a b t) s = .next (s.puts d (if s.val a = s.val b then 1#64 else 0#64) t) ∧
     exec (.sne d a b t) s = .next (s.puts d (if s.val a = s.val b then 0#64 else 1#64) t) ∧
     exec (.sltI d a b t) s = .next (s.puts d (if (s.val a).toInt < (s.val b).toInt then 1#64 else 0#64) t) ∧
     exec (.sltN d a b t) s = .next (s.puts d (if (s.val a).toNat < (s.val b).toNat then 1#64 else 0#64) t) ∧
     exec (.sleI d a b t) s = .next (s.puts d (if (s.val a).toInt ≤ (s.val b).toInt then 1#64 else 0#64) t) ∧
     exec (.sleN d a b t) s = .next (s.puts d (if (s.val a).toNat ≤ (s.val b).toNat then 1#64 else 0#64) t) ∧
     exec (.sel d a b c t) s = .next (s.puts d (if s.val c = 0#64 then s.val b else s.val a) t)) ∧
  (∀ (d a : BitVec 5) (imm : BitVec 14) (lo hi : BitVec 32) (t : Option Tok) (s : State), s.goes t →
     let i : Word := imm.signExtend 64
     let n := imm.toNat
     exec (.addi d a imm t) s = .next (s.puts d (s.val a + i) t) ∧
     exec (.andi d a imm t) s = .next (s.puts d (s.val a &&& i) t) ∧
     exec (.ori d a imm t) s = .next (s.puts d (s.val a ||| i) t) ∧
     exec (.xori d a imm t) s = .next (s.puts d (s.val a ^^^ i) t) ∧
     exec (.seqi d a imm t) s = .next (s.puts d (if s.val a = i then 1#64 else 0#64) t) ∧
     exec (.sltiI d a imm t) s = .next (s.puts d (if (s.val a).toInt < i.toInt then 1#64 else 0#64) t) ∧
     exec (.sltiN d a imm t) s = .next (s.puts d (if (s.val a).toNat < i.toNat then 1#64 else 0#64) t) ∧
     exec (.muli d a imm t) s = .next (s.puts d (BitVec.ofInt 64 ((s.val a).toInt * i.toInt)) t) ∧
     (n < 64 →
       exec (.slli d a imm t) s = .next (s.puts d (s.val a <<< n) t) ∧
       exec (.srli d a imm t) s = .next (s.puts d (s.val a >>> n) t) ∧
       exec (.srai d a imm t) s = .next (s.puts d ((s.val a).sshiftRight n) t) ∧
       exec (.roli d a imm t) s = .next (s.puts d ((s.val a <<< n) ||| (s.val a >>> (64 - n))) t)) ∧
     exec (.li d (.short lo) t) s = .next (s.puts d (lo.signExtend 64) t) ∧
     exec (.li d (.long lo hi) t) s = .next (s.puts d (hi ++ lo) t) ∧
     exec (.lip d (.short lo) t) s = .next (s.puts d (lo.signExtend 64) t) ∧
     exec (.lip d (.long lo hi) t) s = .next (s.puts d (hi ++ lo) t))

/-- R73, R76: the arithmetic instructions round their exact result once, in the mode of rm or of `cst.RM` under rm 7,
write its bits zero-extended and raise its flags. That the quotient and the root are rounded once from their exact
value rests on Val.div and Val.sqrt, which give a truncation with a sticky mark (log entry 20, PRESUMED: the model's
reading). -/
def Obligations.FloatArithmetic : Prop :=
  ∀ (d a b c : BitVec 5) (r : BitVec 3) (ty : BitVec 1) (t : Option Tok) (s : State), s.goes t →
    let m := modeOf r (s.core s.exe).ctl.rm
    let x := fpRead ty (s.val a)
    let y := fpRead ty (s.val b)
    let z := fpRead ty (s.val c)
    let given (q : Val × Fl) : Word × Fl :=
      (BitVec.ofNat 64 ((fpFmt ty).round m q.1).1, q.2 ||| ((fpFmt ty).round m q.1).2)
    exec (.fadd d a b r ty t) s = .next (s.putsFl d (given (Val.add m x y)) t) ∧
    exec (.fsub d a b r ty t) s = .next (s.putsFl d (given (Val.add m x y.negate)) t) ∧
    exec (.fmul d a b r ty t) s = .next (s.putsFl d (given (Val.mul x y)) t) ∧
    exec (.ffma d a b r ty c t) s = .next (s.putsFl d (given (Val.fma m x y z)) t) ∧
    exec (.fdiv d a b r ty t) s = .next (s.putsFl d (given (Val.div x y)) t) ∧
    exec (.fsqrt d a r ty t) s = .next (s.putsFl d (given (Val.sqrt x)) t)

/-- R76: minimum and maximum deliver an operand; a comparison gives 0 on a NaN, and raises NV on it where it is
ordered; `fneg` and `fabs` change the sign bit alone, and raise nothing. R77: `fcvt` from an integer rounds once; to
an integer, a NaN gives 0 with NV, a value out of range the bound with NV alone, and any other the rounded value, with
NX when it is inexact. -/
def Obligations.FloatComparison : Prop :=
  (∀ (d a b : BitVec 5) (ty : BitVec 1) (t : Option Tok) (s : State), s.goes t →
     let x := fpRead ty (s.val a)
     let y := fpRead ty (s.val b)
     let width := if ty = 0#1 then 32 else 16
     let bits := (s.val a).toNat % 2 ^ width
     exec (.fmin d a b ty t) s =
       .next (s.putsFl d (BitVec.ofNat 64 ((fpFmt ty).round .rne (Val.min x y)).1, ((fpFmt ty).round .rne (Val.min x y)).2) t) ∧
     exec (.fmax d a b ty t) s =
       .next (s.putsFl d (BitVec.ofNat 64 ((fpFmt ty).round .rne (Val.max x y)).1, ((fpFmt ty).round .rne (Val.max x y)).2) t) ∧
     ((x.isNan || y.isNan) = true →
       exec (.feq d a b ty t) s = .next (s.puts d 0#64 t) ∧
       exec (.flt d a b ty t) s = .next (s.putsFl d (0#64, Fl.nv) t) ∧
       exec (.fle d a b ty t) s = .next (s.putsFl d (0#64, Fl.nv) t)) ∧
     ((x.isNan || y.isNan) = false →
       exec (.feq d a b ty t) s = .next (s.puts d (if Val.cmp x y = 0 then 1#64 else 0#64) t) ∧
       exec (.flt d a b ty t) s = .next (s.puts d (if Val.cmp x y < 0 then 1#64 else 0#64) t) ∧
       exec (.fle d a b ty t) s = .next (s.puts d (if Val.cmp x y ≤ 0 then 1#64 else 0#64) t)) ∧
     exec (.fneg d a ty t) s = .next (s.puts d
       (BitVec.ofNat 64 (if bits < 2 ^ (width - 1) then bits + 2 ^ (width - 1) else bits - 2 ^ (width - 1))) t) ∧
     exec (.fabs d a ty t) s = .next (s.puts d (BitVec.ofNat 64 (bits % 2 ^ (width - 1))) t)) ∧
  (∀ (d a : BitVec 5) (r : BitVec 3) (ty : BitVec 1) (t : Option Tok) (s : State), s.goes t →
     let m := modeOf r (s.core s.exe).ctl.rm
     let x := fpRead ty (s.val a)
     let given (v : Val) : Word × Fl := (BitVec.ofNat 64 ((fpFmt ty).round m v).1, ((fpFmt ty).round m v).2)
     let low : Word := s.val a &&& 0xFFFFFFFF#64
     exec (.fcvt d a 0#5 r ty t) s = .next (s.putsFl d (given (Val.ofInt (s.val a).toInt)) t) ∧
     exec (.fcvt d a 1#5 r ty t) s = .next (s.putsFl d (given (Val.ofInt (s.val a).toNat)) t) ∧
     exec (.fcvt d a 6#5 r ty t) s = .next (s.putsFl d (given (Val.ofInt (sextInt 32 low.toNat))) t) ∧
     exec (.fcvt d a 7#5 r ty t) s = .next (s.putsFl d (given (Val.ofInt low.toNat)) t) ∧
     exec (.fcvt d a 8#5 r ty t) s = .next (s.putsFl d (given (fpRead (~~~ty) (s.val a))) t) ∧
     (∀ k lo hi, (k, lo, hi) ∈ ([(2#5, -(2 ^ 63), 2 ^ 63 - 1), (3#5, 0, 2 ^ 64 - 1), (4#5, -(2 ^ 31), 2 ^ 31 - 1),
         (5#5, 0, 2 ^ 32 - 1)] : List (BitVec 5 × Int × Int)) →
       (x.isNan = true → exec (.fcvt d a k r ty t) s = .next (s.putsFl d (0#64, Fl.nv) t)) ∧
       (∀ neg, x = .inf neg → exec (.fcvt d a k r ty t) s = .next
         (s.putsFl d (BitVec.ofInt 64 (if neg then lo else hi), Fl.nv) t)) ∧
       (∀ q inexact, x.toIntegral m = some (q, inexact) →
         exec (.fcvt d a k r ty t) s = .next (s.putsFl d
           (if q < lo then (BitVec.ofInt 64 lo, Fl.nv) else if hi < q then (BitVec.ofInt 64 hi, Fl.nv)
             else (BitVec.ofInt 64 q, if inexact then Fl.nx else 0#6)) t))))

/-- R78, R79, R80, R81, R90: a branch, a jump, a call, a return, a loop and `halt` note where the bundle will end, a
fold's join id beside it and whether the transfer is taken; a target register with a bit above 50 set traps `XLATE`
with the register's value. -/
def Obligations.ControlTransfers : Prop :=
  ∀ (a b : BitVec 5) (j : BitVec 4) (off : BrOff) (o : BitVec 24) (t : Option Tok) (s : State), s.goes t →
    let far : Pc := s.here + (match off with | .short x => x.signExtend 51 | .long x => x.signExtend 51)
    let branch (taken : Bool) : State := s.jumps (if taken then far else s.here + 1#51) j t taken
    let count := s.val a - 1#64
    exec (.beq a b j off t) s = .next (branch (decide (s.val a = s.val b))) ∧
    exec (.bne a b j off t) s = .next (branch (decide (s.val a ≠ s.val b))) ∧
    exec (.bltI a b j off t) s = .next (branch (decide ((s.val a).toInt < (s.val b).toInt))) ∧
    exec (.bltN a b j off t) s = .next (branch (decide ((s.val a).toNat < (s.val b).toNat))) ∧
    exec (.bgeI a b j off t) s = .next (branch (decide ((s.val b).toInt ≤ (s.val a).toInt))) ∧
    exec (.bgeN a b j off t) s = .next (branch (decide ((s.val b).toNat ≤ (s.val a).toNat))) ∧
    exec (.loop a j off t) s = .next (s.did (fun c =>
      { c with ctl := { (c.ctl.setReg a count) with vrb := c.ctl.vrb - 1#5, prb := c.ctl.prb - 1#3 }
               front := c.front.goto (if count = 0#64 then s.here + 1#51 else far) j (decide (count ≠ 0#64)) }) t) ∧
    exec (.jmp o t) s = .next (s.jumps (s.here + o.signExtend 51) 0#4 t) ∧
    exec (.call o t) s = .next (s.did (fun c =>
      { c with ctl := c.ctl.setReg 31#5 ((s.here + 1#51).zeroExtend 64)
               front := c.front.goto (s.here + o.signExtend 51) 0#4 }) t) ∧
    ((s.val a).toNat < 2 ^ 51 →
      exec (.ret a t) s = .next (s.jumps ((s.val a).extractLsb' 0 51) 0#4 t) ∧
      exec (.brx a j t) s = .next (s.jumps ((s.val a).extractLsb' 0 51) j t)) ∧
    (2 ^ 51 ≤ (s.val a).toNat →
      exec (.ret a t) s = .next (s.traps { code := 0x04#8, addr := s.val a }) ∧
      exec (.brx a j t) s = .next (s.traps { code := 0x04#8, addr := s.val a })) ∧
    exec (.halt t) s = .next (s.did (fun c => { c with front := { c.front with pend := .halt } }) t)

/-! ## System registers and traps -/

/-- R16, R18, R210, R242, R440: at task level an access to a register marked S, a write of `cst` that would change
PPL, IE, PIE or XE or has a bit of SUSP set, `eret`, `poison`, and an aligned 8-byte access to a die controller's or
the tower's own registers trap `PRIV`; nothing of the instruction takes effect. -/
def Obligations.SupervisorOnly : Prop :=
  ∀ (x a : BitVec 5) (imm : BitVec 14) (t : Option Tok) (s : State), s.goes t →
    (s.core s.exe).ctl.cst.getLsbD 11 = false →
    let priv : TrapInfo := { code := 0x02#8 }
    let cst := (s.core s.exe).ctl.cst
    let ea := (s.val a + imm.signExtend 64).toNat
    (∀ n ∈ [1#8, 2#8, 3#8, 4#8, 5#8, 13#8],
      exec (.mfs x n t) s = .next (s.traps priv) ∧ exec (.mts x n t) s = .next (s.traps priv)) ∧
    ((s.val x).extractLsb' 12 4 ≠ cst.extractLsb' 12 4 ∨ (s.val x).extractLsb' 16 5 ≠ 0#5 →
      exec (.mts x 0#8 t) s = .next (s.traps priv)) ∧
    exec (.eret t) s = .next (s.traps priv) ∧
    exec (.poison a t) s = .next (s.traps priv) ∧
    (∀ (d : DieId) (o : Nat) (p : Place), ea % 8 = 0 →
      s.placeOf s.exe (s.core s.exe).ctl.asid (s.core s.exe).ctl.xe false .read ea = .ok p →
      (s.targetOf s.exe p = .die d o ∨ s.targetOf s.exe p = .config o) →
      exec (.ldI64 x a imm t) s = .next (s.traps priv)) ∧
    (∀ (d : DieId) (o : Nat) (p : Place), ea % 8 = 0 →
      s.placeOf s.exe (s.core s.exe).ctl.asid (s.core s.exe).ctl.xe false .write ea = .ok p →
      (s.targetOf s.exe p = .die d o ∨ s.targetOf s.exe p = .config o) →
      exec (.stI64 x a imm t) s = .next (s.traps priv))

/-- COMPLETION of `mfs` and `mts` (R16, R18, R21, R85, R86), in every state in which their tokens let them go: at
supervisor level of every assigned number, at task level of every one not marked S; a write of `cst` gives RM a value
below 5 and, at task level, changes no S field. R21, R22, R39, R53, R85: `mfs` writes the register its number names;
one that counts time has gone on by some amount, a stall counter saturating, whichever of them is read (log entry 4,
the model's choice); a number that R21 leaves unassigned is refused at decode, at the slot that holds it, whatever
bundle it stands in. R17, R18, R86: `mts` writes each register's writable fields; `cst` keeps its read-only bits,
clears written-one bits of PDROP and SUSP, and refuses an RM of 5 to 7 with `ILLENC`; `cyc` and `cid` ignore it. -/
def Obligations.SystemRegisters : Prop :=
  (∀ (x : BitVec 5) (n : BitVec 8) (t : Option Tok) (s : State), s.goes t → n.toNat ≤ 13 →
     let cst := (s.core s.exe).ctl.cst
     let w := s.val x
     (cst.getLsbD 11 = true ∨ n ∉ ([1#8, 2#8, 3#8, 4#8, 5#8, 13#8] : List (BitVec 8))) →
     (∃ u, exec (.mfs x n t) s = .next u ∧ s.leftSlot u ∧ ∀ r, r ≠ x → u.reg s.exe r = s.reg s.exe r) ∧
     ((n = 0#8 → (w.extractLsb' 2 3).toNat < 5 ∧
         (cst.getLsbD 11 = true ∨ w.extractLsb' 12 4 = cst.extractLsb' 12 4 ∧ w.extractLsb' 16 5 = 0#5)) →
       ∃ u, exec (.mts x n t) s = .next u ∧ s.leftSlot u ∧ ∀ r, u.reg s.exe r = s.reg s.exe r)) ∧
  (∀ (x : BitVec 5) (n : BitVec 8) (t : Option Tok) (s : State), s.goes t →
     let c := (s.core s.exe).ctl
     exec (.mfs x 0#8 t) s = .next (s.puts x c.cst t) ∧
     exec (.mfs x 10#8 t) s = .next (s.puts x (c.vrb.zeroExtend 64) t) ∧
     exec (.mfs x 11#8 t) s = .next (s.puts x (c.prb.zeroExtend 64) t) ∧
     exec (.mfs x 12#8 t) s = .next (s.puts x (s.exe.zeroExtend 64) t) ∧
     (c.cst.getLsbD 11 = true →
       exec (.mfs x 1#8 t) s = .next (s.puts x (c.xpc.zeroExtend 64) t) ∧
       exec (.mfs x 2#8 t) s = .next (s.puts x c.xcause t) ∧
       exec (.mfs x 3#8 t) s = .next (s.puts x c.xaddr t) ∧
       exec (.mfs x 4#8 t) s = .next (s.puts x (c.xvec.zeroExtend 64) t) ∧
       exec (.mfs x 5#8 t) s = .next (s.puts x (c.asid.zeroExtend 64) t) ∧
       exec (.mfs x 13#8 t) s = .next (s.puts x c.sscr t)) ∧
     (∃ m : Nat,
       let up (w : Word) : Word := BitVec.ofNat 64 (min (w.toNat + m) (2 ^ 64 - 1))
       let cyc : Word := c.cyc + BitVec.ofNat 64 m
       let ends (f : Ctl → Ctl) : State :=
         ((s.modCore s.exe (fun y => { y with ctl := f y.ctl })).advanceTick).went s.exe t
       exec (.mfs x 6#8 t) s = .next (ends (fun y => { y with cyc := cyc }.setReg x cyc)) ∧
       exec (.mfs x 7#8 t) s = .next (ends (fun y => { y with stbank := up c.stbank }.setReg x (up c.stbank))) ∧
       exec (.mfs x 8#8 t) s = .next (ends (fun y => { y with sttok := up c.sttok }.setReg x (up c.sttok))) ∧
       exec (.mfs x 9#8 t) s = .next (ends (fun y => { y with stfetch := up c.stfetch }.setReg x (up c.stfetch)))) ∧
     (13 < n.toNat → ∀ (op : BitVec 8) (r : BitVec 11) (b : BitVec 256) (k : Nat), op ∈ [0x88#8, 0x89#8] →
       bundleSlot b k = (op ++ x ++ n ++ r : BitVec 32) → decodeAt b k .c = .error k)) ∧
  (∀ (x : BitVec 5) (t : Option Tok) (s : State), s.goes t →
     let w := s.val x
     let cst := (s.core s.exe).ctl.cst
     let ends (f : Ctl → Ctl) : State := s.did (fun y => { y with ctl := f y.ctl }) t
     exec (.mts x 6#8 t) s = .next (ends id) ∧
     exec (.mts x 7#8 t) s = .next (ends (fun c => { c with stbank := w })) ∧
     exec (.mts x 8#8 t) s = .next (ends (fun c => { c with sttok := w })) ∧
     exec (.mts x 9#8 t) s = .next (ends (fun c => { c with stfetch := w })) ∧
     exec (.mts x 10#8 t) s = .next (ends (fun c => { c with vrb := w.extractLsb' 0 5 })) ∧
     exec (.mts x 11#8 t) s = .next (ends (fun c => { c with prb := w.extractLsb' 0 3 })) ∧
     exec (.mts x 12#8 t) s = .next (ends id) ∧
     (cst.getLsbD 11 = true →
       exec (.mts x 1#8 t) s = .next (ends (fun c => { c with xpc := w.extractLsb' 0 54 })) ∧
       exec (.mts x 2#8 t) s = .next (ends (fun c => { c with xcause := w })) ∧
       exec (.mts x 3#8 t) s = .next (ends (fun c => { c with xaddr := w })) ∧
       exec (.mts x 4#8 t) s = .next (ends (fun c => { c with xvec := w.extractLsb' 0 51 })) ∧
       exec (.mts x 5#8 t) s = .next (ends (fun c => { c with asid := w.extractLsb' 0 16 })) ∧
       exec (.mts x 13#8 t) s = .next (ends (fun c => { c with sscr := w }))) ∧
     ((cst.getLsbD 11 = true ∨ w.extractLsb' 12 4 = cst.extractLsb' 12 4 ∧ w.extractLsb' 16 5 = 0#5) →
       (5 ≤ (w.extractLsb' 2 3).toNat → exec (.mts x 0#8 t) s = .next (s.traps { code := 0x01#8 })) ∧
       ((w.extractLsb' 2 3).toNat < 5 → ∃ v : Word, exec (.mts x 0#8 t) s = .next (ends (fun c => { c with cst := v })) ∧
         ∀ i : Nat, v.getLsbD i =
           if (2 ≤ i ∧ i ≤ 10) ∨ (12 ≤ i ∧ i ≤ 15) then w.getLsbD i
           else if (16 ≤ i ∧ i ≤ 20) ∨ 32 ≤ i then cst.getLsbD i && !w.getLsbD i
           else cst.getLsbD i)))

/-- R390: what taking a trap leaves: the cause, the address and the resume point saved, PL and IE saved and set, a
seated or waiting core folded, a seated one with the any-join entry on top, the next fetch at `xvec`, the join of no
object queue. Of the queues, V has first retired what it could, with its tokens, and a matrix command that was still
writing has finished; every entry then stands where it stood, frozen at the new depth unless an earlier trap had
frozen it, and so does the control instruction that had started or the transfer that had been noted (log entry 12,
DEDUCED). Everything else of the core and of the package is as it was. A core that is out, having halted, is entered
in the same way (log entry 78, DESIGN CHOICE). R391: a trap at a handler depth of 255, or before the first bundle of a
handler has been fetched and decoded (DEDUCED, log entry 63), stops the core: it fetches no more, its queues are
empty, it is out of its seat and waits in no object queue, and the die controller has an event with `xcause` and
`xaddr` as they stand; the packets of a query that were not sent are not sent. Everything else is as it was. -/
def Obligations.TrapEntry : Prop :=
  (∀ (k : CoreId) (tr : TrapInfo) (pc : Pc) (slot : Nat) (s : State), (s.core k).seat.depth ≠ 255#8 →
     (s.core k).front.vec = false → slot < 8 →
     let t := takeTrap k tr pc slot s
     let c := s.core k
     let d := t.core k
     let freeze (q : QEntry) : QEntry := if q.flev = 0#8 then { q with flev := d.seat.depth } else q
     d.ctl.xcause = tr.code.zeroExtend 64 ||| (tr.eng.zeroExtend 64 <<< 8) ||| (if tr.wl then 1#64 <<< 11 else 0#64)
       ||| (if tr.rf then 1#64 <<< 12 else 0#64) ∧
     d.ctl.xaddr = tr.addr ∧ d.ctl.xpc.toNat = pc.toNat * 8 + slot ∧
     (∀ i : Nat, i < 64 → d.ctl.cst.getLsbD i = if i = 12 then c.ctl.cst.getLsbD 11 else if i = 14 then c.ctl.cst.getLsbD 13
       else if i = 11 then true else if i = 13 then false else c.ctl.cst.getLsbD i) ∧
     (∀ r, t.reg k r = s.reg k r) ∧
     d.ctl = { c.ctl with cst := d.ctl.cst, xcause := d.ctl.xcause, xaddr := d.ctl.xaddr, xpc := d.ctl.xpc } ∧
     d.front = { c.front with
       pc := c.ctl.xvec, bundle := none, slot := 1, pend := .none, started := false, done := false, pfx := none
       vec := true, frozen := c.front.centry d.seat.depth ++ c.front.frozen } ∧
     d.seat.depth.toNat = c.seat.depth.toNat + 1 ∧ d.seat.n = c.seat.n ∧
     (c.seat.st = .seated → d.seat.st = .folded ∧ d.seat.stack.getLast? = some .any) ∧
     (c.seat.st = .waiting ∨ c.seat.st = .folded → d.seat.st = .folded ∧ d.seat.stack = c.seat.stack) ∧
     (c.seat.st = .out → d.seat.st = .out ∧ d.seat.stack = c.seat.stack) ∧
     d.queue .v = (retireList c.vq c).1.map freeze ∧
     d.queue .m = (c.mq.map (fun q => if q.landed then { q with landed := false, finished := true } else q)).map freeze ∧
     d.queue .d = c.dq.map freeze ∧ d.queue .f = c.fq.map freeze ∧
     (∀ q ∈ c.vq, q.finished = false ∨ q.flev ≠ 0#8 → freeze q ∈ d.queue .v) ∧
     d.tok = (retireList c.vq c).2.tok ∧ d.queries = (retireList c.vq c).2.queries ∧
     ((∀ q ∈ c.vq, q.finished = false ∨ q.flev ≠ 0#8) → d.queue .v = c.vq.map freeze ∧ d.tok = c.tok ∧
       d.queries = c.queries) ∧
     d = { c with
       ctl := d.ctl, front := d.front, seat := d.seat, vq := d.vq, mq := d.mq, dq := d.dq, fq := d.fq, tok := d.tok
       queries := d.queries, mtx := { c.mtx with before := [] }, deadCk := 0 } ∧
     (∀ k', k' ≠ k → t.core k' = s.core k') ∧
     t = { s with
       cores := t.cores
       objects := s.objects.map (fun e => (e.1, e.2.filter (fun w => decide (w.1 ≠ k)))) } ∧
     s.SameBytes t) ∧
  (∀ (k : CoreId) (tr : TrapInfo) (pc : Pc) (slot : Nat) (s : State),
     (s.core k).seat.depth = 255#8 ∨ (s.core k).front.vec = true →
     let t := takeTrap k tr pc slot s
     let c := s.core k
     let d := t.core k
     d.front.run = false ∧ d.front.bundle = none ∧ d.front.pend = .none ∧ d.front.frozen = [] ∧
     (∀ e : Engine, d.queue e = []) ∧ d.seat = { c.seat with st := .out, stack := [] } ∧
     d = { c with
       front := d.front, seat := d.seat, vq := [], mq := [], dq := [], fq := []
       queries := c.queries.map (fun e => (e.1, e.2.map (fun q => { q with unsent := [] }))) } ∧
     (∀ k', k' ≠ k → t.core k' = s.core k') ∧
     t.die (dieOf k) = { s.die (dieOf k) with
       events := (s.die (dieOf k)).events ++ [{ source := 6, detail := k.toNat % 256, data := [c.ctl.xcause, c.ctl.xaddr] }] } ∧
     (∀ d', d' ≠ dieOf k → t.die d' = s.die d') ∧
     t = { s with
       cores := t.cores, dies := t.dies
       objects := s.objects.map (fun e => (e.1, e.2.filter (fun w => decide (w.1 ≠ k)))) } ∧
     s.SameBytes t)

/-- R87: `trap` and `sys` retire and then enter their trap, with the immediate, read as unsigned, in `xaddr`, and the
resume point behind them: this bundle at the next instruction, or the next bundle at slot 1. -/
def Obligations.SoftwareTraps : Prop :=
  ∀ (imm : BitVec 14) (t : Option Tok) (b : BitVec 256) (items : List Item) (s : State), s.goes t →
    (s.core s.exe).front.bundle = some b → decodeBundle b = .ok items → (s.core s.exe).front.pend = .none →
    (s.core s.exe).front.pfx = none →
    let at_ : Pc × Nat := match items.find? (fun it => decide ((s.core s.exe).front.next ≤ it.slot)) with
      | some it => (s.here, it.slot)
      | none => (s.here + 1#51, 1)
    exec (.trap imm t) s =
      .next (takeTrap s.exe { code := 0x21#8, addr := imm.zeroExtend 64 } at_.1 at_.2 (s.went s.exe t)) ∧
    exec (.sys imm t) s =
      .next (takeTrap s.exe { code := 0x20#8, addr := imm.zeroExtend 64 } at_.1 at_.2 (s.went s.exe t))

/-- R89, R393: `eret` at supervisor level, with a DISP and an ENG that R393 allows, ends its bundle in the return;
other values trap `ILLENC`. At the end of its bundle a folded core whose queues are empty goes on at `xpc`, PL and IE
take PPL and PIE, and the handler depth falls; what the trap had frozen of the control unit at that slot is there
again: its marks (R303), and the transfer noted before (log entry 12, DEDUCED: the model's reading of R30 and R31).
While an entry that is not frozen stands in a queue the core waits; with entries of its level frozen and one of engine
ENG, the first of its queue, faulted, DISP 0 lets that one start again and DISP 1 and 2 take it away, DISP 2 posting
its token, and the others go on. -/
def Obligations.EretReturns : Prop :=
  (∀ (t : Option Tok) (s : State), s.goes t → (s.core s.exe).ctl.cst.getLsbD 11 = true →
    let disp := ((s.core s.exe).ctl.xcause.extractLsb' 16 2).toNat
    let eng := ((s.core s.exe).ctl.xcause.extractLsb' 8 3).toNat
    (disp = 0 ∨ (disp ≠ 3 ∧ eng ≠ 0 ∧ eng ≠ 7) →
      exec (.eret t) s = .next (s.did (fun c => { c with front := { c.front with pend := .eret } }) t)) ∧
    (disp = 3 ∨ (disp ≠ 0 ∧ (eng = 0 ∨ eng = 7)) →
      exec (.eret t) s = .next (s.traps { code := 0x01#8 }))) ∧
  (∀ (k : CoreId) (rest : List Turn) (s : State), s.settleSeats.agenda = .control k :: rest →
    let u : State := { s.settleSeats with agenda := rest }
    u.standsAtEnd k → (u.core k).front.pend = .eret → (u.core k).seat.st = .folded →
    (∀ e : Engine, (u.core k).queue e = []) →
    let c := u.core k
    let pc : Pc := c.ctl.xpc.extractLsb' 3 51
    let slot := if (c.ctl.xpc.extractLsb' 0 3).toNat = 0 then 1 else (c.ctl.xpc.extractLsb' 0 3).toNat
    let mark := c.front.frozen.find? (fun e => decide (e.flev = c.seat.depth ∧ e.pc = pc))
    ∃ t, step s = .next t ∧
      let d := t.core k
      d.front.pc = pc ∧ d.front.bundle = none ∧ d.front.run = true ∧
      (mark = none → d.front.slot = slot ∧ d.front.pend = .none ∧ d.front.started = false ∧ d.front.done = false) ∧
      (∀ e, mark = some e → e.slot = slot → d.front.slot = e.at_ ∧ d.front.pend = e.pend ∧
        d.front.started = e.started ∧ d.front.done = e.done) ∧
      (∀ e, mark = some e → e.slot ≠ slot → d.front.slot = slot ∧ d.front.started = false ∧ d.front.done = false ∧
        d.front.pend = if e.pendAt < slot then e.pend else .none) ∧
      d.front.frozen = c.front.frozen.filter (fun e => decide (e.flev ≠ c.seat.depth)) ∧
      (∀ i : Nat, i < 64 → d.ctl.cst.getLsbD i = if i = 11 then c.ctl.cst.getLsbD 12
        else if i = 13 then c.ctl.cst.getLsbD 14 else c.ctl.cst.getLsbD i) ∧
      d.seat = { c.seat with depth := d.seat.depth } ∧ d.seat.depth.toNat = c.seat.depth.toNat - 1 ∧
      d.ctl = { c.ctl with cst := d.ctl.cst } ∧ d = { c with ctl := d.ctl, front := d.front, seat := d.seat } ∧
      (∀ k', k' ≠ k → t.core k' = u.core k') ∧ t = { u with cores := t.cores } ∧ u.SameBytes t) ∧
  (∀ (k : CoreId) (rest : List Turn) (s : State), s.settleSeats.agenda = .control k :: rest →
    let u : State := { s.settleSeats with agenda := rest }
    u.standsAtEnd k → (u.core k).front.pend = .eret → (u.core k).seat.st = .folded →
    let c := u.core k
    ((∃ e, e ∈ [Engine.v, .m, .d, .f] ∧ ∃ q ∈ c.queue e, q.flev = 0#8) → step s = .next u) ∧
    (∀ (e : Engine) (q : QEntry) (more : List QEntry), e ∈ [Engine.v, .m, .d, .f] → c.queue e = q :: more →
      (∀ e' : Engine, ∀ x ∈ c.queue e', x.flev ≠ 0#8 ∧ x.fault = none) →
      c.seat.depth ≠ 0#8 → q.flev = c.seat.depth → q.faulted.isSome = true → c.ctl.xcause.extractLsb' 8 3 = e.num →
      let disp := (c.ctl.xcause.extractLsb' 16 2).toNat
      (disp = 2 → c.tok.room q.ins.tok? = false → step s = .next u) ∧
      (disp ≤ 2 → (disp = 2 → c.tok.room q.ins.tok? = true) → ∃ t, step s = .next t ∧
        let d := t.core k
        d.seat.depth.toNat = c.seat.depth.toNat - 1 ∧
        (∀ e', e' ≠ e → d.queue e' = unfreeze c.seat.depth (c.queue e')) ∧
        (disp = 0 → d.queue e = unfreeze c.seat.depth ({ q with faulted := none, replay := replays q } :: more)) ∧
        (1 ≤ disp → d.queue e = unfreeze c.seat.depth more) ∧
        d.tok = if disp = 2 then c.tok.push q.ins.tok? else c.tok)))

/-- R11 and R63 to R77: a control instruction that writes one scalar register leaves every other register, every flag
its rule does not name, every special register, every other part of its core and of the package, and every byte of
memory as they were; s0 reads zero, and sticky flags only ever set. -/
def Obligations.ScalarFrame : Prop :=
  ∀ (i : Instr) (d : BitVec 5) (fl : Bool) (s : State), scalarDest i = some (d, fl) → s.goes i.tok? →
    ∃ t, exec i s = .next t ∧ s.Keeps t s.exe ∧ s.SameBytes t ∧ (s.core s.exe).Keeps (t.core s.exe) ∧
      (s.core s.exe).ctl.Keeps (t.core s.exe).ctl ∧ (∀ r, r ≠ d → t.reg s.exe r = s.reg s.exe r) ∧
      t.reg s.exe 0#5 = 0#64 ∧
      (∀ b : Nat, ¬(5 ≤ b ∧ b ≤ 10 ∧ fl = true) →
        (t.core s.exe).ctl.cst.getLsbD b = (s.core s.exe).ctl.cst.getLsbD b) ∧
      (∀ b : Nat, (s.core s.exe).ctl.cst.getLsbD b = true → (t.core s.exe).ctl.cst.getLsbD b = true) ∧
      (t.core s.exe).front = { (s.core s.exe).front with slot := (s.core s.exe).front.next, vec := false }

/-! ## Encoding, bundles and steps -/

/-- R35 to R38: every well-formed instruction that is no prefix, laid out from slot 1, decodes to itself, at slot 1,
with its slots. R58: a well-formed gang prefix followed by a well-formed command it may precede decodes to the two of
them; without one, the bundle is refused, and at the prefix (log entry 77, the model's choice of slot). -/
def Obligations.RoundTrip : Prop :=
  (∀ (i : Instr) (e : Engine), i.engine? = some e → i.wf = true → i.isGang = false →
     decodeBundle (bundleOf (encode i)) = .ok [⟨1, i.slots, e, i⟩]) ∧
  (∀ (mask : BitVec 4) (gq : BitVec 2) (i : Instr), mask ≠ 0#4 →
     (i.wf = true → i.isGangable = true →
       decodeBundle (bundleOf (encode (.mGang mask gq) ++ encode i)) =
         .ok [⟨1, 1, .m, .mGang mask gq⟩, ⟨2, i.slots, .m, i⟩]) ∧
     decodeBundle (bundleOf (encode (.mGang mask gq))) = .illenc 1)

/-- The words of the spec's worked encodings decode to their instructions (R51 to R60). -/
def Obligations.DecodeWords : Prop :=
  decodeBundle (bundleOf [(1#4, 0x30213FFF#32)]) = .ok [⟨1, 1, .c, .addi 4#5 4#5 0x3FFF#14 none⟩] ∧
  decodeBundle (bundleOf [(1#4, 0x4010C860#32)]) = .ok [⟨1, 1, .c, .fadd 2#5 3#5 4#5 1#3 1#1 none⟩] ∧
  decodeBundle (bundleOf [(1#4, 0x43298FC8#32)]) = .ok [⟨1, 1, .c, .ffma 5#5 6#5 7#5 7#3 0#1 8#5 none⟩] ∧
  decodeBundle (bundleOf [(1#4, 0x88483000#32)]) = .ok [⟨1, 1, .c, .mfs 9#5 6#8 none⟩] ∧
  decodeBundle (bundleOf [(1#4, 0x13088001#32)]) = .ok [⟨1, 1, .c, .clz 1#5 2#5 1#2 none⟩] ∧
  decodeBundle (bundleOf [(1#4, 0x3C540000#32), (6#4, 0#32), (6#4, 1#32)]) =
    .ok [⟨1, 3, .c, .li 10#5 (.long 0#32 1#32) none⟩] ∧
  decodeBundle (bundleOf [(3#4, 0x0112800E#32)]) = .ok [⟨1, 1, .m, .mMma 1#4 2#4 32#6 0#6 7#3 none⟩] ∧
  decodeBundle (bundleOf [(4#4, 0x01321200#32)]) = .ok [⟨1, 1, .d, .dCopy 6#5 8#5 9#5 none⟩]

/-- R35 to R38, R29, R88: a bundle that decodes has a zero nibble 0; its instructions stand in rising slots that do
not overlap, each begun by its engine's routing code; every slot outside them is empty and all zero; and at most one
of them is a control transfer, `trap` or `sys`. -/
def Obligations.DecodedBundles : Prop :=
  ∀ (b : BitVec 256) (items : List Item), decodeBundle b = .ok items →
    b.extractLsb' 0 4 = 0#4 ∧
    items.Pairwise (fun x y => x.slot + x.len ≤ y.slot) ∧
    (∀ it ∈ items, 1 ≤ it.slot ∧ 1 ≤ it.len ∧ it.len ≤ 3 ∧ it.slot + it.len ≤ 8 ∧ bundleCode b it.slot = it.eng.code) ∧
    (∀ k, 1 ≤ k → k ≤ 7 → (∀ it ∈ items, ¬(it.slot ≤ k ∧ k < it.slot + it.len)) →
      bundleCode b k = 0#4 ∧ bundleSlot b k = 0#32) ∧
    (items.filter (fun it => it.ins.isTransfer || it.ins.isTrapSys)).length ≤ 1

/-- R70: the four shifts by an immediate take a count of 0 to 63; any other value in the imm field is refused at
decode, at the slot that holds it, whatever bundle it stands in. -/
def Obligations.ShiftImmediates : Prop :=
  ∀ (d a : BitVec 5) (imm : BitVec 14),
    let word (op : BitVec 8) : BitVec 32 := op ++ d ++ a ++ imm
    (imm.toNat ≤ 63 →
      decodeBundle (bundleOf [(1#4, word 0x34#8)]) = .ok [⟨1, 1, .c, .slli d a imm none⟩] ∧
      decodeBundle (bundleOf [(1#4, word 0x35#8)]) = .ok [⟨1, 1, .c, .srli d a imm none⟩] ∧
      decodeBundle (bundleOf [(1#4, word 0x36#8)]) = .ok [⟨1, 1, .c, .srai d a imm none⟩] ∧
      decodeBundle (bundleOf [(1#4, word 0x37#8)]) = .ok [⟨1, 1, .c, .roli d a imm none⟩]) ∧
    (63 < imm.toNat → ∀ op ∈ [0x34#8, 0x35#8, 0x36#8, 0x37#8], ∀ (b : BitVec 256) (k : Nat),
      bundleSlot b k = word op → decodeAt b k .c = .error k)

/-- A step runs the instruction that the decoder reads from the control unit's bundle: from the agenda's turn, or,
with an empty agenda and nothing else that moves, from the focused core's bundle (R28, log entry 1); of a bundle that
the unit fetches in the same step too (R14). The seats first do what they do at once (R146, R147). -/
def Obligations.StepRunsDecoded : Prop :=
  ∀ (s : State) (it : Item),
    let now : State := s.settleSeats
    (∀ (k : CoreId) (rest : List Turn), now.agenda = .control k :: rest → State.standsAt { now with agenda := rest } k it →
      step s = exec it.ins (standAt k it { now with agenda := rest })) ∧
    (now.agenda = [] → now.background now.focus = none → now.standsAt now.focus it →
      step s = exec it.ins (standAt now.focus it now)) ∧
    (∀ (k : CoreId) (rest : List Turn) (b : BitVec 256) (items : List Item), now.agenda = .control k :: rest →
      let u : State := { now with agenda := rest }
      let v : State := takeBundle k u
      u.goesOn k → (u.core k).front.bundle = none → (v.core k).front.bundle = some b → decodeBundle b = .ok items →
      items.find? (fun x => decide ((v.core k).front.slot ≤ x.slot)) = some it → (v.core k).front.controlRoom it = true →
      step s = exec it.ins (standAt k it v)) ∧
    (∀ (i : Instr) (rest : List Turn), now.agenda = .event i :: rest → i.engine? = none →
      step s = exec i { now with agenda := rest })

/-- R39: a bundle that fails to decode at slot j traps `ILLENC` at slot 1, with the byte address of slot j, before any
slot of it takes effect. -/
def Obligations.IllegalBundles : Prop :=
  ∀ (s : State) (k : CoreId) (rest : List Turn) (b : BitVec 256) (j : Nat), s.settleSeats.agenda = .control k :: rest →
    let u : State := { s.settleSeats with agenda := rest }
    u.goesOn k → (u.core k).front.bundle = some b → decodeBundle b = .illenc j →
    step s = .next (takeTrap k { code := 0x01#8, addr := BitVec.ofNat 64 ((u.core k).front.pc.toNat * 32 + 4 * j) }
      (u.core k).front.pc 1 u)

/-- R14, R30, R83, R90, R141, R148, R149: at the end of its bundle a folded core goes on at the next bundle or its
transfer's target, and `halt` puts it out; the head seat on the stream's latest bundle fixes the stream's successor
so, and what the head seat flushed with `iflush` is fetched afresh after its taken transfer (R277); a seated core
whose target is not the stream's successor folds with the transfer's join id; one whose successor is not fixed waits. -/
def Obligations.BundleEnds : Prop :=
  ∀ (s : State) (k : CoreId) (rest : List Turn), s.settleSeats.agenda = .control k :: rest →
    let u : State := { s.settleSeats with agenda := rest }
    u.standsAtEnd k →
    let f := (u.core k).front
    let n := (u.core k).seat.n
    let tb := tableOf k
    let on (pc : Pc) (x : State) : State := x.modCore k (fun c => { c with front :=
      { c.front with
        pc := pc, bundle := none, slot := 1, pend := .none, pendAt := 1, started := false, done := false, vec := false } })
    let flushed (x : Table) : Table :=
      { x with icache := x.icache.filter (fun w => !x.flushes.any (fun r => w.meets r.1 r.2)), flushes := [] }
    let after (taken : Bool) : State := if taken = true ∧ u.head tb = some k then u.modTable tb flushed else u
    let leads : Prop := u.head tb = some k ∧ n = (u.table tb).f ∧ (u.table tb).succ = none
    ((u.core k).seat.st = .folded →
      (f.pend = .none → step s = .next (on (f.pc + 1#51) u)) ∧
      (∀ p j taken, f.pend = .goto p j taken → u.head tb ≠ some k → step s = .next (on p u)) ∧
      (f.pend = .fold → step s = .next (on (f.pc + 1#51) u))) ∧
    (f.pend = .halt → ∃ t, step s = .next t ∧ (t.core k).front.run = false ∧ (t.core k).seat.st = .out ∧
      (t.core k).seat.stack = [] ∧ (∀ e : Engine, (t.core k).queue e = (u.core k).queue e) ∧
      (∀ k', k' ≠ k → t.core k' = u.core k') ∧ u.SameBytes t) ∧
    ((u.core k).seat.st = .seated → ∀ p j taken,
      (f.pend = .goto p j taken ∨ (f.pend = .none ∧ p = f.pc + 1#51 ∧ j = 0#4 ∧ taken = false)) →
      let v := after taken
      (leads → step s = .next (on p (v.setTable tb { v.table tb with succ := some p }))) ∧
      (∀ q, ¬leads → (u.table tb).successor n = some q → q = p → step s = .next (on p v)) ∧
      (∀ q, ¬leads → (u.table tb).successor n = some q → q ≠ p → ∃ t, step s = .next t ∧ (t.core k).front.pc = p ∧
          (t.core k).seat.st = .folded ∧ (t.core k).seat.stack.getLast? = some (.id j)) ∧
      (¬leads → (u.table tb).successor n = none → step s = .next v))

/-- R32, R33: a core reset leaves the core's state as R32 lists it: at power-on every core, with every tower zero and
no sector poisoned; by the die controller one core, or the sixteen of a table, whose towers keep all but their pins,
which are discarded without a write-back. -/
def Obligations.ResetValues : Prop :=
  (∀ k, State.reset.CoreReset k) ∧
  (∀ s : State, ∃ t, exec .powerOnReset s = .next t ∧ ∀ k, t.CoreReset k ∧
    (∀ o, (t.core k).tower.byte o = 0#8 ∧ (t.core k).tower.poisoned o = false)) ∧
  (∀ (s : State) (k : CoreId), ∃ t, exec (.coreReset (.core k)) s = .next t ∧ t.CoreReset k ∧
    (t.core k).tower = { (s.core k).tower with lines := [], freed := (t.core k).tower.freed } ∧
    (∀ k', k' ≠ k → t.core k' = s.core k')) ∧
  (∀ (s : State) (tb : TableId), ∃ t, exec (.coreReset (.table tb)) s = .next t ∧
    ∀ k, (tableOf k = tb → t.CoreReset k ∧
        (t.core k).tower = { (s.core k).tower with lines := [], freed := (t.core k).tower.freed }) ∧
      (tableOf k ≠ tb → t.core k = s.core k))

/-- The reset state's memories are in canonical form (the invariant of `MemOkStep` holds at reset). -/
def Obligations.MemOkReset : Prop := State.reset.memOk = true ∧
  ∀ (nbits w : Nat), (State.reset.withFetchWord nbits w).memOk = true

/-- Every step keeps every memory of the package in canonical form: addresses rising, no byte listed that an unlisted
address reads as. -/
def Obligations.MemOkStep : Prop :=
  ∀ (s t : State), s.memOk = true → step s = .next t → t.memOk = true

/-- R301: a control instruction pops nothing and nothing changes until every queue it names holds as many tokens as it
names it; when it runs, each queue loses its pops and its POST queue gains one; with that queue full, the effect is
done once and the push waits; with room again, it is made and the control unit goes on. R61: the engines' `nop`s pop
and post their tokens, leave the queue, and change nothing else; a matrix one with TS set anchors the retained window,
which a handler leaves alone (R400). -/
def Obligations.TokensMove : Prop :=
  ((∀ (i : Instr) (s : State), i.engine? = some .c → (s.core s.exe).front.done = false →
     (s.core s.exe).front.started = false → (s.core s.exe).tok.ready i.tok? = false → exec i s = .next s) ∧
   (∀ (tk : Toks) (t : Tok) (q : BitVec 5), tk.ready (some t) = true → gangQueue? q = none → q ≠ 0#5 →
     (tk.pop (some t)).room (some t) = true →
     ((tk.pop (some t)).push (some t)).held q = tk.held q - t.waits.count q + (if t.post = q then 1 else 0)) ∧
   (∀ (t : Option Tok) (s : State), s.goes t →
     exec (.nop t) s = .next (s.did id t)) ∧
   (∀ (t : Option Tok) (s : State), (s.core s.exe).front.done = false → (s.core s.exe).front.started = false →
     (s.core s.exe).tok.ready t = true → (s.core s.exe).tok.gangFault t = none →
     ((s.core s.exe).tok.pop t).room t = false →
     ∃ u, exec (.nop t) s = .next u ∧ (u.core s.exe).tok = (s.core s.exe).tok.pop t ∧
       (u.core s.exe).front.done = true ∧ (u.core s.exe).front.slot = (s.core s.exe).front.slot) ∧
   (∀ (i : Instr) (s : State), i.engine? = some .c → i.isTrapSys = false → (s.core s.exe).front.done = true →
     (s.core s.exe).tok.room i.tok? = true →
     exec i s = .next (s.modCore s.exe (fun c =>
       { c with tok := c.tok.push i.tok?, front := { c.front with slot := c.front.next, started := false, done := false, vec := false } })))) ∧
  (∀ (t : Option Tok) (s : State),
     (s.engineGoes .v t → exec (.vNop t) s = .next (s.engineWent s.exe (.vNop t))) ∧
     (s.engineGoes .d t → exec (.dNop t) s = .next (s.engineWent s.exe (.dNop t))) ∧
     (s.engineGoes .f t → exec (.fNop t) s = .next (s.engineWent s.exe (.fNop t))) ∧
     (s.engineGoes .m t →
       let ts := match t with
         | some t => t.ts
         | none => false
       exec (.mNop t) s = .next (s.engineDid (fun c => { c with mtx :=
         if ts = true ∧ c.seat.depth = 0#8 then { c.mtx with window := .anchored, cmds := [], faultAt := none } else c.mtx }) (.mNop t))))

/-! ## Seats, memory, objects and tower management -/

/-- R149, R145: `fold` pushes its join id, a full stack losing its bottom entry, and the bundle will end in the fold.
R151: `seat` writes the seat's number, whether the core is folded, whether it is head seat, its stack's depth and top,
and the seated and folded seats of its table. R146, R147, R150: `join j` of a folded core whose stack's top does not
accept j traps `JOINMIS`; one whose top accepts it, while its table has seated cores, waits with its tokens popped; of
the head seat alone at the stream's latest bundle, with no core pending, it completes at once: the stream goes on
behind it; of a seated core behind a completed one, it only pops an entry that is exactly j. -/
def Obligations.FoldAndSeat : Prop :=
  (∀ (j : BitVec 4) (d : BitVec 5) (t : Option Tok) (s : State), s.goes t →
     let x := (s.core s.exe).seat
     let tb := tableOf s.exe
     let ones (p : SeatState → Bool) (lo : Nat) : Nat :=
       (((List.range 16).filter (fun i => p (s.core (coreAt tb (BitVec.ofNat 4 i))).seat.st)).map (fun i => 2 ^ (lo + i))).sum
     exec (.fold j t) s = .next (s.did (fun c =>
       { c with seat := { c.seat with stack := (if 8 ≤ x.stack.length then x.stack.drop 1 else x.stack) ++ [.id j] }
                front := { c.front with pend := .fold } }) t) ∧
     exec (.seat d t) s = .next (s.puts d (BitVec.ofNat 64 (s.exe.toNat % 16 + (if x.st = .seated then 0 else 16)
       + (if s.head tb = some s.exe then 64 else 0) + 128 * x.stack.length
       + 2048 * (match x.stack.getLast? with | some (.id i) => i.toNat | some .any => 16 | none => 31)
       + ones (fun st => decide (st = .seated)) 16
       + ones (fun st => decide (st = .folded) || decide (st = .waiting)) 32)) t)) ∧
  (∀ (j : BitVec 4) (t : Option Tok) (s : State), s.goes t →
     let k := s.exe
     let x := (s.core k).seat
     let tb := tableOf k
     let top : Nat := match x.stack.getLast? with | some (.id i) => i.toNat | some .any => 16 | none => 31
     let fits : Prop := x.stack.getLast? = some (.id j) ∨ x.stack.getLast? = some .any
     (x.st = .folded → ¬fits →
       exec (.join j t) s = .next (s.traps { code := 0x19#8, addr := BitVec.ofNat 64 (j.toNat + 16 * top) })) ∧
     (x.st = .folded → fits → s.seated tb ≠ [] → ∃ u, exec (.join j t) s = .next u ∧
       (u.core k).seat.st = .waiting ∧ (u.core k).seat.stack = x.stack ∧ (u.core k).tok = (s.core k).tok.pop t ∧
       (u.core k).front.slot = (s.core k).front.slot ∧ (∀ k', k' ≠ k → u.core k' = s.core k') ∧ u.tables = s.tables) ∧
     (x.st = .seated → ((s.table tb).successor x.n).isSome = true → ∃ u, exec (.join j t) s = .next u ∧
       (u.core k).seat.stack = (if x.stack.getLast? = some (.id j) then x.stack.dropLast else x.stack) ∧
       (u.core k).front.pend = .join ∧ (u.core k).front.slot = (s.core k).front.next ∧ u.tables = s.tables ∧
       (∀ k', k' ≠ k → u.core k' = s.core k')) ∧
     (x.st = .seated → s.head tb = some k → x.n = (s.table tb).f → (s.table tb).succ = none → s.noPending tb j = true →
       (s.core k).front.item.map (fun it => it.ins) = some (.join j t) →
       ∃ u, exec (.join j t) s = .next u ∧ (u.table tb).succ = some (s.here + 1#51) ∧ (u.table tb).join = none ∧
         (u.core k).front.pend = .join ∧ (u.core k).front.slot = (s.core k).front.next ∧
         (∀ k' ∈ s.waiting tb, (s.core k').front.pc = s.here → (s.core k').seat.accepts j = true →
           (u.core k').seat.st = .seated ∧ (u.core k').seat.n = (s.table tb).f ∧
           (u.core k').seat.stack = (s.core k').seat.stack.dropLast)))

/-- R25, R265, R267, R272, R273: a scalar access whose address has a bit above 55 set traps `XLATE`, then a misaligned
one `ALIGN`, with its address; nothing is read or written. -/
def Obligations.MisalignedTraps : Prop :=
  ∀ (d a b : BitVec 5) (imm : BitVec 14) (o : BitVec 4) (t : Option Tok) (s : State), s.goes t →
    let ea := s.val a + imm.signExtend 64
    let far (x : Word) : State := s.traps { code := 0x04#8, addr := x }
    let odd (x : Word) : State := s.traps { code := 0x03#8, addr := x }
    (∀ i ∈ [Instr.ldI8 d a imm t, .ldN8 d a imm t, .ldI16 d a imm t, .ldN16 d a imm t, .ldI32 d a imm t, .ldN32 d a imm t,
        .ldI64 d a imm t, .stI8 d a imm t, .stI16 d a imm t, .stI32 d a imm t, .stI64 d a imm t],
      2 ^ 56 ≤ ea.toNat → exec i s = .next (far ea)) ∧
    (ea.toNat < 2 ^ 56 →
      (ea.toNat % 2 ≠ 0 → ∀ i ∈ [Instr.ldI16 d a imm t, .ldN16 d a imm t, .stI16 d a imm t], exec i s = .next (odd ea)) ∧
      (ea.toNat % 4 ≠ 0 → ∀ i ∈ [Instr.ldI32 d a imm t, .ldN32 d a imm t, .stI32 d a imm t], exec i s = .next (odd ea)) ∧
      (ea.toNat % 8 ≠ 0 → ∀ i ∈ [Instr.ldI64 d a imm t, .stI64 d a imm t], exec i s = .next (odd ea))) ∧
    (2 ^ 56 ≤ (s.val a).toNat → exec (.amo d a b o 0#1 t) s = .next (far (s.val a)) ∧
      exec (.amo d a b o 1#1 t) s = .next (far (s.val a))) ∧
    ((s.val a).toNat < 2 ^ 56 →
      ((s.val a).toNat % 4 ≠ 0 → exec (.amo d a b o 0#1 t) s = .next (odd (s.val a))) ∧
      ((s.val a).toNat % 8 ≠ 0 → exec (.amo d a b o 1#1 t) s = .next (odd (s.val a))))

/-- R24, R26, R206, R226, R266, R268: an aligned scalar load gives the bytes of its place, little-endian, widened with
or without sign: of the core's own tower, a tier, host memory, the boot ROM, a die's registers or the tower's own
registers; poison traps it, and it waits, its tokens popped, for a stack that holds it or its translation back, for a
packet, and behind a packet of the core to a common byte (R224, R225, R235). In the tower window it completes. That is
so while nothing stands read ahead; a load without WAIT tokens of a location read ahead gives what was read (R248; log
entry 83, the model's choice of when). -/
def Obligations.LoadResults : Prop :=
  ∀ (d a : BitVec 5) (imm : BitVec 14) (t : Option Tok) (s : State), s.goes t →
    let c := (s.core s.exe).ctl
    let ea := (s.val a + imm.signExtend 64).toNat
    let signed (n : Nat) (x : Nat) : Word := BitVec.ofInt 64 (if 2 ^ (8 * n - 1) ≤ x then (x : Int) - 2 ^ (8 * n) else x)
    let plain (x : Nat) : Word := BitVec.ofNat 64 x
    ∀ (i : Instr) (n : Nat) (f : Nat → Word), (i, n, f) ∈ [(Instr.ldI8 d a imm t, 1, signed 1), (.ldN8 d a imm t, 1, plain),
      (.ldI16 d a imm t, 2, signed 2), (.ldN16 d a imm t, 2, plain), (.ldI32 d a imm t, 4, signed 4),
      (.ldN32 d a imm t, 4, plain), (.ldI64 d a imm t, 8, plain)] →
    (∀ (p : Place) (x : Early) (more : List Early), ea % n = 0 → s.placeOf s.exe c.asid c.xe c.sup .read ea = .ok p →
      s.inMemory s.exe [s.pieceAt ea n p] = true → s.early = x :: more → x.core = s.exe → x.ps = [s.pieceAt ea n p] →
      (∀ k, t = some k → k.waits = []) →
      exec i s = .next ((s.forget s.exe [s.pieceAt ea n p]).puts d (f (bytesToNat x.bytes)) t)) ∧
    (s.nothingAhead →
    (∀ off, off < 2 ^ 25 → ea = 0xFFFFFFFE000000 + off → off % n = 0 → ((s.core s.exe).tower.scrub off n).2 = (0, 0) →
      ((s.core s.exe).tower.poisoned (off / 32 * 32) = false →
        exec i s = .next (s.puts d (f (bytesToNat ((s.core s.exe).tower.read off n))) t)) ∧
      ((s.core s.exe).tower.poisoned (off / 32 * 32) = true →
        exec i s = .next (s.traps { code := 0x10#8, addr := BitVec.ofNat 64 (ea / 32 * 32) }))) ∧
    (∀ p : Place, ea % n = 0 → s.placeOf s.exe c.asid c.xe c.sup .read ea = .ok p →
      let w := s.walkedTo ea n p
      let free : Prop := s.pieceBehind s.exe (s.pieceAt 0 n p) = false
      (p = .held → exec i s = .next (s.waits t)) ∧
      (∀ far o il, s.targetOf s.exe p = .ext far o il →
        (s.mustWait far o n il false p → exec i s = .next (s.waits t)) ∧
        (o % n = 0 → ¬s.mustWait far o n il false p →
          (∀ h ∈ unitsOf o n il, (w.stack (tierStack far h.s)).lost h.pc h.r = false) →
          (w.unitPoison far (place (o / 32 * 32) il) = false →
            exec i s = .next (w.puts d (f (bytesToNat (w.extRead far o n il))) t)) ∧
          (w.unitPoison far (place (o / 32 * 32) il) = true →
            exec i s = .next (w.traps { code := 0x11#8, addr := BitVec.ofNat 64 (ea / 32 * 32) })))) ∧
      (∀ o, s.targetOf s.exe p = .host o → free → o % n = 0 → s.host.bad.get none (o / 32) = none → s.hostApart (o / 32) = false →
        exec i s = .next (w.puts d (f (bytesToNat (Memory.read s.host.cells o n))) t)) ∧
      (∀ o, s.targetOf s.exe p = .rom o → free →
        exec i s = .next (w.puts d (f (bytesToNat (Memory.read s.rom ((dieOf s.exe).toNat * 2 ^ 20 + o) n))) t)) ∧
      (∀ die o, s.targetOf s.exe p = .die die o → free → n = 8 → c.sup = true →
        exec i s = .next (w.puts d (w.dieRead die o) t)) ∧
      (∀ o, s.targetOf s.exe p = .config o → free → n = 4 → c.sup = true →
        exec i s = .next (w.puts d (f ((s.core s.exe).cfgRead o).toNat) t)) ∧
      (∀ k o, s.targetOf s.exe p = .aperture k o →
        exec i s = .next (s.traps { code := 0x05#8, addr := BitVec.ofNat 64 ea })) ∧
      (s.targetOf s.exe p = .nothing → exec i s = .next (s.traps { code := 0x04#8, addr := BitVec.ofNat 64 ea }))))

/-- COMPLETION of the scalar stores (R24, R25, R268): at an aligned address of the tower window `st.i8`, `st.i16`,
`st.i32` and `st.i64` each write and retire, in every state in which their tokens let them go. R24, R26, R207, R226,
R266, R268: an aligned scalar store writes the low bytes of its register, little-endian, at its place, and changes
nothing else: no register, no flag; the core's own engines see a store to memory by the next token or fence of the
control unit at the latest (R247, R248). A store waits, its tokens popped, for a stack that holds it or its
translation back, for a packet, and behind a packet of the core to a common byte (R224, R225, R235). R197, R207, R226,
R231: a store's bytes are read back (but for bits of cells stuck at 0, R295, in a row that is not pinned), and every
byte outside them reads as before: of the tower that is written, or of the tier, while no unit is lost; a clean tag
entry over the bytes loses CLEAN, and nothing else of the core changes. -/
def Obligations.StoreResults : Prop :=
  (∀ (d a : BitVec 5) (imm : BitVec 14) (off : Nat) (t : Option Tok) (s : State), s.goes t → off < 2 ^ 25 →
     (s.val a + imm.signExtend 64).toNat = 0xFFFFFFFE000000 + off →
     let v := (s.val d).toNat
     let ends (n : Nat) (u : State) : Prop := s.leftSlot u ∧ (∀ r, u.reg s.exe r = s.reg s.exe r) ∧
       ((s.core s.exe).tower.stuck = [] →
         ∀ j, j < n → (u.core s.exe).tower.byte (off + j) = BitVec.ofNat 8 (v / 256 ^ j))
     (∃ u, exec (.stI8 d a imm t) s = .next u ∧ ends 1 u) ∧
     (off % 2 = 0 → ∃ u, exec (.stI16 d a imm t) s = .next u ∧ ends 2 u) ∧
     (off % 4 = 0 → ∃ u, exec (.stI32 d a imm t) s = .next u ∧ ends 4 u) ∧
     (off % 8 = 0 → ∃ u, exec (.stI64 d a imm t) s = .next u ∧ ends 8 u)) ∧
  (∀ (d a : BitVec 5) (imm : BitVec 14) (t : Option Tok) (s : State), s.goes t → s.nothingAhead →
     let c := (s.core s.exe).ctl
     let ea := (s.val a + imm.signExtend 64).toNat
     ∀ (i : Instr) (n : Nat), (i, n) ∈ [(Instr.stI8 d a imm t, 1), (.stI16 d a imm t, 2), (.stI32 d a imm t, 4),
       (.stI64 d a imm t, 8)] →
     let bs := natToBytes n (s.val d).toNat
     (∀ off, off < 2 ^ 25 → ea = 0xFFFFFFFE000000 + off → off % n = 0 →
       exec i s = .next ((s.storedLate ea (.window off) ((s.core s.exe).tower.read off n) bs
         (s.modCore s.exe (fun c => c.towerWrite off bs))).went s.exe t)) ∧
     (∀ p : Place, ea % n = 0 → s.placeOf s.exe c.asid c.xe c.sup .write ea = .ok p →
       let w := s.walkedTo ea n p
       let free : Prop := s.pieceBehind s.exe (s.pieceAt 0 n p) = false
       (p = .held → exec i s = .next (s.waits t)) ∧
       (∀ far o il, s.targetOf s.exe p = .ext far o il →
         (s.mustWait far o n il true p → exec i s = .next (s.waits t)) ∧
         (¬s.mustWait far o n il true p →
           exec i s = .next ((s.storedLate ea p (s.extRead far o n il) bs (w.extWrite far o il bs)).went s.exe t))) ∧
       (∀ o, s.targetOf s.exe p = .host o → free → o % n = 0 →
         (s.host.bad.get none (o / 32) = none ∨ s.host.bad.get none (o / 32) = some .poisoned) → s.hostApart (o / 32) = false →
         exec i s = .next ((s.storedLate ea p (Memory.read s.host.cells o n) bs
           { w with host := { s.host with cells := Memory.write s.host.cells o bs } }).went s.exe t)) ∧
       (∀ die o, s.targetOf s.exe p = .die die o → free → n = 8 → c.sup = true →
         exec i s = .next ((w.dieWrite die o (s.val d)).went s.exe t)) ∧
       (∀ o, s.targetOf s.exe p = .config o → free → n = 4 → c.sup = true →
         exec i s = .next ((w.modCore s.exe (fun c => c.cfgWrite o ((s.val d).extractLsb' 0 32))).went s.exe t)) ∧
       (∀ o, s.targetOf s.exe p = .rom o → exec i s = .next (s.traps { code := 0x05#8, addr := BitVec.ofNat 64 ea })) ∧
       (∀ k o, s.targetOf s.exe p = .aperture k o →
         exec i s = .next (s.traps { code := 0x05#8, addr := BitVec.ofNat 64 ea })) ∧
       (s.targetOf s.exe p = .nothing → exec i s = .next (s.traps { code := 0x04#8, addr := BitVec.ofNat 64 ea })))) ∧
  ((∀ (c : Core) (off : Nat) (bs : List (BitVec 8)), off + bs.length ≤ 2 ^ 25 →
     (∀ o, o < 2 ^ 25 → (c.towerWrite off bs).tower.byte o =
       if off ≤ o ∧ o < off + bs.length then
         (if (c.tower.lineAt o).isSome then bs.getD (o - off) 0#8 else c.tower.takes (c.tower.key o) (bs.getD (o - off) 0#8))
       else c.tower.byte o) ∧
     (∀ key b, c.tower.stuck = [] → c.tower.takes key b = b) ∧
     (∀ o, o < 2 ^ 25 → ¬(off / 32 ≤ o / 32 ∧ o / 32 ≤ (off + bs.length - 1) / 32 ∧ bs ≠ []) →
       (c.towerWrite off bs).tower.poisoned o = c.tower.poisoned o) ∧
     (c.towerWrite off bs).ctl = c.ctl ∧ (c.towerWrite off bs).vec = c.vec ∧ (c.towerWrite off bs).mtx = c.mtx ∧
     (c.towerWrite off bs).rings = c.rings ∧ (c.towerWrite off bs).binds = c.binds ∧
     (∀ i, (c.towerWrite off bs).tags.get 0#128 i = c.tags.get 0#128 i ∨
       (c.towerWrite off bs).tags.get 0#128 i = c.tags.get 0#128 i &&& ~~~2#128)) ∧
   (∀ (s : State) (far : Bool) (o : Nat) (il : BitVec 3) (bs : List (BitVec 8)), o + bs.length ≤ tierSize →
     (∀ n, (s.stack n).failed = [] ∧ (s.stack n).bad = []) →
     (∀ m, m < bs.length → (s.extWrite far o il bs).unitByte far (place (o + m) il) = bs.getD m 0#8) ∧
     (∀ m, m < tierSize → ¬(o ≤ m ∧ m < o + bs.length) →
       (s.extWrite far o il bs).unitByte far (place m il) = s.unitByte far (place m il)) ∧
     (∀ m il', m < tierSize → (s.extWrite far o il bs).unitByte (!far) (place m il') = s.unitByte (!far) (place m il')) ∧
     (s.extWrite far o il bs).cores = s.cores ∧ (s.extWrite far o il bs).host = s.host))

/-- R262, R265, R266, R267, R272, R273: an atomic gives its old value, sign-extended at 32 bits but for the FP32
addition, whose is zero-extended, and leaves the value of its row of the table, with nothing between: of the core's
own tower or of a tier; poison traps it and nothing is written; it waits, its tokens popped, for what holds its place
back (R224, R225, R235); every other region refuses it. -/
def Obligations.AtomicResults : Prop :=
  ∀ (d a b : BitVec 5) (o : BitVec 4) (z : BitVec 1) (t : Option Tok) (s : State), s.goes t → s.nothingAhead →
    let n := if z = 1#1 then 8 else 4
    let w := 8 * n
    let c := s.core s.exe
    let ea := (s.val a).toNat
    let v := (s.val b).toNat % 2 ^ w
    let e := (s.val d).toNat % 2 ^ w
    let si (x : Nat) : Int := if 2 ^ (w - 1) ≤ x then (x : Int) - 2 ^ w else x
    let gives (old new : Nat) : Prop :=
      (o.toNat, new) ∈ [(0, (old + v) % 2 ^ w), (1, old &&& v), (2, old ||| v), (3, old ^^^ v),
        (4, if si old ≤ si v then old else v), (5, if si v ≤ si old then old else v), (6, min old v), (7, max old v),
        (8, v), (9, if old = e then v else old)] ∨
      (o = 10#4 ∧ z = 0#1 ∧ new = (Fmt.fp32.round .rne (Val.add .rne (Fmt.fp32.decode old) (Fmt.fp32.decode v)).1).1)
    let ends (old : Nat) (u : State) : State :=
      (u.setReg s.exe d (if z = 1#1 ∨ o = 10#4 then BitVec.ofNat 64 old else BitVec.ofInt 64 (si old))).went s.exe t
    (∀ off, ea = 0xFFFFFFFE000000 + off → off < 2 ^ 25 → off % n = 0 → (c.tower.scrub off n).2 = (0, 0) →
      (c.tower.poisoned (off / 32 * 32) = false → ∀ new, gives (bytesToNat (c.tower.read off n)) new →
        exec (.amo d a b o z t) s = .next (ends (bytesToNat (c.tower.read off n))
          (s.modCore s.exe (fun c => c.towerWrite off (natToBytes n new))))) ∧
      (c.tower.poisoned (off / 32 * 32) = true →
        exec (.amo d a b o z t) s = .next (s.traps { code := 0x10#8, addr := BitVec.ofNat 64 (ea / 32 * 32) }))) ∧
    (∀ p : Place, ea % n = 0 → s.placeOf s.exe c.ctl.asid c.ctl.xe c.ctl.sup .write ea = .ok p →
      let u := s.walkedTo ea n p
      let refused (code : BitVec 8) : Prop := exec (.amo d a b o z t) s = .next (s.traps { code := code, addr := s.val a })
      (p = .held → exec (.amo d a b o z t) s = .next (s.waits t)) ∧
      (∀ far h il, s.targetOf s.exe p = .ext far h il →
        (s.mustWait far h n il true p ∨ s.mustWait far h n il false p → exec (.amo d a b o z t) s = .next (s.waits t)) ∧
        (h % n = 0 → ¬s.mustWait far h n il true p → ¬s.mustWait far h n il false p →
          (∀ x ∈ unitsOf h n il, (u.stack (tierStack far x.s)).lost x.pc x.r = false) →
          (u.unitPoison far (place (h / 32 * 32) il) = false → ∀ new, gives (bytesToNat (u.extRead far h n il)) new →
            exec (.amo d a b o z t) s =
              .next (ends (bytesToNat (u.extRead far h n il)) (u.extWrite far h il (natToBytes n new)))) ∧
          (u.unitPoison far (place (h / 32 * 32) il) = true →
            exec (.amo d a b o z t) s = .next (u.traps { code := 0x11#8, addr := BitVec.ofNat 64 (ea / 32 * 32) })))) ∧
      (∀ h, s.targetOf s.exe p = .host h ∨ s.targetOf s.exe p = .rom h ∨ s.targetOf s.exe p = .config h → refused 0x05#8) ∧
      (∀ k h, s.targetOf s.exe p = .aperture k h → refused 0x05#8) ∧
      (∀ x h, s.targetOf s.exe p = .die x h → refused 0x05#8) ∧
      (s.targetOf s.exe p = .nothing → refused 0x04#8))

/-- R253: `bind` enters the object, its data and its scope in the binding table, over an entry of the object that is
not held or in a free entry; `unbind` removes an entry that is not held, and one of no entry does nothing; every other
case traps `PERM` with the object's address (DEDUCED, log 37); an address that fails its checks traps with them. R246,
R252, R254, R255: an acquirer waits while an access that its entry's scope orders before it is not performed, or a
stack of its scope is in self-refresh; then, with nobody before it, it takes its hold when the object's word lets it
in, and otherwise waits; one with others before it joins the queue's end and waits. `rel` waits in the same way, ends
the hold and counts the generation on. A wait has popped the tokens. Each is a fence: the core's engines see its
earlier stores, and no later load reads ahead of it (log 7, 83). R252, R254, R267: `acq.x`, `acq.s` and `rel` trap as
the check of the object's address or the read of its word does; an object that is not in the table, a word whose
reserved bits are nonzero, and a release that would take SHC below 0 trap `PERM` with the object's address; the word
stays, and an acquirer that traps leaves the object's queue. -/
def Obligations.ObjectHolds : Prop :=
  (∀ (a b len : BitVec 5) (sc : BitVec 4) (t : Option Tok) (ps : List Piece) (s : State), s.goes t →
     let c := s.core s.exe
     let va := s.val a
     let perm : State := s.traps { code := 0x05#8, addr := va }
     let e : Binding := { obj := va.truncate 56, base := (s.val b).truncate 56, len := s.val len, scope := sc, hold := .none }
     let bad : Prop := s.val len = 0#64 ∨ 2 ^ 56 < (s.val b).toNat + (s.val len).toNat ∨ (inWindow ps = true ∧ 1 < sc.toNat)
     let puts (i : BitVec 4) (x : Option Binding) : State := s.did (fun c => { c with binds := c.binds.set i x }) t
     (∀ tr, s.objCheck s.exe 8 va.toNat = .error tr → exec (.bind a b sc len t) s = .next (s.traps tr)) ∧
     (∀ tr, s.objCheck s.exe 0 va.toNat = .error tr → exec (.unbind a t) s = .next (s.traps tr)) ∧
     (s.objCheck s.exe 8 va.toNat = .ok ps → homeHeld ps = true → exec (.bind a b sc len t) s = .next (s.waits t)) ∧
     (s.objCheck s.exe 0 va.toNat = .ok ps → homeHeld ps = true → exec (.unbind a t) s = .next (s.waits t)) ∧
     (s.objCheck s.exe 8 va.toNat = .ok ps → homeHeld ps = false →
       (bad → exec (.bind a b sc len t) s = .next perm) ∧
       (¬bad → (∀ i old, c.bindOf va.toNat = some (i, old) →
           (old.hold = .none → exec (.bind a b sc len t) s = .next (puts i (some e))) ∧
           (old.hold ≠ .none → exec (.bind a b sc len t) s = .next perm)) ∧
         (c.bindOf va.toNat = none →
           (∀ i, c.bindFree = some i → exec (.bind a b sc len t) s = .next (puts i (some e))) ∧
           (c.bindFree = none → exec (.bind a b sc len t) s = .next perm)))) ∧
     (s.objCheck s.exe 0 va.toNat = .ok ps → homeHeld ps = false →
       (c.bindOf va.toNat = none → exec (.unbind a t) s = .next (s.went s.exe t)) ∧
       (∀ i old, c.bindOf va.toNat = some (i, old) →
         (old.hold = .none → exec (.unbind a t) s = .next (puts i none)) ∧
         (old.hold ≠ .none → exec (.unbind a t) s = .next perm)))) ∧
  (∀ (a : BitVec 5) (t : Option Tok) (ps : List Piece) (i : BitVec 4) (b : Binding) (bs : List (BitVec 8)) (s u : State),
     s.goes t → s.objCheck s.exe 0 (s.val a).toNat = .ok ps → (s.core s.exe).bindOf (s.val a).toNat = some (i, b) →
     let k := s.exe
     let home := objHome k ps
     let w := bytesToNat bs
     let shared := w / 2 ^ 16 % 2 ^ 15
     let low := w % 2 ^ 32
     let gen := (w / 2 ^ 32 + 1) % 2 ^ 32
     let held : Prop := homeHeld ps = true ∨ s.fenceWaits k b.scope = true
     let free : Prop := homeHeld ps = false ∧ s.fenceWaits k b.scope = false
     let ends (x : State) (h : Hold) : State :=
       ((x.modCore k (fun c => { c with binds := c.binds.set i (some { b with hold := h }) })).performed k).went k t
     (b.hold = .none → held → exec (.acqX a t) s = .next (s.waits t) ∧ exec (.acqS a t) s = .next (s.waits t)) ∧
     (b.hold = .none → free → s.objQueue home = [] → ps.any (s.pieceBlocked k true) = false →
       ((s.setObjQueue home [(k, true)]).consume k ps = .ok bs u →
         (w % 2 ^ 16 = 0 → w.testBit 31 = false → shared = 0 →
           exec (.acqX a t) s = .next (ends ((u.writePieces k ps (natToBytes 8 (w + 2 ^ 31))).setObjQueue home []) .exclusive)) ∧
         (w % 2 ^ 16 = 0 → w.testBit 31 = true ∨ shared ≠ 0 → exec (.acqX a t) s = .next (u.waits t))) ∧
       ((s.setObjQueue home [(k, false)]).consume k ps = .ok bs u →
         (w % 2 ^ 16 = 0 → w.testBit 31 = false → shared < 32767 →
           exec (.acqS a t) s = .next (ends ((u.writePieces k ps (natToBytes 8 (w + 2 ^ 16))).setObjQueue home []) .shared)) ∧
         (w % 2 ^ 16 = 0 → w.testBit 31 = true ∨ shared = 32767 → exec (.acqS a t) s = .next (u.waits t)))) ∧
     (b.hold = .none → free → s.objQueue home ≠ [] → (s.objQueue home).any (fun x => decide (x.1 = k)) = false →
       exec (.acqX a t) s = .next ((s.setObjQueue home (s.objQueue home ++ [(k, true)])).waits t) ∧
       exec (.acqS a t) s = .next ((s.setObjQueue home (s.objQueue home ++ [(k, false)])).waits t)) ∧
     (b.hold ≠ .none →
       exec (.acqX a t) s = .next (s.traps { code := 0x05#8, addr := s.val a }) ∧
       exec (.acqS a t) s = .next (s.traps { code := 0x05#8, addr := s.val a })) ∧
     (b.hold ≠ .none → ps.any (s.pieceBlocked k true) = true ∨ s.fenceWaits k b.scope = true →
       exec (.rel a t) s = .next (s.waits t)) ∧
     (ps.any (s.pieceBlocked k true) = false → s.fenceWaits k b.scope = false → s.consume k ps = .ok bs u → w % 2 ^ 16 = 0 →
       (b.hold = .exclusive → exec (.rel a t) s = .next (ends (u.writePieces k ps (natToBytes 8
         ((if w.testBit 31 then low - 2 ^ 31 else low) + gen * 2 ^ 32))) .none)) ∧
       (b.hold = .shared → shared ≠ 0 →
         exec (.rel a t) s = .next (ends (u.writePieces k ps (natToBytes 8 (low - 2 ^ 16 + gen * 2 ^ 32))) .none))) ∧
     (b.hold = .none → exec (.rel a t) s = .next (s.traps { code := 0x05#8, addr := s.val a }))) ∧
  (∀ (a : BitVec 5) (t : Option Tok) (s : State), s.goes t →
     let k := s.exe
     let va := s.val a
     let perm : TrapInfo := { code := 0x05#8, addr := va }
     let at_ (tr : TrapInfo) (x : State) : State := takeTrap k tr (s.core k).front.pc (s.core k).front.slot x
     (∀ tr, s.objCheck k 0 va.toNat = .error tr → exec (.acqX a t) s = .next (s.traps tr) ∧
       exec (.acqS a t) s = .next (s.traps tr) ∧ exec (.rel a t) s = .next (s.traps tr)) ∧
     (∀ ps, s.objCheck k 0 va.toNat = .ok ps → (s.core k).bindOf va.toNat = none →
       exec (.acqX a t) s = .next (s.traps perm) ∧ exec (.acqS a t) s = .next (s.traps perm) ∧
       exec (.rel a t) s = .next (s.traps perm)) ∧
     (∀ ps i b u, s.objCheck k 0 va.toNat = .ok ps → (s.core k).bindOf va.toNat = some (i, b) →
       let home := objHome k ps
       let first (x : Bool) : State := s.setObjQueue home [(k, x)]
       let free : Prop := homeHeld ps = false ∧ s.fenceWaits k b.scope = false ∧ s.objQueue home = [] ∧
         ps.any (s.pieceBlocked k true) = false
       (∀ bs, bytesToNat bs % 2 ^ 16 ≠ 0 → b.hold = .none → free →
         ((first true).consume k ps = .ok bs u → exec (.acqX a t) s = .next (at_ perm (u.leaveQueues k))) ∧
         ((first false).consume k ps = .ok bs u → exec (.acqS a t) s = .next (at_ perm (u.leaveQueues k)))) ∧
       (∀ tr, b.hold = .none → free →
         ((first true).consume k ps = .trap tr u → exec (.acqX a t) s = .next (at_ tr (u.leaveQueues k))) ∧
         ((first false).consume k ps = .trap tr u → exec (.acqS a t) s = .next (at_ tr (u.leaveQueues k)))) ∧
       (b.hold ≠ .none → ps.any (s.pieceBlocked k true) = false → s.fenceWaits k b.scope = false →
         (∀ bs, s.consume k ps = .ok bs u →
           bytesToNat bs % 2 ^ 16 ≠ 0 ∨ (b.hold = .shared ∧ bytesToNat bs / 2 ^ 16 % 2 ^ 15 = 0) →
           exec (.rel a t) s = .next (at_ perm u)) ∧
         (∀ tr, s.consume k ps = .trap tr u → exec (.rel a t) s = .next (at_ tr u)))))

/-- R235, R251, R275, R277: a fence waits, its tokens popped, while an access ordered before it is not performed or a
stack of its scope is in self-refresh, and then ends, its core's engines seeing its stores; `iflush` too, at scope
`.sys`: a folded core drops what it flushes from its fetch buffer, the head seat's table at its next taken transfer.
R157, R257, R276: a core at a barrier of any level waits, its tokens popped, until every participant of its unit that
is not out has arrived; then they all go on. A core that has arrived before only waits, and one that was released goes
on (log 7, 83). -/
def Obligations.FencesAndBarriers : Prop :=
  ∀ (a b : BitVec 5) (sc id : BitVec 4) (t : Option Tok) (s : State), s.goes t →
    let k := s.exe
    let quiet : Prop := ∀ n, (s.stack n).selfRefresh = false
    (s.outstanding k = false → quiet → exec (.fence sc t) s = .next ((s.performed k).went k t)) ∧
    (s.outstanding k = false → quiet → (s.core k).seat.st = .folded →
      exec (.iflush a b t) s = .next (((s.performed k).modCore k (fun c =>
        { c with icache := c.icache.filter (fun w => !w.meets (s.val a).toNat (s.val b).toNat) })).went k t)) ∧
    (s.outstanding k = false → quiet → (s.core k).seat.st = .seated → s.head (tableOf k) = some k →
      exec (.iflush a b t) s = .next (((s.performed k).modTable (tableOf k) (fun x =>
        { x with flushes := ((s.val a).toNat, (s.val b).toNat) :: x.flushes })).went k t)) ∧
    (s.outstanding k = false → quiet → (s.core k).seat.st = .seated → s.head (tableOf k) ≠ some k →
      exec (.iflush a b t) s = .next ((s.performed k).went k t)) ∧
    (s.outstanding k = true → exec (.fence sc t) s = .next (s.waits t) ∧ exec (.iflush a b t) s = .next (s.waits t) ∧
      ((s.core k).arrived.contains (sc.truncate 3, id) = false → (s.core k).released.contains (sc.truncate 3, id) = false →
        exec (.bar sc id t) s = .next (s.waits t))) ∧
    (∀ n, (s.stack n).selfRefresh = true → exec (.iflush a b t) s = .next (s.waits t) ∧
      (5 ≤ sc.toNat ∨ (sc = 4#4 ∧ n.extractLsb' 0 3 = dieOf k) → exec (.fence sc t) s = .next (s.waits t))) ∧
    (let quad := quadCores (tableOf k) (quadOf k)
     s.outstanding k = false → (s.core k).arrived.contains (2#3, id) = false → (s.core k).seat.st ≠ .out →
     (s.core k).released.contains (2#3, id) = false →
      ((∀ m ∈ quad, m ≠ k → (s.core m).seat.st = .out ∨ (s.core m).arrived.contains (2#3, id) = true) →
        (∀ x ∈ s.launch.suspended, x.table ≠ tableOf k) →
        ∃ u, exec (.bar 2#4 id t) s = .next u ∧ (u.core k).front.slot = (s.core k).front.next ∧
          (u.core k).arrived = (s.core k).arrived ∧ (u.core k).released = (s.core k).released ∧
          (∀ m ∈ quad, m ≠ k → (s.core m).seat.st ≠ .out →
            (u.core m).arrived.contains (2#3, id) = false ∧ (u.core m).released.contains (2#3, id) = true) ∧
          u.reg k = s.reg k ∧ s.SameBytes u) ∧
      (∀ m ∈ quad, m ≠ k → (s.core m).seat.st ≠ .out → (s.core m).arrived.contains (2#3, id) = false →
        ∃ u, exec (.bar 2#4 id t) s = .next u ∧ (u.core k).front.slot = (s.core k).front.slot ∧
          (u.core k).arrived = (2#3, id) :: (s.core k).arrived ∧ (u.core k).tok = (s.core k).tok.pop t ∧
          (∀ k', k' ≠ k → u.core k' = s.core k'))) ∧
    (let lvl : BitVec 3 := sc.truncate 3
     let p := s.parties k lvl
     let lacks (m : CoreId) : Prop :=
      p.here s m = true ∧ (s.core m).seat.st ≠ .out ∧ (s.core m).arrived.contains (lvl, id) = false
     sc ∈ [3#4, 4#4, 5#4, 7#4] →
      (s.fenceWaits k sc = false → (s.core k).arrived.contains (lvl, id) = false → k ∈ p.cores → (s.core k).seat.st ≠ .out →
       (s.core k).released.contains (lvl, id) = false →
        (s.isPod k lvl = false → (∀ m ∈ p.cores, m ≠ k → ¬lacks m) →
          (∀ x ∈ s.launch.suspended, ∀ m ∈ p.cores, p.saved m x = false) →
          ∃ u, exec (.bar sc id t) s = .next u ∧ (u.core k).front.slot = (s.core k).front.next ∧
            (u.core k).arrived = (s.core k).arrived ∧ (u.core k).released = (s.core k).released ∧
            (∀ m ∈ p.cores, m ≠ k → p.here s m = true → (s.core m).seat.st ≠ .out →
              (u.core m).arrived.contains (lvl, id) = false ∧ (u.core m).released.contains (lvl, id) = true) ∧
            u.reg k = s.reg k ∧ s.SameBytes u) ∧
        (∀ m ∈ p.cores, m ≠ k → lacks m →
          ∃ u, exec (.bar sc id t) s = .next u ∧ (u.core k).front.slot = (s.core k).front.slot ∧
            (u.core k).arrived = (lvl, id) :: (s.core k).arrived ∧ (u.core k).tok = (s.core k).tok.pop t ∧
            (∀ k', k' ≠ k → u.core k' = s.core k')))) ∧
    (let lvl : BitVec 3 := sc.truncate 3
     sc ∈ [2#4, 3#4, 4#4, 5#4, 7#4] →
      ((s.core k).released.contains (lvl, id) = true → exec (.bar sc id t) s = .next (((s.performed k).modCore k (fun c =>
        { c with released := c.released.filter (fun y => decide (y ≠ (lvl, id))) })).went k t)) ∧
      ((s.core k).released.contains (lvl, id) = false → (s.core k).arrived.contains (lvl, id) = true →
        (s.parties k lvl).full s (lvl, id) = false → exec (.bar sc id t) s = .next (s.waits t)))

/-- R215, R216, R284, R285: `ring.init` checks its operands in order and sets the ring up, empty; `ring.acq` drains
the tail slot when it is full, waits, its tokens popped, when it is not, and gives its window address, the loads after
it finding what fills the slot (DESIGN CHOICE, log 83); `ring.rel` frees the oldest slot the control side holds; a
ring that is not set up traps `PERM`. -/
def Obligations.RingResults : Prop :=
  ∀ (d a b : BitVec 5) (t : Option Tok) (s : State), s.goes t →
    let va := s.val a
    let vb := s.val b
    let off := va.toNat - 0xFFFFFFFE000000
    let count := (vb.extractLsb' 0 7).toNat
    let size := (vb.extractLsb' 16 13).toNat
    let inside : Prop := 0xFFFFFFFE000000 ≤ va.toNat ∧ va.toNat < 2 ^ 56
    let fits : Prop := vb.extractLsb' 7 9 = 0#9 ∧ vb.extractLsb' 29 35 = 0#35 ∧ 1 ≤ count ∧ count ≤ 64 ∧ size % 32 = 0 ∧
      32 ≤ size ∧ size ≤ 4096
    let n : BitVec 4 := a.truncate 4
    let r := (s.core s.exe).ring n
    let me : BitVec 4 := memberOf s.exe ++ 0#2
    (¬inside → exec (.ringInit d a b t) s = .next (s.traps { code := 0x05#8, addr := va })) ∧
    (inside → off % 64 ≠ 0 → exec (.ringInit d a b t) s = .next (s.traps { code := 0x01#8, addr := va })) ∧
    (inside → off % 64 = 0 → ¬fits → exec (.ringInit d a b t) s = .next (s.traps { code := 0x01#8, addr := vb })) ∧
    (inside → off % 64 = 0 → fits → 2 ^ 25 < off + count * size →
      exec (.ringInit d a b t) s = .next (s.traps { code := 0x01#8, addr := va })) ∧
    (inside → off % 64 = 0 → fits → off + count * size ≤ 2 ^ 25 → ∃ q : Ring,
      exec (.ringInit d a b t) s = .next (s.did (fun c => c.setRing (d.truncate 4) q) t) ∧ q.val = true ∧
      q.count = count ∧ q.size = size ∧ q.base = off ∧ q.head = 0 ∧ q.tail = 0 ∧ q.filled = 0 ∧ q.free = count ∧
      ∀ j, q.isEmpty j = true) ∧
    (r.val = false → exec (.ringAcq d a t) s = .next (s.traps { code := 0x05#8, addr := n.zeroExtend 64 }) ∧
      exec (.ringRel a t) s = .next (s.traps { code := 0x05#8, addr := n.zeroExtend 64 })) ∧
    (r.val = true → r.isFull r.tail = false → exec (.ringAcq d a t) s = .next (s.waits t)) ∧
    (r.val = true → r.isFull r.tail = true → ∃ q : Ring,
      exec (.ringAcq d a t) s = .next ((s.awaited s.exe).did (fun c => (c.setRing n q).setReg d
        (BitVec.ofNat 64 (0xFFFFFFFE000000 + r.base + r.tail * r.size))) t) ∧
      q.slot r.tail = (3#2 ++ me : BitVec 6) ∧ (∀ j, j < 64 → j ≠ r.tail → q.slot j = r.slot j) ∧
      q.tail = (r.tail + 1) % r.count ∧ q.filled = r.filled - 1 ∧ q.head = r.head ∧ q.free = r.free ∧
      q.count = r.count ∧ q.size = r.size ∧ q.base = r.base ∧ q.val = true) ∧
    (∀ j, r.val = true → r.oldestDraining me = some j → j < 64 → r.free < 127 → ∃ q : Ring,
      exec (.ringRel a t) s = .next (s.did (fun c => c.setRing n q) t) ∧ q.slot j = 0#6 ∧
      (∀ j', j' < 64 → j' ≠ j → q.slot j' = r.slot j') ∧ q.free = r.free + 1 ∧ q.filled = r.filled ∧ q.head = r.head ∧
      q.tail = r.tail ∧ q.count = r.count ∧ q.size = r.size ∧ q.base = r.base ∧ q.val = true) ∧
    (r.val = true → r.oldestDraining me = none →
      exec (.ringRel a t) s = .next (s.traps { code := 0x05#8, addr := n.zeroExtend 64 }))

/-- R212, R213, R279 to R281: `tset` writes one whole entry of the tag table, or traps `ILLENC` with the operand that
breaks the table of R280; `tclr` clears one entry or all; `tlook` gives the lowest entry an address hits, with the
tower offset, or all ones. -/
def Obligations.TagTable : Prop :=
  ∀ (d a b : BitVec 5) (t : Option Tok) (s : State), s.goes t →
    let va := s.val a
    let vb := s.val b
    let c := s.core s.exe
    let sz := (va.extractLsb' 0 3).toNat
    let line := (vb.extractLsb' 10 16).toNat
    let entry (i : Nat) : BitVec 128 := c.tags.get 0#128 (BitVec.ofNat 10 i)
    let hit (i : Nat) : Prop := va.toNat < 2 ^ 56 ∧ tagV (entry i) = true ∧
      va.toNat / 512 / 2 ^ tagSz (entry i) = tagBlock (entry i) / 2 ^ tagSz (entry i)
    let bok : Prop := vb.extractLsb' 28 36 = 0#36 ∧ line % 2 ^ sz = 0 ∧ line + 2 ^ sz ≤ 65536
    let aok : Prop := va.extractLsb' 56 8 = 0#8 ∧ va.extractLsb' 3 6 = 0#6 ∧ (va.extractLsb' 9 47).toNat % 2 ^ sz = 0
    (¬bok → exec (.tset a b t) s = .next (s.traps { code := 0x01#8, addr := vb })) ∧
    (bok → ¬aok → exec (.tset a b t) s = .next (s.traps { code := 0x01#8, addr := va })) ∧
    (bok → aok → ∃ e : BitVec 128,
      exec (.tset a b t) s = .next (s.did (fun c => { c with tags := c.tags.set (vb.extractLsb' 0 10) e }) t) ∧
      tagV e = vb.getLsbD 27 ∧ tagClean e = vb.getLsbD 26 ∧ tagLine e = line ∧ tagSz e = sz ∧
      tagBlock e = (va.extractLsb' 9 47).toNat) ∧
    (va.extractLsb' 11 53 ≠ 0#53 → exec (.tclr a t) s = .next (s.traps { code := 0x01#8, addr := va })) ∧
    (va.extractLsb' 11 53 = 0#53 → ∃ m : Bank (BitVec 10) (BitVec 128),
      exec (.tclr a t) s = .next (s.did (fun c => { c with tags := m }) t) ∧
      ∀ i, m.get 0#128 i = if va.getLsbD 10 = true ∨ i = va.extractLsb' 0 10 then 0#128 else c.tags.get 0#128 i) ∧
    ((∀ i, i < 1024 → ¬hit i) → exec (.tlook d a t) s = .next (s.puts d (BitVec.allOnes 64) t)) ∧
    (∀ i, i < 1024 → hit i → (∀ j, j < i → ¬hit j) →
      exec (.tlook d a t) s = .next (s.puts d (BitVec.ofNat 64 ((if tagClean (entry i) then 2 ^ 62 else 0) + i * 2 ^ 32
        + (512 * tagLine (entry i) + va.toNat % (512 * 2 ^ tagSz (entry i))) % 2 ^ 25)) t))

/-- COMPLETION of the row, shape, deferral and poison instructions, in every state in which their tokens let them go:
`rowpin` at an address of the tower window whose subarray no other line holds (R196, R283); `rowwb` and `rowrel`
always (R196); `shset` with a code and a value that it takes (R288); `shld` of a clean image in the window (R289);
`refdefer` of a range of the window (R290); `poison` at supervisor level in the window (R291). R196 to R198, R283:
`rowpin` pins a line to a row of the window unless another line holds its subarray (`PERM`), and clears the line's
PDROP bit; `rowwb` and `rowrel` write the line back, `rowrel` freeing it; none of them changes what any byte or poison
bit of the tower reads as (while no cell is stuck at 0, R295), and the lines stay apart. R286 to R289: `shset` writes
one field of a shape register and leaves the others, or traps `ILLENC` on a value the field does not take; `shget`
reads one; `shld` loads an image of 64 bytes, or traps `ILLENC` on its reserved bits. R200, R290: `refdefer` marks
every subarray that holds a byte of the range; R291, R197: `poison` sets the poison bit of a tower sector, and changes
no byte. -/
def Obligations.TowerControl : Prop :=
  (∀ (d a b : BitVec 5) (keep : BitVec 1) (off : Nat) (t : Option Tok) (s : State), s.goes t →
     let c := s.core s.exe
     let inside : Prop := off < 2 ^ 25 ∧ (s.val a).toNat = 0xFFFFFFFE000000 + off
     (inside → c.tower.subPinned d (BitVec.ofNat 16 (off / 512)) = false →
       ∃ u, exec (.rowpin d a keep t) s = .next u ∧ s.leftSlot u ∧ ((u.core s.exe).tower.line d).isSome = true) ∧
     (∃ u, exec (.rowwb d t) s = .next u ∧ s.leftSlot u ∧ (u.core s.exe).tower.line d = c.tower.line d) ∧
     (∃ u, exec (.rowrel d t) s = .next u ∧ s.leftSlot u ∧ (u.core s.exe).tower.line d = none) ∧
     (b.toNat < 14 → (s.val a).toNat < 2 ^ (shField b.toNat).2.2.1 →
       ((shField b.toNat).2.2.2 = true → (s.val a).toNat < 2 ^ 47) →
       ∃ u, exec (.shset d a b t) s = .next u ∧ s.leftSlot u ∧
         shGet ((u.core s.exe).shape (d.truncate 4)) b.toNat = s.val a) ∧
     (inside → off % 64 = 0 → (c.tower.scrub off 64).2 = (0, 0) → c.tower.firstPoison off 64 = none →
       shapeOk (BitVec.ofNat 512 (bytesToNat (c.tower.read off 64))) = true →
       ∃ u, exec (.shld d a t) s = .next u ∧ s.leftSlot u ∧
         ((u.core s.exe).shape (d.truncate 4)).toNat = bytesToNat (c.tower.read off 64)) ∧
     (inside → off + (s.val b).toNat ≤ 2 ^ 25 →
       ∃ u, exec (.refdefer a b t) s = .next u ∧ s.leftSlot u ∧
         (s.val b ≠ 0#64 → Marks.has (u.core s.exe).tower.defer (off / 512 % 1024) = true)) ∧
     (inside → c.ctl.cst.getLsbD 11 = true →
       ∃ u, exec (.poison a t) s = .next u ∧ s.leftSlot u ∧ (u.core s.exe).tower.poisoned off = true)) ∧
  (∀ (d a : BitVec 5) (keep : BitVec 1) (off : Nat) (t : Option Tok) (s : State), s.goes t →
     linesApart (s.core s.exe).tower →
     let old := (s.core s.exe).tower
     let row : BitVec 16 := BitVec.ofNat 16 (off / 512)
     let same (x : Tower) : Prop := linesApart x ∧
       (∀ o, o < 2 ^ 25 → (old.stuck = [] → x.byte o = old.byte o) ∧ x.poisoned o = old.poisoned o) ∧
       (∀ n, n ≠ d → x.line n = old.line n)
     (off < 2 ^ 25 → (s.val a).toNat = 0xFFFFFFFE000000 + off →
       (old.subPinned d row = true →
         exec (.rowpin d a keep t) s = .next (s.traps { code := 0x05#8, addr := s.val a })) ∧
       (old.subPinned d row = false → ∃ x l, x.line d = some l ∧ l.row = row ∧ l.keep = decide (keep = 1#1) ∧ same x ∧
         exec (.rowpin d a keep t) s = .next (s.did (fun c =>
           { c with tower := x, ctl := { c.ctl with cst := setBit c.ctl.cst (32 + d.toNat) false } }) t))) ∧
     (∃ x, x.line d = old.line d ∧ same x ∧ exec (.rowwb d t) s = .next (s.did (fun c => { c with tower := x }) t)) ∧
     (∃ x, x.line d = none ∧ same x ∧ exec (.rowrel d t) s = .next (s.did (fun c => { c with tower := x }) t))) ∧
  (∀ (d a b : BitVec 5) (off : Nat) (t : Option Tok) (s : State), s.goes t →
     let c := s.core s.exe
     let va := s.val a
     let fields : List (Nat × Nat × Nat × Nat × Bool) := [(0, 0, 0, 56, false), (1, 0, 56, 1, false), (2, 1, 0, 5, false),
       (3, 1, 5, 3, false), (4, 1, 8, 2, false), (5, 1, 10, 3, false), (6, 2, 0, 56, false), (7, 3, 0, 16, false),
       (8, 3, 16, 16, false), (9, 3, 32, 16, false), (10, 3, 48, 16, false), (11, 4, 0, 48, true), (12, 5, 0, 48, true),
       (13, 6, 0, 48, true)]
     let get (x : BitVec 512) (n lo len : Nat) : Nat := x.toNat / 2 ^ (64 * n + lo) % 2 ^ len
     (∀ n lo len sg, (b.toNat, n, lo, len, sg) ∈ fields →
       let takes : Prop := if sg then va.extractLsb' 47 17 = 0#17 ∨ va.extractLsb' 47 17 = 0x1FFFF#17 else va.toNat < 2 ^ len
       (takes → ∃ x : BitVec 512,
         exec (.shset d a b t) s = .next (s.did (fun c => { c with shapes := c.shapes.set (d.truncate 4) x }) t) ∧
         get x n lo len = va.toNat % 2 ^ len ∧
         ∀ m n' lo' len' sg', (m, n', lo', len', sg') ∈ fields → m ≠ b.toNat →
           get x n' lo' len' = get (c.shape (d.truncate 4)) n' lo' len') ∧
       (¬takes → exec (.shset d a b t) s = .next (s.traps { code := 0x01#8, addr := va })) ∧
       (let v := get (c.shape (a.truncate 4)) n lo len
        exec (.shget d a b t) s = .next (s.puts d
          (if sg ∧ 2 ^ 47 ≤ v then BitVec.ofInt 64 ((v : Int) - 2 ^ 48) else BitVec.ofNat 64 v) t))) ∧
     (off < 2 ^ 25 → off % 64 = 0 → va.toNat = 0xFFFFFFFE000000 + off → (c.tower.scrub off 64).2 = (0, 0) →
       c.tower.firstPoison off 64 = none →
       let x : BitVec 512 := BitVec.ofNat 512 (bytesToNat (c.tower.read off 64))
       let clean : Prop := x.extractLsb' 57 7 = 0#7 ∧ x.extractLsb' 77 51 = 0#51 ∧ x.extractLsb' 184 8 = 0#8 ∧
         x.extractLsb' 304 16 = 0#16 ∧ x.extractLsb' 368 16 = 0#16 ∧ x.extractLsb' 432 16 = 0#16 ∧ x.extractLsb' 448 64 = 0#64
       (clean → exec (.shld d a t) s =
         .next (s.did (fun c => { c with shapes := c.shapes.set (d.truncate 4) x }) t)) ∧
       (¬clean → exec (.shld d a t) s = .next (s.traps { code := 0x01#8, addr := va })))) ∧
  (∀ (a b : BitVec 5) (off : Nat) (t : Option Tok) (s : State), s.goes t → off < 2 ^ 25 →
     (s.val a).toNat = 0xFFFFFFFE000000 + off →
     let c := s.core s.exe
     let n := (s.val b).toNat
     (n = 0 → exec (.refdefer a b t) s = .next (s.went s.exe t)) ∧
     (n ≠ 0 → 2 ^ 25 < off + n → exec (.refdefer a b t) s = .next (s.traps { code := 0x05#8, addr := s.val a })) ∧
     (n ≠ 0 → off + n ≤ 2 ^ 25 → ∃ m : Marks,
       exec (.refdefer a b t) s = .next (s.did (fun c => { c with tower := { c.tower with defer := m } }) t) ∧
       ∀ sub, sub < 1024 → (Marks.has m sub = true ↔
         Marks.has c.tower.defer sub = true ∨ ∃ o, off ≤ o ∧ o < off + n ∧ o / 512 % 1024 = sub)) ∧
     (c.ctl.cst.getLsbD 11 = true → ∃ x : Tower,
       exec (.poison a t) s = .next (s.did (fun c => { c with tower := x }) t) ∧
       (∀ o, x.byte o = c.tower.byte o) ∧
       (∀ o, o < 2 ^ 25 → x.poisoned o = (c.tower.poisoned o || decide (o / 32 = off / 32)))))

/-! ## Vector, matrix, drill and furrow instructions -/

/-- R169 to R172, R179, R180, with R121, R135, R160 to R166: the element-wise float instructions give each active
element of vd the operation's value on the elements read, delivered; a subfield or a position outside the element
traps `ILLENC`. The model's readings: `exp2`, `log2`, `tanh`, `rsqrt`, the divisions and roots are truncations with a
sticky mark, rounded once (PRESUMED, log 20); `v.qnt` of an infinite dividend (DEDUCED, log 34); two NaNs in `v.min`
and `v.max` (DEDUCED, log 35); every `dpos` with nw = 0 is accepted (DESIGN CHOICE, log 76). -/
def Obligations.VectorFloat : Prop :=
  ∀ (d a b : BitVec 6) (p : BitVec 4) (n : BitVec 1) (x : Option VExt) (y : VExt) (t : Option Tok) (s : State),
    s.engineGoes .v t →
    let w := accW (s.core s.exe).ctl.acct
    let e := x.getD vextDefault
    let fits (z : VExt) (cs : List (BitVec 4)) : Bool := cs.all (partOk w) && dposOk w z.nw z.dpos
    let gives (i : Instr) (z : VExt) (cs : List (BitVec 4)) (conv draws : Bool) (f : VIn → Nat → Mode → VRes) : Prop :=
      (fits z cs = true → s.lanes i z d p n conv draws f) ∧
      (fits z cs = false → exec i s = .next (s.engineTraps .v i { code := 0x01#8 }))
    let va (v : VIn) (k : Nat) : Val := v.val a v.x.sa k
    let vb (v : VIn) (k : Nat) : Val := v.val b v.x.sb k
    let one (i : Instr) (f : Mode → Val → Val × Fl) : Prop :=
      gives i e [e.sa] false true (fun v k m => .flt (f m (va v k)).1 (f m (va v k)).2)
    let two (i : Instr) (f : Mode → Val → Val → Val × Fl) : Prop :=
      gives i e [e.sa, e.sb] false true (fun v k m => .flt (f m (va v k) (vb v k)).1 (f m (va v k) (vb v k)).2)
    let picks (i : Instr) (f : Val → Val → Val) : Prop :=
      gives i e [e.sa, e.sb] false (decide (e.nw ≠ 0#4)) (fun v k _ =>
        let r := f (va v k) (vb v k)
        if v.x.nw = 0#4 ∧ v.x.sa = 0#4 ∧ v.x.sb = 0#4 then
          (if r.isNan then .raw ((v.ef.nanBits).getD 0) else .raw (if r = va v k then v.el a k else v.el b k))
        else .flt r 0#6)
    let signs (i : Instr) (g : Nat → Nat → Nat) (f : Val → Val) : Prop :=
      gives i e [e.sa] false (decide (e.nw ≠ 0#4)) (fun v k _ =>
        if v.x.nw = 0#4 ∧ v.x.sa = 0#4 then .raw (g (2 ^ (v.w - 1)) (v.el a k)) else .flt (f (va v k)) 0#6)
    two (.vAdd d a b p n x t) (fun m u v => Val.add m u v) ∧
    two (.vSub d a b p n x t) (fun m u v => Val.add m u v.negate) ∧
    two (.vMul d a b p n x t) (fun _ u v => Val.mul u v) ∧
    two (.vDiv d a b p n x t) (fun _ u v => Val.div u v) ∧
    gives (.vFma d a b p n y t) y [y.sa, y.sb, y.scf] false true (fun v k m =>
      .flt (Val.fma m (va v k) (vb v k) (v.val y.c y.scf k)).1 (Val.fma m (va v k) (vb v k) (v.val y.c y.scf k)).2) ∧
    picks (.vMin d a b p n x t) Val.min ∧
    picks (.vMax d a b p n x t) Val.max ∧
    signs (.vAbs d a p n x t) (fun top q => q % top) Val.abs ∧
    signs (.vNeg d a p n x t) (fun top q => if q < top then q + top else q - top) Val.negate ∧
    one (.vSqrt d a p n x t) (fun _ u => Val.sqrt u) ∧
    one (.vRcp d a p n x t) (fun _ u => Val.div (.fin false 1 0 false) u) ∧
    one (.vRsqrt d a p n x t) (fun _ u => Val.rsqrt u) ∧
    one (.vExp2 d a p n x t) (fun _ u => (Val.exp2 u, 0#6)) ∧
    one (.vLog2 d a p n x t) (fun _ u => Val.log2 u) ∧
    one (.vTanh d a p n x t) (fun _ u => (Val.tanh u, 0#6)) ∧
    gives (.vCvtIf d a p n x t) e [e.sa] true true (fun v k _ => .flt (Val.ofInt (v.int v.signed a v.x.sa k)) 0#6) ∧
    gives (.vCvtFf d a p n x t) e [e.sa] true true (fun v k _ => .flt (va v k) 0#6) ∧
    gives (.vCvtFi d a p n x t) e [e.sa] true true (fun v k m =>
      if v.x.nw = 0#4 then
        let r := floatToInt m (-(2 ^ (v.w - 1) : Int)) (2 ^ (v.w - 1) - 1) (va v k)
        .bits (r.1 % (2 ^ v.w : Int)).toNat r.2
      else .flt (va v k) 0#6) ∧
    gives (.vQnt d a b p n y t) { y with sat := true } [y.sa, y.sb] false true (fun v k _ =>
      let q := Val.div (va v k) (vb v k)
      if q.2 = 0x02#6 then .flt (maxVal (nwTy y.nw) q.1.neg?) q.2 else .flt q.1 q.2)

/-- R169, R172 to R176, R181, with R135, R160 to R166: the element-wise integer instructions, likewise; a shift
distance of the width or more leaves zeros or copies of the sign; `v.dp4` asks 32-bit elements. Every `dpos` with nw =
0 is accepted (DESIGN CHOICE, log 76). -/
def Obligations.VectorInteger : Prop :=
  ∀ (d a b j : BitVec 6) (p : BitVec 4) (n : BitVec 1) (x : Option VExt) (y : VExt) (t : Option Tok) (s : State),
    s.engineGoes .v t →
    let w := accW (s.core s.exe).ctl.acct
    let e := x.getD vextDefault
    let fits (z : VExt) (cs : List (BitVec 4)) : Bool := cs.all (partOk w) && dposOk w z.nw z.dpos
    let rounds (z : VExt) : Bool := decide (z.nw ≠ 0#4) && (nwTy z.nw).isFlt
    let gives (i : Instr) (z : VExt) (cs : List (BitVec 4)) (draws : Bool) (f : VIn → Nat → Mode → VRes) : Prop :=
      (fits z cs = true → s.lanes i z d p n false draws f) ∧
      (fits z cs = false → exec i s = .next (s.engineTraps .v i { code := 0x01#8 }))
    let ints (i : Instr) (cs : List (BitVec 4)) (f : VIn → Nat → Bool × Int) : Prop :=
      gives i e cs (rounds e) (fun v k _ => .int (f v k).1 (f v k).2)
    let pats (i : Instr) (z : VExt) (cs : List (BitVec 4)) (f : VIn → Nat → Nat) : Prop :=
      gives i z cs (rounds z) (fun v k _ =>
        if v.x.nw = 0#4 then .raw (f v k) else .int v.signed (readInt v.signed v.w (f v k % 2 ^ v.w)))
    let ia (g : Bool) (v : VIn) (k : Nat) : Int := v.int g a v.x.sa k
    let ib (g : Bool) (v : VIn) (k : Nat) : Int := v.int g b v.x.sb k
    let pa (v : VIn) (k : Nat) : Nat := v.pat a v.x.sa k
    let pb (v : VIn) (k : Nat) : Nat := v.pat b v.x.sb k
    let part (v : VIn) (k : Nat) : Nat := partBits v.w v.x.sa (v.el a k)
    let wide (v : VIn) : Nat := (partOf v.w v.x.sa).1
    let shl (v : VIn) (q m : Nat) : Nat := if v.w ≤ m then 0 else q * 2 ^ m % 2 ^ v.w
    let shr (v : VIn) (q m : Nat) : Nat := if v.w ≤ m then 0 else q / 2 ^ m
    let sar (v : VIn) (q m : Nat) : Nat :=
      (((if 2 ^ (v.w - 1) ≤ q then (q : Int) - 2 ^ v.w else q) / (2 ^ (min m v.w) : Int)) % (2 ^ v.w : Int)).toNat
    let ab : List (BitVec 4) := [e.sa, e.sb]
    ints (.vIadd d a b p n x t) ab (fun v k => (v.signed, ia v.signed v k + ib v.signed v k)) ∧
    ints (.vIsub d a b p n x t) ab (fun v k => (v.signed, ia v.signed v k - ib v.signed v k)) ∧
    ints (.vImul d a b p n x t) ab (fun v k => (v.signed, ia v.signed v k * ib v.signed v k)) ∧
    ints (.vImin d a b p n x t) ab (fun v k => (true, min (ia true v k) (ib true v k))) ∧
    ints (.vNmin d a b p n x t) ab (fun v k => (false, min (ia false v k) (ib false v k))) ∧
    ints (.vImax d a b p n x t) ab (fun v k => (true, max (ia true v k) (ib true v k))) ∧
    ints (.vNmax d a b p n x t) ab (fun v k => (false, max (ia false v k) (ib false v k))) ∧
    ints (.vIabs d a p n x t) [e.sa] (fun v k => (v.signed, (ia v.signed v k).natAbs)) ∧
    ints (.vClz d a p n x t) [e.sa] (fun v k =>
      (v.signed, if part v k = 0 then wide v else (wide v : Int) - 1 - (part v k).log2)) ∧
    ints (.vPopc d a p n x t) [e.sa] (fun v k =>
      (v.signed, ((List.range (wide v)).filter (part v k).testBit).length)) ∧
    ints (.vFfs d a p n x t) [e.sa] (fun v k =>
      (v.signed, if part v k = 0 then wide v else (part v k).log2)) ∧
    pats (.vAnd d a b p n x t) e ab (fun v k => pa v k &&& pb v k) ∧
    pats (.vOr d a b p n x t) e ab (fun v k => pa v k ||| pb v k) ∧
    pats (.vXor d a b p n x t) e ab (fun v k => pa v k ^^^ pb v k) ∧
    pats (.vNot d a p n x t) e [e.sa] (fun v k => 2 ^ v.w - 1 - pa v k) ∧
    pats (.vShl d a b p n x t) e ab (fun v k => shl v (pa v k) (pb v k)) ∧
    pats (.vShr d a b p n x t) e ab (fun v k => shr v (pa v k) (pb v k)) ∧
    pats (.vSar d a b p n x t) e ab (fun v k => sar v (pa v k) (pb v k)) ∧
    pats (.vShli d a j p n x t) e [e.sa] (fun v k => shl v (pa v k) j.toNat) ∧
    pats (.vShri d a j p n x t) e [e.sa] (fun v k => shr v (pa v k) j.toNat) ∧
    pats (.vSari d a j p n x t) e [e.sa] (fun v k => sar v (pa v k) j.toNat) ∧
    pats (.vFsh d a b p n y t) y [y.sa, y.sb, y.scf] (fun v k =>
      (pa v k * 2 ^ v.w + pb v k) * 2 ^ (v.pat y.c y.scf k % (2 * v.w)) / 2 ^ v.w % 2 ^ v.w) ∧
    gives (.vRshr d a j p n x t) { e with sat := true } [e.sa] true (fun v k m =>
      .int v.signed (match (Val.fin (decide (ia v.signed v k < 0)) (ia v.signed v k).natAbs (-(j.toNat : Int)) false).toIntegral m with
        | some q => q.1
        | none => 0)) ∧
    (let i := Instr.vDp4 d a b p n x t
     let byte (v : VIn) (z q : Nat) : Int := readInt v.signed 8 (z / 2 ^ (8 * q) % 256)
     (w = 32 ∧ fits e [] = true → s.lanes i e d p n false (rounds e) (fun v k _ =>
        .int v.signed (readInt v.signed 32 (v.el d k) + byte v (v.el a k) 0 * byte v (v.el b k) 0 +
          byte v (v.el a k) 1 * byte v (v.el b k) 1 + byte v (v.el a k) 2 * byte v (v.el b k) 2 +
          byte v (v.el a k) 3 * byte v (v.el b k) 3))) ∧
     (¬(w = 32 ∧ fits e [] = true) → exec i s = .next (s.engineTraps .v i { code := 0x01#8 })))

/-- R178, R184 to R188: the moves: `v.sel`, `v.perm`, `v.bcast` and `v.cex` place elements unchanged; `v.ins` replaces
one element, `v.ext` gives one, `v.seed` starts the generators of the lanes with active elements, `v.lse` merges
triples of three rows; the model's choices: every `dpos` with nw = 0 is accepted (DESIGN CHOICE, log 76), and at
another width `v.lse` traps `ILLENC` before `GRPWRAP` (DESIGN CHOICE, log 87). -/
def Obligations.VectorMoves : Prop :=
  ∀ (d a b : BitVec 6) (g : BitVec 5) (p : BitVec 4) (n : BitVec 1) (x : Option VExt) (t : Option Tok) (s : State),
    s.engineGoes .v t →
    let k := s.exe
    let c := s.core k
    let e := x.getD vextDefault
    let v : VIn := s.vin (.vNop t) e
    let illenc (i : Instr) : Prop := exec i s = .next (s.engineTraps .v i { code := 0x01#8 })
    let places (i : Instr) (p : BitVec 4) (n : BitVec 1) (f : VIn → Nat → Nat) : Prop :=
      (dposOk v.w e.nw e.dpos = true → s.lanes i e d p n false false (fun v k _ => .raw (f v k))) ∧
      (dposOk v.w e.nw e.dpos = false → illenc i)
    places (.vSel d a b p n x t) 0#4 0#1 (fun v k => if v.active p n k then v.el a k else v.el b k) ∧
    places (.vPerm d a b p n x t) p n (fun v k => v.el a (v.el b k % 64 % v.n)) ∧
    places (.vBcast d g p n x t) p n (fun _ _ => (s.val g).toNat) ∧
    places (.vCex d a b p n x t) p n (fun v k =>
      let q := v.el b k % 64 % v.n
      let low := decide (k < q) != (v.el b k).testBit 6
      if q ≠ k ∧ low = true ∧ cexBefore v (v.el a q) (v.el a k) = true then v.el a q
      else if q ≠ k ∧ low = false ∧ cexBefore v (v.el a k) (v.el a q) = true then v.el a q
      else v.el a k) ∧
    (let i := Instr.vIns d a g p n x t
     (v.n ≤ a.toNat → illenc i) ∧
     (a.toNat < v.n → ∃ u, v.Row d (fun m => if m = a.toNat ∧ v.active p n m = true then (s.val g).toNat else v.el d m) u ∧
        exec i s = .next (s.engineDid (fun c => { c with vec := u }) i))) ∧
    (let i := Instr.vExt d a g p n x t
     (v.n ≤ d.toNat → illenc i) ∧
     (d.toNat < v.n → v.active p n d.toNat = true →
        exec i s = .next (s.engineDid (fun c => c.setReg g (BitVec.ofNat 64 (v.el a d.toNat))) i)) ∧
     (d.toNat < v.n → v.active p n d.toNat = false → exec i s = .next (s.engineWent k i))) ∧
    (let i := Instr.vSeed g p n x t
     ∃ u, exec i s = .next (s.engineDid (fun c => { c with vec := u }) i) ∧
        (∀ lane, lane < 32 → u.gen lane =
          if ∃ m, m < v.n ∧ laneOf v.n m = lane ∧ v.active p n m = true then
            seedLane (BitVec.ofNat 5 lane) ((s.val g).truncate 32) else c.vec.gen lane) ∧
        u.acc0 = c.vec.acc0 ∧ u.acc1 = c.vec.acc1 ∧ u.preds = c.vec.preds ∧ u.exposed = c.vec.exposed) ∧
    (let i := Instr.vLse d a b p n x t
     let wraps (r : BitVec 6) : Prop := r.toNat / 32 ≠ (r.toNat + 2) / 32
     let merged (m : Nat) : (Nat × Nat × Nat) × Fl :=
       lseMerge (v.el a m) (v.el (a + 1#6) m) (v.el (a + 2#6) m) (v.el b m) (v.el (b + 1#6) m) (v.el (b + 2#6) m)
     (v.w ≠ 32 → illenc i) ∧
     (v.w = 32 → wraps d ∨ wraps a ∨ wraps b → exec i s = .next (s.engineTraps .v i { code := 0x08#8 })) ∧
     (v.w = 32 → ¬(wraps d ∨ wraps a ∨ wraps b) → ∃ u,
        exec i s = .next (s.engineDid (fun c => { c with vec := u }.raise
          (((List.range 32).filter (v.active p n)).foldl (fun fl m => fl ||| (merged m).2) 0#6)) i) ∧
        (∀ m, m < 32 → ∀ (r : BitVec 6) (f : Nat × Nat × Nat → Nat),
          (r, f) ∈ [(d, fun q => q.1), (d + 1#6, fun q => q.2.1), (d + 2#6, fun q => q.2.2)] →
          elemAt (u.row (vrow c.ctl.vrb r)) 32 m = if v.active p n m then f (merged m).1 % 2 ^ 32 else v.el r m) ∧
        (∀ r, r ≠ vrow c.ctl.vrb d → r ≠ vrow c.ctl.vrb (d + 1#6) → r ≠ vrow c.ctl.vrb (d + 2#6) →
          u.row r = c.vec.row r) ∧
        u.tile true = c.vec.tile true ∧ u.preds = c.vec.preds ∧ u.exposed = c.vec.exposed ∧ u.gens = c.vec.gens))

/-- R135, R177, R189: a comparison sets the active bits of its predicate, keeps the inactive ones, and clears those
from N up, under `?!p0` too (DEDUCED, log 88); predicate logic works on all bits below N; `p.cnt` counts the ones;
predicate register 0 discards what is written. -/
def Obligations.Predicates : Prop :=
  ∀ (q r o : BitVec 4) (a b : BitVec 6) (g : BitVec 5) (p : BitVec 4) (n : BitVec 1) (x : Option VExt) (t : Option Tok)
    (s : State), s.engineGoes .v t →
    let c := s.core s.exe
    let e := x.getD vextDefault
    let v : VIn := s.vin (.vNop t) e
    let P (m : BitVec 4) : Word := c.vec.pred (ppred c.ctl.prb m)
    let puts (i : Instr) (y : Word) (fl : Fl) : State :=
      s.engineDid (fun c => { c with vec := c.vec.setPred (ppred c.ctl.prb q) y }.raise fl) i
    let compares (i : Instr) (f : Nat → Bool × Fl) : Prop :=
      (v.ok [e.sa, e.sb] = true → ∃ y : Word,
        exec i s = .next (puts i y (((List.range v.n).filter (v.active p n)).foldl (fun fl k => fl ||| (f k).2) 0#6)) ∧
        ∀ k, k < 64 → y.getLsbD k = if k < v.n then (if v.active p n k then (f k).1 else (P q).getLsbD k) else false) ∧
      (v.ok [e.sa, e.sb] = false → exec i s = .next (s.engineTraps .v i { code := 0x01#8 }))
    let va (k : Nat) : Val := v.val a e.sa k
    let vb (k : Nat) : Val := v.val b e.sb k
    let nan (k : Nat) : Bool := (va k).isNan || (vb k).isNan
    let ordered (h : Int → Bool) (k : Nat) : Bool × Fl := if nan k then (false, 0x01#6) else (h (Val.cmp (va k) (vb k)), 0#6)
    let logic (i : Instr) (f : Nat → Bool) : Prop := ∃ y : Word, exec i s = .next (puts i y 0#6) ∧
      ∀ k, k < 64 → y.getLsbD k = (decide (k < v.n) && f k)
    compares (.vFeq q a b p n x t) (fun k => (!nan k && decide (Val.cmp (va k) (vb k) = 0), 0#6)) ∧
    compares (.vFlt q a b p n x t) (ordered (fun z => decide (z < 0))) ∧
    compares (.vFle q a b p n x t) (ordered (fun z => decide (z ≤ 0))) ∧
    compares (.vIeq q a b p n x t) (fun k => (decide (v.pat a e.sa k = v.pat b e.sb k), 0#6)) ∧
    compares (.vIlt q a b p n x t) (fun k => (decide (v.int true a e.sa k < v.int true b e.sb k), 0#6)) ∧
    compares (.vNlt q a b p n x t) (fun k => (decide (v.int false a e.sa k < v.int false b e.sb k), 0#6)) ∧
    logic (.pAnd q r o t) (fun k => (P r).getLsbD k && (P o).getLsbD k) ∧
    logic (.pOr q r o t) (fun k => (P r).getLsbD k || (P o).getLsbD k) ∧
    logic (.pXor q r o t) (fun k => (P r).getLsbD k != (P o).getLsbD k) ∧
    logic (.pAndn q r o t) (fun k => (P r).getLsbD k && !(P o).getLsbD k) ∧
    logic (.pNot q r t) (fun k => !(P r).getLsbD k) ∧
    (exec (.pCnt r g t) s = .next (s.engineDid (fun c =>
      c.setReg g (BitVec.ofNat 64 ((List.range v.n).filter (P r).getLsbD).length)) (.pCnt r g t))) ∧
    (∀ (u : Vec) (m : BitVec 4) (y : Word), (u.setPred m y).pred 0#4 = BitVec.allOnes 64 ∧
      (∀ m', m' ≠ m ∨ m = 0#4 → (u.setPred m y).pred m' = u.pred m') ∧ (m ≠ 0#4 → (u.setPred m y).pred m = y))

/-- R128, R182, R183: a reduction gives every element of vd, active or not, the result of the pairwise tree, an
inactive element standing as the operation's identity: the sum of the active integers modulo the width when nothing
saturates, their greatest, their least; the scan gives each active element, and keeps the others. Under `?!p0` a
reduction gives its identity, and nothing else changes (R167); a scan's NaN is the canonical one (R112). -/
def Obligations.VectorReductions : Prop :=
  ∀ (d a : BitVec 6) (p : BitVec 4) (n : BitVec 1) (x : Option VExt) (t : Option Tok) (s : State), s.engineGoes .v t →
    let c := s.core s.exe
    let e := x.getD vextDefault
    let v : VIn := s.vin (.vNop t) e
    let els (o : RedOp) : List Nat := (List.range v.n).map (redEl v o a p n)
    let never : Prop := ppred c.ctl.prb p = 0#4 ∧ n = 1#1
    let tree (o : RedOp) : Nat × (Vec × Fl) := if never then (redIdent v o, (c.vec, 0#6)) else
      pairwise (fun lvl ix l r st => redNode v o (ix * 2 ^ lvl) l r st) (redIdent v o) (els o) (c.vec, 0#6)
    let on : List Int := ((List.range v.n).filter (v.active p n)).map (v.int v.signed a e.sa)
    let whole : Bool := decide (e.sfmt.toNat < 2)
    let num (q : Nat) : Int := if v.signed = true ∧ 2 ^ (v.w - 1) ≤ q then (q : Int) - 2 ^ v.w else q
    let reduces (i : Instr) (o : RedOp) : Prop := ∃ u,
      exec i s = .next (s.engineDid (fun c => { c with vec := u }.raise (tree o).2.2) i) ∧
      (∀ m, m < v.n → elemAt (u.row (vrow c.ctl.vrb d)) v.w m = (tree o).1 % 2 ^ v.w) ∧
      (∀ r, r ≠ vrow c.ctl.vrb d → u.row r = c.vec.row r) ∧ u.preds = c.vec.preds ∧ u.exposed = c.vec.exposed
    (v.ok [e.sa] = false → ∀ i ∈ [Instr.vRadd d a p n x t, .vRmax d a p n x t, .vRmin d a p n x t, .vScan d a p n x t],
      exec i s = .next (s.engineTraps .v i { code := 0x01#8 })) ∧
    (v.ok [e.sa] = true →
      reduces (.vRadd d a p n x t) .add ∧ reduces (.vRmax d a p n x t) .max ∧ reduces (.vRmin d a p n x t) .min ∧
      (whole = true → e.sat = false → ((tree .add).1 : Int) % 2 ^ v.w = on.sum % 2 ^ v.w) ∧
      (whole = true → (tree .max).2.2 = 0#6 ∧ (∀ z ∈ on, z ≤ num (tree .max).1) ∧ (on ≠ [] → num (tree .max).1 ∈ on)) ∧
      (whole = true → (tree .min).2.2 = 0#6 ∧ (∀ z ∈ on, num (tree .min).1 ≤ z) ∧ (on ≠ [] → num (tree .min).1 ∈ on)) ∧
      (never → exec (.vScan d a p n x t) s = .next (s.engineWent s.exe (.vScan d a p n x t))) ∧
      (¬never → let out := scanAll v 7 1 (els .add) (c.vec, 0#6)
       ∃ u, exec (.vScan d a p n x t) s =
          .next (s.engineDid (fun c => { c with vec := u }.raise out.2.2) (.vScan d a p n x t)) ∧
        (∀ m, m < v.n → elemAt (u.row (vrow c.ctl.vrb d)) v.w m =
          if v.active p n m then
            (if 2 ≤ e.sfmt.toNat ∧ (v.ef.decode (out.1.getD m 0)).isNan = true then (v.ef.nanBits).getD 0
             else out.1.getD m 0) % 2 ^ v.w
          else v.el d m) ∧
        (∀ r, r ≠ vrow c.ctl.vrb d → u.row r = c.vec.row r) ∧ u.preds = c.vec.preds ∧ u.exposed = c.vec.exposed))

/-- R206, R267, R269 to R271: a row load gives each active element its bytes of memory and keeps the others, a row
store writes the active elements' bytes alone (under `v.stm`, whose active bytes are checked, those the mask selects);
a gather and a scatter take each active element at base plus its index times the element's size; no active byte is no
access; an address beyond 2^56 traps `XLATE`, then a misaligned one `ALIGN`. -/
def Obligations.VectorMemory : Prop :=
  ∀ (v a : BitVec 6) (g : BitVec 5) (imm : BitVec 7) (p : BitVec 4) (n : BitVec 1) (x : Option VExt) (y : VExt)
    (t : Option Tok) (ps all : List Piece) (bs : List (BitVec 8)) (s u : State), s.engineGoes .v t →
    let k := s.exe
    let V : VIn := s.vin (.vLd v g imm p n x t) (x.getD vextDefault)
    let cap := V.cap
    let wb := V.w / 8
    let ea := (s.val g + imm.signExtend 64 * 128#64).toNat
    let on (m : Nat) : Bool := V.active p n m
    let row : List (BitVec 8) := natToBytes 128 (V.row v).toNat
    let sel (j : Nat) : Bool := on (j / wb)
    let masked (j : Nat) : Bool := sel j && (V.row y.c).getLsbD j
    let bytesOf (f : Nat → Bool) : List (BitVec 8) := ((List.range 128).filter f).map (fun j => row.getD j 0#8)
    let loaded (i : Instr) (f : Nat → Nat) : Prop := ∃ w, V.Row v f w ∧
      exec i s = .next ((u.modCore k (fun c => { c with vec := w })).engineWent k i)
    let before (m : Nat) : Nat := ((List.range m).filter on).length
    let reads (al : Nat) (eas : List Nat) (as : List (Nat × Nat)) : Prop :=
      s.checkRuns k cap .vld al eas as = .ok ps ∧ s.consume k ps = .ok bs u ∧ (u.core k).vec = (s.core k).vec ∧
        (u.core k).mtx = (s.core k).mtx
    let writes (al : Nat) (eas : List Nat) (as : List (Nat × Nat)) (q : List (BitVec 8)) : Prop :=
      s.checkRuns k cap .vst al eas as = .ok ps ∧ s.deliver k ps q = .ok () u
    let took (m : Nat) : Nat := if on m then bytesToNat ((bs.drop (before m * wb)).take wb) else V.el v m
    let act : List Nat := (List.range V.n).filter on
    let adr (m : Nat) : Nat := (s.val g + BitVec.ofNat 64 (V.el a m * wb)).toNat
    let adrs : List Nat := act.map adr
    let far (z : Nat) : Bool := decide (2 ^ 56 ≤ z)
    let traps (i : Instr) (code : BitVec 8) (z : Nat) : Prop :=
      exec i s = .next (s.engineTraps .v i { code := code, addr := BitVec.ofNat 64 z })
    (act = [] → ∀ i ∈ [Instr.vLd v g imm p n x t, .vSt v g imm p n x t, .vLdu v g imm p n x t, .vStu v g imm p n x t,
        .vStm v g imm p n y t], exec i s = .next (s.engineWent k i)) ∧
    (act ≠ [] → far ea = true → ∀ i ∈ [Instr.vLd v g imm p n x t, .vSt v g imm p n x t, .vLdu v g imm p n x t,
        .vStu v g imm p n x t, .vStm v g imm p n y t], traps i 0x04#8 ea) ∧
    (act ≠ [] → far ea = false → ea % 128 ≠ 0 →
      ∀ i ∈ [Instr.vLd v g imm p n x t, .vSt v g imm p n x t], traps i 0x03#8 ea) ∧
    (act ≠ [] → reads 0 [ea] (runsOf ea sel 128 0) →
      loaded (.vLdu v g imm p n x t) took ∧ (ea % 128 = 0 → loaded (.vLd v g imm p n x t) took)) ∧
    (act ≠ [] → writes 0 [ea] (runsOf ea sel 128 0) (bytesOf sel) →
      exec (.vStu v g imm p n x t) s = .next (u.engineWent k (.vStu v g imm p n x t)) ∧
      (ea % 128 = 0 → exec (.vSt v g imm p n x t) s = .next (u.engineWent k (.vSt v g imm p n x t)))) ∧
    (act ≠ [] → s.checkRuns k cap .vst 0 [ea] (runsOf ea sel 128 0) = .ok all →
      s.splitRuns k cap .vst (runsOf ea masked 128 0) = .ok ps → s.deliver k ps (bytesOf masked) = .ok () u →
      exec (.vStm v g imm p n y t) s = .next (u.engineWent k (.vStm v g imm p n y t))) ∧
    (∀ i ∈ [Instr.vGth v a g p n x t, .vSct v a g p n x t],
      (∀ z, adrs.find? far = some z → traps i 0x04#8 z) ∧
      (∀ z, adrs.find? far = none → adrs.find? (fun z => decide (z % wb ≠ 0)) = some z → traps i 0x03#8 z)) ∧
    (reads wb adrs (act.map (fun m => (adr m, wb))) → loaded (.vGth v a g p n x t) took) ∧
    (writes wb adrs (act.map (fun m => (adr m, wb))) (act.flatMap (fun m => natToBytes wb (V.el v m))) →
      exec (.vSct v a g p n x t) s = .next (u.engineWent k (.vSct v a g p n x t)))

/-- R309, R320 to R322, R325 to R329, R117, R127: a multiply, `m.scacc` and `m.zero`, their checks met and their
operands without error or poison, form each element of the region in the engaged tile (`m.mma.k4` in the partial
plane) and leave the others; they enter or close the retained window, which a handler leaves alone (R400); the first
check that fails traps. The bank rule does not bind `m.scacc` (DEDUCED, log 16); the sign of a zero product of
`m.mma.k4` is the model's (DESIGN CHOICE, log 81). -/
def Obligations.MatrixProducts : Prop :=
  ∀ (a b : BitVec 4) (row col : BitVec 6) (rm : BitVec 3) (t : Option Tok) (s : State), s.engineGoes .m t →
    (s.core s.exe).front.pfx = none →
    let C := s.core s.exe
    let A := C.shapes.get 0#512 a
    let B := C.shapes.get 0#512 b
    let T := C.tower
    let w := accW C.ctl.acct
    let K := opK A
    let r0 := row.toNat
    let c0 := col.toNat
    let cell (d : Core) (r e : Nat) : Nat := elemAt (d.engRow r) w e
    let inside (r e : Nat) : Prop := r0 ≤ r ∧ r < r0 + opR A ∧ c0 ≤ e ∧ e < c0 + opR B
    let clean (q : List (Nat × Nat)) : Prop := ∀ x ∈ q, (T.scrub x.1 x.2).2 = (0, 0) ∧ T.firstPoison x.1 x.2 = none
    let check (k : MKind) : Option (Bool × TrapInfo) := mulCheck k r0 c0 true C A B
    let entry (i : Instr) : QEntry := { ins := i, slots := i.slots, cap := capOf i C }
    let ends (i : Instr) (d : Core) : Prop := exec i s = .next ((s.setCore s.exe d).engineWent s.exe i) ∧
      d.tower = T ∧ d.vec.tile false = C.vec.tile false ∧ d.vec.preds = C.vec.preds ∧ d.vec.exposed = C.vec.exposed ∧
      d.vec.gens = C.vec.gens ∧ d.shapes = C.shapes ∧ d.mtx.check = C.mtx.check ∧ d.mtx.epi = C.mtx.epi
    let enters (i : Instr) (d : Core) : Prop := (d.mtx.window, d.mtx.cmds) =
      if C.seat.depth ≠ 0#8 then (C.mtx.window, C.mtx.cmds)
      else if tokTs t then (.anchored, [entry i])
      else if C.mtx.window ≠ .anchored then (C.mtx.window, C.mtx.cmds)
      else if 48 ≤ C.mtx.cmds.length then (.overflowed, []) else (.anchored, C.mtx.cmds ++ [entry i])
    let closes (d : Core) : Prop := (d.mtx.window, d.mtx.cmds) =
      if C.seat.depth ≠ 0#8 then (C.mtx.window, C.mtx.cmds) else (if tokTs t then .anchored else .none, [])
    let region (f : Nat → Nat → Nat → Nat × Fl) (d : Core) : Prop :=
      (∀ r e, r < 64 → e < 1024 / w →
        (inside r e → cell d r e = (f (r - r0) (e - c0) (cell C r e)).1 % 2 ^ w) ∧ (¬inside r e → cell d r e = cell C r e)) ∧
      (∀ r e, d.planeAt r e = C.planeAt r e) ∧
      ∃ fl : Fl, d.ctl = (C.raise fl).ctl ∧ ∀ q, q < 6 → (fl.getLsbD q = true ↔
        ∃ i j, i < opR A ∧ j < opR B ∧ (f i j (cell C (r0 + i) (c0 + j))).2.getLsbD q = true)
    let stops (i : Instr) (k : MKind) : Prop :=
      ∀ x tr, check k = some (x, tr) → exec i s = .next (s.engineTraps .m i tr)
    (let i := Instr.mMma a b row col rm t
     stops i .flt ∧ (check .flt = none → clean (opSpans T A ++ opSpans T B) → ∃ d, ends i d ∧ enters i d ∧
      region (mmaFlt (accFmt C.ctl.acct) (modeOf rm C.ctl.rm) T T A B (List.range (chunkCount .flt A))) d)) ∧
    (let i := Instr.mMmaI a b row col t
     stops i .int ∧ (check .int = none → clean (opSpans T A ++ opSpans T B) → ∃ d, ends i d ∧ enters i d ∧
      region (fun i j x => ((((x : Int) + ((List.range K).map (fun k => opInt T A k i * opInt T B k j)).sum) % 2 ^ 32).toNat,
        0#6)) d)) ∧
    (let i := Instr.mMmaK4 a b row col t
     stops i .k4 ∧ (check .k4 = none → clean (opSpans T A ++ opScales A ++ opSpans T B ++ opScales B) →
      ∃ d, ends i d ∧ enters i d ∧ d.ctl = C.ctl ∧ d.vec = C.vec ∧ ∀ r e, r < 64 → e < 32 →
        (inside r e → d.planeAt r e = (mmaK4 T T A B (r - r0) (e - c0)).toNat) ∧
        (¬inside r e → d.planeAt r e = C.planeAt r e))) ∧
    (let i := Instr.mScacc a b row col rm t
     let power (x : Nat) : Int := ((x % 64 : Nat) : Int) - 32
     stops i .scacc ∧ (check .scacc = none → clean (opScales A ++ opScales B) → ∃ d, ends i d ∧ closes d ∧
      region (fun i j x => scaccEl (modeOf rm C.ctl.rm) (C.planeAt (r0 + i) (c0 + j))
        (power (opScale T A i) + power (opScale T B j)) x) d)) ∧
    (let i := Instr.mZero t
     ∃ d, ends i d ∧ enters i d ∧ d.ctl = C.ctl ∧ ∀ r e, d.engRow r = 0#1024 ∧ d.planeAt r e = 0)

/-- R58, R153, R330, R331, R334 to R336, R399: `m.swap` exchanges the tiles' roles and `m.acct` sets `cst.ACCT`, each
closing the window; `m.kat` forms its pattern's product in the check tile, a zero being +0 (DESIGN CHOICE, log 91);
`m.chk` compares its signature and traps `KATMIS` on a difference, its tokens popped, at resume point 1 (DEDUCED, log
25); behind `m.gang`, a member that the mask names queues the ganged command and every other core discards it. -/
def Obligations.MatrixState : Prop :=
  ∀ (a b : BitVec 4) (row col : BitVec 6) (rm : BitVec 3) (ty gq : BitVec 2) (id fmt mask : BitVec 4) (sig : BitVec 32)
    (t : Option Tok) (s : State),
    let k := s.exe
    let C := s.core k
    let ends (i : Instr) (d : Core) : Prop := exec i s = .next ((s.setCore k d).engineWent k i)
    let closes (d : Core) : Prop := (d.mtx.window, d.mtx.cmds) =
      if C.seat.depth ≠ 0#8 then (C.mtx.window, C.mtx.cmds) else (if tokTs t then .anchored else .none, [])
    let anchors (d : Core) : Prop := (d.mtx.window, d.mtx.cmds) =
      if tokTs t = true ∧ C.seat.depth = 0#8 then (.anchored, []) else (C.mtx.window, C.mtx.cmds)
    (s.engineGoes .m t →
      (∃ d, ends (.mSwap t) d ∧ closes d ∧ d.vec = { C.vec with exposed := !C.vec.exposed } ∧ d.ctl = C.ctl ∧ d.tower = C.tower) ∧
      (∃ d, ends (.mAcct ty t) d ∧ closes d ∧ d.ctl.cst.extractLsb' 0 2 = ty ∧
        d.ctl.cst.extractLsb' 2 62 = C.ctl.cst.extractLsb' 2 62 ∧ d.ctl = { C.ctl with cst := d.ctl.cst } ∧ d.vec = C.vec ∧
        d.tower = C.tower) ∧
      (∃ d, ends (.mKat id fmt t) d ∧ anchors d ∧ d.ctl = C.ctl ∧ d.vec = C.vec ∧ d.tower = C.tower ∧
        d.mtx.plane0 = C.mtx.plane0 ∧ d.mtx.plane1 = C.mtx.plane1 ∧ d.mtx.checkInt = decide (fmt = 4#4) ∧
        ∀ m n, m < 64 → n < 32 →
          let q := ((List.range 32).map (fun k =>
            ((((m + 3 * k + id.toNat) % 7 : Nat) : Int) - 3) * ((((2 * k + n + 5 * id.toNat) % 5 : Nat) : Int) - 2))).sum
          d.mtx.check.get 0#32 (m * 32 + n) =
            if fmt = 4#4 then BitVec.ofInt 32 q else BitVec.ofNat 32 (Fmt.fp32.round .rne (Val.ofInt q)).1) ∧
      (katSig C.mtx.check = sig →
        ∃ d, ends (.mChk sig t) d ∧ anchors d ∧ d.ctl = C.ctl ∧ d.vec = C.vec ∧ d.tower = C.tower) ∧
      (katSig C.mtx.check ≠ sig → ∃ d, anchors d ∧ d.ctl = { C.ctl with cst := C.ctl.cst ||| 0x40000#64 } ∧ d.vec = C.vec ∧
        let kept := decide (d.mtx.window = .anchored)
        exec (.mChk sig t) s = .next (s.engineFaults (s.setCore k d) .m (.mChk sig t)
          { code := 0x12#8, addr := sig ++ katSig C.mtx.check, wl := !kept } 1))) ∧
    ((mask.getLsbD (k.toNat % 4) = false ∨ queueUsed C.mq + gangSlots C.front ≤ 16) →
      exec (.mGang mask gq) s = .next (s.modCore k (fun c => { c with front := { c.front.advance with pfx := some (mask, gq) } }))) ∧
    (mask.getLsbD (k.toNat % 4) = true → 16 < queueUsed C.mq + gangSlots C.front → exec (.mGang mask gq) s = .next s) ∧
    (C.front.pfx = some (mask, gq) → ∀ i ∈ [Instr.mMma a b row col rm t, .mMmaI a b row col t, .mMmaK4 a b row col t],
      let away (x : State) : State := leaveSlot k (x.modCore k (fun c => { c with front := { c.front with pfx := none } }))
      (mask.getLsbD (k.toNat % 4) = false → exec i s = .next (away s)) ∧
      let place : Option (Nat × Nat) := if C.seat.st = .seated then some (C.seat.n - 1, C.front.slot) else none
      (mask.getLsbD (k.toNat % 4) = true → exec i s = .next (away (s.modCore k (fun c => { c with mq := c.mq ++
        [{ ins := i, slots := i.slots + 1, cap := capOf i C, gang := some { mask := mask, gq := gq, index := place } }] })))))

/-- R332, R333, R338 to R341: a drain, its checks met, converts the elements of its region into the destination's
format and writes them row by row; `m.drain.amax` then leaves the larger of its word and the region's greatest
magnitude there; `m.epi` runs the program first; `m.epi.ld` takes a program from the tower, or traps `ILLENC` on a
word that is none, and with a line operand `PERM` with the line's number (DESIGN CHOICE, log 15). Each closes the
window. (Of bytes written, those of cells stuck at 0 read otherwise, R295; DEDUCED, log 73.) -/
def Obligations.MatrixDrains : Prop :=
  ∀ (a : BitVec 4) (g : BitVec 5) (rm : BitVec 3) (sat h : BitVec 1) (row : BitVec 6) (ty : Ty) (t : Option Tok) (s : State),
    s.engineGoes .m t →
    let k := s.exe
    let C := s.core k
    let D := C.shapes.get 0#512 a
    let T := C.tower
    let w := accW C.ctl.acct
    let c0 := 32 * h.toNat
    let mode := modeOf rm C.ctl.rm
    let nb := fmtBytes (shFmt D)
    let spans := opSpans T D
    let cell (i j : Nat) : Nat := elemAt (C.engRow (row.toNat + i)) w (c0 + j)
    let covers (i o : Nat) : Prop := (spans.getD i (0, 0)).1 ≤ o ∧ o < (spans.getD i (0, 0)).1 + nb * opK D
    let closes (d : Core) : Prop := (d.mtx.window, d.mtx.cmds) =
      if C.seat.depth ≠ 0#8 then (C.mtx.window, C.mtx.cmds) else (if tokTs t then .anchored else .none, [])
    let drained (f : Nat → Nat → Nat × Fl) (d : Core) : Prop := closes d ∧ d.vec = C.vec ∧
      (∀ i j m, i < opR D → j < opK D → m < nb → let o := (spans.getD i (0, 0)).1 + nb * j + m;
        T.stuck = [] → (∀ i', i < i' → i' < opR D → ¬covers i' o) → d.tower.byte o = BitVec.ofNat 8 ((f j (cell i j)).1 / 256 ^ m % 256)) ∧
      (∀ o, o < 2 ^ 25 → (∀ i, i < opR D → ¬covers i o) → d.tower.byte o = T.byte o) ∧
      ∃ fl : Fl, d.ctl = (C.raise fl).ctl ∧ ∀ q, q < 6 → (fl.getLsbD q = true ↔
        ∃ i j, i < opR D ∧ j < opK D ∧ (f j (cell i j)).2.getLsbD q = true)
    let ends (i : Instr) (d : Core) : Prop := exec i s = .next ((s.setCore k d).engineWent k i)
    let plain (_ x : Nat) : Nat × Fl :=
      if C.ctl.acct = 1#2 then ty.deliverInt mode (bit1 sat) (sextInt 32 x) else ty.deliver mode (bit1 sat) true ((accFmt C.ctl.acct).decode x)
    let epi (j x : Nat) : Nat × Fl :=
      let e := epiEl C.mtx.epi C.ctl.acct (c0 + j) x
      let q := ty.deliver mode (bit1 sat) true (Fmt.fp32.decode e.1.e0)
      (q.1, e.2 ||| q.2)
    let last : EpiRegs := (epiEl C.mtx.epi C.ctl.acct (c0 + (opK D - 1)) (cell (opR D - 1) (opK D - 1))).1
    let word := s.check k C.ctl.asid C.ctl.xe C.ctl.sup .amo 4 (s.val g).toNat 4
    let drain := Instr.mDrain a rm sat row h t
    let amax := Instr.mDrainAmax a g rm sat row h t
    let run := Instr.mEpi a rm sat row h t
    let ld := Instr.mEpiLd a t
    (∀ tr, drainCheck row.toNat c0 none C D = some tr →
      exec drain s = .next (s.engineTraps .m drain tr) ∧ exec run s = .next (s.engineTraps .m run tr)) ∧
    (drainCheck row.toNat c0 none C D = none → drainTy (shFmt D) = some ty →
      (∃ d, drained plain d ∧ ends drain d) ∧
      (∃ d, drained epi d ∧ ends run d ∧ (d.mtx.work.get 0#32 0#2).toNat = last.e0 % 2 ^ 32 ∧
        (d.mtx.work.get 0#32 1#2).toNat = last.e1 % 2 ^ 32 ∧ (d.mtx.work.get 0#32 2#2).toNat = last.e2 % 2 ^ 32 ∧
        (d.mtx.work.get 0#32 3#2).toNat = last.e3 % 2 ^ 32)) ∧
    (∀ tr, drainCheck row.toNat c0 (some (s.val g)) C D = some tr → exec amax s = .next (s.engineTraps .m amax tr)) ∧
    (∀ tr, drainCheck row.toNat c0 (some (s.val g)) C D = none → amaxPlace T D word = .error tr →
      exec amax s = .next (s.engineTraps .m amax tr)) ∧
    (∀ off, drainCheck row.toNat c0 (some (s.val g)) C D = none → opPlace T false D = none → drainTy (shFmt D) = some ty →
      (s.val g).toNat = 0xFFFFFFFE000000 + off → off < 2 ^ 25 → (T.scrub off 4).2 = (0, 0) →
      T.poisoned (off / 32 * 32) = false → ∃ d0 d big, drained plain d0 ∧ ends amax d ∧
        (∀ i j, i < opR D → j < opK D → amaxOf C.ctl.acct (cell i j) ≤ big) ∧
        (big = 0 ∨ ∃ i j, i < opR D ∧ j < opK D ∧ amaxOf C.ctl.acct (cell i j) = big) ∧
        (T.stuck = [] → bytesToNat (d.tower.read off 4) = max (bytesToNat (d0.tower.read off 4)) big % 2 ^ 32) ∧
        (∀ o, o < 2 ^ 25 → ¬(off ≤ o ∧ o < off + 4) → d.tower.byte o = d0.tower.byte o) ∧
        d.ctl = d0.ctl ∧ d.vec = C.vec ∧ closes d) ∧
    (let base := shBase D
     let off := base - 0xFFFFFFFE000000
     let word (n : Nat) : BitVec 32 := BitVec.ofNat 32 (bytesToNat (T.read (off + 4 * n) 4))
     let valid : Prop := (∀ n, n < 32 → epiOk (word n) = true) ∧ ∀ n, n < 24 → word (40 + n) = 0#32
     (shLn D = true → exec ld s = .next (s.engineTraps .m ld { code := 0x05#8, addr := (BitVec.ofNat 5 base).zeroExtend 64 })) ∧
     (shLn D = false → base % 64 ≠ 0 → exec ld s = .next (s.engineTraps .m ld { code := 0x03#8, addr := BitVec.ofNat 64 base })) ∧
     (shLn D = false → base % 64 = 0 → 0xFFFFFFFE000000 ≤ base → base + 768 ≤ 2 ^ 56 → (T.scrub off 768).2 = (0, 0) →
      T.firstPoison off 768 = none →
      (valid → ∃ d, ends ld d ∧ closes d ∧ (∀ n, n < 192 → d.mtx.epi.get 0#32 n = word n) ∧ d.ctl = C.ctl ∧ d.vec = C.vec ∧
        d.tower = T) ∧
      (¬valid → ∃ d, closes d ∧ d.mtx.epi = C.mtx.epi ∧ d.ctl = C.ctl ∧ d.vec = C.vec ∧ d.tower = T ∧
        exec ld s = .next (s.engineFaults (s.setCore k d) .m ld { code := 0x01#8, addr := BitVec.ofNat 64 base } 0))))

/-- R342, R345, R346, R349 to R351, R354: `d.copy`, `d.store`, `d.spill` and `d.fill` reach their bytes page by page,
move what both sides reach, and finish, or trap at the first byte that one side cannot reach, the bytes before it
moved; `d.pref` may do nothing. Where both sides fail at one byte the source's trap is taken (DEDUCED, log 21); each
byte of a copy over its own source is one of the two, freely (DESIGN CHOICE, log 8). -/
def Obligations.DrillTransfers : Prop :=
  ∀ (x y z : BitVec 5) (wd : BitVec 2) (tl : BitVec 1) (row : BitVec 6) (t : Option Tok) (s : State), s.engineGoes .d t →
    let k := s.exe
    let C := s.core k
    let cap := capOf (.dCopy x y z t) C
    let X := (s.val x).toNat
    let Y := (s.val y).toNat
    let Z := (s.val z).toNat
    let reach (kind : Kind) (a n : Nat) : List Piece × Option TrapInfo := s.reach k cap kind (n / 4096 + 2) a n
    let free (w : Bool) (ps : List Piece) : Prop := ∀ p ∈ ps, s.pieceBlocked k w p = false
    let ends (i : Instr) (u : State) : Prop := exec i s = .next (u.engineWent k i)
    let stops (i : Instr) (u : State) (tr : TrapInfo) (n : Nat) : Prop := exec i s = .next (s.engineFaults u .d i tr n)
    let traps (i : Instr) (code : BitVec 8) (a : Word) : Prop :=
      exec i s = .next (s.engineTraps .d i { code := code, addr := a })
    ends (.dPref x z t) s ∧
    (let i := Instr.dCopy x y z t
     let f := reach .drd Y Z
     let g := reach .dwr X Z
     let n := min (piecesLen f.1) (piecesLen g.1)
     (2 ^ 32 ≤ Z → traps i 0x01#8 0#64) ∧
     (Z < 2 ^ 32 → free false (takePieces f.1 n) → free true (takePieces g.1 n) →
      (Y = X ∨ X + n ≤ Y ∨ Y + n ≤ X →
        (n = Z → ends i (s.moved k f.1 g.1 Z)) ∧
        (∀ tr, n ≠ Z → n = piecesLen f.1 → f.2 = some tr → stops i (s.moved k f.1 g.1 n) tr n) ∧
        (∀ tr, n ≠ Z → n ≠ piecesLen f.1 → g.2 = some tr → stops i (s.moved k f.1 g.1 n) tr n)) ∧
      (Y ≠ X → X < Y + n → Y < X + n → n = Z →
        let s1 := (s.touched k (takePieces f.1 n)).walkedOn (takePieces g.1 n)
        ends i (s1.advanceTick.putData k (takePieces g.1 n)
          (overlapData (Config.freeBool s1.tick) Y X (s1.takeData k (takePieces f.1 n)))))) ∧
     (∀ o q, Y = 0xFFFFFFFE000000 + o → X = 0xFFFFFFFE000000 + q → o + Z ≤ 2 ^ 25 → q + Z ≤ 2 ^ 25 → (o + Z ≤ q ∨ q + Z ≤ o) →
      C.tower.stuck = [] → (C.tower.scrub o Z).2 = (0, 0) → ∃ u, ends i u ∧
        (∀ m, m < 2 ^ 25 → (u.core k).tower.byte m = if q ≤ m ∧ m < q + Z then C.tower.byte (o + (m - q)) else C.tower.byte m) ∧
        (∀ m, m < Z → C.tower.poisoned (o + m) = true → (u.core k).tower.poisoned (q + m) = true) ∧
        (∀ k', k' ≠ k → u.core k' = s.core k') ∧ u.hbm = s.hbm ∧ u.host = s.host)) ∧
    (let i := Instr.dStore x y z wd t
     let b := 2 ^ wd.toNat
     let g := reach .dwr X Z
     let n := piecesLen g.1
     let u := (s.walkedOn g.1).writePieces k g.1 ((List.range n).map (fun m => (natToBytes b Y).getD (m % b) 0#8))
     (2 ^ 32 ≤ Z → traps i 0x01#8 0#64) ∧
     (Z < 2 ^ 32 → X % b ≠ 0 → traps i 0x03#8 (s.val x)) ∧
     (Z < 2 ^ 32 → X % b = 0 → Z % b ≠ 0 → traps i 0x03#8 (s.val z)) ∧
     (Z < 2 ^ 32 → X % b = 0 → Z % b = 0 → free true g.1 →
      (n = Z → ends i u) ∧ (∀ tr, n ≠ Z → g.2 = some tr → stops i u tr n))) ∧
    (let bad : Prop := 65 ≤ Y ∨ 64 < row.toNat + Y
     let tile := C.vec.tile (bit1 tl)
     let sp := Instr.dSpill x y tl row t
     let fi := Instr.dFill x y tl row t
     let g := reach .dwr X (128 * Y)
     let f := reach .drd X (128 * Y)
     let bytes := (List.range Y).flatMap (fun j => natToBytes 128 (tile.get 0#1024 (row + BitVec.ofNat 6 j)).toNat)
     let u := (s.walkedOn g.1).writePieces k g.1 (bytes.take (piecesLen g.1))
     (bad → traps sp 0x01#8 0#64 ∧ traps fi 0x01#8 0#64) ∧
     (¬bad → X % 128 ≠ 0 → traps sp 0x03#8 (s.val x) ∧ traps fi 0x03#8 (s.val x)) ∧
     (¬bad → X % 128 = 0 → free true g.1 →
      (piecesLen g.1 = 128 * Y → ends sp u) ∧
      (∀ tr, piecesLen g.1 ≠ 128 * Y → g.2 = some tr → stops sp u tr (piecesLen g.1))) ∧
     (¬bad → X % 128 = 0 → free false f.1 →
      let s1 := s.touched k f.1
      let loaded (v : Vec) : Prop :=
        (∀ j, j < piecesLen f.1 / 128 → (v.tile (bit1 tl)).get 0#1024 (row + BitVec.ofNat 6 j) =
          BitVec.ofNat 1024 (bytesToNat (((s1.readPieces k f.1).drop (128 * j)).take 128))) ∧
        (∀ r, (∀ j, j < piecesLen f.1 / 128 → r ≠ row + BitVec.ofNat 6 j) →
          (v.tile (bit1 tl)).get 0#1024 r = ((s1.core k).vec.tile (bit1 tl)).get 0#1024 r) ∧
        v.tile (!bit1 tl) = (s1.core k).vec.tile (!bit1 tl) ∧ v.exposed = (s1.core k).vec.exposed ∧
        v.preds = (s1.core k).vec.preds ∧ v.gens = (s1.core k).vec.gens
      (piecesLen f.1 = 128 * Y → ∃ v, loaded v ∧ ends fi (s1.modCore k (fun c => { c with vec := v }))) ∧
      (∀ tr, piecesLen f.1 ≠ 128 * Y → f.2 = some tr → ∃ v, loaded v ∧
        stops fi (s1.modCore k (fun c => { c with vec := v })) tr (128 * (piecesLen f.1 / 128)))))

/-- R352, R353, R355, R349, R364: `d.bcast` gives each run of 256 bytes of a tier to the towers of its column that the
mask names, one run at a time; `d.tfill` copies a block into its line while the entry is invalid and then makes it
valid; `d.copy.rg` waits for an empty slot, fills it and releases it full. -/
def Obligations.DrillDeliveries : Prop :=
  ∀ (x y z : BitVec 5) (rg : BitVec 4) (mm : BitVec 2) (t : Option Tok) (s : State), s.engineGoes .d t →
    let k := s.exe
    let C := s.core k
    let cap := capOf (.dCopy x y z t) C
    let X := (s.val x).toNat
    let Y := (s.val y).toNat
    let Z := (s.val z).toNat
    let ends (i : Instr) (u : State) : Prop := exec i s = .next (u.engineWent k i)
    let traps (i : Instr) (code : BitVec 8) (a : Word) : Prop :=
      exec i s = .next (s.engineTraps .d i { code := code, addr := a })
    (let i := Instr.dBcast x y z t
     let off := X % 2 ^ 25
     let cores := bcastCores k (s.val x)
     let f := s.reach k cap .drd 2 Y 256
     let shape : Prop := Z < 2 ^ 32 ∧ X / 2 ^ 48 = 0 ∧ X / 2 ^ 25 % 2 ^ 7 = 0
     let inPlot : Prop := ∀ c ∈ cores, tableOf c ∈ s.plotOf (tableOf k)
     let tier : Prop := ∀ p ∈ f.1, ∃ far o il, s.targetOf k p.at_ = .ext far o il
     let s1 := s.touched k f.1
     let u := cores.foldl (fun q c => q.putData k [{ a := 0, len := 256, at_ := .phys (apertureAddr c off) 2#3 }]
       (s1.takeData k f.1)) s1
     (¬shape → traps i 0x01#8 0#64) ∧
     (shape → off % 256 ≠ 0 → traps i 0x03#8 (BitVec.ofNat 64 off)) ∧
     (shape → off % 256 = 0 → Y % 256 ≠ 0 → traps i 0x03#8 (s.val y)) ∧
     (shape → off % 256 = 0 → Y % 256 = 0 → Z % 256 ≠ 0 → traps i 0x03#8 (s.val z)) ∧
     (shape → off % 256 = 0 → Y % 256 = 0 → Z % 256 = 0 →
      (2 ^ 25 < off + Z → traps i 0x05#8 (s.val x)) ∧
      (off + Z ≤ 2 ^ 25 → ¬inPlot → traps i 0x05#8 (s.val x)) ∧
      (off + Z ≤ 2 ^ 25 → inPlot →
        (cores = [] ∨ Z = 0 → ends i s) ∧
        (cores ≠ [] → Z ≠ 0 → (∀ p ∈ f.1, s.pieceBlocked k false p = false) → tier → f.2 = none →
          (Z = 256 → ends i u) ∧ (Z ≠ 256 → exec i s = .next (s.engineHolds u .d i 256))) ∧
        (cores ≠ [] → Z ≠ 0 → ∀ tr, f.2 = some tr → exec i s = .next (s.engineFaults s .d i tr 0)) ∧
        (cores ≠ [] → Z ≠ 0 → (∀ p ∈ f.1, s.pieceBlocked k false p = false) → f.2 = none → ¬tier →
          exec i s = .next (s.engineFaults s .d i { code := 0x05#8, addr := BitVec.ofNat 64 Y } 0))))) ∧
    (let i := Instr.dTfill x y t
     let sz := X % 8
     let n := 512 * 2 ^ sz
     let idx : BitVec 10 := (s.val y).truncate 10
     let line := Y / 2 ^ 10 % 2 ^ 16
     let block := X / 2 ^ 9 % 2 ^ 47
     let s0 := s.modCore k (fun c => { c with tags := c.tags.set idx (c.tags.get 0#128 idx &&& ~~~1#128) })
     let f := s0.reach k cap .drd (n / 4096 + 2) (512 * block) n
     let valid : Prop := tsetBok sz (s.val y) = true ∧ bit (s.val y) 27 = true
     (¬valid → traps i 0x01#8 (s.val y)) ∧
     (valid → tsetAok sz (s.val x) = false → traps i 0x01#8 (s.val x)) ∧
     (valid → tsetAok sz (s.val x) = true → (∀ p ∈ f.1, s0.pieceBlocked k false p = false) → piecesLen f.1 = n →
      ends i ((s0.moved k f.1 [{ a := 0, len := n, at_ := .window (512 * line) }] n).modCore k (fun c =>
        { c with tags := c.tags.set idx (tagMake true (bit (s.val y) 26) line sz block) })))) ∧
    (let i := Instr.dCopyRg y z rg mm t
     let dest := quadMember k mm
     let ring := (s.core dest).ring rg
     (2 ^ 32 ≤ Z → traps i 0x01#8 0#64) ∧
     (Z < 2 ^ 32 → ring.val = false → traps i 0x05#8 (rg.zeroExtend 64)) ∧
     (Z < 2 ^ 32 → ring.val = true → ring.size < Z → traps i 0x01#8 0#64) ∧
     (Z < 2 ^ 32 → ring.val = true → Z ≤ ring.size → ring.isEmpty ring.head = false →
      exec i s = .next (s.engineHolds s .d i 0)) ∧
     (Z < 2 ^ 32 → ring.val = true → Z ≤ ring.size → ring.isEmpty ring.head = true → ring.filled < 64 →
      ∃ q q' : Ring,
        (∀ s0 f, s0 = s.modCore dest (fun c => c.setRing rg q) → f = s0.reach k cap .drd (Z / 4096 + 2) Y Z →
          (∀ p ∈ f.1, s0.pieceBlocked k false p = false) → piecesLen f.1 = Z →
          ends i ((s0.moved k f.1 [{ a := 0, len := Z, at_ := .phys (apertureAddr dest (ring.slotOff ring.head)) 2#3 }] Z).modCore
            dest (fun c => c.setRing rg q'))) ∧
        q.slot ring.head = (2#2 ++ ((memberOf k) ++ 2#2 : BitVec 4) : BitVec 6) ∧ q'.slot ring.head = 0x10#6 ∧
        (∀ j, j < 64 → j ≠ ring.head → q'.slot j = ring.slot j) ∧ q'.head = (ring.head + 1) % ring.count ∧
        q'.filled = ring.filled + 1 ∧ q'.free = ring.free - 1 ∧ q'.tail = ring.tail ∧ q'.val = true))

/-- R235, R262, R263, R272, R356 to R358: an atomic's elements act in ascending order, each on the bytes its entry
names, and `d.atom` leaves each old value in its entry; `d.atom.nr` leaves none, and toward a stack only sends, while
in a tower it acts at once (DEDUCED, log 23); `d.afence` has every one performed, waits while a stack of its scope is
in self-refresh (R235), and traps a refusal once. -/
def Obligations.DrillAtomics : Prop :=
  ∀ (x y z : BitVec 5) (o : BitVec 4) (sz : BitVec 1) (sc : BitVec 4) (t : Option Tok) (s : State), s.engineGoes .d t →
    let k := s.exe
    let T := (s.core k).tower
    let cap := capOf (.dAtom x y z o sz t) (s.core k)
    let Y := (s.val y).toNat
    let Z := (s.val z).toNat
    let n := if sz = 1#1 then 8 else 4
    let e := Y - 0xFFFFFFFE000000
    let w (j : Nat) : Nat := bytesToNat (T.read (e + 8 * j) 8)
    let target := ((s.val x).toNat + w 0) % 2 ^ 64
    let inside : Prop := 0xFFFFFFFE000000 ≤ Y ∧ Y + 32 * Z ≤ 2 ^ 56
    let at_ := Instr.dAtom x y z o sz t
    let nr := Instr.dAtomNr x y z o sz t
    let fe := Instr.dAfence sc t
    let both (p : Instr → Prop) : Prop := p at_ ∧ p nr
    (2 ^ 16 < Z → both (fun i => exec i s = .next (s.engineTraps .d i { code := 0x01#8, addr := s.val z }))) ∧
    (Z ≤ 2 ^ 16 → Y % 32 ≠ 0 → both (fun i => exec i s = .next (s.engineTraps .d i { code := 0x03#8, addr := s.val y }))) ∧
    (Z ≤ 2 ^ 16 → Y % 32 = 0 → Z ≠ 0 → ¬inside →
      both (fun i => exec i s = .next (s.engineTraps .d i { code := 0x05#8, addr := s.val y }))) ∧
    (Y % 32 = 0 → Z = 0 → both (fun i => exec i s = .next (s.engineWent k i))) ∧
    (Z ≤ 2 ^ 16 → Y % 32 = 0 → inside → Z ≠ 0 → ∀ i nor, (i, nor) ∈ [(at_, false), (nr, true)] →
      (∀ u, atomLoop k cap o sz nor Z 0 s = .done u → exec i s = .next (u.engineWent k i)) ∧
      (∀ tr r u, atomLoop k cap o sz nor Z 0 s = .fault tr r u → exec i s = .next (s.engineFaults u .d i tr r.toNat)) ∧
      (∀ r u, atomLoop k cap o sz nor Z 0 s = .hold r u → exec i s = .next (s.engineHolds u .d i r.toNat))) ∧
    (Z = 1 → Y % 32 = 0 → inside → (T.scrub e 32).2 = (0, 0) → T.poisoned e = false →
      (∀ q, target = 0xFFFFFFFE000000 + q → q < 2 ^ 25 → q % n = 0 → (T.scrub q n).2 = (0, 0) →
        T.poisoned (q / 32 * 32) = false →
        let old := bytesToNat (T.read q n)
        let new := atomicNew o (8 * n) old (w 1 % 2 ^ (8 * n)) (w 2 % 2 ^ (8 * n))
        exec at_ s = .next (s.engineDid (fun c =>
          (c.towerWrite q (natToBytes n new)).towerWrite (e + 24) (natToBytes 8 (atomicOld o sz old).toNat)) at_) ∧
        exec nr s = .next (s.advanceTick.engineDid (fun c => c.towerWrite q (natToBytes n new)) nr)) ∧
      (∀ p far q il pa il', s.check k cap.asid cap.xe (s.core k).ctl.sup .datom n target n = .ok [p] →
        s.targetOf k p.at_ = .ext far q il → p.at_ = .phys pa il' → s.pieceStalled k true p = false → s.pieceFull k p = false →
        exec nr s = .next ((s.advanceTick.modStack (tierStack far (place q il).s) (fun h => { h with sent := h.sent ++
          [{ pkt := .atomic k 0 (BitVec.ofNat 52 pa) il o sz (BitVec.ofNat 64 (w 1 % 2 ^ (8 * n)))
               (BitVec.ofNat 64 (w 2 % 2 ^ (8 * n))) true
             named := BitVec.ofNat 56 target, order := s.tick }] })).engineWent k nr))) ∧
    (let owed (u : State) : Bool := u.hbm.any (fun q => q.2.deltas.any (fun d => d.reply && decide (d.src = k)))
        || (scopeStacks k sc).any (fun n => (u.stack n).selfRefresh)
     let told (q : Refused) : TrapInfo := { code := if q.tower then 0x10#8 else 0x11#8, addr := q.addr.zeroExtend 64 }
     let calm (u : State) : State := u.modCore k (fun c => { c with refused := none })
     (owed s = true → exec fe s = .next (s.engineHolds s .d fe 0)) ∧
     (owed s = false → (s.core k).refused = none → exec fe s = .next (s.engineWent k fe)) ∧
     (∀ q, owed s = false → (s.core k).refused = some q →
      exec fe s = .next (s.engineFaults (calm s) .d fe (told q) 0)) ∧
     (∀ (v : State) (r : Word),
      (performStacks k allStacks v = none → bodyDAfence sc k cap r v = .hold r v) ∧
      (∀ u, performStacks k allStacks v = some u →
        (owed u = true → bodyDAfence sc k cap r v = .hold r u) ∧
        (owed u = false → (u.core k).refused = none → bodyDAfence sc k cap r v = .done u) ∧
        (∀ q, owed u = false → (u.core k).refused = some q → bodyDAfence sc k cap r v = .fault (told q) r (calm u))) ∧
      ((∀ n, n ∈ allStacks → (v.stack n).sent = []) → performStacks k allStacks v = some v) ∧
      (∀ u, performStacks k allStacks v = some u → ∀ n ∈ allStacks, ∀ x ∈ (u.stack n).sent, x.src ≠ k)))

/-- R366 to R369, R374: `d.append` checks its operands in order and writes the key and the value at their rows of the
block; `d.qpost` checks its own, registers the query and sends a packet to each pseudo-channel that holds one of its
blocks, and then waits at resume point 1 (DESIGN CHOICE, log 24); `d.qget` waits for the last triple, gives the number
written and frees the id. -/
def Obligations.AttentionResults : Prop :=
  ∀ (x y z : BitVec 5) (id : BitVec 6) (t : Option Tok) (s : State), s.engineGoes .d t →
    let k := s.exe
    let C := s.core k
    let cap := capOf (.dAppend x y z t) C
    let X := (s.val x).toNat
    let Y := (s.val y).toNat
    let Z := (s.val z).toNat
    let s0 := if inWin X 64 then s.scrubTower k (X - 0xFFFFFFFE000000) 64 else s
    let h := readHeader (s0.core k).tower X
    let inWindow (a n : Nat) : Prop := 0xFFFFFFFE000000 ≤ a ∧ a + n ≤ 2 ^ 56
    let traps (i : Instr) (code : BitVec 8) (a : Word) : Prop :=
      exec i s = .next (s0.engineTraps .d i { code := code, addr := a })
    let stops (i : Instr) (u : State) (tr : TrapInfo) : Prop := exec i s = .next (s.engineFaults u .d i tr 0)
    (let i := Instr.dAppend x y z t
     let good : Prop := X % 64 = 0 ∧ inWindow X 64 ∧ inWindow Y (h.ks + h.vs) ∧ h.ok = true ∧ Z < 2 ^ 32
     (X % 64 ≠ 0 → traps i 0x03#8 (s.val x)) ∧
     (X % 64 = 0 → ¬inWindow X 64 → traps i 0x05#8 (s.val x)) ∧
     (X % 64 = 0 → inWindow X 64 → ¬inWindow Y (h.ks + h.vs) →
      traps i 0x05#8 (if Y < 0xFFFFFFFE000000 ∨ 2 ^ 56 ≤ Y then s.val y else BitVec.ofNat 64 (2 ^ 56))) ∧
     (X % 64 = 0 → inWindow X 64 → inWindow Y (h.ks + h.vs) → h.ok = false ∨ 2 ^ 32 ≤ Z → traps i 0x01#8 (s.val x)) ∧
     (good → ∀ tr u, pageEntry k cap h (Z / 2 ^ h.lt) s0 = .trap tr u → stops i u tr) ∧
     (good → ∀ va u, pageEntry k cap h (Z / 2 ^ h.lt) s0 = .ok va u →
      (∀ tr v, blockAt k cap .dwr va u = .trap tr v → stops i v tr) ∧
      (∀ b v, blockAt k cap .dwr va u = .ok b v →
        (blockOk h va b = false → stops i v { code := 0x05#8, addr := BitVec.ofNat 64 va }) ∧
        (blockOk h va b = true →
          let q := Z % 2 ^ h.lt
          let src (a n : Nat) : List Piece := [{ a := a, len := n, at_ := .window (a - 0xFFFFFFFE000000) }]
          let dst (o n : Nat) : List Piece := [{ a := va + o, len := n, at_ := .phys (b.pa + o) 7#3 }]
          let ko := dst (q * h.ks) (h.dk * h.eb)
          let vo := dst (h.voff + q * h.vs) (h.dv * h.eb)
          let ki := src Y (h.dk * h.eb)
          let vi := src (Y + h.ks) (h.dv * h.eb)
          let s2 := v.touched k (ki ++ vi)
          (∀ p ∈ ko ++ vo, v.pieceBlocked k true p = false) →
            exec i s = .next (((s2.putData k ko (s2.takeData k ki)).putData k vo (s2.takeData k vi)).engineWent k i))))) ∧
    (let i := Instr.dQpost x id t
     let ring := C.ring h.rid
     let n := (h.pb + 2 ^ h.lt - 1) / 2 ^ h.lt
     let placed : Prop := X % 64 = 0 ∧ inWindow X 64 ∧ inWindow (X + 64) (2 * h.dk)
     let fits : Prop := placed ∧ h.ok = true ∧ C.queries.get none id = none ∧ ring.val = true
     (X % 64 ≠ 0 → traps i 0x03#8 (s.val x)) ∧
     (X % 64 = 0 → ¬placed → traps i 0x05#8 (s.val x)) ∧
     (placed → h.ok = false → traps i 0x01#8 (s.val x)) ∧
     (placed → h.ok = true → C.queries.get none id ≠ none → traps i 0x05#8 (id.zeroExtend 64)) ∧
     (placed → h.ok = true → C.queries.get none id = none → ring.val = false → traps i 0x05#8 (h.rid.zeroExtend 64)) ∧
     (fits → ring.size < 64 + 4 * h.dv → traps i 0x01#8 (h.rid.zeroExtend 64)) ∧
     (fits → 64 + 4 * h.dv ≤ ring.size →
      (∀ tr u, queryBlocks k (capOf i C) h (List.range n) s0 = .trap tr u → stops i u tr) ∧
      (∀ bs u, queryBlocks k (capOf i C) h (List.range n) s0 = .ok bs u →
        (∀ b, bs.find? (fun b => !blockOk h b.1 b.2) = some b →
          stops i u { code := 0x05#8, addr := BitVec.ofNat 64 b.1 }) ∧
        ((∀ b ∈ bs, blockOk h b.1 b.2 = true) → ∃ v sent left,
          let places := (bs.map (fun b => rowPlace (BitVec.ofNat 52 b.2.pa))).eraseDups
          let u' := u.scrubTower k (X - 0xFFFFFFFE000000 + 64) (2 * h.dk)
          (bs = [] → exec i s = .next (v.engineWent k i)) ∧ (bs ≠ [] → exec i s = .next (s.engineHolds v .d i 1)) ∧
          sent ++ left = places.map (fun p => ((p.1,
              { core := k, id := id, pc := p.2, bf16 := h.bf16, scale := h.scale, dv := h.dv
                q := (List.range h.dk).map (fun j =>
                  BitVec.ofNat 16 (bytesToNat ((u'.core k).tower.read (X - 0xFFFFFFFE000000 + 64 + 2 * j) 2)))
                rows := (queryRows h bs).filter (fun r => decide (rowPlace r.2.1 = p)) }) : StackId × QueryPacket)) ∧
          (left = [] ∨ 256 ≤ v.packetsOut k) ∧
          (v.core k).queries.get none id = some { rid := h.rid, open_ := 4 * places.length, unsent := left } ∧
          (∀ id', id' ≠ id → (v.core k).queries.get none id' = (u'.core k).queries.get none id') ∧
          (∀ m, (v.stack m).queryq = (u'.stack m).queryq ++ (sent.filter (fun p => decide (p.1 = m))).map (fun p => p.2)) ∧
          (∀ k', k' ≠ k → v.core k' = u'.core k') ∧ (v.core k).tower = (u'.core k).tower)))) ∧
    (let i := Instr.dQget x id t
     (C.queries.get none id = none →
      exec i s = .next (s.engineTraps .d i { code := 0x05#8, addr := id.zeroExtend 64 })) ∧
     (∀ q, C.queries.get none id = some q →
      (q.open_ ≠ 0 → exec i s = .next (s.engineHolds s .d i 0)) ∧
      (q.open_ = 0 → exec i s = .next (s.engineDid (fun c => c.setReg x (q.written.zeroExtend 64)) i) ∧
        ∀ u, exec i s = .next u → (u.core k).queries.get none id = none)))

/-- R60, R218, R342, R344, R359 to R364: the furrow copies bytes of the issuer's tower to the same offsets of a mesh
neighbour's, a quad member's, three or several members' towers, or through an aperture; a missing destination, or one
outside the plot, traps `PERM` before any byte, and so does the first byte outside the window (DEDUCED, log 22);
`f.ring` fills the slot of a member's ring and drains its own. -/
def Obligations.FurrowTransfers : Prop :=
  ∀ (x y z : BitVec 5) (d : BitVec 3) (m : BitVec 2) (mask : BitVec 4) (sr : BitVec 1) (t : Option Tok) (s : State),
    s.engineGoes .f t →
    let k := s.exe
    let T := (s.core k).tower
    let X := (s.val x).toNat
    let Y := (s.val y).toNat
    let Z := (s.val z).toNat
    let W := 0xFFFFFFFE000000
    let inside (a n : Nat) : Prop := W ≤ a ∧ a + n ≤ 2 ^ 56
    let piece (a n : Nat) : Piece := { a := a, len := n, at_ := .window (a - W) }
    let other (i : BitVec 2) : Option CoreId := if i = memberOf k then none else some (quadMember k i)
    let perm (i : Instr) (a : Nat) (u : State) (n : Nat) : Prop :=
      exec i s = .next (s.engineFaults u .f i { code := 0x05#8, addr := BitVec.ofNat 64 a } n)
    let sends (i : Instr) (ds : List (Option CoreId)) : Prop :=
      let dests := ds.filterMap id
      (2 ^ 25 ≤ Z → exec i s = .next (s.engineTraps .f i { code := 0x01#8 })) ∧
      (Z < 2 ^ 25 → (none ∈ ds ∨ ∃ c ∈ dests, s.inPlot k c = false) → perm i X s 0) ∧
      (Z < 2 ^ 25 → ds = [] → exec i s = .next (s.engineWent k i)) ∧
      (Z < 2 ^ 25 → ds ≠ [] → none ∉ ds → (∀ c ∈ dests, s.inPlot k c = true) →
        (inside Y Z → inside X Z → 0 < Z →
          let s1 := s.touched k [piece Y Z]
          exec i s = .next ((dests.foldl (fun u c => u.putData k [aperturePiece c (X - W) Z] (s1.takeData k [piece Y Z])) s1).engineWent k i)) ∧
        (Z = 0 → exec i s = .next (s.engineWent k i)) ∧
        (0 < Z → Y < W ∨ 2 ^ 56 ≤ Y → perm i Y s 0) ∧ (inside Y Z → 0 < Z → X < W ∨ 2 ^ 56 ≤ X → perm i X s 0))
    sends (.fFur d x y z t) [meshNeighbour k d] ∧
    (∀ c, meshNeighbour k d = some c → dieOf c = dieOf k ∧ (meshRow c + 1, meshCol c + 1) = (meshRow k + (dirStep d).1, meshCol k + (dirStep d).2)) ∧
    sends (.fFurQm x y z m t) [other m] ∧
    sends (.fGbcast x y z mask t) (((List.range 4).filter (fun j => mask.getLsbD j)).map (fun j => other (BitVec.ofNat 2 j))) ∧
    sends (.fSys d x y z t) ((sysMembers (memberOf k) d).map (fun q => q.map (quadMember k))) ∧
    (∀ o q, Y = W + o → X = W + q → Z < 2 ^ 25 → o + Z ≤ 2 ^ 25 → q + Z ≤ 2 ^ 25 → m ≠ memberOf k → s.inPlot k (quadMember k m) = true →
      (s.core (quadMember k m)).tower.stuck = [] → (T.scrub o Z).2 = (0, 0) → ∃ u, exec (.fFurQm x y z m t) s = .next u ∧
        (∀ j, j < 2 ^ 25 → (u.core (quadMember k m)).tower.byte j =
          if q ≤ j ∧ j < q + Z then T.byte (o + (j - q)) else (s.core (quadMember k m)).tower.byte j) ∧
        (u.core k).tower = T ∧ (∀ k', k' ≠ k → k' ≠ quadMember k m → u.core k' = s.core k')) ∧
    (let i := Instr.fHead x y z t
     let out := s.reach k (capOf i (s.core k)) .head (Z / 4096 + 2) X Z
     let far : Prop := ∀ p ∈ out.1, ∃ c o, s.targetOf k p.at_ = .aperture c o ∧ s.inPlot k c = true
     (2 ^ 25 ≤ Z → exec i s = .next (s.engineTraps .f i { code := 0x01#8 })) ∧
     (Z < 2 ^ 25 → 0 < Z → far → piecesLen out.1 = Z → inside Y Z →
      exec i s = .next ((s.moved k [piece Y Z] out.1 Z).engineWent k i)) ∧
     (Z = 0 → exec i s = .next (s.engineWent k i)) ∧
     (Z < 2 ^ 25 → 0 < Z → inside Y Z → ∀ tr, out = ([], some tr) → exec i s = .next (s.engineFaults s .f i tr 0)) ∧
     (Z < 2 ^ 25 → 0 < Z → inside Y Z → ∀ p ps c o, out.1 = p :: ps → s.targetOf k p.at_ = .aperture c o →
      s.inPlot k c = false → perm i X s 0) ∧
     (Z < 2 ^ 25 → 0 < Z → Y < W ∨ 2 ^ 56 ≤ Y → (∀ p ∈ out.1, s.pieceBlocked k true p = false) → perm i Y s 0)) ∧
    (let i := Instr.fRing x y z sr t
     let dn : BitVec 4 := (s.val x).truncate 4
     let dest := quadMember k (BitVec.ofNat 2 (X / 16 % 4))
     let sn : BitVec 4 := (s.val y).truncate 4
     let ring := (s.core dest).ring dn
     let own := (s.core k).ring sn
     let good : Prop := Z < 2 ^ 25 ∧ X / 64 = 0 ∧ (sr = 1#1 → Y / 16 = 0)
     let set : Prop := (sr = 1#1 → own.val = true) ∧ ring.val = true
     let fits : Prop := Z ≤ ring.size ∧ (sr = 1#1 → Z ≤ own.size)
     (¬good → exec i s = .next (s.engineTraps .f i { code := 0x01#8 })) ∧
     (good → sr = 1#1 → own.val = false → exec i s = .next (s.engineTraps .f i { code := 0x05#8, addr := sn.zeroExtend 64 })) ∧
     (good → (sr = 1#1 → own.val = true) → ring.val = false →
      exec i s = .next (s.engineTraps .f i { code := 0x05#8, addr := dn.zeroExtend 64 })) ∧
     (good → set → ¬fits → exec i s = .next (s.engineTraps .f i { code := 0x01#8 })) ∧
     (good → set → fits → sr = 1#1 → own.isFull own.tail = false → exec i s = .next (s.engineHolds s .f i 0)) ∧
     (good → set → fits → sr = 0#1 → ring.isEmpty ring.head = false → exec i s = .next (s.engineHolds s .f i 0)) ∧
     (good → set → fits → 0 < Z → ring.isEmpty ring.head = true → ring.filled < 64 → (sr = 1#1 → own.isFull own.tail = true) →
      (sr = 1#1 → (dest ≠ k ∨ dn ≠ sn) ∧ own.free < 64 ∧ own.slotOff own.tail + own.size ≤ 2 ^ 25) → (sr = 0#1 → inside Y Z) →
      ring.slotOff ring.head + ring.size ≤ 2 ^ 25 →
      let a := if sr = 1#1 then own.slotOff own.tail else Y - W
      (s.core dest).tower.stuck = [] → (T.scrub a Z).2 = (0, 0) → ∃ u, exec i s = .next u ∧
        (let q := (u.core dest).ring dn
         q.slot ring.head = 0x10#6 ∧ q.filled = ring.filled + 1 ∧ q.free = ring.free - 1 ∧
         q.head = (ring.head + 1) % ring.count) ∧
        (sr = 1#1 → let q := (u.core k).ring sn
         q.slot own.tail = 0#6 ∧ q.free = own.free + 1 ∧ q.filled = own.filled - 1 ∧ q.tail = (own.tail + 1) % own.count) ∧
        ∀ j, j < 2 ^ 25 → (u.core dest).tower.byte j =
          if ring.slotOff ring.head ≤ j ∧ j < ring.slotOff ring.head + Z then T.byte (a + (j - ring.slotOff ring.head))
          else (s.core dest).tower.byte j))

/-! ## Events of the package -/

/-- R139 to R147, R46, R251, R254, R275: what the events of the dealers, the seats and the control units do. The
dealer fetches stream bundle F when its successor is fixed and fewer than 64 bundles separate it from the slowest
seated core; the private port serves the folded cores round-robin by seat, a fetch that traps naming slot 1 (R395)
once no vector or matrix instruction is at work (R388); an engine instruction enters its queue when that has room; a
stream's join completes when no folded core is pending; a vacant stream goes to the lowest waiting core, as bundle F +
1, and pops that core's top entry whatever it is (DESIGN CHOICE, log 67); the first acquirer of an object takes its
hold, and a fence ends, by these events as by their instructions. R157, R457: a barrier whose participants have all
arrived, the running cores and the suspended contexts, releases each of them, once; until then the event changes
nothing. In a listed graph the device's local completion sends an arrival to each other member, once, and the instance
of some local participant ends when every other member's arrival is there, one of which it uses up. -/
def Obligations.SeatEvents : Prop :=
  ((∀ (tb : TableId) (s : State),
     let t := s.table tb
     (∀ h p, s.head tb = some h → t.succ = some p → t.stop = false → t.f - s.minNext tb < 64 →
       (∀ b s', s.fetch h p = .ok b s' → exec (.dealerFetch tb) s = .next (s'.modTable tb (fun t =>
         { t with f := t.f + 1, spc := p, buf := ((p, b) :: t.buf).take 64
                  succ := if hasTransfer b then none else some (p + 1#51), join := none }))) ∧
       (∀ tr s', s.fetch h p = .trap tr s' → exec (.dealerFetch tb) s = .next s)) ∧
     (s.head tb = none ∨ t.succ = none ∨ 64 ≤ t.f - s.minNext tb → exec (.dealerFetch tb) s = .next s)) ∧
   (∀ (tb : TableId) (s : State) (k : CoreId), (s.table tb).stop = false → s.served tb = some k →
     let pc := (s.core k).front.pc
     let port := (s.table tb).port
     let s0 := s.modTable tb (fun t => { t with port := seatOf k })
     k ∈ s.requesters tb ∧
     (∀ k' ∈ s.requesters tb, (seatOf k - port - 1#4).toNat ≤ (seatOf k' - port - 1#4).toNat) ∧
     (∀ b s', s0.fetch k pc = .ok b s' → exec (.privateFetch tb) s =
       .next (s'.modCore k (fun c => { c with front := { c.front with bundle := some b, pc := pc } }))) ∧
     (∀ tr s', s0.fetch k pc = .trap tr s' →
       ((s.core k).midway = false → exec (.privateFetch tb) s = .next (takeTrap k tr pc 1 s')) ∧
       ((s.core k).midway = true → exec (.privateFetch tb) s = .next s))) ∧
   (∀ (k : CoreId) (it : Item) (s : State), s.itemAt k = some it → it.eng ≠ .c → it.ins.isGang = false →
     (s.core k).front.pfx = none → atBoundary k s = none → s.faultWaits k = false →
     let v := standAt k it s
     let q : QEntry := { ins := it.ins, slots := it.ins.slots, cap := capOf it.ins (v.core k) }
     (queueUsed ((v.core k).queue it.eng) + it.ins.slots ≤ it.eng.depth →
       exec (.instructionHandOver k) s = .next (leaveSlot k (enqueue k it.eng q v))) ∧
     (it.eng.depth < queueUsed ((v.core k).queue it.eng) + it.ins.slots → exec (.instructionHandOver k) s = .next v)) ∧
   (∀ (tb : TableId) (s : State) (h : CoreId) (x : Pc) (j : BitVec 4),
     let t := s.table tb
     t.join = some (x, j) → s.head tb = some h → t.stop = false → (s.core h).front.joined = true → (s.core h).front.pc = x → (s.core h).seat.n = t.f → t.succ = none →
     (s.noPending tb j = true → ∃ u, exec (.joinComplete tb) s = .next u ∧ u = { s with cores := u.cores, tables := u.tables } ∧
       (∀ tb', u.table tb' = if tb' = tb then { t with join := none, succ := some (x + 1#51) } else s.table tb') ∧
       ∀ k, u.core k =
         (let c := s.core k
          if k ∈ s.waiting tb ∧ c.front.pc = x ∧ c.seat.accepts j = true then
            { c with seat := { c.seat with st := .seated, n := t.f, stack := c.seat.stack.dropLast } } else c)) ∧
     (s.noPending tb j = false → exec (.joinComplete tb) s = .next s)) ∧
   (∀ (tb : TableId) (s : State) (k : CoreId) (it : Item) (j : BitVec 4) (t : Option Tok),
     (s.table tb).stop = false → s.vacant tb = true → (s.waiting tb).head? = some k → (s.core k).front.item = some it → it.ins = .join j t →
     let x := (s.core k).front.pc
     let f := (s.table tb).f + 1
     let v := (s.modCore k (fun c =>
       { c with seat := { c.seat with st := .seated, n := f, stack := c.seat.stack.dropLast } })).modTable tb (fun t =>
         { t with f := f, spc := x, succ := none, buf := [], join := some (x, j) })
     exec (.vacancyRule tb) s = exec (.joinComplete tb) v ∧ ∃ u, exec (.joinComplete tb) v = .next u) ∧
   (∀ (home : Nat) (k : CoreId) (x : Bool) (rest : List (CoreId × Bool)) (it : Item) (a : BitVec 5) (t : Option Tok)
       (ps : List Piece) (i : BitVec 4) (b : Binding) (bs : List (BitVec 8)) (s u : State),
     s.objQueue home = (k, x) :: rest → s.itemAt k = some it → atBoundary k s = none → s.faultWaits k = false →
     let v := standAt k it s
     v.goes t → v.objCheck k 0 (v.val a).toNat = .ok ps → homeHeld ps = false → objHome k ps = home →
     (v.core k).bindOf (v.val a).toNat = some (i, b) → b.hold = .none → v.fenceWaits k b.scope = false →
     ps.any (v.pieceBlocked k true) = false → v.consume k ps = .ok bs u →
     let w := bytesToNat bs
     let shared := w / 2 ^ 16 % 2 ^ 15
     let held (n : Nat) (h : Hold) : State := (((u.writePieces k ps (natToBytes 8 n)).setObjQueue home rest).modCore k
       (fun c => { c with binds := c.binds.set i (some { b with hold := h }) })).performed k
     (it.ins = .acqX a t → w % 2 ^ 16 = 0 → w.testBit 31 = false → shared = 0 →
       exec (.objectGrant home) s = .next ((held (w + 2 ^ 31) .exclusive).went k t)) ∧
     (it.ins = .acqS a t → w % 2 ^ 16 = 0 → w.testBit 31 = false → shared < 32767 →
       let h := held (w + 2 ^ 16) .shared
       exec (.objectGrant home) s = .next ((grantShared home rest.length h).went k t) ∧
       (rest = [] ∨ rest.head?.map (fun q => q.2) = some true → grantShared home rest.length h = h)) ∧
     (it.ins = .acqX a t ∨ it.ins = .acqS a t → w % 2 ^ 16 = 0 → w.testBit 31 = true →
       exec (.objectGrant home) s = .next (u.waits t))) ∧
   (∀ (k : CoreId) (it : Item) (sc : BitVec 4) (a b : BitVec 5) (t : Option Tok) (s : State), s.itemAt k = some it →
     atBoundary k s = none → s.faultWaits k = false →
     let v := standAt k it s
     v.goes t →
     (it.ins = .fence sc t →
       (v.fenceWaits k sc = false → exec (.fenceComplete k) s = .next ((v.performed k).went k t)) ∧
       (v.fenceWaits k sc = true → exec (.fenceComplete k) s = .next (v.waits t))) ∧
     (it.ins = .iflush a b t →
       (v.fenceWaits k 8#4 = false →
         exec (.fenceComplete k) s = .next ((flushCode k (v.val a).toNat (v.val b).toNat (v.performed k)).went k t)) ∧
       (v.fenceWaits k 8#4 = true → exec (.fenceComplete k) s = .next (v.waits t))))) ∧
  (∀ (k : CoreId) (lvl : BitVec 3) (id : BitVec 4) (s : State),
     let b : BitVec 3 × BitVec 4 := (lvl, id)
     let p := if s.isPod k lvl then s.podParties else s.parties k lvl
     let ms := s.podMembers
     let said := s.fabric.announce ms id
     let freed (u : State) : Prop :=
       (∀ c, u.core c = if c ∈ p.cores ∧ p.here s c = true ∧ b ∈ (s.core c).arrived then
         { s.core c with arrived := (s.core c).arrived.filter (fun y => decide (y ≠ b)), released := b :: (s.core c).released }
         else s.core c) ∧
       List.Forall₂ (fun x y : Suspended =>
         y = { x with freed := y.freed, bars := x.bars.map (fun e =>
                 if e.1 ∈ p.cores ∧ p.saved e.1 x = true then (e.1, e.2.filter (fun q => decide (q ≠ b))) else e) } ∧
         ∀ q, q ∈ y.freed ↔ q ∈ x.freed ∨ ∃ c ∈ p.cores, q = (c, b) ∧ p.saved c x = true ∧ ∃ e ∈ x.bars, e.1 = c ∧ b ∈ e.2)
         s.launch.suspended u.launch.suspended
     let after (u : State) (f : Fabric) : Prop := freed u ∧
       u = { s with cores := u.cores, launch := { s.launch with suspended := u.launch.suspended }, fabric := f }
     (p.full s b = true ↔ ∀ c ∈ p.cores,
       (p.here s c = true → (s.core c).seat.st ≠ .out → b ∈ (s.core c).arrived) ∧
       ∀ x ∈ s.launch.suspended, p.saved c x = true → ∀ e, x.bars.find? (fun e => decide (e.1 = c)) = some e → b ∈ e.2) ∧
     (s.isPod k lvl = false →
       (p.full s b = false → exec (.barrierComplete k lvl id) s = .next s) ∧
       (p.full s b = true → ∃ u, exec (.barrierComplete k lvl id) s = .next u ∧ after u s.fabric)) ∧
     (s.isPod k lvl = true →
       (p.full s b = false → exec (.barrierComplete k lvl id) s = .next s) ∧
       (p.full s b = true → (∃ m ∈ ms, s.fabric.arrivals.get 0 (m, id) = 0) →
         exec (.barrierComplete k lvl id) s = .next { s with fabric := said }) ∧
       (p.full s b = true → (∃ c ∈ p.cores, p.arrivals s b c ≠ []) → (∀ m ∈ ms, 0 < s.fabric.arrivals.get 0 (m, id)) →
         ∃ u, exec (.barrierComplete k lvl id) s = .next u ∧ after u u.fabric ∧
           (∀ m i, u.fabric.arrivals.get 0 (m, i) =
             if m ∈ ms ∧ i = id then s.fabric.arrivals.get 0 (m, i) - 1 else s.fabric.arrivals.get 0 (m, i)) ∧
           u.fabric = { said with announced := said.announced.filter (fun x => decide (x ≠ id))
                                  arrivals := u.fabric.arrivals }) ∧
       (id ∈ s.fabric.announced → said = s.fabric) ∧
       (id ∉ s.fabric.announced → said =
         { s.fabric with announced := id :: s.fabric.announced
                         podOut := s.fabric.podOut ++ ms.map (fun m => (m, id)) })))

/-- R46, R216, R217, R299 to R306, R322, R345, R353, R387 to R389, R394, R397, R398: what the events of the engines
do, for an engine that holds one instruction. It starts when its tokens are there, pops them, takes its effect, and
retires when its POST queue has room; it traps with nothing popped, or faults at a resume point. A matrix command
whose checks fail traps before its tokens are there (DEDUCED, log 84). A waiting ring instruction and a broadcast go
on by their own events. A core whose token deadlock lasts 64 cycles, counted by the event's operand (DESIGN CHOICE,
log 58), traps, or, halted, loses its queues and tokens and raises event 6. A pending fault is taken as a trap unless
the core is held (DEDUCED, log 65), and an interrupt request unless a fault is marked. A matrix command that consumes
a poisoned sector goes on by its event: a clean tagged sector is refetched and the window replayed, and another traps.
R153, R302, R311, R312: a gang in which one core is present starts when that core's tokens are there. When that core
is the leader, its slice runs once its checks have passed, its tokens being popped after them; when the leader is
absent, no slice is computed and nothing checked. The fault mask names the members that were absent, and every named
member when the leader was. At the completion each member that takes part takes one token with the mask when its gang
queue has room, and those without room wait for theirs. Which members count as absent is log 66 (DEDUCED), what
partners take from the leader's faults log 61 and when a command is checked log 84 (DEDUCED). -/
def Obligations.EngineEvents : Prop :=
  ((∀ (k : CoreId) (e : Engine) (q : QEntry) (s : State), e ≠ .c → q.flev = 0#8 → q.fault = none → q.ganged = false →
     q.landed = false → (∀ l ∈ s.late, l.core ≠ k) → (e = .d → s.sentMeets k q = false) → s.tileBusy k e q = false →
     let free (u : State) : Prop := (u.core k).queue e = [q] ∧ (u.core k).pendingFault = none ∧
       u.atJoin k = false ∧ (u.core k).inLoad = false ∧ (u.core k).inBar = false ∧ (u.table (tableOf k)).stop = false ∧
       ∀ e' ∈ [Engine.v, .m], e' ≠ e → ∀ x ∈ (u.core k).queue e', x.atWork = false
     free s →
     let t := q.ins.tok?
     let q0 := if q.started then q else { q with cap := startCap q.ins (s.core k) s.tick q.cap }
     let entry (s : State) (q : QEntry) : State := s.modCore k (fun c => c.setQueue e [q])
     let popped (s : State) : State := if q.started then s else s.modCore k (fun c => { c with tok := c.tok.pop t })
     let retired (s : State) : State := s.modCore k (fun c =>
       (retireEffect q.ins { c with tok := c.tok.push t }).setQueue e [])
     let runs (i : Instr) : Prop :=
       (∀ u, q0.run k .whole s = .done u → free u →
         (((popped u).core k).tok.room t = true → exec i s = .next (retired (popped u))) ∧
         (((popped u).core k).tok.room t = false →
           exec i s = .next (entry (popped u) { q0 with started := true, finished := true }))) ∧
       (∀ r u, q0.run k .whole s = .hold r u → free u →
         exec i s = .next (if q.started = true ∧ q.resume = r then u
           else entry (popped u) { q0 with started := true, resume := r })) ∧
       (∀ tr u, q0.run k .whole s = .trap tr u → free u →
         exec i s = .next (takeEngineTrap k { tr with eng := e.num } (entry u { q0 with faulted := some tr }))) ∧
       (∀ tr r u, q0.run k .whole s = .fault tr r u → free u →
         exec i s = .next (takeEngineTrap k { tr with eng := e.num }
           (entry (popped u) { q0 with started := true, resume := r, faulted := some tr }))) ∧
       (∀ u, q0.run k .whole s = .wait u →
         exec i s = .next (if q.started = true then s else entry (popped s) { q0 with started := true }))
     (∀ tr, e = .m → q.started = false → q.finished = false → q.unformed = false → mCheck k q s = some tr →
       exec (.instructionStart k e) s = .next (takeEngineTrap k { tr with eng := e.num } (entry s { q with faulted := some tr }))) ∧
     (q.started = false → q.finished = false → q.unformed = false → (e = .m → mCheck k q s = none) →
       (s.core k).tok.gangFault t = none →
       ((s.core k).tok.ready t = true → runs (.instructionStart k e)) ∧
       ((s.core k).tok.ready t = false → exec (.instructionStart k e) s = .next s)) ∧
     (q.started = true → q.finished = false → runs (.instructionStart k e) ∧
       (∀ y z r m t, e = .d → q.ins = .dCopyRg y z r m t → (RingRes.of q.resume).di = none → runs (.acquireFill k .d)) ∧
       (∀ x y z r t, e = .f → q.ins = .fRing x y z r t →
         ((RingRes.of q.resume).di = none → runs (.acquireFill k .f)) ∧
         (r = 1#1 → (RingRes.of q.resume).sj = none → runs (.acquireDrain k .f))) ∧
       (∀ x y z t, e = .d → q.ins = .dBcast x y z t → runs (.drillLineBeat k))) ∧
     (q.finished = true →
       ((s.core k).tok.room t = true → exec (.instructionRetire k e) s = .next (retired s)) ∧
       ((s.core k).tok.room t = false → exec (.instructionRetire k e) s = .next (entry s q)))) ∧
   (∀ (k : CoreId) (ck : Nat) (halted : Bool) (s : State), (s.core k).front.run = !halted →
     (s.table (tableOf k)).stop = false →
     let i := if halted then Instr.tokdeadEvent k ck else Instr.tokdead k ck
     let set (n : Nat) : State := s.modCore k (fun c => { c with deadCk := n })
     (s.tokenDeadlocked k = false → exec i s = .next (set 0)) ∧
     (s.tokenDeadlocked k = true → (s.core k).deadCk + ck < 64 → exec i s = .next (set ((s.core k).deadCk + ck))) ∧
     (s.tokenDeadlocked k = true → 64 ≤ (s.core k).deadCk + ck →
       let w := (s.core k).deadWord k
       (halted = false → exec i s = .next (takeEngineTrap k { code := 0x18#8, addr := w } s)) ∧
       (halted = true → exec i s = .next ((s.modCore k (fun c =>
         { c with vq := [], mq := [], dq := [], fq := [], tok := {}, deadCk := 0, mtx := { c.mtx with retry := none }
                  queries := c.queries.map (fun e => (e.1, e.2.map (fun q => { q with unsent := [] }))) })).modDie (dieOf k) (fun d =>
           { d with events := d.events ++ [{ source := 6, detail := k.toNat % 256, data := [w] }] }))))) ∧
   (∀ (k : CoreId) (e : Engine) (n : Nat) (q : QEntry) (tr : TrapInfo) (s : State),
     (s.core k).pendingFault = some (e, n, q, tr) →
     ((s.table (tableOf k)).stop = false → s.held k = false →
       exec (.trapEntry k) s = .next (takeEngineTrap k { tr with eng := e.num } (s.modCore k (fun c =>
         c.setQueue e ((c.queue e).set n { q with fault := none, faulted := some tr }))))) ∧
     ((s.table (tableOf k)).stop = true ∨ s.held k = true → exec (.trapEntry k) s = .next s)) ∧
   (∀ (k : CoreId) (w : Word) (rest : List Word) (s : State),
     exec (.interruptRequest k w) s = .next (s.modCore k (fun c => { c with irq := c.irq ++ [w] })) ∧
     ((s.core k).irq = w :: rest →
       let c := s.core k
       (c.front.run = true → c.ctl.ie = true → c.front.pfx = none → c.inBar = false → c.inLoad = false → c.midway = false →
         (s.table (tableOf k)).stop = false → c.marked = false ∨ c.seat.st = .waiting →
         exec (.intr k) s = .next (takeTrap k { code := 0x30#8, eng := 7#3, addr := w } c.front.resume.1 c.front.resume.2
           (s.modCore k (fun c => { c with irq := rest })))) ∧
       (c.front.run = false ∨ c.ctl.ie = false ∨ c.front.pfx.isSome = true ∨ c.inBar = true ∨ c.inLoad = true ∨
         c.midway = true ∨ (s.table (tableOf k)).stop = true ∨ (c.marked = true ∧ c.seat.st ≠ .waiting) →
         exec (.intr k) s = .next s))) ∧
   (∀ (k : CoreId) (off : BitVec 25) (s : State),
     let c := s.core k
     (c.runningM = none ∨ c.tower.poisoned off.toNat = false → exec (.automaticRefetch k off) s = .next s) ∧
     (∀ n e, c.runningM = some n → c.mq[n]? = some e → c.tower.poisoned off.toNat = true →
       ((∃ r ∈ Core.ownRuns k c e, r.1 / 32 ≤ off.toNat / 32 ∧ off.toNat / 32 * 32 < r.1 + r.2) →
         exec (.automaticRefetch k off) s = .next (engineTurnLate .whole k .m n s)) ∧
       ((∀ r ∈ Core.ownRuns k c e, off.toNat / 32 < r.1 / 32 ∨ r.1 + r.2 ≤ off.toNat / 32 * 32) →
         exec (.automaticRefetch k off) s = .next s))) ∧
   (∀ (k : CoreId) (asid : BitVec 16) (xe : Bool) (off : Nat) (s : State),
     let t := off / 32 * 32
     let c := s.core k
     let place (e : BitVec 128) : Except TrapInfo (List Piece) :=
       s.check k asid xe c.ctl.sup .drd 0 (512 * tagBlock e + (t - 512 * tagLine e)) 32
     (c.tagFind (fun e => tagClean e && tagCovers e t) = none → refetch k asid xe off s = .impossible) ∧
     (∀ n e, c.tagFind (fun e => tagClean e && tagCovers e t) = some (n, e) →
       (∀ tr, place e = .error tr → refetch k asid xe off s = .failed s) ∧
       (∀ ps, place e = .ok ps →
         (∀ tr u, s.consume k ps = .trap tr u → refetch k asid xe off s = .failed u) ∧
         (s.consume k ps = .wait → refetch k asid xe off s = .wait) ∧
         (∀ bs u, s.consume k ps = .ok bs u → refetch k asid xe off s = .ok ((u.modCore k (fun c =>
           { c with tower := c.tower.write t bs })).modDie (dieOf k) (fun d =>
             { d with events := d.events ++ [{ source := 1, detail := (tableOf k).toNat }] })))))) ∧
   (∀ (k owner : CoreId) (e : QEntry) (p : Pace) (fuel q off : Nat) (replay : Bool) (tried : List Nat) (s u : State),
     (if replay then replaySlice k e s else runSlice k e ((List.range (p.upto q (allChunks e).length)).drop q) s) = .bad owner off u →
     let v := u.modCore k Core.zeroEngaged
     let told (wl rf : Bool) : TrapInfo := { code := 0x10#8, addr := sectorName k owner off, wl := wl, rf := rf }
     let run := mulLoop k e p (fuel + 1) replay q tried s
     ((s.core k).mtx.window ≠ .anchored → run = .fault (told true false) 0#64 v) ∧
     ((s.core k).mtx.window = .anchored →
       (owner ≠ k → run = .fault (told false false) 0#64 (markFault k e true v)) ∧
       (owner = k → off / 32 ∈ tried → run = .fault (told false true) 0#64 (markFault k e true v)) ∧
       (owner = k → off / 32 ∉ tried →
         (refetch k e.cap.asid e.cap.xe off v = .impossible → run = .fault (told false false) 0#64 (markFault k e true v)) ∧
         (∀ x, refetch k e.cap.asid e.cap.xe off v = .failed x → run = .fault (told false true) 0#64 (markFault k e true x)) ∧
         (∀ x, refetch k e.cap.asid e.cap.xe off v = .ok x → run = mulLoop k e p fuel true 0 (off / 32 :: tried) x))))) ∧
  ((∀ (tb : TableId) (quad : BitVec 2) (m : BitVec 2) (n : Nat) (e : QEntry) (g : Gang) (s : State),
     let k : CoreId := tb ++ (quad ++ m : BitVec 4)
     (s.core k).nextM = some (e, n) → (s.core k).gangEntry g = some (e, n) → e.gang = some g → e.started = false →
     e.fault = none → e.faulted = none → e.landed = false →
     (∀ b ∈ (s.core k).mq.take n, b.flev = 0#8 → b.fault = none) → (∀ l ∈ s.late, l.core ≠ k) → (s.table tb).stop = false →
     g.mask.getLsbD m.toNat = true → (s.core k).tok.ready e.ins.tok? = true → (s.core k).tok.gangFault e.ins.tok? = none →
     (∀ m', m' ≠ m → g.mask.getLsbD m'.toNat = true → s.gangPart k g (quadMember k m') = .absent) →
     (∀ m', m' ≠ m → ∀ e' n', (s.core (quadMember k m')).nextM = some (e', n') → e'.unformed = false) →
     let v := setEntry k .m n { e with started := true } (s.modCore k (fun c => { c with tok := c.tok.pop e.ins.tok? }))
     let q : QEntry := { e with started := true, ganged := true }
     let ended (u : State) : State := retireEngine k .m (setEntry k .m n { q with finished := true } u)
     let recorded (u : State) (mask : BitVec 4) : State := u.modTable tb (fun t =>
       { t with gangs := t.gangs ++ [{ quad := quad, gq := g.gq, mask := mask, ended := 1#4 <<< m.toNat, members := [m] }] })
     (∀ kind row col rm, gangLeader k g.mask = k → mDesc e.ins = some (kind, row, col, rm) → kind ≠ .zero →
       (∀ x tr, mulCheck kind row col true (s.core k) e.cap.sha e.cap.shb = some (x, tr) → s.held k = false →
         (s.core k).pendingFault = none →
         exec (.gangStart tb quad) s = .next (takeEngineTrap k { tr with eng := 2#3 } (s.modCore k (fun c =>
           { c with mq := c.mq.set n { e with faulted := some tr } })))) ∧
       (∀ u, mulCheck kind row col true (s.core k) e.cap.sha e.cap.shb = none →
         mulLoop k q .whole 1048577 false 0 [] (mBegin k q false true v) = .done u → ((ended u).core k).pendingFault = none →
         exec (.gangStart tb quad) s = .next (recorded (ended u) (g.mask &&& ~~~(1#4 <<< m.toNat))))) ∧
     (gangLeader k g.mask ≠ k → ((ended (mBegin k { q with resume := 1#64 } false true v)).core k).pendingFault = none →
       exec (.gangStart tb quad) s = .next (recorded (ended (mBegin k { q with resume := 1#64 } false true v)) g.mask))) ∧
   (∀ (tb : TableId) (quad : BitVec 2) (s : State),
     let core (m : BitVec 2) : Core := s.core (tb ++ (quad ++ m : BitVec 4))
     let ends (g : GangRun) : Prop := ∀ m ∈ g.members, g.ended.getLsbD m.toNat = true ∨ (core m).gangRuns g.gq = false
     let room (g : GangRun) (m : BitVec 2) : Bool := decide (((core m).tok.gq.get [] g.gq).length < 15)
     let due (g : GangRun) : Prop := g.quad = quad ∧ ends g ∧ ∃ m ∈ g.members, room g m = true
     ((∀ g ∈ (s.table tb).gangs, ¬due g) → exec (.gangCompletion tb quad) s = .next s) ∧
     (∀ before g after, (s.table tb).gangs = before ++ g :: after → (∀ x ∈ before, ¬due x) → due g → g.members.Nodup →
       let stay := g.members.filter (fun m => !room g m)
       ∃ u, exec (.gangCompletion tb quad) s = .next u ∧ u = { s with cores := u.cores, tables := u.tables } ∧
         (∀ tb', u.table tb' = if tb' = tb then { s.table tb with gangs :=
           before ++ (if stay = [] then after else { g with members := stay, ended := 15#4 } :: after) } else s.table tb') ∧
         (∀ m, m ∈ g.members → room g m = true → u.core (tb ++ (quad ++ m : BitVec 4)) =
           { core m with tok := { (core m).tok with gq := (core m).tok.gq.set g.gq ((core m).tok.gq.get [] g.gq ++ [g.mask]) }
                         deadCk := 0 }) ∧
         (∀ k, (∀ m ∈ g.members, room g m = true → k ≠ (tb ++ (quad ++ m : BitVec 4) : CoreId)) → u.core k = s.core k))))

/-- R200 to R204, R207, R241 to R243: a subarray in which no line is pinned is refreshed at an age its deferral mark
allows: its words with one bit in error are corrected, those with more poison their sectors and raise event 2, the
mark goes and the age restarts; at any other age only the age counts, as far as its deadline. At its deadline a pinned
line is written back, its subarray refreshed, and the pin stays. Temperature events set and clear the hot bound. A
walk caches its translation; a write of TICTL with GO starts an invalidation, which ends when no core of the die has
an access in flight, whatever its translation (DEDUCED, log 33), its entries gone from every cache of the die, the
die's stores performed and nothing read ahead; one under ALL lets the die go by its tables as they stand (DEDUCED, log
70). The events' ages are their operands (DESIGN CHOICE, log 57); a deferred subarray whose line was released keeps
the bound of 8 s (DESIGN CHOICE, log 89). -/
def Obligations.TowerEvents : Prop :=
  (∀ (k : CoreId) (sub : BitVec 10) (age : Nat) (s : State),
    let T := (s.core k).tower
    let put (t : Tower) : State := s.modCore k (fun c => { c with tower := t })
    let w := sub.toNat * 4224
    let here (x : Nat) : Prop := w ≤ x ∧ x < w + 4224
    let lost (t : Tower) (u : State) : State :=
      if (t.err2.filter (fun x => decide (w ≤ x) && decide (x < w + 4224))) = [] then u
      else u.modDie (dieOf k) (fun d => { d with events := d.events ++ [{ source := 2, detail := (tableOf k).toNat }] })
    let old := T.age.get 0 sub
    let kept' : Bool := (T.pinnedIn sub).isSome || Marks.has T.defer sub.toNat
    let latest : Nat := if T.hot then max 4000 old else if kept' then 8000 else min 8000 (max 4050 (T.freed.get 0 sub + 50))
    let earliest : Nat := if T.hot then 0 else if Marks.has T.defer sub.toNat then 8000 else 4000
    let due : Prop := old ≤ age ∧ earliest ≤ age ∧ age ≤ latest
    let kept : State := put { T with age := T.age.set sub (max (min age latest) old) }
    (T.pinnedIn sub = none → due → ∃ T', exec (.subarrayRefresh k sub age) s = .next (lost T (put T')) ∧
      (∀ x, x ∈ T'.err1 ↔ x ∈ T.err1 ∧ ¬here x) ∧ (∀ x, x ∈ T'.err2 ↔ x ∈ T.err2 ∧ ¬here x) ∧
      (∀ p, Marks.has T'.poison p = true ↔ Marks.has T.poison p = true ∨ ∃ x ∈ T.err2, here x ∧ x / 4 = p) ∧
      (∀ n, Marks.has T'.defer n = true ↔ Marks.has T.defer n = true ∧ n ≠ sub.toNat) ∧
      T' = { T with err1 := T'.err1, err2 := T'.err2, poison := T'.poison, defer := T'.defer, freed := T.freed.set sub 0
                    age := T.age.set sub 0 }) ∧
    (T.pinnedIn sub ≠ none ∨ ¬due → exec (.subarrayRefresh k sub age) s = .next kept) ∧
    (T.pinnedIn sub = none → exec (.forcedRefresh k sub age) s = .next kept) ∧
    (∀ n l, T.pinnedIn sub = some (n, l) →
      (age ≠ latest → exec (.forcedRefresh k sub age) s = .next kept) ∧
      (age = latest →
        let t1 := T.writeBack l
        let t2 := (t1.refresh sub).1
        let t3 := { t2 with lines := t2.lines.set n (some (t2.capture l.row l.keep)) }
        exec (.forcedRefresh k sub age) s = .next (lost t1 (put t3)))) ∧
    exec (.towerOverTemperature k) s = .next (put { T with hot := true }) ∧
    exec (.towerTemperatureFall k) s = .next (put { T with hot := false })) ∧
  (∀ (k : CoreId) (va : BitVec 56) (use : Use) (s : State),
    let c := (s.core k).ctl
    let walk := s.translate (dieOf k) c.asid c.sup use va.toNat
    let s1 := s.touchWalk { a := va.toNat, len := 1, at_ := .held, walk := s.walked k c.asid true va.toNat }
    (va.toNat < windowBase →
      (∀ e, walk = .ok e →
        let e' := s.cachePiece (dieOf k) va.toNat e
        (e.denies c.sup use = true → exec (.translationWalk k ⟨va, use⟩) s = .next s1) ∧
        (e.denies c.sup use = false → exec (.translationWalk k ⟨va, use⟩) s =
          .next ((s1.modCore k (fun c => { c with tlb := tlbInsert 64 8 72 e' c.tlb })).modTable
            (tableOf k) (fun t => { t with tlb := tlbInsert 2048 2048 2048 e' t.tlb })))) ∧
      (walk = .xlate → exec (.translationWalk k ⟨va, use⟩) s = .next s1) ∧
      (walk = .wait → exec (.translationWalk k ⟨va, use⟩) s = .next s)) ∧
    (windowBase ≤ va.toNat → exec (.translationWalk k ⟨va, use⟩) s = .next s)) ∧
  (∀ (pages ranges all : Nat) (e x : TlbEntry) (l : List TlbEntry), 0 < pages → 0 < ranges → 0 < all →
    (tlbInsert pages ranges all e l).head? = some e ∧ (x ∈ tlbInsert pages ranges all e l → x = e ∨ x ∈ l) ∧
    (tlbInsert pages ranges all e l).length ≤ all ∧
    ((tlbInsert pages ranges all e l).filter (fun y => !y.range)).length ≤ pages ∧
    ((tlbInsert pages ranges all e l).filter (fun y => y.range)).length ≤ ranges) ∧
  (∀ (d : DieId) (v : Word) (s : State),
    let x := s.die d
    let base := (field x.tiva 12 44).toNat * 4096
    let n := x.tilen.toNat
    (x.busy.isSome = true → exec (.tictlGo d v) s = .next (s.modDie d (fun x => x))) ∧
    (x.busy = none → v.getLsbD 63 = true → exec (.tictlGo d v) s = .next (s.modDie d (fun x =>
      { x with tictl := v &&& 0x1FFFF#64
               busy := some (if n = 0 then { asid := v.truncate 16, all := v.getLsbD 16, first := 0, last := 2 ^ 56 - 1 }
                 else { asid := v.truncate 16, all := v.getLsbD 16, first := base, last := base + n * 4096 - 1 }) }))) ∧
    (x.busy = none → v.getLsbD 63 = false →
      exec (.tictlGo d v) s = .next (s.modDie d (fun x => { x with tictl := v &&& 0x1FFFF#64 })))) ∧
  (∀ (d : DieId) (sd : Shootdown) (s : State), (s.die d).busy = some sd →
    let gone (e : TlbEntry) : Prop := (sd.all = true ∨ e.asid = sd.asid) ∧ e.first ≤ sd.last ∧ sd.first ≤ e.last
    (s.inFlight d = true → exec (.shootdownComplete d) s = .next s) ∧
    (s.inFlight d = false → ∃ u, exec (.shootdownComplete d) s = .next u ∧
      (∀ k, (dieOf k = d → ∀ e, e ∈ (u.core k).tlb ↔ e ∈ (s.core k).tlb ∧ ¬gone e) ∧
        u.core k = { s.core k with tlb := (u.core k).tlb } ∧ (dieOf k ≠ d → u.core k = s.core k)) ∧
      (∀ t, (tableDie t = d → ∀ e, e ∈ (u.table t).tlb ↔ e ∈ (s.table t).tlb ∧ ¬gone e) ∧
        u.table t = { s.table t with tlb := (u.table t).tlb } ∧ (tableDie t ≠ d → u.table t = s.table t)) ∧
      (∀ d', u.die d' = if d' = d then { s.die d with busy := none } else s.die d') ∧
      u = { s with cores := u.cores, tables := u.tables, dies := u.dies
                   late := s.late.filter (fun l => decide (dieOf l.core ≠ d))
                   early := s.early.filter (fun e => decide (dieOf e.core ≠ d))
                   spaces := if sd.all then s.spaces.set d { asdt := (s.die d).asdt, hbm := s.hbm } else s.spaces }))

/-- R232 to R235, R441: the events of a stack. A precharge counts its row's activations; when the counter is saturated
or its parity wrong, the row and the two on each side restart at 0, and wrong parity raises event 1. A failed layer
moves to the one spare layer row by row, each unit as it reads, rebuilt from parity. A critical temperature puts a
stack into self-refresh, which raises event 3 once in a stay; leaving it serves what waits. Training and failure marks
are recorded; a stack that is trained is ready once its die's images are verified (DEDUCED, log 32). Only rows of one
layer are neighbours (DEDUCED, log 71). -/
def Obligations.StackEvents : Prop :=
  ∀ (st : StackId) (s : State),
    let x := s.stack st
    let d : DieId := st.extractLsb' 0 3
    let put (f : Stack → Stack) : State := s.modStack st f
    let raised (n : Nat) (v : State) : State :=
      v.modDie d (fun y => { y with events := y.events ++ [{ source := n, detail := st.toNat }] })
    (∀ (pc : BitVec 6) (bank : BitVec 4) (row : BitVec 17),
      let key := actKey pc.toNat bank.toNat
      let wrong := Marks.has x.actBad (key row.toNat)
      let n := x.act.get 0 (key row.toNat)
      (69632 ≤ row.toNat → exec (.precharge st pc bank row) s = .next s) ∧
      (row.toNat < 69632 → wrong = false → n < Config.actSaturation → exec (.precharge st pc bank row) s =
        .next (put (fun y => { y with act := y.act.set (key row.toNat) (n + 1) }))) ∧
      (row.toNat < 69632 → wrong = true ∨ Config.actSaturation ≤ n → ∃ y,
        exec (.precharge st pc bank row) s = .next (if wrong then raised 1 (put (fun _ => y)) else put (fun _ => y)) ∧
        y = { x with act := y.act, actBad := y.actBad } ∧
        ∀ q, let near : Prop := ∃ r, r / 4096 = row.toNat / 4096 ∧ r ≤ row.toNat + 2 ∧ row.toNat ≤ r + 2 ∧ q = key r
          (near → y.act.get 0 q = 0 ∧ Marks.has y.actBad q = false) ∧
          (¬near → y.act.get 0 q = x.act.get 0 q ∧ Marks.has y.actBad q = Marks.has x.actBad q))) ∧
    (∀ layer, (x.spare = none → x.migration = none → FailMark.layer layer ∈ x.failed →
        exec (.spareLayerMigration st layer) s = .next (put (fun y => { y with migration := some { layer := layer, next := 0 } }))) ∧
      (x.spare.isSome = true ∨ x.migration.isSome = true ∨ FailMark.layer layer ∉ x.failed →
        exec (.spareLayerMigration st layer) s = .next s)) ∧
    (∀ m, x.migration = some m → m.next < 4096 →
      let far := decide (8 ≤ st.toNat)
      let group := (List.range 8).map (fun i => tierStack far i)
      let mine (pc r : Nat) : Prop := pc < 64 ∧ r / 64 = m.layer.toNat * 4096 + m.next
      let home (pc r y : Nat) : Home := { s := st.toNat % 8, pc := pc, r := r, y := y }
      ((∃ n ∈ group, (s.stack n).selfRefresh = true ∨ (s.stack n).deltas ≠ []) →
        exec (.migrationRowCopy st) s = .next s) ∧
      ((∀ n ∈ group, (s.stack n).selfRefresh = false ∧ (s.stack n).deltas = []) →
        ∃ y, exec (.migrationRowCopy st) s = .next (put (fun _ => y)) ∧
          (∀ pc r, mine pc r → (∀ b, b < 256 → y.raw pc r b = s.unitByte far (home pc r b)) ∧
            (∀ sec, sec < 8 → y.rawPoison pc r sec = s.unitPoison far (home pc r (32 * sec))) ∧
            Marks.has y.bad (pc * 2 ^ 22 + r) = false) ∧
          (∀ pc r, pc < 64 → r < 2 ^ 22 → ¬mine pc r → (∀ b, b < 256 → y.raw pc r b = x.raw pc r b) ∧
            (∀ sec, sec < 8 → y.rawPoison pc r sec = x.rawPoison pc r sec) ∧
            Marks.has y.bad (pc * 2 ^ 22 + r) = Marks.has x.bad (pc * 2 ^ 22 + r)) ∧
          y = { x with
            cells := y.cells, poison := y.poison, bad := y.bad, stale := y.stale
            migration := if m.next + 1 = 4096 then none else some { m with next := m.next + 1 }
            spare := if m.next + 1 = 4096 then some m.layer else x.spare })) ∧
    exec (.criticalTemperatureRise st) s = .next (put (fun y => { y with selfRefresh := true })) ∧
    (x.queue = [] → exec (.criticalTemperatureFall st) s = .next (put (fun y =>
      { y with selfRefresh := false, hold := false, queue := [] }))) ∧
    (∀ q s', x.queue = [q] → performPacket q (put (fun y => { y with selfRefresh := false, hold := false })) = some s' →
      exec (.criticalTemperatureFall st) s = .next (s'.modStack st (fun y => { y with queue := [] }))) ∧
    ((x.selfRefresh = true → x.hold = false → exec (.thermalHold st) s = .next (raised 3 (put (fun y => { y with hold := true })))) ∧
      (x.selfRefresh = false ∨ x.hold = true → exec (.thermalHold st) s = .next s)) ∧
    (∃ y : BitVec 24, exec (.stackTraining st) s =
        .next ((put (fun x => { x with trained := true })).modDie d (fun z => { z with dready := y })) ∧
     ((s.die d).verified = false → y = (s.die d).dready) ∧
     ((s.die d).verified = true → (∀ i, i ≠ 16 → i ≠ 17 → y.getLsbD i = (s.die d).dready.getLsbD i) ∧
      ((s.die d).dready.getLsbD 16 = true → y.getLsbD 16 = true) ∧ ((s.die d).dready.getLsbD 17 = true → y.getLsbD 17 = true) ∧
      (st.getLsbD 3 = false → y.getLsbD 16 = true ∧ ((s.stack (1#1 ++ d)).trained = true → y.getLsbD 17 = true)) ∧
      (st.getLsbD 3 = true → (s.stack (0#1 ++ d)).trained = true → y.getLsbD 17 = true) ∧
      (st.getLsbD 3 = true → (s.stack (0#1 ++ d)).trained = false → (s.die d).dready.getLsbD 17 = y.getLsbD 17))) ∧
    (∀ w, exec (.markedFailed st w) s =
      .next (put (fun y => { y with failed := if w ∈ x.failed then x.failed else w :: x.failed })))

/-- R224, R225, R231, R235, R262 to R264: a packet that a usable tier can take arrives at its base die when its source
has room for it. At once performed, a read replies with its bytes and the poison of its sectors; a write, an append
and an atomic store their bytes in the data unit, clear the poison of the sectors they cover whole, and send the
parity die one delta: old XOR new. A packet that must wait stays in the base die's queue. The parity die applies a
delta and then acknowledges the write, with an atomic's old value. -/
def Obligations.PacketEvents : Prop :=
  (∀ (k : CoreId) (tag : Nat) (a : BitVec 52) (il : BitVec 3) (len : Nat) (mask : List (Option (BitVec 8)))
      (bytes : List (BitVec 8)) (aop : BitVec 4) (sz : BitVec 1) (v e : Word) (nr far : Bool) (t : Nat) (s : State),
    s.packetsOut k < 256 →
    let h := place t il
    let n := tierStack far h.s
    let p := parityStack far h.r
    let x := s.stack n
    let size : Nat := if sz = 1#1 then 8 else 4
    let quiet (m : Nat) : Prop := s.extBlocked far t m il false = false
    let apart (q : Packet) : Prop := ∀ m ∈ s.hbm, ∀ z ∈ m.2.sent, packetsMeet z.pkt q = false
    let reply : Reply :=
      { tag := tag, bytes := s.extRead far t len il
        poison := (sectorsOf t len).map (fun o => s.unitPoison far (place o il)) }
    let held (i : Instr) (q : Packet) : Prop :=
      exec i s = .next (s.modStack n (fun y => { y with queue := [{ pkt := q }] }))
    let writes (i : Instr) (bs : List (Option (BitVec 8))) (old : Option Word) (free : Bool) : Prop :=
      let whole (sec : Nat) : Bool := (List.range 32).all (fun j => decide (h.y ≤ 32 * sec + j) &&
        ((bs.getD (32 * sec + j - h.y) none).isSome))
      let delta : Delta :=
        { pc := h.pc, r := h.r, y := h.y, src := k, tag := tag, old := old, nr := free
          bytes := bs.zipIdx.map (fun q =>
            match q.1 with
            | some b => b ^^^ x.raw h.pc h.r (h.y + q.2)
            | none => 0#8)
          poison := (List.range 8).map (fun sec => whole sec && x.rawPoison h.pc h.r sec) }
      ∃ u, exec i s = .next u ∧ u = { s with hbm := u.hbm } ∧
        (∀ m, m ≠ n → m ≠ p → u.stack m = s.stack m) ∧
        (∀ j b, bs[j]? = some (some b) → (u.stack n).raw h.pc h.r (h.y + j) = b) ∧
        (∀ c, (∀ j b, bs[j]? = some (some b) → c ≠ cellOf h.pc h.r (h.y + j)) →
          Memory.get (u.stack n).cells c = Memory.get x.cells c) ∧
        (∀ sec, sec < 8 → (u.stack n).rawPoison h.pc h.r sec = (x.rawPoison h.pc h.r sec && !whole sec)) ∧
        (u.stack p).deltas = (s.stack p).deltas ++ [delta] ∧
        u.stack p = { s.stack p with deltas := (u.stack p).deltas } ∧ (u.stack n).deltas = x.deltas
    x.queue = [] → x.lost h.pc h.r = false →
    (∀ i q, i = .readPacket k tag a il len ∧ q = .read k tag a il len →
      (s.packetPlace q = some (far, t) → apart q → s.extBlocked far t len il false = true → held i q) ∧
      (s.packetPlace q = some (far, t) → apart q → quiet len → exec i s = .next ((s.modCore k (fun c =>
        { c with replies := c.replies ++ [reply] })).modStack
          n (fun y => { y with queue := [] }))) ∧
      (s.packetPlace q = none ∨ ¬apart q → exec i s = .next s)) ∧
    (∀ i q, i = .writePacket k tag a il mask ∧ q = .write k tag a il mask → s.packetPlace q = some (far, t) →
      apart q → (x.selfRefresh = true → held i q) ∧ (x.selfRefresh = false → quiet mask.length → writes i mask none false)) ∧
    (∀ i q, i = .appendPacket k tag a il bytes ∧ q = .append k tag a il bytes → s.packetPlace q = some (far, t) →
      apart q → (x.selfRefresh = true → held i q) ∧
      (x.selfRefresh = false → quiet bytes.length → writes i (bytes.map some) none false)) ∧
    (∀ i q, i = .atomicPacket k tag a il aop sz v e nr ∧ q = .atomic k tag a il aop sz v e nr →
      s.packetPlace q = some (far, t) →
      (10 < aop.toNat ∨ (aop = 10#4 ∧ sz = 1#1) → exec i s = .next s) ∧
      (aop.toNat ≤ 10 → ¬(aop = 10#4 ∧ sz = 1#1) →
        (∀ z, nr = true → x.sent.find? (fun z => packetsMeet z.pkt q) = some z → z.pkt = q →
          let v := performSent z (s.modStack n (fun y => { y with sent := y.sent.erase z }))
          (∀ u, v = some u → exec i s = .next u) ∧ (v = none → exec i s = .next s)) ∧
        (nr = false → ¬apart q → exec i s = .next s) ∧
        (apart q →
          (x.selfRefresh = true → held i q) ∧
          (x.selfRefresh = false → quiet size → s.extPoison far t size il = none →
            let old := bytesToNat (s.extRead far t size il)
            writes i ((natToBytes size (atomicNew aop (8 * size) old (v.toNat % 2 ^ (8 * size)) (e.toNat % 2 ^ (8 * size)))).map
              some) (if nr then none else some (atomicOld aop sz old)) nr))))) ∧
  (∀ (st : StackId) (n : Nat) (d : Delta) (s : State), (s.stack st).deltas[n]? = some d →
    let x := s.stack st
    (x.selfRefresh = true → exec (.parityDelta st n) s = .next s) ∧
    (x.selfRefresh = false → x.failedAt d.pc d.r = false → d.y + d.bytes.length ≤ 256 → d.poison.length ≤ 8 →
      ∃ y, exec (.parityDelta st n) s = .next (if d.reply then
          (s.setStack st y).modCore d.src (fun c => { c with replies := c.replies ++ [{ tag := d.tag, old := d.old }] })
        else s.setStack st y) ∧
      (∀ j b, d.bytes[j]? = some b → y.raw d.pc d.r (d.y + j) = x.raw d.pc d.r (d.y + j) ^^^ b) ∧
      (∀ c, c < cellOf d.pc d.r d.y ∨ cellOf d.pc d.r (d.y + d.bytes.length) ≤ c →
        Memory.get y.cells c = Memory.get x.cells c) ∧
      (∀ j b, d.poison[j]? = some b → y.rawPoison d.pc d.r j = (x.rawPoison d.pc d.r j != b)) ∧
      y = { x with deltas := x.deltas.eraseIdx n, cells := y.cells, poison := y.poison })) ∧
  (∀ (k : CoreId) (r : Reply) (before after : List Reply) (s : State), (s.core k).replies = before ++ r :: after →
    (∀ x ∈ before, x.tag ≠ r.tag) →
    exec (.packetReply k r.tag) s = .next (s.modCore k (fun c => { c with replies := before ++ after })))

/-- R369 to R375: a base die takes a query packet into its four units, each with the positions whose key row lies in
its bank group. A unit reads its next position sector by sector, in any order, and folds it, or excludes it when a
unit of 256 bytes of its rows fails, the key row's first, sending what it has first when it has excluded four; past
its last position it sends its last triple. The oldest triple of a core goes into the query's ring when the head slot
is empty, with FIN on the query's last. -/
def Obligations.AttentionEvents : Prop :=
  (∀ (st : StackId) (n : Nat) (q : QueryPacket) (s : State), (s.stack st).queryq[n]? = some q →
    let x := s.stack st
    (x.selfRefresh = true → exec (.queryPacket st n) s = .next s) ∧
    (x.selfRefresh = false → ∃ sc : List Scan, sc.length = 4 ∧
      exec (.queryPacket st n) s = .next (s.setStack st { x with queryq := x.queryq.eraseIdx n, scans := x.scans ++ sc }) ∧
      (∀ g y, sc[g]? = some y →
        y.unit.toNat = (256 * st.toNat + 4 * q.pc + g) % 4096 ∧ y.qp = q ∧ y.m = 0xFF800000#32 ∧ y.s = 0#32 ∧ y.nkey = 0#32 ∧
        y.emask = 0#4 ∧ y.epos = [] ∧ y.got = [] ∧ y.acc = List.replicate q.dv 0#32 ∧
        (∀ r, r ∈ y.left ↔ r ∈ q.rows ∧ (homeOf r.2.1.toNat).2.r / 16 % 4 = g)))) ∧
  (∀ (unit : BitVec 12) (i : Nat) (x : Scan) (s : State),
    let n : StackId := unit.extractLsb' 8 4
    let st := s.stack n
    let k := x.qp.core
    st.scans.zipIdx.find? (fun e => decide (e.1.unit = unit)) = some (x, i) → x.qp.ctx = none → x.qp.reply = true →
    (∀ l ∈ s.late, l.core ≠ k) →
    ((s.core k).queries.get none x.qp.id).isSome = true →
    let eb := if x.qp.bf16 then 2 else 1
    let klen := x.qp.q.length * eb
    let vlen := x.qp.dv * eb
    let ks := (klen + 31) / 32
    let todo (j : Nat) : Prop := j < ks + (vlen + 31) / 32 ∧ ∀ g ∈ x.got, g.1 ≠ j
    let sent (last : Bool) : State := s.modCore k (fun c => { c with inbox := c.inbox ++
      [{ id := x.qp.id, m := x.m, s := x.s, nkey := x.nkey, emask := x.emask, epos := x.epos, unit := x.unit,
         frow := x.frow, acc := x.acc, last := last }] })
    let puts (v : State) (y : Scan) : State := v.modStack n (fun st => { st with scans := st.scans.set i y })
    (st.selfRefresh = true → exec (.attentionPosition unit) s = .next s) ∧
    (st.selfRefresh = false →
      (x.left = [] → exec (.attentionPosition unit) s =
        .next ((sent true).modStack n (fun st => { st with scans := st.scans.eraseIdx i }))) ∧
      (∀ p ka va rest, x.left = (p, ka, va) :: rest → (∃ j, todo j) → ∃ j, todo j ∧
        let pa := if j < ks then ka.toNat + 32 * j else va.toNat + 32 * (j - ks)
        let len := if j < ks then min 32 (klen - 32 * j) else min 32 (vlen - 32 * (j - ks))
        let y : Scan := { x with got := x.got ++ [(j, rowBytes st pa len)] }
        (rowHeld st pa len = true → exec (.attentionPosition unit) s = .next s) ∧
        (rowHeld st pa len = false → rowFails st pa len = none →
          ((∃ j', j' ≠ j ∧ todo j') → exec (.attentionPosition unit) s = .next (puts s.advanceTick y)) ∧
          ((∀ j', todo j' → j' = j) → exec (.attentionPosition unit) s = .next (puts s.advanceTick
            { (x.fold (rowVals x.qp.bf16 y.rows x.qp.q.length) (rowVals x.qp.bf16 (y.rows.drop klen) x.qp.dv)) with
                left := rest, got := [] }))) ∧
        (∀ b, rowHeld st pa len = false → rowFails st pa len = some b →
          let a := ((rowFails st ka.toNat klen).orElse (fun _ => rowFails st va.toNat vlen)).getD b
          let bank := 1#4 <<< ((homeOf a).2.r / 4 % 4)
          (x.epos.length ≠ 4 → exec (.attentionPosition unit) s = .next (puts s
            { x with left := rest, got := [], epos := x.epos ++ [BitVec.ofNat 32 p], emask := x.emask ||| bank,
                     frow := if x.epos = [] then BitVec.ofNat 52 a else x.frow })) ∧
          (x.epos.length = 4 → exec (.attentionPosition unit) s = .next (puts (sent false)
            { unit := x.unit, qp := x.qp, left := rest, m := 0xFF800000#32, s := 0#32, acc := List.replicate x.qp.dv 0#32,
              nkey := 0#32, emask := bank, epos := [BitVec.ofNat 32 p], frow := BitVec.ofNat 52 a })))))) ∧
  (∀ (k : CoreId) (t : Triple) (rest : List Triple) (q : Query) (s : State), (s.core k).inbox = t :: rest →
    (∀ u ∈ s.launch.suspended, ∀ e ∈ u.cores, e.1 ≠ k) →
    let c := s.core k
    let ring := c.ring q.rid
    (c.queries.get none t.id = none → exec (.tripleWrite k) s = .next (s.modCore k (fun c => { c with inbox := rest }))) ∧
    (c.queries.get none t.id = some q → ring.val = true →
      (ring.isEmpty ring.head = false → exec (.tripleWrite k) s = .next s) ∧
      (∀ i r1 r2, ring.acquireFill (memberOf k ++ 2#2) = some (i, r1) → r1.releaseFill (memberOf k ++ 2#2) i = some r2 →
        let fin := t.last && decide (q.open_ = 1)
        let q' : Query := { q with written := q.written + 1#32, open_ := if t.last then q.open_ - 1 else q.open_, fin := q.fin || fin }
        exec (.tripleWrite k) s = .next (s.setCore k ((({ c with
          inbox := rest, queries := c.queries.set t.id (some q') }).towerWrite (ring.slotOff i) (t.bytes fin)).setRing q.rid r2)))))

/-- R420, R423 to R425, R435: the launch unit takes its registers only while DREADY.LU of die 0 is 1. A trigger joins
the pending ones of its graph, up to four, or is refused with its reason in LERR; LGREG registers a graph that breaks
no rule and removes one that neither runs nor waits, with its RESULT in LGSTAT, BUSY while a stack holds a header
back; LABORT drops the pending triggers, resets the tables that run the instance and drops its contexts and ready
nodes; LERR is cleared by 1 to V; the first error stays, later ones count as lost. That writes are discarded while LU
is 0 is log 39 (DESIGN CHOICE); BUSY, and an LTRIG that waits for a stack, are log 41 (DEDUCED) and 42 (DESIGN
CHOICE). -/
def Obligations.LaunchRegisters : Prop :=
  ∀ (v : Word) (s : State),
    let l := s.launch
    let gid : BitVec 8 := v.truncate 8
    let op := (field v 28 2).toNat
    let result (l : Launch) (r : Nat) : State :=
      { s with launch := { l with lgstat := gid.zeroExtend 64 ||| BitVec.ofNat 64 (r * 256) } }
    let refused (r : Nat) : State := { s with launch := l.error 1 gid.toNat 0 r }
    let all : List (Instr × HostReq) := [(.ltrig v, launchWrite 0x000#20 v), (.lgregRegister v, launchWrite 0x008#20 v),
      (.lgregUnregister v, launchWrite 0x008#20 v), (.labort v, launchWrite 0x028#20 v), (.lerrClear v, launchWrite 0x030#20 v)]
    let waits (r : HostReq) : State := { s with pkg := { s.pkg with posted := s.pkg.posted ++ [r] } }
    (s.pkg.posted ≠ [] → ∀ p ∈ all, exec p.1 s = .next (waits p.2)) ∧
    (s.pkg.posted = [] → s.luReady = false → ∀ p ∈ all, exec p.1 s = .next s) ∧
    (s.pkg.posted = [] → s.luReady = true →
      (field v 57 7 ≠ 0#64 ∨ l.graphs.get none gid = none → exec (.ltrig v) s = .next (refused 1)) ∧
      (∀ g, field v 57 7 = 0#64 → l.graphs.get none gid = some g →
        let pla := (field v 8 49).toNat * 8
        (s.patchList g pla = .wait → exec (.ltrig v) s = .next (waits (launchWrite 0x000#20 v))) ∧
        (∀ r, s.patchList g pla = .refused r → exec (.ltrig v) s = .next (refused r)) ∧
        (∀ t, (pla = 0 ∧ t = { gen := none, patches := [] }) ∨ s.patchList g pla = .ok t →
          (g.pending.length < 4 → exec (.ltrig v) s = .next
            { s with launch := { l with graphs := l.graphs.set gid (some { g with pending := g.pending ++ [t] }) } }) ∧
          (4 ≤ g.pending.length → exec (.ltrig v) s = .next (refused 4)))) ∧
      (∀ i ∈ [Instr.lgregRegister v, .lgregUnregister v], l.lgop.isSome = true → exec i s = .next s) ∧
      (∀ i ∈ [Instr.lgregRegister v, .lgregUnregister v], l.lgop = none →
        (field v 30 34 ≠ 0#64 ∨ 2 ≤ op → exec i s = .next (result l 5)) ∧
        (field v 30 34 = 0#64 →
          (op = 1 → (l.graphs.get none gid = none → exec i s = .next (result l 4)) ∧
            (∀ g, l.graphs.get none gid = some g →
              (g.inst.isSome = true ∨ g.pending ≠ [] → exec i s = .next (result l 4)) ∧
              (g.inst = none → g.pending = [] → exec i s = .next (result { l with graphs := l.graphs.erase gid } 0)))) ∧
          (op = 0 → ((l.graphs.get none gid).isSome = true → exec i s = .next (result l 4)) ∧
            (l.graphs.get none gid = none →
              (s.buildGraph (8 * (field v 8 20).toNat) = .wait → ∃ w : Word,
                exec i s = .next { s with launch := { l with lgstat := w, lgop := some v } } ∧ w.getLsbD 16 = true ∧
                field w 0 8 = gid.zeroExtend 64) ∧
              (∀ r n, s.buildGraph (8 * (field v 8 20).toNat) = .fails r n → exec i s = .next
                (if r = 2 then result (l.error 3 gid.toNat n 2) 2 else result l r)) ∧
              (∀ g, s.buildGraph (8 * (field v 8 20).toNat) = .ok g →
                (65536 < l.nodeCount + g.nodes.length → exec i s = .next (result l 4)) ∧
                (l.nodeCount + g.nodes.length ≤ 65536 →
                  exec i s = .next (result { l with graphs := l.graphs.set gid (some g) } 0))))))) ∧
      (l.graphs.get none gid = none → exec (.labort v) s = .next s) ∧
      (∀ g, l.graphs.get none gid = some g → g.inst = none → exec (.labort v) s = .next
        { s with launch := { l with graphs := l.graphs.set gid (some { g with pending := [], inst := none }) } }) ∧
      (∀ g i, l.graphs.get none gid = some g → g.inst = some i → ∃ u, exec (.labort v) s = .next u ∧
        (∀ tb ∈ s.tablesOf gid i.num none, (u.table tb).task = none ∧ (u.table tb).stop = false ∧
          ∀ k, tableOf k = tb → (u.core k).front.run = false ∧ (u.core k).seat = {} ∧ ∀ e, (u.core k).queue e = []) ∧
        (∀ r ∈ u.launch.ready, r.gid ≠ gid) ∧ (∀ c ∈ u.launch.claims, c.1 ≠ gid) ∧
        (∀ x ∈ u.launch.suspended, ¬(x.task.gid = gid ∧ x.task.instance_ = i.num)) ∧
        ∃ g', u.launch.graphs.get none gid = some g' ∧ g'.pending = [] ∧ g'.nodes = g.nodes ∧
          ∀ i', g'.inst = some i' → i' = { i with aborted := true }) ∧
      (v.getLsbD 63 = false → exec (.lerrClear v) s = .next s) ∧
      (v.getLsbD 63 = true → ∃ w : Word, exec (.lerrClear v) s = .next { s with launch := { l with lerr := w } } ∧
        w.getLsbD 63 = false ∧ field w 40 8 = 0#64 ∧
        ∀ i, i < 63 → i < 40 ∨ 48 ≤ i → w.getLsbD i = l.lerr.getLsbD i)) ∧
    (∀ kind node reason, kind < 256 → node < 65536 → reason < 256 →
      let w := (l.error kind gid.toNat node reason).lerr
      (l.lerr.getLsbD 63 = false → field w 0 8 = BitVec.ofNat 64 kind ∧ field w 8 8 = gid.zeroExtend 64 ∧
        field w 16 16 = BitVec.ofNat 64 node ∧ field w 32 8 = BitVec.ofNat 64 reason ∧ w.getLsbD 63 = true ∧
        field w 40 8 = field l.lerr 40 8) ∧
      (l.lerr.getLsbD 63 = true → (field w 40 8).toNat = min 255 ((field l.lerr 40 8).toNat + 1) ∧
        ∀ i, i < 40 ∨ 48 ≤ i → w.getLsbD i = l.lerr.getLsbD i))

/-- R403, R404, R410, R414, R415, R426 to R433: a request stops a table that runs a task; a drained table's context is
saved into the pool and its task suspended; it resumes when it is first in the order and its tables are free, or fails
with its context kept. An instance starts from the oldest pending trigger, its roots ready in order; the first ready
node is placed on free tables, whose cores start at its kernel, or pre-empts and waits for what it pre-empted; a node
whose tables have ended frees them, its successors that wait for no other become ready, and the last one completes the
instance with its record and its vector. The words of a patch list are read again at the start (DESIGN CHOICE, log 8);
claims and waiting behind the first candidate are log 43 and 44 (DEDUCED), the place of a save area log 30 (DESIGN
CHOICE). -/
def Obligations.LaunchEvents : Prop :=
  (∀ (tb : TableId) (s : State),
    ((s.table tb).task = none → exec (.preemptionRequest tb) s = .next s ∧
      (s.fabric.quiescing = false → exec (.preemptionDrainComplete tb) s = .next s)) ∧
    (∀ t, (s.table tb).task = some t →
      (∃ u, exec (.preemptionRequest tb) s = .next u ∧
        (∀ tb', u.table tb' = if tb' = tb then { s.table tb with stop := true } else s.table tb') ∧
        (∀ k, u.core k = if tableOf k = tb then (s.core k).land else s.core k) ∧
        (∀ h, u.objQueue h = (s.objQueue h).filter (fun w => decide (tableOf w.1 ≠ tb))) ∧
        u = { s with cores := u.cores, tables := u.tables, objects := u.objects }) ∧
      ((s.table tb).stop = true → s.fabric.quiescing = false →
        (drainFronts tb s = none → exec (.preemptionDrainComplete tb) s = .next s) ∧
        (∀ v, drainFronts tb s = some v → v.fabric.quiescing = false →
          let size := v.saveSize tb (v.incomingFoot tb)
          (v.drained tb = false ∨ v.launch.alloc size = none → exec (.preemptionDrainComplete tb) s = .next v) ∧
          (∀ base l, v.drained tb = true → v.launch.alloc size = some (base, l) → v.areaReady base size = true →
            let u := saveTable tb t base size l v
            exec (.preemptionDrainComplete tb) s = .next (quiesceStep u) ∧
            (u.fabric.quiescing = false → quiesceStep u = u) ∧
            (u.table tb).task = none ∧ (u.table tb).stop = false ∧ u.launch.pool = (base, size) :: v.launch.pool ∧
            ∃ x : Suspended, u.launch.suspended = v.launch.suspended ++ [x] ∧ x.table = tb ∧ x.task = t ∧ x.base = base ∧
              x.size = size ∧ x.order = v.launch.clock))))) ∧
  (∀ (n : Nat) (u : Suspended) (t : Task) (s : State), s.fabric.quiesced = false → s.fabric.quiescing = false →
    s.launch.suspended[n]? = some u → s.launch.first = some (.task t) → sameTask u.task t = true →
    s.contextsOf t = [u] → (∀ x ∈ s.launch.suspended, x.table = u.table → x = u) → u.failed = false →
    s.tableFree u.table = true → s.areaReady u.base u.size = true →
    let s1 := u.touch s
    (s1.contextOk u = true → exec (.taskResume n) s = .next (restoreTable u s1) ∧
      ((restoreTable u s1).table u.table).task = some u.task ∧ ((restoreTable u s1).table u.table).stop = false ∧
      ∀ x ∈ (restoreTable u s1).launch.suspended, x.order ≠ u.order) ∧
    (s1.contextOk u = false → ∃ v, exec (.taskResume n) s = .next v ∧
      v.launch.lerr = (s.launch.error 2 u.task.gid.toNat u.task.node.toNat 0).lerr ∧
      v.launch.suspended = s.launch.suspended.map (fun x => if x.order = u.order then { x with failed := true } else x) ∧
      v = { s1 with launch := { s.launch with lerr := v.launch.lerr, suspended := v.launch.suspended, graphs := v.launch.graphs } })) ∧
  (∀ (gid : BitVec 8) (g : Graph) (s : State), s.launch.graphs.get none gid = some g →
    (g.inst.isSome = true ∨ g.pending = [] → exec (.instanceStart gid) s = .next s) ∧
    (∀ t, t.list = 0 → s.rereadList g t = t) ∧
    (∀ t0 rest, g.inst = none → g.pending = t0 :: rest →
      let l := s.launch
      let t := s.rereadList g t0
      let v : State := if t0.list = 0 then s else s.advanceTick
      let mem := t.patches.foldl (applyPatch g) l.mem
      let root (i : Nat) : Prop := ∃ n, g.nodes[i]? = some n ∧ n.npred = 0
      ∃ (u : Launch) (i : Inst) (roots : List Nat), exec (.instanceStart gid) s = .next { v with launch := u } ∧ u.mem = mem ∧
        u.graphs.get none gid = some { g with pending := rest, gen := i.gen, count := g.count + 1#32, inst := some i } ∧
        (∀ gid', gid' ≠ gid → u.graphs.get none gid' = l.graphs.get none gid') ∧
        i.num = g.count + 1#32 ∧ i.gen = t.gen.getD g.gen ∧ i.preds = g.nodes.map (fun n => n.npred) ∧
        (∀ (j : Nat) n, g.nodes[j]? = some n → i.nodes[j]? = some (if n.npred = 0 then .ready else .waiting) ∧
          ∃ m, i.params[j]? = some m ∧ ∀ x, x < n.pbytes → Memory.get m x = Memory.get mem (n.poff + x)) ∧
        roots.Pairwise (fun a b => a < b) ∧ (∀ j, j ∈ roots ↔ root j) ∧ u.clock = l.clock + roots.length ∧
        u.ready = l.ready ++ roots.zipIdx.map (fun p =>
          { gid := gid, node := BitVec.ofNat 12 p.1, cls := (g.nodes[p.1]?.map (fun n => n.cls)).getD 0#2, order := l.clock + p.2 }))) ∧
  (∀ (s : State),
    let l := s.launch
    (s.fabric.quiesced = true ∨ s.fabric.quiescing = true → exec .nodePlace s = .next s) ∧
    (∀ it g i n, s.fabric.quiesced = false → s.fabric.quiescing = false → l.first = some (.node it) →
      l.lookup it.gid it.node = some (g, i, n) →
      let task (plot : List TableId) (p : Nat) : Task :=
        { gid := it.gid, instance_ := i.num, node := it.node, rank := p, plot := plot, entry := n.entry, nbnd := n.nbnd
          patch := n.patch, params := (i.params[it.node.toNat]?).getD [], foot := n.foot, cls := n.cls
          started := l.clock, ready := it.order }
      let mine (c : BitVec 8 × BitVec 12 × List TableId) : Bool := decide (c.1 = it.gid) && decide (c.2.1 = it.node)
      let placed : Launch :=
        { l with
          clock := l.clock + 1
          ready := l.ready.filter (fun r => !(decide (r.gid = it.gid) && decide (r.node = it.node)))
          claims := l.claims.filter (fun c => !mine c)
          graphs := l.graphs.set it.gid
            (some { g with inst := some { i with nodes := i.nodes.set it.node.toNat .running } }) };
      let starts (plot : List TableId) : Prop := ∃ u, exec .nodePlace s = .next u ∧
        (∀ (p : Nat) tb, plot[p]? = some tb →
          u.table tb = { succ := some n.entry, tlb := (s.table tb).tlb, icache := (s.table tb).icache, task := some (task plot p) } ∧
          ∀ k, tableOf k = tb → (u.core k).front = { run := true, pc := n.entry } ∧ (u.core k).seat = { st := .seated } ∧
            (∀ r, u.reg k r = if r = 1#5 then BitVec.ofNat 64 p else if r = 2#5 then BitVec.ofNat 64 plot.length else 0#64) ∧
            (u.core k).ctl.asid = n.asid ∧ (u.core k).ctl.xvec = 0#51 ∧ (u.core k).ctl.cst =
              ((n.rm.zeroExtend 64 <<< 2) ||| (if n.pl then 0x800#64 else 0#64) ||| (if n.xe then 0x8000#64 else 0#64))) ∧
        u.launch = placed
      let takes := (s.victims it.cls).take (n.plot - s.openTables.length)
      let room : Bool := s.launch.fitsAll (s.owedAreas ++ takes.map (fun tb => s.saveSize tb n.foot))
      (l.claimOf it = none →
        (∀ plot, s.chooseTables n.plot = some plot →
          plot.length = n.plot ∧ plot.Nodup ∧ (∀ tb ∈ plot, s.tableOpen tb = true) ∧ (l.suspended = [] → starts plot)) ∧
        (s.chooseTables n.plot = none → s.openTables.length + takes.length < n.plot ∨ room = false →
          exec .nodePlace s = .next s) ∧
        (s.chooseTables n.plot = none → n.plot ≤ s.openTables.length + takes.length → room = true → ∃ plot : List TableId,
          (∀ tb, tb ∈ plot ↔ tb ∈ s.openTables ∨ tb ∈ takes) ∧
          exec .nodePlace s = .next (takes.foldl (fun s tb => requestStop tb s)
            { s with launch := { l with claims := (it.gid, it.node, plot) :: l.claims } }))) ∧
      (∀ plot, l.claimOf it = some plot →
        (plot.Nodup → (∀ tb ∈ plot, s.tableOpen tb = true) → l.suspended = [] → starts plot) ∧
        ((∃ tb ∈ plot, (s.table tb).stop = true) → exec .nodePlace s = .next s)))) ∧
  (∀ (s : State), (∀ m i, s.fabric.arrivals.get 0 (m, i) = 0) → s.fabric.announced = [] → podSettle s = s) ∧
  (∀ (gid : BitVec 8) (node : BitVec 12) (g : Graph) (i : Inst) (n : Node) (s : State),
    s.launch.lookup gid node = some (g, i, n) → i.aborted = false → s.fabric.quiescing = false →
    let tabs := s.tablesOf gid i.num (some node)
    let preds := i.preds.zipIdx.map (fun p => p.1 - n.succs.count p.2)
    let next (m : Nat) : Prop := m < g.nodes.length ∧ m ∈ n.succs ∧ i.nodes[m]? = some .waiting ∧ preds[m]? = some 0
    let item (p : Nat × Nat) : ReadyItem :=
      { gid := gid, node := BitVec.ofNat 12 p.1, cls := (g.nodes[p.1]?.map (fun n => n.cls)).getD 0#2
        order := s.launch.clock + p.2 }
    let freed : State := tabs.foldl (fun s tb => s.modTable tb (fun t => { t with task := none, stop := false }))
      ((tabs.flatMap tableCores).foldl State.performed s)
    ((∃ tb ∈ tabs, s.tableEnded tb = false) → exec (.nodeComplete gid node) s = .next s) ∧
    (i.nodes[node.toNat]? = some .running → tabs ≠ [] → (∀ tb ∈ tabs, s.tableEnded tb = true) →
      (∀ u ∈ s.launch.suspended, ¬(u.task.gid = gid ∧ u.task.instance_ = i.num ∧ u.task.node = node)) →
      ((∃ (m : Nat) (x : NodeState), m ≠ node.toNat ∧ i.nodes[m]? = some x ∧ x ≠ .done) →
        ∃ (u : Launch) (news : List Nat) (ns : List NodeState),
          exec (.nodeComplete gid node) s = .next (podSettle { freed with launch := u }) ∧
          news.Pairwise (fun a b => a < b) ∧ (∀ m, m ∈ news ↔ next m) ∧ ns.length = i.nodes.length ∧
          (∀ m : Nat, m < ns.length → (m ∈ news → ns[m]? = some .ready) ∧
            (m ∉ news → ns[m]? = if m = node.toNat then some .done else i.nodes[m]?)) ∧
          u.clock = s.launch.clock + news.length ∧
          u.ready = s.launch.ready ++ news.zipIdx.map item ∧
          u.graphs = s.launch.graphs.set gid (some { g with inst := some { i with nodes := ns, preds := preds } }) ∧
          u = { s.launch with clock := u.clock, ready := u.ready, graphs := u.graphs }) ∧
      ((∀ (m : Nat) x, m ≠ node.toNat → i.nodes[m]? = some x → x = .done) →
        let w := gid.toNat + i.num.toNat * 2 ^ 16 + i.gen.toNat * 2 ^ 48
        let done : State := { freed with launch :=
          { s.launch with graphs := s.launch.graphs.set gid (some { g with inst := none })
                          records := s.launch.records ++ [(g.caddr, w, g.vec)] } }
        (s.launch.records ≠ [] ∨ done.unitWrite g.caddr.toNat (natToBytes 8 w) = none →
          exec (.nodeComplete gid node) s = .next (podSettle done)) ∧
        (∀ u, s.launch.records = [] → done.unitWrite g.caddr.toNat (natToBytes 8 w) = some u →
          let v : State := { u with launch := { u.launch with records := [] } }
          exec (.nodeComplete gid node) s = .next (podSettle (match g.vec with
            | some x => { v with pkg := { v.pkg with msix := v.pkg.msix ++ [x.toNat] } }
            | none => v))))))

/-- R209, R295, R297, R441 to R445: firmware and blob run once both signatures of both verify, and they alone: they
write the known-bad rows into the remap tables of their die, set DC and make ready the stacks that have trained; else
the die stays in recovery. Die 0 then answers with the measurements that are asked for, those of the remap tables of
the seats and then of each table's seventeenth core (PRESUMED, log 82). A table's march test seats its cores at the
boot ROM; when they have halted, the seats whose summary word shows UNREP or RFERR are faulty, and a table without one
sets its TBL bit. A table's first failing seat goes to its spare core; with a second the TBL bit never sets. A bit of
DREADY that falls raises event 5. Events go to the host in order, and to a core when firmware names one. PLIM is
clamped; a power interval moves the clock one step, raising event 7 when its direction changes. The model's readings:
when the boot test and LU follow (log 32, 39, 47), a seat that stops without halting (DESIGN CHOICE, log 86), events 7
and 8 at die 0 (DEDUCED, log 48), the clock's upper bound and its first fall counted as a change (DESIGN CHOICE, log
49). -/
def Obligations.PackageEvents : Prop :=
  (∀ (d : DieId) (fw blob : SignedImage) (s : State),
    let ok (i : SignedImage) : Bool := Config.rsaVerifies (s.romBytes d) (Config.digest i.bytes) i.rsa &&
      Config.slhVerifies (s.romBytes d) (Config.digest i.bytes) i.slh
    ((s.die d).verified = true ∨ (s.die d).recovery = true → exec (.firmwareVerify d ⟨fw, blob⟩) s = .next s) ∧
    ((s.die d).verified = false → (s.die d).recovery = false → ok fw = false ∨ ok blob = false →
      exec (.firmwareVerify d ⟨fw, blob⟩) s = .next (s.modDie d (fun x => { x with recovery := true }))) ∧
    ((s.die d).verified = false → (s.die d).recovery = false → ok fw = true → ok blob = true →
      ∃ u, exec (.firmwareVerify d ⟨fw, blob⟩) s = .next u ∧
      u = { s with cores := u.cores, dies := u.dies } ∧ (∀ d', d' ≠ d → u.die d' = s.die d') ∧
      u.die d = { s.die d with verified := true, firmware := fw.bytes, blob := blob.bytes, dready := (u.die d).dready } ∧
      (∀ i, i < 24 → ((u.die d).dready.getLsbD i = true ↔ (s.die d).dready.getLsbD i = true ∨ i = 21 ∨
        (i = 16 ∧ (s.stack (0#1 ++ d)).trained = true) ∨
        (i = 17 ∧ (s.stack (0#1 ++ d)).trained = true ∧ (s.stack (1#1 ++ d)).trained = true))) ∧
      ∀ k, u.core k = if dieOf k = d then
          { s.core k with tower := { (s.core k).tower with
              remap := (Config.knownBad blob.bytes k).foldl (fun m e => m.set e.1 (e.2 &&& 0x8000003F#32)) (s.core k).tower.remap } }
        else s.core k)) ∧
  (∀ (first count : Nat) (s : State),
    let x := s.die 0#3
    let m (bytes : List (Nat × BitVec 8)) : BitVec 384 × List (BitVec 8) × List (BitVec 8) :=
      (Config.digest bytes, Config.rsaSignature (Config.digest bytes), Config.slhSignature (Config.digest bytes))
    (x.verified = false → exec (.spdmMeasurement first count) s = .next s) ∧
    (x.verified = true → ∃ l : List (BitVec 384 × List (BitVec 8) × List (BitVec 8)), exec (.spdmMeasurement first count) s =
        .next { s with pkg := { s.pkg with spdm := s.pkg.spdm ++ (l.drop first).take count } } ∧ l.length = 2179 ∧
      l[0]? = some (m (s.romBytes 0#3)) ∧ l[1]? = some (m x.firmware) ∧ l[2]? = some (m x.blob) ∧
      (∀ n, n < 2048 → l[n + 3]? = some (m (remapBytes (s.core (BitVec.ofNat 11 n)).tower.remap))) ∧
      ∀ tb : TableId, l[2051 + tb.toNat]? = some (m (remapBytes
        (let y := s.die (tableDie tb)
         let t : BitVec 4 := tb.extractLsb' 0 4
         if (y.seatmap.get 0#8 t).getLsbD 7 then y.retired.get [] t
         else if y.verified then putRemap [] (Config.knownBadSpare y.blob tb) else []))))) ∧
  (∀ (tb : TableId) (s : State),
    let d := tableDie tb
    let t := tb.toNat % 16
    let x := s.die d
    let none_ (x : Die) : Prop := ∀ n ∈ x.faulty, n / 16 ≠ t
    (x.verified = false ∨ x.dready.getLsbD t = true ∨ (s.table tb).task.isSome = true ∨ Marks.has x.booting t = true ∨
      Marks.has x.spent t = true ∨ ¬none_ x → outsideTurn (.bootTable tb) s = s) ∧
    (x.verified = true → x.dready.getLsbD t = false → (s.table tb).task = none → Marks.has x.booting t = false →
      Marks.has x.spent t = false → none_ x → ∃ u, outsideTurn (.bootTable tb) s = u ∧
        Marks.has (u.die d).booting t = true ∧ (u.table tb).succ = some 0#51 ∧
        ∀ k, tableOf k = tb → (u.core k).front = { run := true } ∧ (u.core k).seat = { st := .seated } ∧
          (u.core k).ctl = ({} : Core).resetState.ctl ∧ (u.core k).tower.cells = (s.core k).tower.cells) ∧
    (Marks.has x.booting t = false ∨ s.tableEnded tb = false → outsideTurn (.marchDone tb) s = s) ∧
    (Marks.has x.booting t = true → s.tableEnded tb = true →
      (∀ k, tableOf k = tb → ((s.core k).tower.scrub 0 8).2 = (0, 0)) →
      let fails (k : CoreId) : Prop := bytesToNat ((s.core k).tower.read 0 8) % 4 ≠ 0
      ∃ y : Die, outsideTurn (.marchDone tb) s = s.modDie d (fun _ => y) ∧ Marks.has y.booting t = false ∧
        (∀ n, n ∈ y.faulty ↔ n ∈ x.faulty ∨ ∃ seat : BitVec 4, n = t * 16 + seat.toNat ∧ fails (tb ++ seat)) ∧
        (∀ i, i ≠ t → y.dready.getLsbD i = x.dready.getLsbD i) ∧
        (none_ y → Marks.has y.spent t = false → y.dready.getLsbD t = true) ∧
        (¬none_ y → y.dready.getLsbD t = x.dready.getLsbD t) ∧
        (Marks.has y.spent t = true ↔ Marks.has x.spent t = true ∨ (∃ a b : BitVec 4, a ≠ b ∧ fails (tb ++ a) ∧ fails (tb ++ b)) ∨
          ((x.seatmap.get 0#8 (tb.extractLsb' 0 4)).getLsbD 7 = true ∧ ∃ a : BitVec 4, fails (tb ++ a)))) ∧
    ((s.die 0#3).verified = false → outsideTurn .launchReady s = s) ∧
    ((s.die 0#3).verified = true →
      outsideTurn .launchReady s = s.modDie 0#3 (fun x => { x with dready := x.dready ||| 0x400000#24 }))) ∧
  (∀ (tb : TableId) (seat : BitVec 4) (repairs : List (BitVec 11 × BitVec 32)) (s : State),
    let d := tableDie tb
    let t : BitVec 4 := tb.extractLsb' 0 4
    let x := s.die d
    let k : CoreId := tb ++ seat
    let n := t.toNat * 16 + seat.toNat
    (Marks.has x.faulty n = false ∨ (x.seatmap.get 0#8 t).getLsbD 7 = true →
      exec (.spareCoreTakeover tb ⟨seat, repairs⟩) s = .next s) ∧
    (Marks.has x.faulty n = true → (x.seatmap.get 0#8 t).getLsbD 7 = false →
      ∃ u, exec (.spareCoreTakeover tb ⟨seat, repairs⟩) s = .next u ∧
        u.CoreReset k ∧ (u.core k).tower = spareTower x.blob tb repairs ∧ (∀ k', k' ≠ k → u.core k' = s.core k') ∧
        (∀ d', d' ≠ d → u.die d' = s.die d') ∧
        u.die d = { x with seatmap := x.seatmap.set t (8#4 ++ seat), faulty := (u.die d).faulty, dready := (u.die d).dready
                           retired := x.retired.set t (s.core k).tower.remap } ∧
        (∀ q, Marks.has (u.die d).faulty q = true ↔ Marks.has x.faulty q = true ∧ q ≠ n) ∧
        (∀ i, (u.die d).dready.getLsbD i = true ↔ x.dready.getLsbD i = true ∨
          (i = t.toNat ∧ (∀ q ∈ (u.die d).faulty, q / 16 ≠ t.toNat) ∧ Marks.has x.spent t.toNat = false)))) ∧
  (∀ (d : DieId) (i : BitVec 5) (s : State),
    let loses := loseFunction d i.toNat s
    ((s.die d).dready.getLsbD i.toNat = false → exec (.readyBitClear d i) s = .next s) ∧
    ((s.die d).dready.getLsbD i.toNat = true → exec (.readyBitClear d i) s = .next (loses.modDie d (fun x =>
        { x with dready := x.dready &&& ~~~(1#24 <<< i.toNat), events := x.events ++ [{ source := 5, detail := i.toNat }] })) ∧
      (i.toNat < 18 ∨ 20 < i.toNat → loses.dies = s.dies) ∧
      (∀ d', 18 ≤ i.toNat → i.toNat ≤ 20 → loses.die d' = { s.die d' with
        events := (s.die d').events ++ [{ source := 4, detail := 3 * d.toNat + (i.toNat - 18) }] }) ∧
      (i = 16#5 → (loses.stack (0#1 ++ d)).trained = false) ∧ (i = 17#5 → (loses.stack (1#1 ++ d)).trained = false) ∧
      (∀ p : BitVec 5, 18 ≤ i.toNat → i.toNat ≤ 20 → p.toNat = 3 * d.toNat + (i.toNat - 18) → loses.fabric.portUp p = false) ∧
      (i = 23#5 → loses.pkg.link = none))) ∧
  (∀ (d : DieId) (v : Word) (s : State),
    exec (.ipost d v) s = .next (s.modCore (v.extractLsb' 0 11) (fun c =>
      { c with irq := c.irq ++ [9#64 ||| (field v 16 16 <<< 16)] })) ∧
    exec (.hostDoorbell v) s = .next (s.modDie 0#3 (fun x =>
      { x with events := x.events ++ [{ source := 8, detail := (field v 0 16).toNat }] }))) ∧
  (∀ (d : DieId) (tgt : Option CoreId) (s : State),
    ((s.die d).events = [] → exec (.eventForward d tgt) s = .next s) ∧
    (∀ e rest, (s.die d).events = e :: rest →
      let told : State :=
        { s.modDie d (fun x => { x with events := rest }) with
            pkg := { s.pkg with msix := s.pkg.msix ++ [1024 + 64 * d.toNat + e.source] } };
      (tgt = none → exec (.eventForward d tgt) s = .next told) ∧
      (∀ k, tgt = some k → exec (.eventForward d tgt) s = .next (told.modCore k (fun c =>
        { c with irq := c.irq ++ [BitVec.ofNat 64 (e.source % 2 ^ 16 + e.detail % 2 ^ 16 * 2 ^ 16)] }))))) ∧
  (∀ (v : Word) (watts : Nat) (s : State),
    let p := s.pkg
    let w := v.toNat % 4096
    let lim := p.plim.toNat
    let moved (n : Nat) (down : Bool) : State :=
      let u : State := { s with pkg := { p with clock := n, slowing := down } }
      if p.slowing = down then u else u.modDie 0#3 (fun x => { x with events := x.events ++ [{ source := 7, detail := n }] });
    (∃ q : BitVec 12, exec (.plim v) s = .next { s with pkg := { p with plim := q } } ∧
      q.toNat = if w < 1000 then 1000 else if 3200 < w then 3200 else w) ∧
    (lim < watts → (10 < p.clock → exec (.powerCapInterval watts) s = .next (moved (p.clock - 1) true)) ∧
      (p.clock ≤ 10 → exec (.powerCapInterval watts) s = .next s)) ∧
    (watts ≤ lim → 100 * watts < 95 * lim →
      (p.clock < 20 → exec (.powerCapInterval watts) s = .next (moved (p.clock + 1) false)) ∧
      (20 ≤ p.clock → exec (.powerCapInterval watts) s = .next s)) ∧
    (watts ≤ lim → 95 * lim ≤ 100 * watts → exec (.powerCapInterval watts) s = .next s))

/-- R8, R437 to R439, R211, R420, R440, R451, R452: the host link trains at the best generation and width both ends
can, and sets HOST, and clears it with its event when it cannot train; a host access through BAR4 waits behind those
that a stack holds back, and is then performed where it reaches a tier, the aperture or a die register, and completes
with Unsupported Request elsewhere; the host answers requests to a sector of its memory as it says; a register write
sets the register's writable fields, and a read-only register ignores it. The model's choices: a BAR4 read gives the
bytes of a poisoned sector as held and a write completes with no bytes (DESIGN CHOICE, log 50), LSPBASE and LSPSIZE
are ignored without LU (DESIGN CHOICE, log 39), offsets that no rule names read as zero (log 10), when HOST sets
(DEDUCED, log 32). -/
def Obligations.HostEvents : Prop :=
  (∀ (gen7 gen6 x16 x8 : Bool) (host : HostKind) (s : State),
    let best : Option (Nat × Nat) := ([(gen7 && x16, 7, 16), (gen6 && x16, 6, 16), (gen7 && x8, 7, 8), (gen6 && x8, 6, 8)].find?
      (fun c => c.1)).map (fun c => c.2)
    let l : Option HostLink := best.map (fun b => { gen := b.1, width := b.2, host := host })
    let u : State := { s with pkg := { s.pkg with link := l } }
    let lost (x : Die) : Die :=
      { x with dready := x.dready &&& 0x7FFFFF#24, events := x.events ++ [{ source := 5, detail := 23 }] }
    (best.isSome = true → exec (.hostLinkTraining ⟨host, gen7⟩ gen6 x16 x8) s =
      .next (u.modDie 0#3 (fun x => { x with dready := x.dready ||| 0x800000#24 }))) ∧
    (best = none → exec (.hostLinkTraining ⟨host, gen7⟩ gen6 x16 x8) s =
      .next (if (s.die 0#3).dready.getLsbD 23 then u.modDie 0#3 lost else u))) ∧
  (∀ (off : BitVec 36) (acc : HostAccess) (s : State),
    let u : State := { s with pkg := { s.pkg with posted := s.pkg.posted ++ [.bar4 off acc] } };
    (s.pkg.posted ≠ [] → exec (.hostBar4Access off acc) s = .next u) ∧
    (s.pkg.posted = [] → ∀ far t il,
      (∀ n, acc = .read n → s.hostTarget (s.pkg.hwbase.toNat + off.toNat) n = some (.ext far t il) → s.extBlocked far t n il false = true →
        exec (.hostBar4Access off acc) s = .next u) ∧
      (∀ bs, acc = .write bs → s.hostTarget (s.pkg.hwbase.toNat + off.toNat) bs.length = some (.ext far t il) →
        s.extBlocked far t bs.length il true = true → exec (.hostBar4Access off acc) s = .next u))) ∧
  (∀ (off : BitVec 36) (len : Nat) (bs : List (BitVec 8)) (s : State), s.pkg.posted = [] →
    let pa := s.pkg.hwbase.toNat + off.toNat
    let n := bs.length
    let answers (u : State) (r : Option (List (BitVec 8))) : State :=
      { u with pkg := { u.pkg with hostReplies := u.pkg.hostReplies ++ [r] } };
    (s.hostTarget pa len = none → exec (.hostBar4Access off (.read len)) s = .next (answers s none)) ∧
    (s.hostTarget pa n = none → exec (.hostBar4Access off (.write bs)) s = .next (answers s none)) ∧
    (∀ far t il, s.hostTarget pa len = some (.ext far t il) → s.extBlocked far t len il false = false →
      (∀ h ∈ unitsOf t len il, (s.stack (tierStack far h.s)).lost h.pc h.r = false) →
      exec (.hostBar4Access off (.read len)) s = .next (answers s (some (s.extRead far t len il)))) ∧
    (∀ far t il, s.hostTarget pa n = some (.ext far t il) → s.extBlocked far t n il true = false →
      exec (.hostBar4Access off (.write bs)) s = .next (answers (s.extWrite far t il bs) (some []))) ∧
    (∀ k o, s.hostTarget pa len = some (.aperture k o) → ((s.core k).tower.scrub o len).2 = (0, 0) →
      exec (.hostBar4Access off (.read len)) s = .next (answers s (some ((s.core k).tower.read o len)))) ∧
    (∀ k o, s.hostTarget pa n = some (.aperture k o) →
      exec (.hostBar4Access off (.write bs)) s = .next (answers (s.modCore k (fun c => c.towerWrite o bs)) (some []))) ∧
    (∀ d o, s.hostTarget pa len = some (.die d o) →
      exec (.hostBar4Access off (.read len)) s = .next (answers s (some (natToBytes 8 (s.dieRead d o).toNat)))) ∧
    (∀ d o, s.hostTarget pa n = some (.die d o) → exec (.hostBar4Access off (.write bs)) s =
      .next (answers (s.dieWrite d o (BitVec.ofNat 64 (bytesToNat bs))) (some [])))) ∧
  (∀ (off : BitVec 20) (off2 : BitVec 23) (n : Nat) (bs : List (BitVec 8)) (s : State), s.pkg.posted = [] →
    let answers (r : List (BitVec 8)) : State := { s with pkg := { s.pkg with hostReplies := s.pkg.hostReplies ++ [some r] } };
    (n ≠ 8 ∨ off.toNat % 8 ≠ 0 → outsideTurn (.host (.bar0 off (.read n))) s = answers (List.replicate n 0#8)) ∧
    (bs.length ≠ 8 ∨ off.toNat % 8 ≠ 0 → outsideTurn (.host (.bar0 off (.write bs))) s = s) ∧
    (off.toNat % 8 = 0 →
      outsideTurn (.host (.bar0 off (.read 8))) s = answers (natToBytes 8 (s.bar0Read off.toNat).toNat)) ∧
    (off2.toNat + n ≤ 2 ^ 23 →
      outsideTurn (.host (.bar2 off2 (.read n))) s = answers (Memory.read s.launch.mem off2.toNat n)) ∧
    (off2.toNat + bs.length ≤ 2 ^ 23 → outsideTurn (.host (.bar2 off2 (.write bs))) s =
      { s with launch := { s.launch with mem := Memory.write s.launch.mem off2.toNat bs } })) ∧
  (∀ (off : BitVec 50) (s : State),
    let sec := off.toNat / 32
    (∀ bs : List (BitVec 8), bs.length = 32 → ∃ h, exec (.hostMemoryRequest off (.data bs)) s = .next { s with host := h } ∧
      h.bad.get none sec = none ∧ Memory.read h.cells (32 * sec) 32 = bs ∧
      (∀ a, a < 32 * sec ∨ 32 * sec + 32 ≤ a → Memory.get h.cells a = Memory.get s.host.cells a) ∧
      ∀ sec', sec' ≠ sec → h.bad.get none sec' = s.host.bad.get none sec') ∧
    (∀ ans ∈ [HostAnswer.unsupported, .abort, .poisoned], ∃ h, exec (.hostMemoryRequest off ans) s = .next { s with host := h } ∧
      h.bad.get none sec = some ans ∧ h.cells = s.host.cells ∧
      ∀ sec', sec' ≠ sec → h.bad.get none sec' = s.host.bad.get none sec')) ∧
  (∀ (d : DieId) (g : BitVec 6) (v : Word) (s : State),
    let put (r : DevReg) (u : State) : Prop := exec (.registerWrite r v) s = .next u
    put (.tiva d) (s.modDie d (fun x => { x with tiva := v &&& 0x00FFFFFFFFFFF000#64 })) ∧
    put (.tilen d) (s.modDie d (fun x => { x with tilen := v &&& 0xFFFFFFFF#64 })) ∧
    put (.asdt d) (s.modDie d (fun x => { x with asdt := v &&& 0x000FFFFFFFFFF000#64 })) ∧
    put (.fqbase d) (s.modDie d (fun x => { x with fqbase := v &&& 0x000FFFFFFFFFF000#64 })) ∧
    put .hwbase { s with pkg := { s.pkg with hwbase := v &&& 0x000FFFF000000000#64 } } ∧
    put .fmdata { s with fabric := { s.fabric with fmdata := v } } ∧
    (s.luReady = true → put .lspbase { s with launch := { s.launch with lspbase := v &&& 0x000FFFFFFFFF0000#64 } } ∧
      put .lspsize { s with launch := { s.launch with lspsize := v &&& 0x0000FFFFFFFF0000#64 } }) ∧
    (s.luReady = false → put .lspbase s ∧ put .lspsize s) ∧
    (∀ r ∈ [DevReg.tistat d, .pkgid d, .dready d, .seatmap0 d, .seatmap1 d, .fqhead d, .lgstat, .gencnt g, .fmstat, .fmid],
      put r s))

/-- R450, R451, R454, R457, R458, R34 of the fabric's management: the mailbox, at every one of its events (DEDUCED,
log 51), performs the OP of a command that has no reserved bit, with FMDATA and IDX, and writes RESULT; a new ID,
member or mask is settled with the pod's instances; a quiesce stops every table, and is done once no task runs and no
packet is in flight, or fails when the pool has no room for a drained table (log entry 52, the model's reading).
FMLINK clears FAIL bits by 1. A port comes up and fails with its DREADY bit (DEDUCED, log 32) and its events, the
failure raised to every die controller, its packets waiting to leave again on another port, or ending with status 5
when none is up (DEDUCED, log 55). A pod arrival counts, and ends its instance when all are there; with no local
participant as many instances end as every member has arrived for. -/
def Obligations.FabricManagement : Prop :=
  (∀ (v : Word) (s : State),
    let fm : List Instr := [.fmWriteRoute v, .fmReadRoute v, .fmWriteKey v, .fmReadKey v, .fmSetId v, .fmWritePodMember v,
      .fmWriteGraphMask v, .fmQuiesce v, .fmResume v]
    let f := s.fabric
    let w := f.fmdata
    let op := (field v 0 4).toNat
    let idx := (field v 16 14).toNat
    let gives (u : State) : Prop := ∀ i ∈ fm, exec i s = .next u
    let sets (g : Fabric) : Prop := gives { s with fabric := { g with result := 0#8 } }
    let settles (g : Fabric) : Prop :=
      let u := podSettle { s with fabric := g }
      gives { u with fabric := { u.fabric with result := 0#8 } }
    let fails (r : BitVec 8) : Prop := gives { s with fabric := { f with result := r } }
    (f.quiescing = true → gives s) ∧
    (f.quiescing = false →
      (field v 4 12 ≠ 0#64 ∨ field v 30 34 ≠ 0#64 → fails 1#8) ∧
      (field v 4 12 = 0#64 → field v 30 34 = 0#64 →
        (op = 0 → (field w 48 16 ≠ 0#64 ∨ field w 25 7 ≠ 0#64 → fails 1#8) ∧
          (field w 48 16 = 0#64 → field w 25 7 = 0#64 → sets { f with routes := f.routes.set (BitVec.ofNat 14 idx) w })) ∧
        (op = 1 → sets { f with fmdata := f.routes.get 0#64 (BitVec.ofNat 14 idx) }) ∧
        (op = 2 → (16 ≤ idx ∨ field w 17 47 ≠ 0#64 → fails 1#8) ∧
          (idx < 16 → field w 17 47 = 0#64 → sets { f with keys := f.keys.set (BitVec.ofNat 4 idx) w })) ∧
        (op = 3 → (16 ≤ idx → fails 1#8) ∧ (idx < 16 → sets { f with fmdata := f.keys.get 0#64 (BitVec.ofNat 4 idx) })) ∧
        (op = 4 → (field w 14 50 ≠ 0#64 → fails 1#8) ∧
          (field w 14 50 = 0#64 → (∃ e ∈ s.dies, e.2.descs ≠ []) → fails 2#8) ∧
          (field w 14 50 = 0#64 → (∀ e ∈ s.dies, e.2.descs = []) → settles { f with id := w.truncate 14 })) ∧
        (op = 5 → (64 ≤ idx ∨ field w 14 2 ≠ 0#64 ∨ field w 17 47 ≠ 0#64 → fails 1#8) ∧
          (idx < 64 → field w 14 2 = 0#64 → field w 17 47 = 0#64 →
            settles { f with members := f.members.set (BitVec.ofNat 6 idx) w })) ∧
        (op = 6 → (4 ≤ idx → fails 1#8) ∧ (idx < 4 → settles { f with mask := f.mask.set (BitVec.ofNat 2 idx) w })) ∧
        (op = 7 → ((∀ tb, (s.table tb).task = none) → (∀ e ∈ f.pairs, e.2.inflight = [] ∧ e.2.retry = []) →
            gives { s with launch := { s.launch with claims := [] }, fabric := { f with quiesced := true, result := 0#8 } }) ∧
          ((∃ tb, (s.table tb).task.isSome = true) → ∃ v : State,
            (∀ tb, v.table tb = if (s.table tb).task.isSome then { s.table tb with stop := true } else s.table tb) ∧
            (∀ k, v.core k = if (s.table (tableOf k)).task.isSome then (s.core k).land else s.core k) ∧
            (∀ h, v.objQueue h = (s.objQueue h).filter (fun w => (s.table (tableOf w.1)).task.isNone)) ∧
            v = { s with cores := v.cores, tables := v.tables, objects := v.objects
                         launch := { s.launch with claims := [] }, fabric := { f with quiescing := true } } ∧
            let stuck (tb : TableId) : Prop := (s.table tb).task.isSome = true ∧ v.drained tb = true ∧
              v.launch.alloc (v.saveSize tb []) = none
            ((∀ tb, ¬stuck tb) → gives v) ∧
            ((∃ tb, stuck tb) → ∃ u, gives u ∧ u = { v with tables := u.tables, fabric := { f with result := 2#8 } } ∧
              ∀ tb, u.table tb = { v.table tb with stop := false }))) ∧
        (op = 8 → (f.quiesced = true → sets { f with quiesced := false }) ∧ (f.quiesced = false → fails 2#8)) ∧
        (9 ≤ op → fails 1#8))) ∧
    exec (.fmlinkClear v) s = .next { s with fabric := { f with fail := f.fail &&& ~~~(v.extractLsb' 24 24) } }) ∧
  (∀ (port : BitVec 5) (s : State),
    let f := s.fabric
    let d : DieId := BitVec.ofNat 3 (port.toNat / 3)
    let b := 18 + port.toNat % 3
    let one : BitVec 24 := 1#24 <<< port.toNat
    (24 ≤ port.toNat → exec (.portLinkUp port) s = .next s ∧ exec (.portFailure port) s = .next s) ∧
    (port.toNat < 24 →
      exec (.portLinkUp port) s = .next (({ s with fabric := { f with up := f.up ||| one } }).modDie d (fun x =>
        { x with dready := x.dready ||| (1#24 <<< b) })) ∧
      ∃ u, exec (.portFailure port) s = .next u ∧ u = { s with dies := u.dies, fabric := u.fabric } ∧
        u.fabric = { f with up := f.up &&& ~~~one, fail := f.fail ||| one, pairs := u.fabric.pairs } ∧
        (∀ dst lane,
          u.fabric.pair dst lane = if (f.pair dst lane).port = port then { f.pair dst lane with
            inflight := [], retry := (f.pair dst lane).retry ++ (f.pair dst lane).inflight } else f.pair dst lane) ∧
        ∀ d', u.die d' = { s.die d' with
            dready := (u.die d').dready
            events := (s.die d').events ++ [{ source := 4, detail := port.toNat }] ++
              (if d' = d ∧ (s.die d).dready.getLsbD b = true then [{ source := 5, detail := b }] else []) } ∧
          ∀ i, i < 24 → ((u.die d').dready.getLsbD i = true ↔ (s.die d').dready.getLsbD i = true ∧ ¬(d' = d ∧ i = b)))) ∧
  (∀ (dst : BitVec 14) (lane : BitVec 4) (port : BitVec 5) (s : State),
    let f := s.fabric
    let p := f.pair dst lane
    let route := f.routes.get 0#64 dst
    let mask : BitVec 24 := route.truncate 24
    (p.retry ≠ [] → route.getLsbD 24 = true → mask.getLsbD port.toNat = true → f.up.getLsbD port.toNat = true →
      exec (.packetResend dst lane port) s = .next
        { s with fabric := f.setPair dst lane { p with port := port, inflight := p.inflight ++ p.retry, retry := [] } }) ∧
    (p.retry = [] ∨ route.getLsbD 24 = false ∨ mask.getLsbD port.toNat = false ∨ f.up.getLsbD port.toNat = false →
      exec (.packetResend dst lane port) s = .next s) ∧
    (p.retry = [] ∨ (route.getLsbD 24 = true ∧ mask &&& f.up ≠ 0#24) → exec (.laneTimeout dst lane) s = .next s) ∧
    (∀ k, p.retry = [k] → route.getLsbD 24 = false ∨ mask &&& f.up = 0#24 → f.quiescing = false →
      exec (.laneTimeout dst lane) s = .next (modDesc k.die k.desc
        (fun y => { y with status := if y.status = 1#8 then 5#8 else y.status, open_ := y.open_ - 1 })
        { s with fabric := f.setPair dst lane { p with retry := [] } }))) ∧
  (∀ (m : BitVec 6) (id : BitVec 4) (s : State),
    let f := s.fabric
    let v : State := { s with fabric := { f with arrivals := f.arrivals.set (m, id) (f.arrivals.get 0 (m, id) + 1) } }
    let p := v.podParties
    let b : BitVec 3 × BitVec 4 := (7#3, id)
    let ms := s.podMembers
    let got (n : BitVec 6) : Nat := v.fabric.arrivals.get 0 (n, id)
    (m ∉ ms → exec (.podBarrierArrival m id) s = .next s) ∧
    (m ∈ ms → p.full v b = false → exec (.podBarrierArrival m id) s = .next v) ∧
    (m ∈ ms → p.full v b = true → (∃ n ∈ ms, got n = 0) →
      exec (.podBarrierArrival m id) s = .next { v with fabric := v.fabric.announce ms id }) ∧
    (m ∈ ms → (∀ c ∈ p.cores, p.arrivals v b c = []) → ∀ least, (∀ n ∈ ms, least ≤ got n) → (∃ n ∈ ms, got n = least) →
      ∃ u, exec (.podBarrierArrival m id) s = .next u ∧ (∀ n ∈ ms, u.fabric.arrivals.get 0 (n, id) = got n - least) ∧
        (id ∈ u.fabric.announced ↔ ∃ n ∈ ms, least < got n)) ∧
    (m ∈ ms → p.full v b = true → (∃ c ∈ p.cores, p.arrivals v b c ≠ []) → (∀ n ∈ ms, 0 < got n) → ∃ u, exec (.podBarrierArrival m id) s = .next u ∧
      u = { s with cores := u.cores, launch := { s.launch with suspended := u.launch.suspended }, fabric := u.fabric } ∧
      (∀ c, u.core c = if c ∈ p.cores ∧ p.here v c = true ∧ b ∈ (s.core c).arrived then
        { s.core c with arrived := (s.core c).arrived.filter (fun y => decide (y ≠ b)), released := b :: (s.core c).released }
        else s.core c) ∧
      id ∉ u.fabric.announced ∧
      (∀ n i, u.fabric.arrivals.get 0 (n, i) = if n ∈ ms ∧ i = id then got n - 1 else v.fabric.arrivals.get 0 (n, i)) ∧
      u.fabric = { (v.fabric.announce ms id) with announced := u.fabric.announced, arrivals := u.fabric.arrivals }))

/-- R447 to R449, R452, R453, R455: a die's engine takes its descriptors in ring order, with the status of a refused
one; their packets, of one 64-byte line each (DEDUCED, log 53), leave in order on a port of the route that is up, all
of a pair on one port while any is in flight, with the route's key; no route gives status 3, and while the package
quiesces none leaves. A packet is performed once and in the order of its lane, if its key was accepted as it arrived
and it addresses a tier or the aperture, and answered; one already performed has no reply, a refused one has status 2
or 4, and one of a lane that a stack holds back waits behind it (DEDUCED, log 54); its acknowledgement takes it from
its pair and gives a read's bytes to the local address. STATUS is written when all is acknowledged. -/
def Obligations.FabricTransfers : Prop :=
  (∀ (d : DieId) (v : Word) (s : State),
    exec (.fqtail d v) s = .next (s.modDie d (fun x => { x with fqtail := v.truncate 7 }))) ∧
  (∀ (d : DieId) (far : Bool) (t : Nat) (w0 w1 w2 w3 : Word) (s : State),
    let x := s.die d
    let pa := x.fqbase.toNat + 32 * x.fqhead.toNat
    let len := (field w3 0 32).toNat
    let laddr : BitVec 52 := w2.truncate 52
    let bad : Prop := 2 ≤ (field w0 0 2).toNat ∨ field w0 4 12 ≠ 0#64 ∨ field w0 30 34 ≠ 0#64 ∨ field w1 52 12 ≠ 0#64 ∨
      field w2 52 12 ≠ 0#64 ∨ field w3 40 24 ≠ 0#64 ∨ len = 0
    (x.fqhead = x.fqtail ∨ s.fabric.quiesced = true ∨ s.fabric.quiescing = true → exec (.descriptorStart d) s = .next s) ∧
    (x.fqhead ≠ x.fqtail → s.fabric.quiesced = false → s.fabric.quiescing = false → tierOf pa = some (far, t) →
      s.tierUsable far = true → s.extBlocked far t 32 2#3 false = false →
      let z := s.extTouch far t 32 2#3
      wordsOf 4 (z.physRead pa 32) = [w0, w1, w2, w3] →
      ∃ y : FabDesc, exec (.descriptorStart d) s = .next (z.modDie d (fun x =>
          { x with fqhead := x.fqhead + 1#7, started := x.started + 1, descs := x.descs ++ [y] })) ∧
        y.num = x.started ∧ y.home = pa ∧ y.clean = [] ∧ y.dst = w0.extractLsb' 16 14 ∧ y.cls = w0.extractLsb' 2 2 ∧ y.raddr = w1.truncate 52 ∧
        y.laddr = laddr ∧ y.len = len ∧ y.sent = 0 ∧ y.open_ = 0 ∧ (y.write = true ↔ field w0 0 2 = 0#64) ∧
        (bad → y.status = 6#8) ∧ (¬bad → y.status = if z.fabRegion laddr.toNat len then 1#8 else 4#8))) ∧
  (∀ (d : DieId) (n : Nat) (x : FabDesc) (s : State), (s.die d).descs[n]? = some x →
    let closes : Prop := x.open_ = 0 ∧ (x.status ≠ 1#8 ∨ x.sent = x.len)
    (¬closes → exec (.descriptorComplete d n) s = .next s) ∧
    (closes → ∀ u, s.unitWrite (x.home + 28) [x.status] = some u →
      exec (.descriptorComplete d n) s = .next (u.modDie d (fun y => { y with descs := (u.die d).descs.eraseIdx n })))) ∧
  (∀ (d : DieId) (n : Nat) (port : BitVec 5) (x : FabDesc) (s : State), (s.die d).descs[n]? = some x →
    x.status = 1#8 → x.sent < x.len →
    let f := s.fabric
    let route := f.routes.get 0#64 x.dst
    let mask : BitVec 24 := route.truncate 24
    let addr := x.raddr + BitVec.ofNat 52 x.sent
    let lane := hashLane addr
    let p := f.pair x.dst lane
    let len := min (x.len - x.sent) (64 - (x.raddr.toNat + x.sent) % 64)
    let la := x.laddr.toNat + x.sent
    let v := if x.write then s.fabTouch la len else s
    let data := if x.write then v.fabData la len else []
    let q := if p.inflight = [] then port else p.port
    let pkt : FabricPacket :=
      { src := f.id, dst := x.dst, cls := x.cls, key := route.extractLsb' 32 16, addr := addr, lane := lane, seq := f.nextSeq x.dst lane
        write := x.write, len := len, bytes := data.map (fun b => b.1), poison := poisonOf addr.toNat data, die := d
        desc := x.num }
    let stops (st : BitVec 8) : State :=
      modDesc d x.num (fun y => { y with status := if y.status = 1#8 then st else y.status }) s;
    let held : Prop := f.quiescing = true ∨ f.quiesced = true ∨ ∃ y ∈ (s.die d).descs.take n, y.owes x.dst lane = true
    (held → exec (.fabricPacketSend d n port) s = .next s) ∧
    (¬held → route.getLsbD 24 = false ∨ mask &&& f.up = 0#24 → exec (.fabricPacketSend d n port) s = .next (stops 3#8)) ∧
    (¬held → route.getLsbD 24 = true → mask &&& f.up ≠ 0#24 →
      (p.retry ≠ [] ∨ mask.getLsbD q.toNat = false ∨ f.up.getLsbD q.toNat = false →
        exec (.fabricPacketSend d n port) s = .next s) ∧
      (p.retry = [] → mask.getLsbD q.toNat = true → f.up.getLsbD q.toNat = true →
        (x.write = true → s.fabRegion la len = false → exec (.fabricPacketSend d n port) s = .next (stops 4#8)) ∧
        (x.write = false ∨ (s.fabRegion la len = true ∧ s.fabHeld la len false = false) →
          exec (.fabricPacketSend d n port) s = .next (modDesc d x.num
            (fun y => { y with sent := y.sent + len, open_ := y.open_ + 1 })
            { v with fabric := { f.setPair x.dst lane { p with port := q, inflight := p.inflight ++ [pkt] } with
              seqs := f.seqs.set (f.id, x.dst, lane) (f.nextSeq x.dst lane + 1) } }))))) ∧
  (∀ (p : FabricPacket) (s : State),
    let f := s.fabric
    let a := p.addr.toNat
    let n := if p.write then p.bytes.length else p.len
    let accepted : Prop := ∃ i, (f.keys.get 0#64 i).getLsbD 16 = true ∧ (f.keys.get 0#64 i).truncate 16 = p.key
    let told (u : State) (st : BitVec 8) (d : List (BitVec 8 × Bool)) : State :=
      let r : FabricReply :=
        { src := p.src, lane := p.lane, seq := p.seq, status := st, bytes := d.map (fun b => b.1), poison := poisonOf a d }
      { u with fabric := { u.fabric with outbox := u.fabric.outbox ++ [r] } }
    let noted (u : State) : State :=
      { u with fabric := { u.fabric with performed := (p.src, p.dst, p.lane, p.seq) :: u.fabric.performed } }
    let passed : Prop := (p.src, p.dst, p.lane, p.seq) ∈ f.performed
    let same (q : FabricPacket × Bool) : Prop := p.src = q.1.src ∧ p.dst = q.1.dst ∧ p.lane = q.1.lane
    let v := s.fabTouch a n;
    (p.dst ≠ f.id ∨ passed → exec (.fabricPacketArrival p) s = .next s) ∧
    (p.dst = f.id → ¬passed →
      ((∃ q ∈ f.inbound, same q ∧ p.seq = q.1.seq) → exec (.fabricPacketArrival p) s = .next s) ∧
      ((∀ q ∈ f.inbound, same q → p.seq ≠ q.1.seq) → (∃ q ∈ f.inbound, same q) → ∀ ok, (ok = true ↔ accepted) →
        exec (.fabricPacketArrival p) s = .next { s with fabric := { f with inbound := f.inbound ++ [(p, ok)] } }) ∧
      ((∀ q ∈ f.inbound, ¬same q) →
        (¬accepted → exec (.fabricPacketArrival p) s = .next (told s 2#8 [])) ∧
        (accepted → (s.fabRegion a n = false → exec (.fabricPacketArrival p) s = .next (told s 4#8 [])) ∧
          (s.fabRegion a n = true → s.fabHeld a n p.write = true →
            exec (.fabricPacketArrival p) s = .next { s with fabric := { f with inbound := f.inbound ++ [(p, true)] } }) ∧
          (s.fabRegion a n = true → s.fabHeld a n p.write = false →
            (p.write = true → exec (.fabricPacketArrival p) s =
              .next (told (noted (s.fabPut a (withPoison a p.bytes p.poison))) 1#8 [])) ∧
            (p.write = false → exec (.fabricPacketArrival p) s = .next (told (noted v) 1#8 (v.fabData a n)))))))) ∧
  (∀ (dst : BitVec 14) (lane : BitVec 4) (k : FabricPacket) (y : FabDesc) (st : BitVec 8) (bytes : List (BitVec 8))
      (poison : List Nat) (s : State), s.fabric.quiescing = false →
    let p := s.fabric.pair dst lane
    (p.inflight ++ p.retry).find? (fun x => decide (x.seq = k.seq)) = some k →
    (s.die k.die).descs.find? (fun y => decide (y.num = k.desc)) = some y →
    let off := (k.addr - y.raddr).toNat
    let la := y.laddr.toNat + off
    let d := withPoison k.addr.toNat (bytes.take k.len) poison
    let y' : FabDesc := { y with clean := y.clean ++ cleanParts y.laddr.toNat off d }
    let taken : State := { s with fabric := s.fabric.setPair dst lane { p with
      inflight := p.inflight.filter (fun x => decide (x.seq ≠ k.seq)), retry := p.retry.filter (fun x => decide (x.seq ≠ k.seq)) } }
    let closed (u : State) (st : BitVec 8) : State := modDesc k.die k.desc
      (fun y => { y with status := if y.status = 1#8 then st else y.status, open_ := y.open_ - 1 }) u
    let i := Instr.endToEndAcknowledgement dst lane k.seq st bytes poison
    (st ≠ 1#8 → exec i s = .next (closed taken st)) ∧
    (st = 1#8 → k.write = true → exec i s = .next (closed taken 1#8)) ∧
    (st = 1#8 → k.write = false → s.fabRegion la k.len = false → exec i s = .next (closed taken 4#8)) ∧
    (st = 1#8 → k.write = false → s.fabRegion la k.len = true → s.fabHeld la k.len true = false →
      exec i s = .next (closed (modDesc k.die k.desc (fun _ => y') ((taken.fabPut la d).sweepClean y' off k.len)) 1#8)))

end
end

