-- ==== Sys2Proof/Laws/Bank.lean ====
section
/-! SUPPORT. Sparse maps: a key reads back what was written to it, and a write leaves every other key. -/

namespace Sys2Proof

variable {κ α : Type} [DecidableEq κ]

/-- Dropping other keys leaves a key's value. -/
theorem Bank.get_filter_ne (m : Bank κ α) (d : α) (k k' : κ) (h : k' ≠ k) :
    Bank.get (m.filter (fun e => decide (e.1 ≠ k))) d k' = Bank.get m d k' := by
  induction m with
  | nil => rfl
  | cons e rest ih =>
    obtain ⟨x, v⟩ := e
    by_cases hx : x = k
    · have hne : x ≠ k' := fun e => h (e.symm.trans hx)
      rw [List.filter_cons_of_neg (by simp [hx])]
      simp only [Bank.get, if_neg hne]
      exact ih
    · rw [List.filter_cons_of_pos (by simp [hx])]
      by_cases hk : x = k'
      · simp [Bank.get, hk]
      · simp only [Bank.get, if_neg hk]
        exact ih

/-- A dropped key is not listed. -/
theorem Bank.get_filter_same (m : Bank κ α) (d : α) (k : κ) :
    Bank.get (m.filter (fun e => decide (e.1 ≠ k))) d k = d := by
  induction m with
  | nil => rfl
  | cons e rest ih =>
    obtain ⟨x, v⟩ := e
    by_cases hx : x = k
    · subst hx; simpa [Bank.get] using ih
    · rw [List.filter_cons_of_pos (by simp [hx])]
      simp only [Bank.get, if_neg hx]
      exact ih

/-- A key reads back what was written to it. -/
theorem Bank.get_set_same (m : Bank κ α) (d : α) (k : κ) (v : α) : Bank.get (Bank.set m k v) d k = v := by
  simp [Bank.set, Bank.get]

/-- A write leaves every other key. -/
theorem Bank.get_set_ne (m : Bank κ α) (d : α) (k k' : κ) (v : α) (h : k' ≠ k) :
    Bank.get (Bank.set m k v) d k' = Bank.get m d k' := by
  have h' : k ≠ k' := fun e => h e.symm
  simp only [Bank.set, Bank.get, if_neg h']
  exact Bank.get_filter_ne m d k k' h

/-- An erased key reads as the default. -/
theorem Bank.get_erase_same (m : Bank κ α) (d : α) (k : κ) : Bank.get (Bank.erase m k) d k = d :=
  Bank.get_filter_same m d k

/-- Erasing a key leaves every other. -/
theorem Bank.get_erase_ne (m : Bank κ α) (d : α) (k k' : κ) (h : k' ≠ k) :
    Bank.get (Bank.erase m k) d k' = Bank.get m d k' := Bank.get_filter_ne m d k k' h

/-- What every listed value satisfies, and the default too, a read satisfies. -/
theorem Bank.get_of_all (m : Bank κ α) (d : α) (k : κ) (p : α → Prop) (hd : p d) (h : ∀ e ∈ m, p e.2) :
    p (Bank.get m d k) := by
  induction m with
  | nil => exact hd
  | cons e rest ih =>
    obtain ⟨x, v⟩ := e
    by_cases hx : x = k
    · simpa [Bank.get, hx] using h (x, v) (by simp)
    · simpa [Bank.get, hx] using ih (fun e he => h e (by simp [he]))

/-- After a write every listed value is the one written or was listed before. -/
theorem Bank.all_set (m : Bank κ α) (k : κ) (v : α) (p : κ × α → Prop) (hv : p (k, v)) (h : ∀ e ∈ m, p e) :
    ∀ e ∈ Bank.set m k v, p e := by
  intro e he
  rcases List.mem_cons.mp he with rfl | he
  · exact hv
  · exact h e (List.mem_filter.mp he).1

/-- Of two writes to a key the later one counts. -/
theorem Bank.set_set (m : Bank κ α) (k : κ) (v w : α) : Bank.set (Bank.set m k v) k w = Bank.set m k w := by
  simp [Bank.set, List.filter_filter]

end Sys2Proof
end

