-- ==== Sys2Proof/Laws/PerInstr.lean ====
section
/-! SUPPORT. Statements made of each instruction: its encoding is read back (R38, R51 to R60). -/

namespace Sys2Proof.Laws.Encoding

set_option maxRecDepth 8000
set_option Elab.async false


/-- An immediate slot of an instruction, zero past the last. -/
def immAt (i : Instr) (n : Nat) : BitVec 32 := (encodeImms i).getD n 0#32

/-- What the decoder reads from the first slot of an instruction: without its immediate slots, an instruction that asks
for the same slots; with them, the instruction. -/
def Statement (i : Instr) : Prop :=
  ∀ e, i.engine? = some e →
    (∃ i0, build e (encodeFirst i) 0#32 0#32 none = some i0 ∧ i0.fieldsOk = i.fieldsOk ∧
      (encodeImms i0).length = (encodeImms i).length ∧ i0.immCode = i.immCode ∧ i0.isKat = i.isKat ∧
      i0.isGang = i.isGang) ∧
    (∃ i1, build e (encodeFirst i) (immAt i 0) (immAt i 1) none = some i1 ∧ i1.extOk = i.extOk) ∧
    build e (encodeFirst i) (immAt i 0) (immAt i 1) i.tok? = some i

/-- A decoder that reads an instruction's fields whatever its immediate slots and token word are. -/
theorem plain (i : Instr) (e : Engine) (j : Option Tok → Instr) (he : i.engine? = some e)
    (h : ∀ i0 i1 t, build e (encodeFirst i) i0 i1 t = some (j t)) (hj : j i.tok? = i)
    (hs : (j none).fieldsOk = i.fieldsOk ∧ (encodeImms (j none)).length = (encodeImms i).length ∧
      (j none).immCode = i.immCode ∧ (j none).isKat = i.isKat ∧ (j none).isGang = i.isGang ∧ (j none).extOk = i.extOk) :
    Statement i := by
  intro e' he'
  rw [he] at he'
  cases he'
  obtain ⟨h1, h2, h3, h4, h5, h6⟩ := hs
  exact ⟨⟨_, h _ _ _, h1, h2, h3, h4, h5⟩, ⟨_, h _ _ _, h6⟩, by rw [h, hj]⟩

/-- The same, for an instruction with immediate slots. -/
theorem withImms (i : Instr) (e : Engine) (j : BitVec 32 → BitVec 32 → Option Tok → Instr) (he : i.engine? = some e)
    (h : ∀ i0 i1 t, build e (encodeFirst i) i0 i1 t = some (j i0 i1 t)) (hj : j (immAt i 0) (immAt i 1) i.tok? = i)
    (hs : (j 0#32 0#32 none).fieldsOk = i.fieldsOk ∧ (encodeImms (j 0#32 0#32 none)).length = (encodeImms i).length ∧
      (j 0#32 0#32 none).immCode = i.immCode ∧ (j 0#32 0#32 none).isKat = i.isKat ∧
      (j 0#32 0#32 none).isGang = i.isGang)
    (hx : (j (immAt i 0) (immAt i 1) none).extOk = i.extOk) : Statement i := by
  intro e' he'
  rw [he] at he'
  cases he'
  obtain ⟨h1, h2, h3, h4, h5⟩ := hs
  exact ⟨⟨_, h _ _ _, h1, h2, h3, h4, h5⟩, ⟨_, h _ _ _, hx⟩, by rw [h, hj]⟩

/-- A field of the upper part of a join. -/
theorem up {v w l : Nat} {x : BitVec v} {y : BitVec w} {s : Nat} {z : BitVec l} (e : x.extractLsb' (s - w) l = z)
    (h : w ≤ s := by decide) : (x ++ y).extractLsb' s l = z := (BitVec.extractLsb'_append_eq_of_le h).trans e
/-- A field of the lower part of a join. -/
theorem lo {v w l : Nat} {x : BitVec v} {y : BitVec w} {s : Nat} {z : BitVec l} (e : y.extractLsb' s l = z)
    (h : s + l ≤ w := by decide) : (x ++ y).extractLsb' s l = z := (BitVec.extractLsb'_append_eq_of_add_le h).trans e
/-- The whole of a field. -/
theorem it {w : Nat} {x : BitVec w} : x.extractLsb' 0 w = x := BitVec.extractLsb'_eq_self

/-- Fewer bits of a field already read. -/
theorem fewer {w : BitVec 32} {l : Nat} {v : BitVec l} (e : w.extractLsb' 0 l = v) (s k : Nat) (h : s + k ≤ l) :
    w.extractLsb' s k = v.extractLsb' s k := by
  subst e
  apply BitVec.eq_of_getLsbD_eq
  intro i hi
  have h1 : s + i < l := by omega
  simp [hi, h1]

/-- The fields of an extension slot are read back (R55). -/
theorem ofWord_toWord (x : VExt) : VExt.ofWord x.toWord = x := by
  obtain ⟨c, rm, sat, nw, dpos, sa, sb, scf, sfmt⟩ := x
  have h : ∀ b : Bool, bit1 (ofBool1 b) = b := by decide
  unfold VExt.ofWord
  congr 1
  · exact up (up (up (up (up (up (up (up it)))))))
  · exact up (up (up (up (up (up (up (lo it)))))))
  · exact (congrArg bit1 (up (up (up (up (up (up (lo it)))))))).trans (h sat)
  · exact up (up (up (up (up (lo it)))))
  · exact up (up (up (up (lo it))))
  · exact up (up (up (lo it)))
  · exact up (up (lo it))
  · exact up (lo it)
  · exact lo it


theorem nop (tok : Option Tok) : Statement (.nop tok) := by
  have h0 : (encodeFirst (.nop tok)).extractLsb' 24 8 = 0x00#8 := up it
  have h1 : (encodeFirst (.nop tok)).extractLsb' 0 24 = 0#24 := lo it
  refine plain _ .c (fun tk => .nop tk) rfl (fun i0 i1 tk => ?_) rfl ⟨rfl, rfl, rfl, rfl, rfl, rfl⟩
  show buildC _ i0 i1 tk = _
  unfold buildC
  rw [h0]
  exact if_pos h1

theorem add (d : BitVec 5) (a : BitVec 5) (b : BitVec 5) (tok : Option Tok) : Statement (.add d a b tok) := by
  have h0 : (encodeFirst (.add d a b tok)).extractLsb' 24 8 = 0x01#8 := up (up (up (up it)))
  have h1 : (encodeFirst (.add d a b tok)).extractLsb' 19 5 = d := up (up (up (lo it)))
  have h2 : (encodeFirst (.add d a b tok)).extractLsb' 14 5 = a := up (up (lo it))
  have h3 : (encodeFirst (.add d a b tok)).extractLsb' 9 5 = b := up (lo it)
  have h4 : (encodeFirst (.add d a b tok)).extractLsb' 0 9 = 0#9 := lo it
  refine plain _ .c (fun tk => .add (d) (a) (b) tk) rfl (fun i0 i1 tk => ?_) rfl ⟨rfl, rfl, rfl, rfl, rfl, rfl⟩
  show buildC _ i0 i1 tk = _
  unfold buildC
  rw [h0]
  exact (if_pos h4).trans (by rw [h1, h2, h3])

theorem sub (d : BitVec 5) (a : BitVec 5) (b : BitVec 5) (tok : Option Tok) : Statement (.sub d a b tok) := by
  have h0 : (encodeFirst (.sub d a b tok)).extractLsb' 24 8 = 0x02#8 := up (up (up (up it)))
  have h1 : (encodeFirst (.sub d a b tok)).extractLsb' 19 5 = d := up (up (up (lo it)))
  have h2 : (encodeFirst (.sub d a b tok)).extractLsb' 14 5 = a := up (up (lo it))
  have h3 : (encodeFirst (.sub d a b tok)).extractLsb' 9 5 = b := up (lo it)
  have h4 : (encodeFirst (.sub d a b tok)).extractLsb' 0 9 = 0#9 := lo it
  refine plain _ .c (fun tk => .sub (d) (a) (b) tk) rfl (fun i0 i1 tk => ?_) rfl ⟨rfl, rfl, rfl, rfl, rfl, rfl⟩
  show buildC _ i0 i1 tk = _
  unfold buildC
  rw [h0]
  exact (if_pos h4).trans (by rw [h1, h2, h3])

theorem mul (d : BitVec 5) (a : BitVec 5) (b : BitVec 5) (tok : Option Tok) : Statement (.mul d a b tok) := by
  have h0 : (encodeFirst (.mul d a b tok)).extractLsb' 24 8 = 0x03#8 := up (up (up (up it)))
  have h1 : (encodeFirst (.mul d a b tok)).extractLsb' 19 5 = d := up (up (up (lo it)))
  have h2 : (encodeFirst (.mul d a b tok)).extractLsb' 14 5 = a := up (up (lo it))
  have h3 : (encodeFirst (.mul d a b tok)).extractLsb' 9 5 = b := up (lo it)
  have h4 : (encodeFirst (.mul d a b tok)).extractLsb' 0 9 = 0#9 := lo it
  refine plain _ .c (fun tk => .mul (d) (a) (b) tk) rfl (fun i0 i1 tk => ?_) rfl ⟨rfl, rfl, rfl, rfl, rfl, rfl⟩
  show buildC _ i0 i1 tk = _
  unfold buildC
  rw [h0]
  exact (if_pos h4).trans (by rw [h1, h2, h3])

theorem mulhI (d : BitVec 5) (a : BitVec 5) (b : BitVec 5) (tok : Option Tok) : Statement (.mulhI d a b tok) := by
  have h0 : (encodeFirst (.mulhI d a b tok)).extractLsb' 24 8 = 0x04#8 := up (up (up (up it)))
  have h1 : (encodeFirst (.mulhI d a b tok)).extractLsb' 19 5 = d := up (up (up (lo it)))
  have h2 : (encodeFirst (.mulhI d a b tok)).extractLsb' 14 5 = a := up (up (lo it))
  have h3 : (encodeFirst (.mulhI d a b tok)).extractLsb' 9 5 = b := up (lo it)
  have h4 : (encodeFirst (.mulhI d a b tok)).extractLsb' 0 9 = 0#9 := lo it
  refine plain _ .c (fun tk => .mulhI (d) (a) (b) tk) rfl (fun i0 i1 tk => ?_) rfl ⟨rfl, rfl, rfl, rfl, rfl, rfl⟩
  show buildC _ i0 i1 tk = _
  unfold buildC
  rw [h0]
  exact (if_pos h4).trans (by rw [h1, h2, h3])

theorem mulhN (d : BitVec 5) (a : BitVec 5) (b : BitVec 5) (tok : Option Tok) : Statement (.mulhN d a b tok) := by
  have h0 : (encodeFirst (.mulhN d a b tok)).extractLsb' 24 8 = 0x05#8 := up (up (up (up it)))
  have h1 : (encodeFirst (.mulhN d a b tok)).extractLsb' 19 5 = d := up (up (up (lo it)))
  have h2 : (encodeFirst (.mulhN d a b tok)).extractLsb' 14 5 = a := up (up (lo it))
  have h3 : (encodeFirst (.mulhN d a b tok)).extractLsb' 9 5 = b := up (lo it)
  have h4 : (encodeFirst (.mulhN d a b tok)).extractLsb' 0 9 = 0#9 := lo it
  refine plain _ .c (fun tk => .mulhN (d) (a) (b) tk) rfl (fun i0 i1 tk => ?_) rfl ⟨rfl, rfl, rfl, rfl, rfl, rfl⟩
  show buildC _ i0 i1 tk = _
  unfold buildC
  rw [h0]
  exact (if_pos h4).trans (by rw [h1, h2, h3])

theorem divI (d : BitVec 5) (a : BitVec 5) (b : BitVec 5) (tok : Option Tok) : Statement (.divI d a b tok) := by
  have h0 : (encodeFirst (.divI d a b tok)).extractLsb' 24 8 = 0x06#8 := up (up (up (up it)))
  have h1 : (encodeFirst (.divI d a b tok)).extractLsb' 19 5 = d := up (up (up (lo it)))
  have h2 : (encodeFirst (.divI d a b tok)).extractLsb' 14 5 = a := up (up (lo it))
  have h3 : (encodeFirst (.divI d a b tok)).extractLsb' 9 5 = b := up (lo it)
  have h4 : (encodeFirst (.divI d a b tok)).extractLsb' 0 9 = 0#9 := lo it
  refine plain _ .c (fun tk => .divI (d) (a) (b) tk) rfl (fun i0 i1 tk => ?_) rfl ⟨rfl, rfl, rfl, rfl, rfl, rfl⟩
  show buildC _ i0 i1 tk = _
  unfold buildC
  rw [h0]
  exact (if_pos h4).trans (by rw [h1, h2, h3])

theorem divN (d : BitVec 5) (a : BitVec 5) (b : BitVec 5) (tok : Option Tok) : Statement (.divN d a b tok) := by
  have h0 : (encodeFirst (.divN d a b tok)).extractLsb' 24 8 = 0x07#8 := up (up (up (up it)))
  have h1 : (encodeFirst (.divN d a b tok)).extractLsb' 19 5 = d := up (up (up (lo it)))
  have h2 : (encodeFirst (.divN d a b tok)).extractLsb' 14 5 = a := up (up (lo it))
  have h3 : (encodeFirst (.divN d a b tok)).extractLsb' 9 5 = b := up (lo it)
  have h4 : (encodeFirst (.divN d a b tok)).extractLsb' 0 9 = 0#9 := lo it
  refine plain _ .c (fun tk => .divN (d) (a) (b) tk) rfl (fun i0 i1 tk => ?_) rfl ⟨rfl, rfl, rfl, rfl, rfl, rfl⟩
  show buildC _ i0 i1 tk = _
  unfold buildC
  rw [h0]
  exact (if_pos h4).trans (by rw [h1, h2, h3])

theorem remI (d : BitVec 5) (a : BitVec 5) (b : BitVec 5) (tok : Option Tok) : Statement (.remI d a b tok) := by
  have h0 : (encodeFirst (.remI d a b tok)).extractLsb' 24 8 = 0x08#8 := up (up (up (up it)))
  have h1 : (encodeFirst (.remI d a b tok)).extractLsb' 19 5 = d := up (up (up (lo it)))
  have h2 : (encodeFirst (.remI d a b tok)).extractLsb' 14 5 = a := up (up (lo it))
  have h3 : (encodeFirst (.remI d a b tok)).extractLsb' 9 5 = b := up (lo it)
  have h4 : (encodeFirst (.remI d a b tok)).extractLsb' 0 9 = 0#9 := lo it
  refine plain _ .c (fun tk => .remI (d) (a) (b) tk) rfl (fun i0 i1 tk => ?_) rfl ⟨rfl, rfl, rfl, rfl, rfl, rfl⟩
  show buildC _ i0 i1 tk = _
  unfold buildC
  rw [h0]
  exact (if_pos h4).trans (by rw [h1, h2, h3])

theorem remN (d : BitVec 5) (a : BitVec 5) (b : BitVec 5) (tok : Option Tok) : Statement (.remN d a b tok) := by
  have h0 : (encodeFirst (.remN d a b tok)).extractLsb' 24 8 = 0x09#8 := up (up (up (up it)))
  have h1 : (encodeFirst (.remN d a b tok)).extractLsb' 19 5 = d := up (up (up (lo it)))
  have h2 : (encodeFirst (.remN d a b tok)).extractLsb' 14 5 = a := up (up (lo it))
  have h3 : (encodeFirst (.remN d a b tok)).extractLsb' 9 5 = b := up (lo it)
  have h4 : (encodeFirst (.remN d a b tok)).extractLsb' 0 9 = 0#9 := lo it
  refine plain _ .c (fun tk => .remN (d) (a) (b) tk) rfl (fun i0 i1 tk => ?_) rfl ⟨rfl, rfl, rfl, rfl, rfl, rfl⟩
  show buildC _ i0 i1 tk = _
  unfold buildC
  rw [h0]
  exact (if_pos h4).trans (by rw [h1, h2, h3])

theorem and (d : BitVec 5) (a : BitVec 5) (b : BitVec 5) (tok : Option Tok) : Statement (.and d a b tok) := by
  have h0 : (encodeFirst (.and d a b tok)).extractLsb' 24 8 = 0x0A#8 := up (up (up (up it)))
  have h1 : (encodeFirst (.and d a b tok)).extractLsb' 19 5 = d := up (up (up (lo it)))
  have h2 : (encodeFirst (.and d a b tok)).extractLsb' 14 5 = a := up (up (lo it))
  have h3 : (encodeFirst (.and d a b tok)).extractLsb' 9 5 = b := up (lo it)
  have h4 : (encodeFirst (.and d a b tok)).extractLsb' 0 9 = 0#9 := lo it
  refine plain _ .c (fun tk => .and (d) (a) (b) tk) rfl (fun i0 i1 tk => ?_) rfl ⟨rfl, rfl, rfl, rfl, rfl, rfl⟩
  show buildC _ i0 i1 tk = _
  unfold buildC
  rw [h0]
  exact (if_pos h4).trans (by rw [h1, h2, h3])

theorem or (d : BitVec 5) (a : BitVec 5) (b : BitVec 5) (tok : Option Tok) : Statement (.or d a b tok) := by
  have h0 : (encodeFirst (.or d a b tok)).extractLsb' 24 8 = 0x0B#8 := up (up (up (up it)))
  have h1 : (encodeFirst (.or d a b tok)).extractLsb' 19 5 = d := up (up (up (lo it)))
  have h2 : (encodeFirst (.or d a b tok)).extractLsb' 14 5 = a := up (up (lo it))
  have h3 : (encodeFirst (.or d a b tok)).extractLsb' 9 5 = b := up (lo it)
  have h4 : (encodeFirst (.or d a b tok)).extractLsb' 0 9 = 0#9 := lo it
  refine plain _ .c (fun tk => .or (d) (a) (b) tk) rfl (fun i0 i1 tk => ?_) rfl ⟨rfl, rfl, rfl, rfl, rfl, rfl⟩
  show buildC _ i0 i1 tk = _
  unfold buildC
  rw [h0]
  exact (if_pos h4).trans (by rw [h1, h2, h3])

theorem xor (d : BitVec 5) (a : BitVec 5) (b : BitVec 5) (tok : Option Tok) : Statement (.xor d a b tok) := by
  have h0 : (encodeFirst (.xor d a b tok)).extractLsb' 24 8 = 0x0C#8 := up (up (up (up it)))
  have h1 : (encodeFirst (.xor d a b tok)).extractLsb' 19 5 = d := up (up (up (lo it)))
  have h2 : (encodeFirst (.xor d a b tok)).extractLsb' 14 5 = a := up (up (lo it))
  have h3 : (encodeFirst (.xor d a b tok)).extractLsb' 9 5 = b := up (lo it)
  have h4 : (encodeFirst (.xor d a b tok)).extractLsb' 0 9 = 0#9 := lo it
  refine plain _ .c (fun tk => .xor (d) (a) (b) tk) rfl (fun i0 i1 tk => ?_) rfl ⟨rfl, rfl, rfl, rfl, rfl, rfl⟩
  show buildC _ i0 i1 tk = _
  unfold buildC
  rw [h0]
  exact (if_pos h4).trans (by rw [h1, h2, h3])

theorem andn (d : BitVec 5) (a : BitVec 5) (b : BitVec 5) (tok : Option Tok) : Statement (.andn d a b tok) := by
  have h0 : (encodeFirst (.andn d a b tok)).extractLsb' 24 8 = 0x0D#8 := up (up (up (up it)))
  have h1 : (encodeFirst (.andn d a b tok)).extractLsb' 19 5 = d := up (up (up (lo it)))
  have h2 : (encodeFirst (.andn d a b tok)).extractLsb' 14 5 = a := up (up (lo it))
  have h3 : (encodeFirst (.andn d a b tok)).extractLsb' 9 5 = b := up (lo it)
  have h4 : (encodeFirst (.andn d a b tok)).extractLsb' 0 9 = 0#9 := lo it
  refine plain _ .c (fun tk => .andn (d) (a) (b) tk) rfl (fun i0 i1 tk => ?_) rfl ⟨rfl, rfl, rfl, rfl, rfl, rfl⟩
  show buildC _ i0 i1 tk = _
  unfold buildC
  rw [h0]
  exact (if_pos h4).trans (by rw [h1, h2, h3])

theorem sll (d : BitVec 5) (a : BitVec 5) (b : BitVec 5) (tok : Option Tok) : Statement (.sll d a b tok) := by
  have h0 : (encodeFirst (.sll d a b tok)).extractLsb' 24 8 = 0x0E#8 := up (up (up (up it)))
  have h1 : (encodeFirst (.sll d a b tok)).extractLsb' 19 5 = d := up (up (up (lo it)))
  have h2 : (encodeFirst (.sll d a b tok)).extractLsb' 14 5 = a := up (up (lo it))
  have h3 : (encodeFirst (.sll d a b tok)).extractLsb' 9 5 = b := up (lo it)
  have h4 : (encodeFirst (.sll d a b tok)).extractLsb' 0 9 = 0#9 := lo it
  refine plain _ .c (fun tk => .sll (d) (a) (b) tk) rfl (fun i0 i1 tk => ?_) rfl ⟨rfl, rfl, rfl, rfl, rfl, rfl⟩
  show buildC _ i0 i1 tk = _
  unfold buildC
  rw [h0]
  exact (if_pos h4).trans (by rw [h1, h2, h3])

theorem srl (d : BitVec 5) (a : BitVec 5) (b : BitVec 5) (tok : Option Tok) : Statement (.srl d a b tok) := by
  have h0 : (encodeFirst (.srl d a b tok)).extractLsb' 24 8 = 0x0F#8 := up (up (up (up it)))
  have h1 : (encodeFirst (.srl d a b tok)).extractLsb' 19 5 = d := up (up (up (lo it)))
  have h2 : (encodeFirst (.srl d a b tok)).extractLsb' 14 5 = a := up (up (lo it))
  have h3 : (encodeFirst (.srl d a b tok)).extractLsb' 9 5 = b := up (lo it)
  have h4 : (encodeFirst (.srl d a b tok)).extractLsb' 0 9 = 0#9 := lo it
  refine plain _ .c (fun tk => .srl (d) (a) (b) tk) rfl (fun i0 i1 tk => ?_) rfl ⟨rfl, rfl, rfl, rfl, rfl, rfl⟩
  show buildC _ i0 i1 tk = _
  unfold buildC
  rw [h0]
  exact (if_pos h4).trans (by rw [h1, h2, h3])

theorem sra (d : BitVec 5) (a : BitVec 5) (b : BitVec 5) (tok : Option Tok) : Statement (.sra d a b tok) := by
  have h0 : (encodeFirst (.sra d a b tok)).extractLsb' 24 8 = 0x10#8 := up (up (up (up it)))
  have h1 : (encodeFirst (.sra d a b tok)).extractLsb' 19 5 = d := up (up (up (lo it)))
  have h2 : (encodeFirst (.sra d a b tok)).extractLsb' 14 5 = a := up (up (lo it))
  have h3 : (encodeFirst (.sra d a b tok)).extractLsb' 9 5 = b := up (lo it)
  have h4 : (encodeFirst (.sra d a b tok)).extractLsb' 0 9 = 0#9 := lo it
  refine plain _ .c (fun tk => .sra (d) (a) (b) tk) rfl (fun i0 i1 tk => ?_) rfl ⟨rfl, rfl, rfl, rfl, rfl, rfl⟩
  show buildC _ i0 i1 tk = _
  unfold buildC
  rw [h0]
  exact (if_pos h4).trans (by rw [h1, h2, h3])

theorem rol (d : BitVec 5) (a : BitVec 5) (b : BitVec 5) (tok : Option Tok) : Statement (.rol d a b tok) := by
  have h0 : (encodeFirst (.rol d a b tok)).extractLsb' 24 8 = 0x11#8 := up (up (up (up it)))
  have h1 : (encodeFirst (.rol d a b tok)).extractLsb' 19 5 = d := up (up (up (lo it)))
  have h2 : (encodeFirst (.rol d a b tok)).extractLsb' 14 5 = a := up (up (lo it))
  have h3 : (encodeFirst (.rol d a b tok)).extractLsb' 9 5 = b := up (lo it)
  have h4 : (encodeFirst (.rol d a b tok)).extractLsb' 0 9 = 0#9 := lo it
  refine plain _ .c (fun tk => .rol (d) (a) (b) tk) rfl (fun i0 i1 tk => ?_) rfl ⟨rfl, rfl, rfl, rfl, rfl, rfl⟩
  show buildC _ i0 i1 tk = _
  unfold buildC
  rw [h0]
  exact (if_pos h4).trans (by rw [h1, h2, h3])

theorem fsh (d : BitVec 5) (a : BitVec 5) (b : BitVec 5) (c : BitVec 5) (tok : Option Tok) : Statement (.fsh d a b c tok) := by
  have h0 : (encodeFirst (.fsh d a b c tok)).extractLsb' 24 8 = 0x12#8 := up (up (up (up (up it))))
  have h1 : (encodeFirst (.fsh d a b c tok)).extractLsb' 19 5 = d := up (up (up (up (lo it))))
  have h2 : (encodeFirst (.fsh d a b c tok)).extractLsb' 14 5 = a := up (up (up (lo it)))
  have h3 : (encodeFirst (.fsh d a b c tok)).extractLsb' 9 5 = b := up (up (lo it))
  have h4 : (encodeFirst (.fsh d a b c tok)).extractLsb' 4 5 = c := up (lo it)
  have h5 : (encodeFirst (.fsh d a b c tok)).extractLsb' 0 4 = 0#4 := lo it
  refine plain _ .c (fun tk => .fsh (d) (a) (b) (c) tk) rfl (fun i0 i1 tk => ?_) rfl ⟨rfl, rfl, rfl, rfl, rfl, rfl⟩
  show buildC _ i0 i1 tk = _
  unfold buildC
  rw [h0]
  exact (if_pos h5).trans (by rw [h1, h2, h3, h4])

theorem clz (d : BitVec 5) (a : BitVec 5) (w : BitVec 2) (tok : Option Tok) : Statement (.clz d a w tok) := by
  have h0 : (encodeFirst (.clz d a w tok)).extractLsb' 24 8 = 0x13#8 := up (up (up (up it)))
  have h1 : (encodeFirst (.clz d a w tok)).extractLsb' 19 5 = d := up (up (up (lo it)))
  have h2 : (encodeFirst (.clz d a w tok)).extractLsb' 14 5 = a := up (up (lo it))
  have h3 : (encodeFirst (.clz d a w tok)).extractLsb' 0 2 = w := lo it
  have h4 : (encodeFirst (.clz d a w tok)).extractLsb' 2 12 = 0#12 := up (lo it)
  refine plain _ .c (fun tk => .clz (d) (a) (w) tk) rfl (fun i0 i1 tk => ?_) rfl ⟨rfl, rfl, rfl, rfl, rfl, rfl⟩
  show buildC _ i0 i1 tk = _
  unfold buildC
  rw [h0]
  exact (if_pos h4).trans (by rw [h1, h2, h3])

theorem ctz (d : BitVec 5) (a : BitVec 5) (w : BitVec 2) (tok : Option Tok) : Statement (.ctz d a w tok) := by
  have h0 : (encodeFirst (.ctz d a w tok)).extractLsb' 24 8 = 0x14#8 := up (up (up (up it)))
  have h1 : (encodeFirst (.ctz d a w tok)).extractLsb' 19 5 = d := up (up (up (lo it)))
  have h2 : (encodeFirst (.ctz d a w tok)).extractLsb' 14 5 = a := up (up (lo it))
  have h3 : (encodeFirst (.ctz d a w tok)).extractLsb' 0 2 = w := lo it
  have h4 : (encodeFirst (.ctz d a w tok)).extractLsb' 2 12 = 0#12 := up (lo it)
  refine plain _ .c (fun tk => .ctz (d) (a) (w) tk) rfl (fun i0 i1 tk => ?_) rfl ⟨rfl, rfl, rfl, rfl, rfl, rfl⟩
  show buildC _ i0 i1 tk = _
  unfold buildC
  rw [h0]
  exact (if_pos h4).trans (by rw [h1, h2, h3])

theorem ffs (d : BitVec 5) (a : BitVec 5) (w : BitVec 2) (tok : Option Tok) : Statement (.ffs d a w tok) := by
  have h0 : (encodeFirst (.ffs d a w tok)).extractLsb' 24 8 = 0x15#8 := up (up (up (up it)))
  have h1 : (encodeFirst (.ffs d a w tok)).extractLsb' 19 5 = d := up (up (up (lo it)))
  have h2 : (encodeFirst (.ffs d a w tok)).extractLsb' 14 5 = a := up (up (lo it))
  have h3 : (encodeFirst (.ffs d a w tok)).extractLsb' 0 2 = w := lo it
  have h4 : (encodeFirst (.ffs d a w tok)).extractLsb' 2 12 = 0#12 := up (lo it)
  refine plain _ .c (fun tk => .ffs (d) (a) (w) tk) rfl (fun i0 i1 tk => ?_) rfl ⟨rfl, rfl, rfl, rfl, rfl, rfl⟩
  show buildC _ i0 i1 tk = _
  unfold buildC
  rw [h0]
  exact (if_pos h4).trans (by rw [h1, h2, h3])

theorem popc (d : BitVec 5) (a : BitVec 5) (w : BitVec 2) (tok : Option Tok) : Statement (.popc d a w tok) := by
  have h0 : (encodeFirst (.popc d a w tok)).extractLsb' 24 8 = 0x16#8 := up (up (up (up it)))
  have h1 : (encodeFirst (.popc d a w tok)).extractLsb' 19 5 = d := up (up (up (lo it)))
  have h2 : (encodeFirst (.popc d a w tok)).extractLsb' 14 5 = a := up (up (lo it))
  have h3 : (encodeFirst (.popc d a w tok)).extractLsb' 0 2 = w := lo it
  have h4 : (encodeFirst (.popc d a w tok)).extractLsb' 2 12 = 0#12 := up (lo it)
  refine plain _ .c (fun tk => .popc (d) (a) (w) tk) rfl (fun i0 i1 tk => ?_) rfl ⟨rfl, rfl, rfl, rfl, rfl, rfl⟩
  show buildC _ i0 i1 tk = _
  unfold buildC
  rw [h0]
  exact (if_pos h4).trans (by rw [h1, h2, h3])

theorem bswap (d : BitVec 5) (a : BitVec 5) (w : BitVec 2) (tok : Option Tok) : Statement (.bswap d a w tok) := by
  have h0 : (encodeFirst (.bswap d a w tok)).extractLsb' 24 8 = 0x17#8 := up (up (up (up it)))
  have h1 : (encodeFirst (.bswap d a w tok)).extractLsb' 19 5 = d := up (up (up (lo it)))
  have h2 : (encodeFirst (.bswap d a w tok)).extractLsb' 14 5 = a := up (up (lo it))
  have h3 : (encodeFirst (.bswap d a w tok)).extractLsb' 0 2 = w := lo it
  have h4 : (encodeFirst (.bswap d a w tok)).extractLsb' 2 12 = 0#12 := up (lo it)
  refine plain _ .c (fun tk => .bswap (d) (a) (w) tk) rfl (fun i0 i1 tk => ?_) rfl ⟨rfl, rfl, rfl, rfl, rfl, rfl⟩
  show buildC _ i0 i1 tk = _
  unfold buildC
  rw [h0]
  exact (if_pos h4).trans (by rw [h1, h2, h3])

theorem minI (d : BitVec 5) (a : BitVec 5) (b : BitVec 5) (tok : Option Tok) : Statement (.minI d a b tok) := by
  have h0 : (encodeFirst (.minI d a b tok)).extractLsb' 24 8 = 0x18#8 := up (up (up (up it)))
  have h1 : (encodeFirst (.minI d a b tok)).extractLsb' 19 5 = d := up (up (up (lo it)))
  have h2 : (encodeFirst (.minI d a b tok)).extractLsb' 14 5 = a := up (up (lo it))
  have h3 : (encodeFirst (.minI d a b tok)).extractLsb' 9 5 = b := up (lo it)
  have h4 : (encodeFirst (.minI d a b tok)).extractLsb' 0 9 = 0#9 := lo it
  refine plain _ .c (fun tk => .minI (d) (a) (b) tk) rfl (fun i0 i1 tk => ?_) rfl ⟨rfl, rfl, rfl, rfl, rfl, rfl⟩
  show buildC _ i0 i1 tk = _
  unfold buildC
  rw [h0]
  exact (if_pos h4).trans (by rw [h1, h2, h3])

theorem minN (d : BitVec 5) (a : BitVec 5) (b : BitVec 5) (tok : Option Tok) : Statement (.minN d a b tok) := by
  have h0 : (encodeFirst (.minN d a b tok)).extractLsb' 24 8 = 0x19#8 := up (up (up (up it)))
  have h1 : (encodeFirst (.minN d a b tok)).extractLsb' 19 5 = d := up (up (up (lo it)))
  have h2 : (encodeFirst (.minN d a b tok)).extractLsb' 14 5 = a := up (up (lo it))
  have h3 : (encodeFirst (.minN d a b tok)).extractLsb' 9 5 = b := up (lo it)
  have h4 : (encodeFirst (.minN d a b tok)).extractLsb' 0 9 = 0#9 := lo it
  refine plain _ .c (fun tk => .minN (d) (a) (b) tk) rfl (fun i0 i1 tk => ?_) rfl ⟨rfl, rfl, rfl, rfl, rfl, rfl⟩
  show buildC _ i0 i1 tk = _
  unfold buildC
  rw [h0]
  exact (if_pos h4).trans (by rw [h1, h2, h3])

theorem maxI (d : BitVec 5) (a : BitVec 5) (b : BitVec 5) (tok : Option Tok) : Statement (.maxI d a b tok) := by
  have h0 : (encodeFirst (.maxI d a b tok)).extractLsb' 24 8 = 0x1A#8 := up (up (up (up it)))
  have h1 : (encodeFirst (.maxI d a b tok)).extractLsb' 19 5 = d := up (up (up (lo it)))
  have h2 : (encodeFirst (.maxI d a b tok)).extractLsb' 14 5 = a := up (up (lo it))
  have h3 : (encodeFirst (.maxI d a b tok)).extractLsb' 9 5 = b := up (lo it)
  have h4 : (encodeFirst (.maxI d a b tok)).extractLsb' 0 9 = 0#9 := lo it
  refine plain _ .c (fun tk => .maxI (d) (a) (b) tk) rfl (fun i0 i1 tk => ?_) rfl ⟨rfl, rfl, rfl, rfl, rfl, rfl⟩
  show buildC _ i0 i1 tk = _
  unfold buildC
  rw [h0]
  exact (if_pos h4).trans (by rw [h1, h2, h3])

theorem maxN (d : BitVec 5) (a : BitVec 5) (b : BitVec 5) (tok : Option Tok) : Statement (.maxN d a b tok) := by
  have h0 : (encodeFirst (.maxN d a b tok)).extractLsb' 24 8 = 0x1B#8 := up (up (up (up it)))
  have h1 : (encodeFirst (.maxN d a b tok)).extractLsb' 19 5 = d := up (up (up (lo it)))
  have h2 : (encodeFirst (.maxN d a b tok)).extractLsb' 14 5 = a := up (up (lo it))
  have h3 : (encodeFirst (.maxN d a b tok)).extractLsb' 9 5 = b := up (lo it)
  have h4 : (encodeFirst (.maxN d a b tok)).extractLsb' 0 9 = 0#9 := lo it
  refine plain _ .c (fun tk => .maxN (d) (a) (b) tk) rfl (fun i0 i1 tk => ?_) rfl ⟨rfl, rfl, rfl, rfl, rfl, rfl⟩
  show buildC _ i0 i1 tk = _
  unfold buildC
  rw [h0]
  exact (if_pos h4).trans (by rw [h1, h2, h3])

theorem seq (d : BitVec 5) (a : BitVec 5) (b : BitVec 5) (tok : Option Tok) : Statement (.seq d a b tok) := by
  have h0 : (encodeFirst (.seq d a b tok)).extractLsb' 24 8 = 0x1C#8 := up (up (up (up it)))
  have h1 : (encodeFirst (.seq d a b tok)).extractLsb' 19 5 = d := up (up (up (lo it)))
  have h2 : (encodeFirst (.seq d a b tok)).extractLsb' 14 5 = a := up (up (lo it))
  have h3 : (encodeFirst (.seq d a b tok)).extractLsb' 9 5 = b := up (lo it)
  have h4 : (encodeFirst (.seq d a b tok)).extractLsb' 0 9 = 0#9 := lo it
  refine plain _ .c (fun tk => .seq (d) (a) (b) tk) rfl (fun i0 i1 tk => ?_) rfl ⟨rfl, rfl, rfl, rfl, rfl, rfl⟩
  show buildC _ i0 i1 tk = _
  unfold buildC
  rw [h0]
  exact (if_pos h4).trans (by rw [h1, h2, h3])

theorem sne (d : BitVec 5) (a : BitVec 5) (b : BitVec 5) (tok : Option Tok) : Statement (.sne d a b tok) := by
  have h0 : (encodeFirst (.sne d a b tok)).extractLsb' 24 8 = 0x1D#8 := up (up (up (up it)))
  have h1 : (encodeFirst (.sne d a b tok)).extractLsb' 19 5 = d := up (up (up (lo it)))
  have h2 : (encodeFirst (.sne d a b tok)).extractLsb' 14 5 = a := up (up (lo it))
  have h3 : (encodeFirst (.sne d a b tok)).extractLsb' 9 5 = b := up (lo it)
  have h4 : (encodeFirst (.sne d a b tok)).extractLsb' 0 9 = 0#9 := lo it
  refine plain _ .c (fun tk => .sne (d) (a) (b) tk) rfl (fun i0 i1 tk => ?_) rfl ⟨rfl, rfl, rfl, rfl, rfl, rfl⟩
  show buildC _ i0 i1 tk = _
  unfold buildC
  rw [h0]
  exact (if_pos h4).trans (by rw [h1, h2, h3])

theorem sltI (d : BitVec 5) (a : BitVec 5) (b : BitVec 5) (tok : Option Tok) : Statement (.sltI d a b tok) := by
  have h0 : (encodeFirst (.sltI d a b tok)).extractLsb' 24 8 = 0x1E#8 := up (up (up (up it)))
  have h1 : (encodeFirst (.sltI d a b tok)).extractLsb' 19 5 = d := up (up (up (lo it)))
  have h2 : (encodeFirst (.sltI d a b tok)).extractLsb' 14 5 = a := up (up (lo it))
  have h3 : (encodeFirst (.sltI d a b tok)).extractLsb' 9 5 = b := up (lo it)
  have h4 : (encodeFirst (.sltI d a b tok)).extractLsb' 0 9 = 0#9 := lo it
  refine plain _ .c (fun tk => .sltI (d) (a) (b) tk) rfl (fun i0 i1 tk => ?_) rfl ⟨rfl, rfl, rfl, rfl, rfl, rfl⟩
  show buildC _ i0 i1 tk = _
  unfold buildC
  rw [h0]
  exact (if_pos h4).trans (by rw [h1, h2, h3])

theorem sltN (d : BitVec 5) (a : BitVec 5) (b : BitVec 5) (tok : Option Tok) : Statement (.sltN d a b tok) := by
  have h0 : (encodeFirst (.sltN d a b tok)).extractLsb' 24 8 = 0x1F#8 := up (up (up (up it)))
  have h1 : (encodeFirst (.sltN d a b tok)).extractLsb' 19 5 = d := up (up (up (lo it)))
  have h2 : (encodeFirst (.sltN d a b tok)).extractLsb' 14 5 = a := up (up (lo it))
  have h3 : (encodeFirst (.sltN d a b tok)).extractLsb' 9 5 = b := up (lo it)
  have h4 : (encodeFirst (.sltN d a b tok)).extractLsb' 0 9 = 0#9 := lo it
  refine plain _ .c (fun tk => .sltN (d) (a) (b) tk) rfl (fun i0 i1 tk => ?_) rfl ⟨rfl, rfl, rfl, rfl, rfl, rfl⟩
  show buildC _ i0 i1 tk = _
  unfold buildC
  rw [h0]
  exact (if_pos h4).trans (by rw [h1, h2, h3])

theorem sleI (d : BitVec 5) (a : BitVec 5) (b : BitVec 5) (tok : Option Tok) : Statement (.sleI d a b tok) := by
  have h0 : (encodeFirst (.sleI d a b tok)).extractLsb' 24 8 = 0x20#8 := up (up (up (up it)))
  have h1 : (encodeFirst (.sleI d a b tok)).extractLsb' 19 5 = d := up (up (up (lo it)))
  have h2 : (encodeFirst (.sleI d a b tok)).extractLsb' 14 5 = a := up (up (lo it))
  have h3 : (encodeFirst (.sleI d a b tok)).extractLsb' 9 5 = b := up (lo it)
  have h4 : (encodeFirst (.sleI d a b tok)).extractLsb' 0 9 = 0#9 := lo it
  refine plain _ .c (fun tk => .sleI (d) (a) (b) tk) rfl (fun i0 i1 tk => ?_) rfl ⟨rfl, rfl, rfl, rfl, rfl, rfl⟩
  show buildC _ i0 i1 tk = _
  unfold buildC
  rw [h0]
  exact (if_pos h4).trans (by rw [h1, h2, h3])

theorem sleN (d : BitVec 5) (a : BitVec 5) (b : BitVec 5) (tok : Option Tok) : Statement (.sleN d a b tok) := by
  have h0 : (encodeFirst (.sleN d a b tok)).extractLsb' 24 8 = 0x21#8 := up (up (up (up it)))
  have h1 : (encodeFirst (.sleN d a b tok)).extractLsb' 19 5 = d := up (up (up (lo it)))
  have h2 : (encodeFirst (.sleN d a b tok)).extractLsb' 14 5 = a := up (up (lo it))
  have h3 : (encodeFirst (.sleN d a b tok)).extractLsb' 9 5 = b := up (lo it)
  have h4 : (encodeFirst (.sleN d a b tok)).extractLsb' 0 9 = 0#9 := lo it
  refine plain _ .c (fun tk => .sleN (d) (a) (b) tk) rfl (fun i0 i1 tk => ?_) rfl ⟨rfl, rfl, rfl, rfl, rfl, rfl⟩
  show buildC _ i0 i1 tk = _
  unfold buildC
  rw [h0]
  exact (if_pos h4).trans (by rw [h1, h2, h3])

theorem sel (d : BitVec 5) (a : BitVec 5) (b : BitVec 5) (c : BitVec 5) (tok : Option Tok) : Statement (.sel d a b c tok) := by
  have h0 : (encodeFirst (.sel d a b c tok)).extractLsb' 24 8 = 0x22#8 := up (up (up (up (up it))))
  have h1 : (encodeFirst (.sel d a b c tok)).extractLsb' 19 5 = d := up (up (up (up (lo it))))
  have h2 : (encodeFirst (.sel d a b c tok)).extractLsb' 14 5 = a := up (up (up (lo it)))
  have h3 : (encodeFirst (.sel d a b c tok)).extractLsb' 9 5 = b := up (up (lo it))
  have h4 : (encodeFirst (.sel d a b c tok)).extractLsb' 4 5 = c := up (lo it)
  have h5 : (encodeFirst (.sel d a b c tok)).extractLsb' 0 4 = 0#4 := lo it
  refine plain _ .c (fun tk => .sel (d) (a) (b) (c) tk) rfl (fun i0 i1 tk => ?_) rfl ⟨rfl, rfl, rfl, rfl, rfl, rfl⟩
  show buildC _ i0 i1 tk = _
  unfold buildC
  rw [h0]
  exact (if_pos h5).trans (by rw [h1, h2, h3, h4])

theorem addi (d : BitVec 5) (a : BitVec 5) (i : BitVec 14) (tok : Option Tok) : Statement (.addi d a i tok) := by
  have h0 : (encodeFirst (.addi d a i tok)).extractLsb' 24 8 = 0x30#8 := up (up (up it))
  have h1 : (encodeFirst (.addi d a i tok)).extractLsb' 19 5 = d := up (up (lo it))
  have h2 : (encodeFirst (.addi d a i tok)).extractLsb' 14 5 = a := up (lo it)
  have h3 : (encodeFirst (.addi d a i tok)).extractLsb' 0 14 = i := lo it
  refine plain _ .c (fun tk => .addi (d) (a) (i) tk) rfl (fun i0 i1 tk => ?_) rfl ⟨rfl, rfl, rfl, rfl, rfl, rfl⟩
  show buildC _ i0 i1 tk = _
  unfold buildC
  rw [h0]
  show some _ = _
  rw [h1, h2, h3]

theorem andi (d : BitVec 5) (a : BitVec 5) (i : BitVec 14) (tok : Option Tok) : Statement (.andi d a i tok) := by
  have h0 : (encodeFirst (.andi d a i tok)).extractLsb' 24 8 = 0x31#8 := up (up (up it))
  have h1 : (encodeFirst (.andi d a i tok)).extractLsb' 19 5 = d := up (up (lo it))
  have h2 : (encodeFirst (.andi d a i tok)).extractLsb' 14 5 = a := up (lo it)
  have h3 : (encodeFirst (.andi d a i tok)).extractLsb' 0 14 = i := lo it
  refine plain _ .c (fun tk => .andi (d) (a) (i) tk) rfl (fun i0 i1 tk => ?_) rfl ⟨rfl, rfl, rfl, rfl, rfl, rfl⟩
  show buildC _ i0 i1 tk = _
  unfold buildC
  rw [h0]
  show some _ = _
  rw [h1, h2, h3]

theorem ori (d : BitVec 5) (a : BitVec 5) (i : BitVec 14) (tok : Option Tok) : Statement (.ori d a i tok) := by
  have h0 : (encodeFirst (.ori d a i tok)).extractLsb' 24 8 = 0x32#8 := up (up (up it))
  have h1 : (encodeFirst (.ori d a i tok)).extractLsb' 19 5 = d := up (up (lo it))
  have h2 : (encodeFirst (.ori d a i tok)).extractLsb' 14 5 = a := up (lo it)
  have h3 : (encodeFirst (.ori d a i tok)).extractLsb' 0 14 = i := lo it
  refine plain _ .c (fun tk => .ori (d) (a) (i) tk) rfl (fun i0 i1 tk => ?_) rfl ⟨rfl, rfl, rfl, rfl, rfl, rfl⟩
  show buildC _ i0 i1 tk = _
  unfold buildC
  rw [h0]
  show some _ = _
  rw [h1, h2, h3]

theorem xori (d : BitVec 5) (a : BitVec 5) (i : BitVec 14) (tok : Option Tok) : Statement (.xori d a i tok) := by
  have h0 : (encodeFirst (.xori d a i tok)).extractLsb' 24 8 = 0x33#8 := up (up (up it))
  have h1 : (encodeFirst (.xori d a i tok)).extractLsb' 19 5 = d := up (up (lo it))
  have h2 : (encodeFirst (.xori d a i tok)).extractLsb' 14 5 = a := up (lo it)
  have h3 : (encodeFirst (.xori d a i tok)).extractLsb' 0 14 = i := lo it
  refine plain _ .c (fun tk => .xori (d) (a) (i) tk) rfl (fun i0 i1 tk => ?_) rfl ⟨rfl, rfl, rfl, rfl, rfl, rfl⟩
  show buildC _ i0 i1 tk = _
  unfold buildC
  rw [h0]
  show some _ = _
  rw [h1, h2, h3]

theorem slli (d : BitVec 5) (a : BitVec 5) (i : BitVec 14) (tok : Option Tok) : Statement (.slli d a i tok) := by
  have h0 : (encodeFirst (.slli d a i tok)).extractLsb' 24 8 = 0x34#8 := up (up (up it))
  have h1 : (encodeFirst (.slli d a i tok)).extractLsb' 19 5 = d := up (up (lo it))
  have h2 : (encodeFirst (.slli d a i tok)).extractLsb' 14 5 = a := up (lo it)
  have h3 : (encodeFirst (.slli d a i tok)).extractLsb' 0 14 = i := lo it
  refine plain _ .c (fun tk => .slli (d) (a) (i) tk) rfl (fun i0 i1 tk => ?_) rfl ⟨rfl, rfl, rfl, rfl, rfl, rfl⟩
  show buildC _ i0 i1 tk = _
  unfold buildC
  rw [h0]
  show some _ = _
  rw [h1, h2, h3]

theorem srli (d : BitVec 5) (a : BitVec 5) (i : BitVec 14) (tok : Option Tok) : Statement (.srli d a i tok) := by
  have h0 : (encodeFirst (.srli d a i tok)).extractLsb' 24 8 = 0x35#8 := up (up (up it))
  have h1 : (encodeFirst (.srli d a i tok)).extractLsb' 19 5 = d := up (up (lo it))
  have h2 : (encodeFirst (.srli d a i tok)).extractLsb' 14 5 = a := up (lo it)
  have h3 : (encodeFirst (.srli d a i tok)).extractLsb' 0 14 = i := lo it
  refine plain _ .c (fun tk => .srli (d) (a) (i) tk) rfl (fun i0 i1 tk => ?_) rfl ⟨rfl, rfl, rfl, rfl, rfl, rfl⟩
  show buildC _ i0 i1 tk = _
  unfold buildC
  rw [h0]
  show some _ = _
  rw [h1, h2, h3]

theorem srai (d : BitVec 5) (a : BitVec 5) (i : BitVec 14) (tok : Option Tok) : Statement (.srai d a i tok) := by
  have h0 : (encodeFirst (.srai d a i tok)).extractLsb' 24 8 = 0x36#8 := up (up (up it))
  have h1 : (encodeFirst (.srai d a i tok)).extractLsb' 19 5 = d := up (up (lo it))
  have h2 : (encodeFirst (.srai d a i tok)).extractLsb' 14 5 = a := up (lo it)
  have h3 : (encodeFirst (.srai d a i tok)).extractLsb' 0 14 = i := lo it
  refine plain _ .c (fun tk => .srai (d) (a) (i) tk) rfl (fun i0 i1 tk => ?_) rfl ⟨rfl, rfl, rfl, rfl, rfl, rfl⟩
  show buildC _ i0 i1 tk = _
  unfold buildC
  rw [h0]
  show some _ = _
  rw [h1, h2, h3]

theorem roli (d : BitVec 5) (a : BitVec 5) (i : BitVec 14) (tok : Option Tok) : Statement (.roli d a i tok) := by
  have h0 : (encodeFirst (.roli d a i tok)).extractLsb' 24 8 = 0x37#8 := up (up (up it))
  have h1 : (encodeFirst (.roli d a i tok)).extractLsb' 19 5 = d := up (up (lo it))
  have h2 : (encodeFirst (.roli d a i tok)).extractLsb' 14 5 = a := up (lo it)
  have h3 : (encodeFirst (.roli d a i tok)).extractLsb' 0 14 = i := lo it
  refine plain _ .c (fun tk => .roli (d) (a) (i) tk) rfl (fun i0 i1 tk => ?_) rfl ⟨rfl, rfl, rfl, rfl, rfl, rfl⟩
  show buildC _ i0 i1 tk = _
  unfold buildC
  rw [h0]
  show some _ = _
  rw [h1, h2, h3]

theorem seqi (d : BitVec 5) (a : BitVec 5) (i : BitVec 14) (tok : Option Tok) : Statement (.seqi d a i tok) := by
  have h0 : (encodeFirst (.seqi d a i tok)).extractLsb' 24 8 = 0x38#8 := up (up (up it))
  have h1 : (encodeFirst (.seqi d a i tok)).extractLsb' 19 5 = d := up (up (lo it))
  have h2 : (encodeFirst (.seqi d a i tok)).extractLsb' 14 5 = a := up (lo it)
  have h3 : (encodeFirst (.seqi d a i tok)).extractLsb' 0 14 = i := lo it
  refine plain _ .c (fun tk => .seqi (d) (a) (i) tk) rfl (fun i0 i1 tk => ?_) rfl ⟨rfl, rfl, rfl, rfl, rfl, rfl⟩
  show buildC _ i0 i1 tk = _
  unfold buildC
  rw [h0]
  show some _ = _
  rw [h1, h2, h3]

theorem sltiI (d : BitVec 5) (a : BitVec 5) (i : BitVec 14) (tok : Option Tok) : Statement (.sltiI d a i tok) := by
  have h0 : (encodeFirst (.sltiI d a i tok)).extractLsb' 24 8 = 0x39#8 := up (up (up it))
  have h1 : (encodeFirst (.sltiI d a i tok)).extractLsb' 19 5 = d := up (up (lo it))
  have h2 : (encodeFirst (.sltiI d a i tok)).extractLsb' 14 5 = a := up (lo it)
  have h3 : (encodeFirst (.sltiI d a i tok)).extractLsb' 0 14 = i := lo it
  refine plain _ .c (fun tk => .sltiI (d) (a) (i) tk) rfl (fun i0 i1 tk => ?_) rfl ⟨rfl, rfl, rfl, rfl, rfl, rfl⟩
  show buildC _ i0 i1 tk = _
  unfold buildC
  rw [h0]
  show some _ = _
  rw [h1, h2, h3]

theorem sltiN (d : BitVec 5) (a : BitVec 5) (i : BitVec 14) (tok : Option Tok) : Statement (.sltiN d a i tok) := by
  have h0 : (encodeFirst (.sltiN d a i tok)).extractLsb' 24 8 = 0x3A#8 := up (up (up it))
  have h1 : (encodeFirst (.sltiN d a i tok)).extractLsb' 19 5 = d := up (up (lo it))
  have h2 : (encodeFirst (.sltiN d a i tok)).extractLsb' 14 5 = a := up (lo it)
  have h3 : (encodeFirst (.sltiN d a i tok)).extractLsb' 0 14 = i := lo it
  refine plain _ .c (fun tk => .sltiN (d) (a) (i) tk) rfl (fun i0 i1 tk => ?_) rfl ⟨rfl, rfl, rfl, rfl, rfl, rfl⟩
  show buildC _ i0 i1 tk = _
  unfold buildC
  rw [h0]
  show some _ = _
  rw [h1, h2, h3]

theorem muli (d : BitVec 5) (a : BitVec 5) (i : BitVec 14) (tok : Option Tok) : Statement (.muli d a i tok) := by
  have h0 : (encodeFirst (.muli d a i tok)).extractLsb' 24 8 = 0x3B#8 := up (up (up it))
  have h1 : (encodeFirst (.muli d a i tok)).extractLsb' 19 5 = d := up (up (lo it))
  have h2 : (encodeFirst (.muli d a i tok)).extractLsb' 14 5 = a := up (lo it)
  have h3 : (encodeFirst (.muli d a i tok)).extractLsb' 0 14 = i := lo it
  refine plain _ .c (fun tk => .muli (d) (a) (i) tk) rfl (fun i0 i1 tk => ?_) rfl ⟨rfl, rfl, rfl, rfl, rfl, rfl⟩
  show buildC _ i0 i1 tk = _
  unfold buildC
  rw [h0]
  show some _ = _
  rw [h1, h2, h3]

theorem li (d : BitVec 5) (lit : Lit) (tok : Option Tok) : Statement (.li d lit tok) := by
  have h0 : (encodeFirst (.li d lit tok)).extractLsb' 24 8 = 0x3C#8 := up (up (up it))
  have h1 : (encodeFirst (.li d lit tok)).extractLsb' 19 5 = d := up (up (lo it))
  have h2 : (encodeFirst (.li d lit tok)).extractLsb' 18 1 = lit.wide := up (lo it)
  have h3 : (encodeFirst (.li d lit tok)).extractLsb' 0 18 = 0#18 := lo it
  have hb : ∀ i0 i1 tk, build .c (encodeFirst (.li d lit tok)) i0 i1 tk = some (.li (d) (Lit.ofSlots (lit.wide) i0 i1) tk) := by
    intro i0 i1 tk
    show buildC _ i0 i1 tk = _
    unfold buildC
    rw [h0]
    exact (if_pos h3).trans (by rw [h1, h2])
  cases lit <;> exact withImms _ .c _ rfl hb rfl ⟨rfl, rfl, rfl, rfl, rfl⟩ rfl

theorem lip (d : BitVec 5) (lit : Lit) (tok : Option Tok) : Statement (.lip d lit tok) := by
  have h0 : (encodeFirst (.lip d lit tok)).extractLsb' 24 8 = 0x3D#8 := up (up (up it))
  have h1 : (encodeFirst (.lip d lit tok)).extractLsb' 19 5 = d := up (up (lo it))
  have h2 : (encodeFirst (.lip d lit tok)).extractLsb' 18 1 = lit.wide := up (lo it)
  have h3 : (encodeFirst (.lip d lit tok)).extractLsb' 0 18 = 0#18 := lo it
  have hb : ∀ i0 i1 tk, build .c (encodeFirst (.lip d lit tok)) i0 i1 tk = some (.lip (d) (Lit.ofSlots (lit.wide) i0 i1) tk) := by
    intro i0 i1 tk
    show buildC _ i0 i1 tk = _
    unfold buildC
    rw [h0]
    exact (if_pos h3).trans (by rw [h1, h2])
  cases lit <;> exact withImms _ .c _ rfl hb rfl ⟨rfl, rfl, rfl, rfl, rfl⟩ rfl

theorem fadd (d : BitVec 5) (a : BitVec 5) (b : BitVec 5) (r : BitVec 3) (t : BitVec 1) (tok : Option Tok) : Statement (.fadd d a b r t tok) := by
  have h0 : (encodeFirst (.fadd d a b r t tok)).extractLsb' 24 8 = 0x40#8 := up (up (up (up (up (up it)))))
  have h1 : (encodeFirst (.fadd d a b r t tok)).extractLsb' 19 5 = d := up (up (up (up (up (lo it)))))
  have h2 : (encodeFirst (.fadd d a b r t tok)).extractLsb' 14 5 = a := up (up (up (up (lo it))))
  have h3 : (encodeFirst (.fadd d a b r t tok)).extractLsb' 9 5 = b := up (up (up (lo it)))
  have h4 : (encodeFirst (.fadd d a b r t tok)).extractLsb' 6 3 = r := up (up (lo it))
  have h5 : (encodeFirst (.fadd d a b r t tok)).extractLsb' 5 1 = t := up (lo it)
  have h6 : (encodeFirst (.fadd d a b r t tok)).extractLsb' 0 5 = 0#5 := lo it
  refine plain _ .c (fun tk => .fadd (d) (a) (b) (r) (t) tk) rfl (fun i0 i1 tk => ?_) rfl ⟨rfl, rfl, rfl, rfl, rfl, rfl⟩
  show buildC _ i0 i1 tk = _
  unfold buildC
  rw [h0]
  exact (if_pos h6).trans (by rw [h1, h2, h3, h4, h5])

theorem fsub (d : BitVec 5) (a : BitVec 5) (b : BitVec 5) (r : BitVec 3) (t : BitVec 1) (tok : Option Tok) : Statement (.fsub d a b r t tok) := by
  have h0 : (encodeFirst (.fsub d a b r t tok)).extractLsb' 24 8 = 0x41#8 := up (up (up (up (up (up it)))))
  have h1 : (encodeFirst (.fsub d a b r t tok)).extractLsb' 19 5 = d := up (up (up (up (up (lo it)))))
  have h2 : (encodeFirst (.fsub d a b r t tok)).extractLsb' 14 5 = a := up (up (up (up (lo it))))
  have h3 : (encodeFirst (.fsub d a b r t tok)).extractLsb' 9 5 = b := up (up (up (lo it)))
  have h4 : (encodeFirst (.fsub d a b r t tok)).extractLsb' 6 3 = r := up (up (lo it))
  have h5 : (encodeFirst (.fsub d a b r t tok)).extractLsb' 5 1 = t := up (lo it)
  have h6 : (encodeFirst (.fsub d a b r t tok)).extractLsb' 0 5 = 0#5 := lo it
  refine plain _ .c (fun tk => .fsub (d) (a) (b) (r) (t) tk) rfl (fun i0 i1 tk => ?_) rfl ⟨rfl, rfl, rfl, rfl, rfl, rfl⟩
  show buildC _ i0 i1 tk = _
  unfold buildC
  rw [h0]
  exact (if_pos h6).trans (by rw [h1, h2, h3, h4, h5])

theorem fmul (d : BitVec 5) (a : BitVec 5) (b : BitVec 5) (r : BitVec 3) (t : BitVec 1) (tok : Option Tok) : Statement (.fmul d a b r t tok) := by
  have h0 : (encodeFirst (.fmul d a b r t tok)).extractLsb' 24 8 = 0x42#8 := up (up (up (up (up (up it)))))
  have h1 : (encodeFirst (.fmul d a b r t tok)).extractLsb' 19 5 = d := up (up (up (up (up (lo it)))))
  have h2 : (encodeFirst (.fmul d a b r t tok)).extractLsb' 14 5 = a := up (up (up (up (lo it))))
  have h3 : (encodeFirst (.fmul d a b r t tok)).extractLsb' 9 5 = b := up (up (up (lo it)))
  have h4 : (encodeFirst (.fmul d a b r t tok)).extractLsb' 6 3 = r := up (up (lo it))
  have h5 : (encodeFirst (.fmul d a b r t tok)).extractLsb' 5 1 = t := up (lo it)
  have h6 : (encodeFirst (.fmul d a b r t tok)).extractLsb' 0 5 = 0#5 := lo it
  refine plain _ .c (fun tk => .fmul (d) (a) (b) (r) (t) tk) rfl (fun i0 i1 tk => ?_) rfl ⟨rfl, rfl, rfl, rfl, rfl, rfl⟩
  show buildC _ i0 i1 tk = _
  unfold buildC
  rw [h0]
  exact (if_pos h6).trans (by rw [h1, h2, h3, h4, h5])

theorem ffma (d : BitVec 5) (a : BitVec 5) (b : BitVec 5) (r : BitVec 3) (t : BitVec 1) (c : BitVec 5) (tok : Option Tok) : Statement (.ffma d a b r t c tok) := by
  have h0 : (encodeFirst (.ffma d a b r t c tok)).extractLsb' 24 8 = 0x43#8 := up (up (up (up (up (up it)))))
  have h1 : (encodeFirst (.ffma d a b r t c tok)).extractLsb' 19 5 = d := up (up (up (up (up (lo it)))))
  have h2 : (encodeFirst (.ffma d a b r t c tok)).extractLsb' 14 5 = a := up (up (up (up (lo it))))
  have h3 : (encodeFirst (.ffma d a b r t c tok)).extractLsb' 9 5 = b := up (up (up (lo it)))
  have h4 : (encodeFirst (.ffma d a b r t c tok)).extractLsb' 6 3 = r := up (up (lo it))
  have h5 : (encodeFirst (.ffma d a b r t c tok)).extractLsb' 5 1 = t := up (lo it)
  have h6 : (encodeFirst (.ffma d a b r t c tok)).extractLsb' 0 5 = c := lo it
  refine plain _ .c (fun tk => .ffma (d) (a) (b) (r) (t) (c) tk) rfl (fun i0 i1 tk => ?_) rfl ⟨rfl, rfl, rfl, rfl, rfl, rfl⟩
  show buildC _ i0 i1 tk = _
  unfold buildC
  rw [h0]
  show some _ = _
  rw [h1, h2, h3, h4, h5, h6]

theorem fdiv (d : BitVec 5) (a : BitVec 5) (b : BitVec 5) (r : BitVec 3) (t : BitVec 1) (tok : Option Tok) : Statement (.fdiv d a b r t tok) := by
  have h0 : (encodeFirst (.fdiv d a b r t tok)).extractLsb' 24 8 = 0x44#8 := up (up (up (up (up (up it)))))
  have h1 : (encodeFirst (.fdiv d a b r t tok)).extractLsb' 19 5 = d := up (up (up (up (up (lo it)))))
  have h2 : (encodeFirst (.fdiv d a b r t tok)).extractLsb' 14 5 = a := up (up (up (up (lo it))))
  have h3 : (encodeFirst (.fdiv d a b r t tok)).extractLsb' 9 5 = b := up (up (up (lo it)))
  have h4 : (encodeFirst (.fdiv d a b r t tok)).extractLsb' 6 3 = r := up (up (lo it))
  have h5 : (encodeFirst (.fdiv d a b r t tok)).extractLsb' 5 1 = t := up (lo it)
  have h6 : (encodeFirst (.fdiv d a b r t tok)).extractLsb' 0 5 = 0#5 := lo it
  refine plain _ .c (fun tk => .fdiv (d) (a) (b) (r) (t) tk) rfl (fun i0 i1 tk => ?_) rfl ⟨rfl, rfl, rfl, rfl, rfl, rfl⟩
  show buildC _ i0 i1 tk = _
  unfold buildC
  rw [h0]
  exact (if_pos h6).trans (by rw [h1, h2, h3, h4, h5])

theorem fsqrt (d : BitVec 5) (a : BitVec 5) (r : BitVec 3) (t : BitVec 1) (tok : Option Tok) : Statement (.fsqrt d a r t tok) := by
  have h0 : (encodeFirst (.fsqrt d a r t tok)).extractLsb' 24 8 = 0x45#8 := up (up (up (up (up (up it)))))
  have h1 : (encodeFirst (.fsqrt d a r t tok)).extractLsb' 19 5 = d := up (up (up (up (up (lo it)))))
  have h2 : (encodeFirst (.fsqrt d a r t tok)).extractLsb' 14 5 = a := up (up (up (up (lo it))))
  have h3 : (encodeFirst (.fsqrt d a r t tok)).extractLsb' 6 3 = r := up (up (lo it))
  have h4 : (encodeFirst (.fsqrt d a r t tok)).extractLsb' 5 1 = t := up (lo it)
  have h5 : (encodeFirst (.fsqrt d a r t tok)).extractLsb' 9 5 = 0#5 := up (up (up (lo it)))
  have h6 : (encodeFirst (.fsqrt d a r t tok)).extractLsb' 0 5 = 0#5 := lo it
  refine plain _ .c (fun tk => .fsqrt (d) (a) (r) (t) tk) rfl (fun i0 i1 tk => ?_) rfl ⟨rfl, rfl, rfl, rfl, rfl, rfl⟩
  show buildC _ i0 i1 tk = _
  unfold buildC
  rw [h0]
  exact (if_pos ⟨h5, h6⟩).trans (by rw [h1, h2, h3, h4])

theorem fmin (d : BitVec 5) (a : BitVec 5) (b : BitVec 5) (t : BitVec 1) (tok : Option Tok) : Statement (.fmin d a b t tok) := by
  have h0 : (encodeFirst (.fmin d a b t tok)).extractLsb' 24 8 = 0x46#8 := up (up (up (up (up (up it)))))
  have h1 : (encodeFirst (.fmin d a b t tok)).extractLsb' 19 5 = d := up (up (up (up (up (lo it)))))
  have h2 : (encodeFirst (.fmin d a b t tok)).extractLsb' 14 5 = a := up (up (up (up (lo it))))
  have h3 : (encodeFirst (.fmin d a b t tok)).extractLsb' 9 5 = b := up (up (up (lo it)))
  have h4 : (encodeFirst (.fmin d a b t tok)).extractLsb' 5 1 = t := up (lo it)
  have h5 : (encodeFirst (.fmin d a b t tok)).extractLsb' 6 3 = 0#3 := up (up (lo it))
  have h6 : (encodeFirst (.fmin d a b t tok)).extractLsb' 0 5 = 0#5 := lo it
  refine plain _ .c (fun tk => .fmin (d) (a) (b) (t) tk) rfl (fun i0 i1 tk => ?_) rfl ⟨rfl, rfl, rfl, rfl, rfl, rfl⟩
  show buildC _ i0 i1 tk = _
  unfold buildC
  rw [h0]
  exact (if_pos ⟨h5, h6⟩).trans (by rw [h1, h2, h3, h4])

theorem fmax (d : BitVec 5) (a : BitVec 5) (b : BitVec 5) (t : BitVec 1) (tok : Option Tok) : Statement (.fmax d a b t tok) := by
  have h0 : (encodeFirst (.fmax d a b t tok)).extractLsb' 24 8 = 0x47#8 := up (up (up (up (up (up it)))))
  have h1 : (encodeFirst (.fmax d a b t tok)).extractLsb' 19 5 = d := up (up (up (up (up (lo it)))))
  have h2 : (encodeFirst (.fmax d a b t tok)).extractLsb' 14 5 = a := up (up (up (up (lo it))))
  have h3 : (encodeFirst (.fmax d a b t tok)).extractLsb' 9 5 = b := up (up (up (lo it)))
  have h4 : (encodeFirst (.fmax d a b t tok)).extractLsb' 5 1 = t := up (lo it)
  have h5 : (encodeFirst (.fmax d a b t tok)).extractLsb' 6 3 = 0#3 := up (up (lo it))
  have h6 : (encodeFirst (.fmax d a b t tok)).extractLsb' 0 5 = 0#5 := lo it
  refine plain _ .c (fun tk => .fmax (d) (a) (b) (t) tk) rfl (fun i0 i1 tk => ?_) rfl ⟨rfl, rfl, rfl, rfl, rfl, rfl⟩
  show buildC _ i0 i1 tk = _
  unfold buildC
  rw [h0]
  exact (if_pos ⟨h5, h6⟩).trans (by rw [h1, h2, h3, h4])

theorem feq (d : BitVec 5) (a : BitVec 5) (b : BitVec 5) (t : BitVec 1) (tok : Option Tok) : Statement (.feq d a b t tok) := by
  have h0 : (encodeFirst (.feq d a b t tok)).extractLsb' 24 8 = 0x48#8 := up (up (up (up (up (up it)))))
  have h1 : (encodeFirst (.feq d a b t tok)).extractLsb' 19 5 = d := up (up (up (up (up (lo it)))))
  have h2 : (encodeFirst (.feq d a b t tok)).extractLsb' 14 5 = a := up (up (up (up (lo it))))
  have h3 : (encodeFirst (.feq d a b t tok)).extractLsb' 9 5 = b := up (up (up (lo it)))
  have h4 : (encodeFirst (.feq d a b t tok)).extractLsb' 5 1 = t := up (lo it)
  have h5 : (encodeFirst (.feq d a b t tok)).extractLsb' 6 3 = 0#3 := up (up (lo it))
  have h6 : (encodeFirst (.feq d a b t tok)).extractLsb' 0 5 = 0#5 := lo it
  refine plain _ .c (fun tk => .feq (d) (a) (b) (t) tk) rfl (fun i0 i1 tk => ?_) rfl ⟨rfl, rfl, rfl, rfl, rfl, rfl⟩
  show buildC _ i0 i1 tk = _
  unfold buildC
  rw [h0]
  exact (if_pos ⟨h5, h6⟩).trans (by rw [h1, h2, h3, h4])

theorem flt (d : BitVec 5) (a : BitVec 5) (b : BitVec 5) (t : BitVec 1) (tok : Option Tok) : Statement (.flt d a b t tok) := by
  have h0 : (encodeFirst (.flt d a b t tok)).extractLsb' 24 8 = 0x49#8 := up (up (up (up (up (up it)))))
  have h1 : (encodeFirst (.flt d a b t tok)).extractLsb' 19 5 = d := up (up (up (up (up (lo it)))))
  have h2 : (encodeFirst (.flt d a b t tok)).extractLsb' 14 5 = a := up (up (up (up (lo it))))
  have h3 : (encodeFirst (.flt d a b t tok)).extractLsb' 9 5 = b := up (up (up (lo it)))
  have h4 : (encodeFirst (.flt d a b t tok)).extractLsb' 5 1 = t := up (lo it)
  have h5 : (encodeFirst (.flt d a b t tok)).extractLsb' 6 3 = 0#3 := up (up (lo it))
  have h6 : (encodeFirst (.flt d a b t tok)).extractLsb' 0 5 = 0#5 := lo it
  refine plain _ .c (fun tk => .flt (d) (a) (b) (t) tk) rfl (fun i0 i1 tk => ?_) rfl ⟨rfl, rfl, rfl, rfl, rfl, rfl⟩
  show buildC _ i0 i1 tk = _
  unfold buildC
  rw [h0]
  exact (if_pos ⟨h5, h6⟩).trans (by rw [h1, h2, h3, h4])

theorem fle (d : BitVec 5) (a : BitVec 5) (b : BitVec 5) (t : BitVec 1) (tok : Option Tok) : Statement (.fle d a b t tok) := by
  have h0 : (encodeFirst (.fle d a b t tok)).extractLsb' 24 8 = 0x4A#8 := up (up (up (up (up (up it)))))
  have h1 : (encodeFirst (.fle d a b t tok)).extractLsb' 19 5 = d := up (up (up (up (up (lo it)))))
  have h2 : (encodeFirst (.fle d a b t tok)).extractLsb' 14 5 = a := up (up (up (up (lo it))))
  have h3 : (encodeFirst (.fle d a b t tok)).extractLsb' 9 5 = b := up (up (up (lo it)))
  have h4 : (encodeFirst (.fle d a b t tok)).extractLsb' 5 1 = t := up (lo it)
  have h5 : (encodeFirst (.fle d a b t tok)).extractLsb' 6 3 = 0#3 := up (up (lo it))
  have h6 : (encodeFirst (.fle d a b t tok)).extractLsb' 0 5 = 0#5 := lo it
  refine plain _ .c (fun tk => .fle (d) (a) (b) (t) tk) rfl (fun i0 i1 tk => ?_) rfl ⟨rfl, rfl, rfl, rfl, rfl, rfl⟩
  show buildC _ i0 i1 tk = _
  unfold buildC
  rw [h0]
  exact (if_pos ⟨h5, h6⟩).trans (by rw [h1, h2, h3, h4])

theorem fcvt (d : BitVec 5) (a : BitVec 5) (k : BitVec 5) (r : BitVec 3) (t : BitVec 1) (tok : Option Tok) : Statement (.fcvt d a k r t tok) := by
  have h0 : (encodeFirst (.fcvt d a k r t tok)).extractLsb' 24 8 = 0x4B#8 := up (up (up (up (up (up it)))))
  have h1 : (encodeFirst (.fcvt d a k r t tok)).extractLsb' 19 5 = d := up (up (up (up (up (lo it)))))
  have h2 : (encodeFirst (.fcvt d a k r t tok)).extractLsb' 14 5 = a := up (up (up (up (lo it))))
  have h3 : (encodeFirst (.fcvt d a k r t tok)).extractLsb' 9 5 = k := up (up (up (lo it)))
  have h4 : (encodeFirst (.fcvt d a k r t tok)).extractLsb' 6 3 = r := up (up (lo it))
  have h5 : (encodeFirst (.fcvt d a k r t tok)).extractLsb' 5 1 = t := up (lo it)
  have h6 : (encodeFirst (.fcvt d a k r t tok)).extractLsb' 0 5 = 0#5 := lo it
  refine plain _ .c (fun tk => .fcvt (d) (a) (k) (r) (t) tk) rfl (fun i0 i1 tk => ?_) rfl ⟨rfl, rfl, rfl, rfl, rfl, rfl⟩
  show buildC _ i0 i1 tk = _
  unfold buildC
  rw [h0]
  exact (if_pos h6).trans (by rw [h1, h2, h3, h4, h5])

theorem fneg (d : BitVec 5) (a : BitVec 5) (t : BitVec 1) (tok : Option Tok) : Statement (.fneg d a t tok) := by
  have h0 : (encodeFirst (.fneg d a t tok)).extractLsb' 24 8 = 0x4C#8 := up (up (up (up (up it))))
  have h1 : (encodeFirst (.fneg d a t tok)).extractLsb' 19 5 = d := up (up (up (up (lo it))))
  have h2 : (encodeFirst (.fneg d a t tok)).extractLsb' 14 5 = a := up (up (up (lo it)))
  have h3 : (encodeFirst (.fneg d a t tok)).extractLsb' 5 1 = t := up (lo it)
  have h4 : (encodeFirst (.fneg d a t tok)).extractLsb' 6 8 = 0#8 := up (up (lo it))
  have h5 : (encodeFirst (.fneg d a t tok)).extractLsb' 0 5 = 0#5 := lo it
  refine plain _ .c (fun tk => .fneg (d) (a) (t) tk) rfl (fun i0 i1 tk => ?_) rfl ⟨rfl, rfl, rfl, rfl, rfl, rfl⟩
  show buildC _ i0 i1 tk = _
  unfold buildC
  rw [h0]
  exact (if_pos ⟨h4, h5⟩).trans (by rw [h1, h2, h3])

theorem fabs (d : BitVec 5) (a : BitVec 5) (t : BitVec 1) (tok : Option Tok) : Statement (.fabs d a t tok) := by
  have h0 : (encodeFirst (.fabs d a t tok)).extractLsb' 24 8 = 0x4D#8 := up (up (up (up (up it))))
  have h1 : (encodeFirst (.fabs d a t tok)).extractLsb' 19 5 = d := up (up (up (up (lo it))))
  have h2 : (encodeFirst (.fabs d a t tok)).extractLsb' 14 5 = a := up (up (up (lo it)))
  have h3 : (encodeFirst (.fabs d a t tok)).extractLsb' 5 1 = t := up (lo it)
  have h4 : (encodeFirst (.fabs d a t tok)).extractLsb' 6 8 = 0#8 := up (up (lo it))
  have h5 : (encodeFirst (.fabs d a t tok)).extractLsb' 0 5 = 0#5 := lo it
  refine plain _ .c (fun tk => .fabs (d) (a) (t) tk) rfl (fun i0 i1 tk => ?_) rfl ⟨rfl, rfl, rfl, rfl, rfl, rfl⟩
  show buildC _ i0 i1 tk = _
  unfold buildC
  rw [h0]
  exact (if_pos ⟨h4, h5⟩).trans (by rw [h1, h2, h3])

theorem beq (a : BitVec 5) (b : BitVec 5) (j : BitVec 4) (off : BrOff) (tok : Option Tok) : Statement (.beq a b j off tok) := by
  have h0 : (encodeFirst (.beq a b j off tok)).extractLsb' 24 8 = 0x50#8 := up (up (up (up (up it))))
  have h1 : (encodeFirst (.beq a b j off tok)).extractLsb' 19 5 = a := up (up (up (up (lo it))))
  have h2 : (encodeFirst (.beq a b j off tok)).extractLsb' 14 5 = b := up (up (up (lo it)))
  have h3 : (encodeFirst (.beq a b j off tok)).extractLsb' 10 4 = j := up (up (lo it))
  have h4 : (encodeFirst (.beq a b j off tok)).extractLsb' 9 1 = off.bit := up (lo it)
  have h5 : (encodeFirst (.beq a b j off tok)).extractLsb' 0 9 = off.low := lo it
  have hb : ∀ i0 i1 tk, build .c (encodeFirst (.beq a b j off tok)) i0 i1 tk = some (.beq (a) (b) (j) (BrOff.ofSlots (off.bit) (off.low) i0) tk) := by
    intro i0 i1 tk
    show buildC _ i0 i1 tk = _
    unfold buildC
    rw [h0]
    exact (if_pos (by rw [h4, h5]; cases off <;> first | exact .inl rfl | exact .inr rfl)).trans (by rw [h1, h2, h3, h4, h5])
  cases off <;> exact withImms _ .c _ rfl hb rfl ⟨rfl, rfl, rfl, rfl, rfl⟩ rfl

theorem bne (a : BitVec 5) (b : BitVec 5) (j : BitVec 4) (off : BrOff) (tok : Option Tok) : Statement (.bne a b j off tok) := by
  have h0 : (encodeFirst (.bne a b j off tok)).extractLsb' 24 8 = 0x51#8 := up (up (up (up (up it))))
  have h1 : (encodeFirst (.bne a b j off tok)).extractLsb' 19 5 = a := up (up (up (up (lo it))))
  have h2 : (encodeFirst (.bne a b j off tok)).extractLsb' 14 5 = b := up (up (up (lo it)))
  have h3 : (encodeFirst (.bne a b j off tok)).extractLsb' 10 4 = j := up (up (lo it))
  have h4 : (encodeFirst (.bne a b j off tok)).extractLsb' 9 1 = off.bit := up (lo it)
  have h5 : (encodeFirst (.bne a b j off tok)).extractLsb' 0 9 = off.low := lo it
  have hb : ∀ i0 i1 tk, build .c (encodeFirst (.bne a b j off tok)) i0 i1 tk = some (.bne (a) (b) (j) (BrOff.ofSlots (off.bit) (off.low) i0) tk) := by
    intro i0 i1 tk
    show buildC _ i0 i1 tk = _
    unfold buildC
    rw [h0]
    exact (if_pos (by rw [h4, h5]; cases off <;> first | exact .inl rfl | exact .inr rfl)).trans (by rw [h1, h2, h3, h4, h5])
  cases off <;> exact withImms _ .c _ rfl hb rfl ⟨rfl, rfl, rfl, rfl, rfl⟩ rfl

theorem bltI (a : BitVec 5) (b : BitVec 5) (j : BitVec 4) (off : BrOff) (tok : Option Tok) : Statement (.bltI a b j off tok) := by
  have h0 : (encodeFirst (.bltI a b j off tok)).extractLsb' 24 8 = 0x52#8 := up (up (up (up (up it))))
  have h1 : (encodeFirst (.bltI a b j off tok)).extractLsb' 19 5 = a := up (up (up (up (lo it))))
  have h2 : (encodeFirst (.bltI a b j off tok)).extractLsb' 14 5 = b := up (up (up (lo it)))
  have h3 : (encodeFirst (.bltI a b j off tok)).extractLsb' 10 4 = j := up (up (lo it))
  have h4 : (encodeFirst (.bltI a b j off tok)).extractLsb' 9 1 = off.bit := up (lo it)
  have h5 : (encodeFirst (.bltI a b j off tok)).extractLsb' 0 9 = off.low := lo it
  have hb : ∀ i0 i1 tk, build .c (encodeFirst (.bltI a b j off tok)) i0 i1 tk = some (.bltI (a) (b) (j) (BrOff.ofSlots (off.bit) (off.low) i0) tk) := by
    intro i0 i1 tk
    show buildC _ i0 i1 tk = _
    unfold buildC
    rw [h0]
    exact (if_pos (by rw [h4, h5]; cases off <;> first | exact .inl rfl | exact .inr rfl)).trans (by rw [h1, h2, h3, h4, h5])
  cases off <;> exact withImms _ .c _ rfl hb rfl ⟨rfl, rfl, rfl, rfl, rfl⟩ rfl

theorem bltN (a : BitVec 5) (b : BitVec 5) (j : BitVec 4) (off : BrOff) (tok : Option Tok) : Statement (.bltN a b j off tok) := by
  have h0 : (encodeFirst (.bltN a b j off tok)).extractLsb' 24 8 = 0x53#8 := up (up (up (up (up it))))
  have h1 : (encodeFirst (.bltN a b j off tok)).extractLsb' 19 5 = a := up (up (up (up (lo it))))
  have h2 : (encodeFirst (.bltN a b j off tok)).extractLsb' 14 5 = b := up (up (up (lo it)))
  have h3 : (encodeFirst (.bltN a b j off tok)).extractLsb' 10 4 = j := up (up (lo it))
  have h4 : (encodeFirst (.bltN a b j off tok)).extractLsb' 9 1 = off.bit := up (lo it)
  have h5 : (encodeFirst (.bltN a b j off tok)).extractLsb' 0 9 = off.low := lo it
  have hb : ∀ i0 i1 tk, build .c (encodeFirst (.bltN a b j off tok)) i0 i1 tk = some (.bltN (a) (b) (j) (BrOff.ofSlots (off.bit) (off.low) i0) tk) := by
    intro i0 i1 tk
    show buildC _ i0 i1 tk = _
    unfold buildC
    rw [h0]
    exact (if_pos (by rw [h4, h5]; cases off <;> first | exact .inl rfl | exact .inr rfl)).trans (by rw [h1, h2, h3, h4, h5])
  cases off <;> exact withImms _ .c _ rfl hb rfl ⟨rfl, rfl, rfl, rfl, rfl⟩ rfl

theorem bgeI (a : BitVec 5) (b : BitVec 5) (j : BitVec 4) (off : BrOff) (tok : Option Tok) : Statement (.bgeI a b j off tok) := by
  have h0 : (encodeFirst (.bgeI a b j off tok)).extractLsb' 24 8 = 0x54#8 := up (up (up (up (up it))))
  have h1 : (encodeFirst (.bgeI a b j off tok)).extractLsb' 19 5 = a := up (up (up (up (lo it))))
  have h2 : (encodeFirst (.bgeI a b j off tok)).extractLsb' 14 5 = b := up (up (up (lo it)))
  have h3 : (encodeFirst (.bgeI a b j off tok)).extractLsb' 10 4 = j := up (up (lo it))
  have h4 : (encodeFirst (.bgeI a b j off tok)).extractLsb' 9 1 = off.bit := up (lo it)
  have h5 : (encodeFirst (.bgeI a b j off tok)).extractLsb' 0 9 = off.low := lo it
  have hb : ∀ i0 i1 tk, build .c (encodeFirst (.bgeI a b j off tok)) i0 i1 tk = some (.bgeI (a) (b) (j) (BrOff.ofSlots (off.bit) (off.low) i0) tk) := by
    intro i0 i1 tk
    show buildC _ i0 i1 tk = _
    unfold buildC
    rw [h0]
    exact (if_pos (by rw [h4, h5]; cases off <;> first | exact .inl rfl | exact .inr rfl)).trans (by rw [h1, h2, h3, h4, h5])
  cases off <;> exact withImms _ .c _ rfl hb rfl ⟨rfl, rfl, rfl, rfl, rfl⟩ rfl

theorem bgeN (a : BitVec 5) (b : BitVec 5) (j : BitVec 4) (off : BrOff) (tok : Option Tok) : Statement (.bgeN a b j off tok) := by
  have h0 : (encodeFirst (.bgeN a b j off tok)).extractLsb' 24 8 = 0x55#8 := up (up (up (up (up it))))
  have h1 : (encodeFirst (.bgeN a b j off tok)).extractLsb' 19 5 = a := up (up (up (up (lo it))))
  have h2 : (encodeFirst (.bgeN a b j off tok)).extractLsb' 14 5 = b := up (up (up (lo it)))
  have h3 : (encodeFirst (.bgeN a b j off tok)).extractLsb' 10 4 = j := up (up (lo it))
  have h4 : (encodeFirst (.bgeN a b j off tok)).extractLsb' 9 1 = off.bit := up (lo it)
  have h5 : (encodeFirst (.bgeN a b j off tok)).extractLsb' 0 9 = off.low := lo it
  have hb : ∀ i0 i1 tk, build .c (encodeFirst (.bgeN a b j off tok)) i0 i1 tk = some (.bgeN (a) (b) (j) (BrOff.ofSlots (off.bit) (off.low) i0) tk) := by
    intro i0 i1 tk
    show buildC _ i0 i1 tk = _
    unfold buildC
    rw [h0]
    exact (if_pos (by rw [h4, h5]; cases off <;> first | exact .inl rfl | exact .inr rfl)).trans (by rw [h1, h2, h3, h4, h5])
  cases off <;> exact withImms _ .c _ rfl hb rfl ⟨rfl, rfl, rfl, rfl, rfl⟩ rfl

theorem brx (a : BitVec 5) (j : BitVec 4) (tok : Option Tok) : Statement (.brx a j tok) := by
  have h0 : (encodeFirst (.brx a j tok)).extractLsb' 24 8 = 0x56#8 := up (up (up (up it)))
  have h1 : (encodeFirst (.brx a j tok)).extractLsb' 19 5 = a := up (up (up (lo it)))
  have h2 : (encodeFirst (.brx a j tok)).extractLsb' 10 4 = j := up (lo it)
  have h3 : (encodeFirst (.brx a j tok)).extractLsb' 14 5 = 0#5 := up (up (lo it))
  have h4 : (encodeFirst (.brx a j tok)).extractLsb' 0 10 = 0#10 := lo it
  refine plain _ .c (fun tk => .brx (a) (j) tk) rfl (fun i0 i1 tk => ?_) rfl ⟨rfl, rfl, rfl, rfl, rfl, rfl⟩
  show buildC _ i0 i1 tk = _
  unfold buildC
  rw [h0]
  exact (if_pos ⟨h3, h4⟩).trans (by rw [h1, h2])

theorem loop (a : BitVec 5) (j : BitVec 4) (off : BrOff) (tok : Option Tok) : Statement (.loop a j off tok) := by
  have h0 : (encodeFirst (.loop a j off tok)).extractLsb' 24 8 = 0x57#8 := up (up (up (up (up it))))
  have h1 : (encodeFirst (.loop a j off tok)).extractLsb' 19 5 = a := up (up (up (up (lo it))))
  have h2 : (encodeFirst (.loop a j off tok)).extractLsb' 10 4 = j := up (up (lo it))
  have h3 : (encodeFirst (.loop a j off tok)).extractLsb' 9 1 = off.bit := up (lo it)
  have h4 : (encodeFirst (.loop a j off tok)).extractLsb' 0 9 = off.low := lo it
  have h5 : (encodeFirst (.loop a j off tok)).extractLsb' 14 5 = 0#5 := up (up (up (lo it)))
  have hb : ∀ i0 i1 tk, build .c (encodeFirst (.loop a j off tok)) i0 i1 tk = some (.loop (a) (j) (BrOff.ofSlots (off.bit) (off.low) i0) tk) := by
    intro i0 i1 tk
    show buildC _ i0 i1 tk = _
    unfold buildC
    rw [h0]
    exact (if_pos ⟨h5, (by rw [h3, h4]; cases off <;> first | exact .inl rfl | exact .inr rfl)⟩).trans (by rw [h1, h2, h3, h4])
  cases off <;> exact withImms _ .c _ rfl hb rfl ⟨rfl, rfl, rfl, rfl, rfl⟩ rfl

theorem fold (j : BitVec 4) (tok : Option Tok) : Statement (.fold j tok) := by
  have h0 : (encodeFirst (.fold j tok)).extractLsb' 24 8 = 0x58#8 := up (up (up it))
  have h1 : (encodeFirst (.fold j tok)).extractLsb' 10 4 = j := up (lo it)
  have h2 : (encodeFirst (.fold j tok)).extractLsb' 14 10 = 0#10 := up (up (lo it))
  have h3 : (encodeFirst (.fold j tok)).extractLsb' 0 10 = 0#10 := lo it
  refine plain _ .c (fun tk => .fold (j) tk) rfl (fun i0 i1 tk => ?_) rfl ⟨rfl, rfl, rfl, rfl, rfl, rfl⟩
  show buildC _ i0 i1 tk = _
  unfold buildC
  rw [h0]
  exact (if_pos ⟨h2, h3⟩).trans (by rw [h1])

theorem join (j : BitVec 4) (tok : Option Tok) : Statement (.join j tok) := by
  have h0 : (encodeFirst (.join j tok)).extractLsb' 24 8 = 0x59#8 := up (up (up it))
  have h1 : (encodeFirst (.join j tok)).extractLsb' 10 4 = j := up (lo it)
  have h2 : (encodeFirst (.join j tok)).extractLsb' 14 10 = 0#10 := up (up (lo it))
  have h3 : (encodeFirst (.join j tok)).extractLsb' 0 10 = 0#10 := lo it
  refine plain _ .c (fun tk => .join (j) tk) rfl (fun i0 i1 tk => ?_) rfl ⟨rfl, rfl, rfl, rfl, rfl, rfl⟩
  show buildC _ i0 i1 tk = _
  unfold buildC
  rw [h0]
  exact (if_pos ⟨h2, h3⟩).trans (by rw [h1])

theorem seat (d : BitVec 5) (tok : Option Tok) : Statement (.seat d tok) := by
  have h0 : (encodeFirst (.seat d tok)).extractLsb' 24 8 = 0x5A#8 := up (up it)
  have h1 : (encodeFirst (.seat d tok)).extractLsb' 19 5 = d := up (lo it)
  have h2 : (encodeFirst (.seat d tok)).extractLsb' 0 19 = 0#19 := lo it
  refine plain _ .c (fun tk => .seat (d) tk) rfl (fun i0 i1 tk => ?_) rfl ⟨rfl, rfl, rfl, rfl, rfl, rfl⟩
  show buildC _ i0 i1 tk = _
  unfold buildC
  rw [h0]
  exact (if_pos h2).trans (by rw [h1])

theorem jmp (o : BitVec 24) (tok : Option Tok) : Statement (.jmp o tok) := by
  have h0 : (encodeFirst (.jmp o tok)).extractLsb' 24 8 = 0x5B#8 := up it
  have h1 : (encodeFirst (.jmp o tok)).extractLsb' 0 24 = o := lo it
  refine plain _ .c (fun tk => .jmp (o) tk) rfl (fun i0 i1 tk => ?_) rfl ⟨rfl, rfl, rfl, rfl, rfl, rfl⟩
  show buildC _ i0 i1 tk = _
  unfold buildC
  rw [h0]
  show some _ = _
  rw [h1]

theorem call (o : BitVec 24) (tok : Option Tok) : Statement (.call o tok) := by
  have h0 : (encodeFirst (.call o tok)).extractLsb' 24 8 = 0x5C#8 := up it
  have h1 : (encodeFirst (.call o tok)).extractLsb' 0 24 = o := lo it
  refine plain _ .c (fun tk => .call (o) tk) rfl (fun i0 i1 tk => ?_) rfl ⟨rfl, rfl, rfl, rfl, rfl, rfl⟩
  show buildC _ i0 i1 tk = _
  unfold buildC
  rw [h0]
  show some _ = _
  rw [h1]

theorem ret (a : BitVec 5) (tok : Option Tok) : Statement (.ret a tok) := by
  have h0 : (encodeFirst (.ret a tok)).extractLsb' 24 8 = 0x5D#8 := up (up (up it))
  have h1 : (encodeFirst (.ret a tok)).extractLsb' 14 5 = a := up (lo it)
  have h2 : (encodeFirst (.ret a tok)).extractLsb' 19 5 = 0#5 := up (up (lo it))
  have h3 : (encodeFirst (.ret a tok)).extractLsb' 0 14 = 0#14 := lo it
  refine plain _ .c (fun tk => .ret (a) tk) rfl (fun i0 i1 tk => ?_) rfl ⟨rfl, rfl, rfl, rfl, rfl, rfl⟩
  show buildC _ i0 i1 tk = _
  unfold buildC
  rw [h0]
  exact (if_pos ⟨h2, h3⟩).trans (by rw [h1])

theorem ldI8 (d : BitVec 5) (a : BitVec 5) (i : BitVec 14) (tok : Option Tok) : Statement (.ldI8 d a i tok) := by
  have h0 : (encodeFirst (.ldI8 d a i tok)).extractLsb' 24 8 = 0x60#8 := up (up (up it))
  have h1 : (encodeFirst (.ldI8 d a i tok)).extractLsb' 19 5 = d := up (up (lo it))
  have h2 : (encodeFirst (.ldI8 d a i tok)).extractLsb' 14 5 = a := up (lo it)
  have h3 : (encodeFirst (.ldI8 d a i tok)).extractLsb' 0 14 = i := lo it
  refine plain _ .c (fun tk => .ldI8 (d) (a) (i) tk) rfl (fun i0 i1 tk => ?_) rfl ⟨rfl, rfl, rfl, rfl, rfl, rfl⟩
  show buildC _ i0 i1 tk = _
  unfold buildC
  rw [h0]
  show some _ = _
  rw [h1, h2, h3]

theorem ldN8 (d : BitVec 5) (a : BitVec 5) (i : BitVec 14) (tok : Option Tok) : Statement (.ldN8 d a i tok) := by
  have h0 : (encodeFirst (.ldN8 d a i tok)).extractLsb' 24 8 = 0x61#8 := up (up (up it))
  have h1 : (encodeFirst (.ldN8 d a i tok)).extractLsb' 19 5 = d := up (up (lo it))
  have h2 : (encodeFirst (.ldN8 d a i tok)).extractLsb' 14 5 = a := up (lo it)
  have h3 : (encodeFirst (.ldN8 d a i tok)).extractLsb' 0 14 = i := lo it
  refine plain _ .c (fun tk => .ldN8 (d) (a) (i) tk) rfl (fun i0 i1 tk => ?_) rfl ⟨rfl, rfl, rfl, rfl, rfl, rfl⟩
  show buildC _ i0 i1 tk = _
  unfold buildC
  rw [h0]
  show some _ = _
  rw [h1, h2, h3]

theorem ldI16 (d : BitVec 5) (a : BitVec 5) (i : BitVec 14) (tok : Option Tok) : Statement (.ldI16 d a i tok) := by
  have h0 : (encodeFirst (.ldI16 d a i tok)).extractLsb' 24 8 = 0x62#8 := up (up (up it))
  have h1 : (encodeFirst (.ldI16 d a i tok)).extractLsb' 19 5 = d := up (up (lo it))
  have h2 : (encodeFirst (.ldI16 d a i tok)).extractLsb' 14 5 = a := up (lo it)
  have h3 : (encodeFirst (.ldI16 d a i tok)).extractLsb' 0 14 = i := lo it
  refine plain _ .c (fun tk => .ldI16 (d) (a) (i) tk) rfl (fun i0 i1 tk => ?_) rfl ⟨rfl, rfl, rfl, rfl, rfl, rfl⟩
  show buildC _ i0 i1 tk = _
  unfold buildC
  rw [h0]
  show some _ = _
  rw [h1, h2, h3]

theorem ldN16 (d : BitVec 5) (a : BitVec 5) (i : BitVec 14) (tok : Option Tok) : Statement (.ldN16 d a i tok) := by
  have h0 : (encodeFirst (.ldN16 d a i tok)).extractLsb' 24 8 = 0x63#8 := up (up (up it))
  have h1 : (encodeFirst (.ldN16 d a i tok)).extractLsb' 19 5 = d := up (up (lo it))
  have h2 : (encodeFirst (.ldN16 d a i tok)).extractLsb' 14 5 = a := up (lo it)
  have h3 : (encodeFirst (.ldN16 d a i tok)).extractLsb' 0 14 = i := lo it
  refine plain _ .c (fun tk => .ldN16 (d) (a) (i) tk) rfl (fun i0 i1 tk => ?_) rfl ⟨rfl, rfl, rfl, rfl, rfl, rfl⟩
  show buildC _ i0 i1 tk = _
  unfold buildC
  rw [h0]
  show some _ = _
  rw [h1, h2, h3]

theorem ldI32 (d : BitVec 5) (a : BitVec 5) (i : BitVec 14) (tok : Option Tok) : Statement (.ldI32 d a i tok) := by
  have h0 : (encodeFirst (.ldI32 d a i tok)).extractLsb' 24 8 = 0x64#8 := up (up (up it))
  have h1 : (encodeFirst (.ldI32 d a i tok)).extractLsb' 19 5 = d := up (up (lo it))
  have h2 : (encodeFirst (.ldI32 d a i tok)).extractLsb' 14 5 = a := up (lo it)
  have h3 : (encodeFirst (.ldI32 d a i tok)).extractLsb' 0 14 = i := lo it
  refine plain _ .c (fun tk => .ldI32 (d) (a) (i) tk) rfl (fun i0 i1 tk => ?_) rfl ⟨rfl, rfl, rfl, rfl, rfl, rfl⟩
  show buildC _ i0 i1 tk = _
  unfold buildC
  rw [h0]
  show some _ = _
  rw [h1, h2, h3]

theorem ldN32 (d : BitVec 5) (a : BitVec 5) (i : BitVec 14) (tok : Option Tok) : Statement (.ldN32 d a i tok) := by
  have h0 : (encodeFirst (.ldN32 d a i tok)).extractLsb' 24 8 = 0x65#8 := up (up (up it))
  have h1 : (encodeFirst (.ldN32 d a i tok)).extractLsb' 19 5 = d := up (up (lo it))
  have h2 : (encodeFirst (.ldN32 d a i tok)).extractLsb' 14 5 = a := up (lo it)
  have h3 : (encodeFirst (.ldN32 d a i tok)).extractLsb' 0 14 = i := lo it
  refine plain _ .c (fun tk => .ldN32 (d) (a) (i) tk) rfl (fun i0 i1 tk => ?_) rfl ⟨rfl, rfl, rfl, rfl, rfl, rfl⟩
  show buildC _ i0 i1 tk = _
  unfold buildC
  rw [h0]
  show some _ = _
  rw [h1, h2, h3]

theorem ldI64 (d : BitVec 5) (a : BitVec 5) (i : BitVec 14) (tok : Option Tok) : Statement (.ldI64 d a i tok) := by
  have h0 : (encodeFirst (.ldI64 d a i tok)).extractLsb' 24 8 = 0x66#8 := up (up (up it))
  have h1 : (encodeFirst (.ldI64 d a i tok)).extractLsb' 19 5 = d := up (up (lo it))
  have h2 : (encodeFirst (.ldI64 d a i tok)).extractLsb' 14 5 = a := up (lo it)
  have h3 : (encodeFirst (.ldI64 d a i tok)).extractLsb' 0 14 = i := lo it
  refine plain _ .c (fun tk => .ldI64 (d) (a) (i) tk) rfl (fun i0 i1 tk => ?_) rfl ⟨rfl, rfl, rfl, rfl, rfl, rfl⟩
  show buildC _ i0 i1 tk = _
  unfold buildC
  rw [h0]
  show some _ = _
  rw [h1, h2, h3]

theorem stI8 (d : BitVec 5) (a : BitVec 5) (i : BitVec 14) (tok : Option Tok) : Statement (.stI8 d a i tok) := by
  have h0 : (encodeFirst (.stI8 d a i tok)).extractLsb' 24 8 = 0x68#8 := up (up (up it))
  have h1 : (encodeFirst (.stI8 d a i tok)).extractLsb' 19 5 = d := up (up (lo it))
  have h2 : (encodeFirst (.stI8 d a i tok)).extractLsb' 14 5 = a := up (lo it)
  have h3 : (encodeFirst (.stI8 d a i tok)).extractLsb' 0 14 = i := lo it
  refine plain _ .c (fun tk => .stI8 (d) (a) (i) tk) rfl (fun i0 i1 tk => ?_) rfl ⟨rfl, rfl, rfl, rfl, rfl, rfl⟩
  show buildC _ i0 i1 tk = _
  unfold buildC
  rw [h0]
  show some _ = _
  rw [h1, h2, h3]

theorem stI16 (d : BitVec 5) (a : BitVec 5) (i : BitVec 14) (tok : Option Tok) : Statement (.stI16 d a i tok) := by
  have h0 : (encodeFirst (.stI16 d a i tok)).extractLsb' 24 8 = 0x69#8 := up (up (up it))
  have h1 : (encodeFirst (.stI16 d a i tok)).extractLsb' 19 5 = d := up (up (lo it))
  have h2 : (encodeFirst (.stI16 d a i tok)).extractLsb' 14 5 = a := up (lo it)
  have h3 : (encodeFirst (.stI16 d a i tok)).extractLsb' 0 14 = i := lo it
  refine plain _ .c (fun tk => .stI16 (d) (a) (i) tk) rfl (fun i0 i1 tk => ?_) rfl ⟨rfl, rfl, rfl, rfl, rfl, rfl⟩
  show buildC _ i0 i1 tk = _
  unfold buildC
  rw [h0]
  show some _ = _
  rw [h1, h2, h3]

theorem stI32 (d : BitVec 5) (a : BitVec 5) (i : BitVec 14) (tok : Option Tok) : Statement (.stI32 d a i tok) := by
  have h0 : (encodeFirst (.stI32 d a i tok)).extractLsb' 24 8 = 0x6A#8 := up (up (up it))
  have h1 : (encodeFirst (.stI32 d a i tok)).extractLsb' 19 5 = d := up (up (lo it))
  have h2 : (encodeFirst (.stI32 d a i tok)).extractLsb' 14 5 = a := up (lo it)
  have h3 : (encodeFirst (.stI32 d a i tok)).extractLsb' 0 14 = i := lo it
  refine plain _ .c (fun tk => .stI32 (d) (a) (i) tk) rfl (fun i0 i1 tk => ?_) rfl ⟨rfl, rfl, rfl, rfl, rfl, rfl⟩
  show buildC _ i0 i1 tk = _
  unfold buildC
  rw [h0]
  show some _ = _
  rw [h1, h2, h3]

theorem stI64 (d : BitVec 5) (a : BitVec 5) (i : BitVec 14) (tok : Option Tok) : Statement (.stI64 d a i tok) := by
  have h0 : (encodeFirst (.stI64 d a i tok)).extractLsb' 24 8 = 0x6B#8 := up (up (up it))
  have h1 : (encodeFirst (.stI64 d a i tok)).extractLsb' 19 5 = d := up (up (lo it))
  have h2 : (encodeFirst (.stI64 d a i tok)).extractLsb' 14 5 = a := up (lo it)
  have h3 : (encodeFirst (.stI64 d a i tok)).extractLsb' 0 14 = i := lo it
  refine plain _ .c (fun tk => .stI64 (d) (a) (i) tk) rfl (fun i0 i1 tk => ?_) rfl ⟨rfl, rfl, rfl, rfl, rfl, rfl⟩
  show buildC _ i0 i1 tk = _
  unfold buildC
  rw [h0]
  show some _ = _
  rw [h1, h2, h3]

theorem amo (d : BitVec 5) (a : BitVec 5) (b : BitVec 5) (o : BitVec 4) (z : BitVec 1) (tok : Option Tok) : Statement (.amo d a b o z tok) := by
  have h0 : (encodeFirst (.amo d a b o z tok)).extractLsb' 24 8 = 0x6C#8 := up (up (up (up (up (up it)))))
  have h1 : (encodeFirst (.amo d a b o z tok)).extractLsb' 19 5 = d := up (up (up (up (up (lo it)))))
  have h2 : (encodeFirst (.amo d a b o z tok)).extractLsb' 14 5 = a := up (up (up (up (lo it))))
  have h3 : (encodeFirst (.amo d a b o z tok)).extractLsb' 9 5 = b := up (up (up (lo it)))
  have h4 : (encodeFirst (.amo d a b o z tok)).extractLsb' 5 4 = o := up (up (lo it))
  have h5 : (encodeFirst (.amo d a b o z tok)).extractLsb' 4 1 = z := up (lo it)
  have h6 : (encodeFirst (.amo d a b o z tok)).extractLsb' 0 4 = 0#4 := lo it
  refine plain _ .c (fun tk => .amo (d) (a) (b) (o) (z) tk) rfl (fun i0 i1 tk => ?_) rfl ⟨rfl, rfl, rfl, rfl, rfl, rfl⟩
  show buildC _ i0 i1 tk = _
  unfold buildC
  rw [h0]
  exact (if_pos h6).trans (by rw [h1, h2, h3, h4, h5])

theorem bind (a : BitVec 5) (b : BitVec 5) (s : BitVec 4) (c : BitVec 5) (tok : Option Tok) : Statement (.bind a b s c tok) := by
  have h0 : (encodeFirst (.bind a b s c tok)).extractLsb' 24 8 = 0x70#8 := up (up (up (up (up it))))
  have h1 : (encodeFirst (.bind a b s c tok)).extractLsb' 14 5 = a := up (up (up (lo it)))
  have h2 : (encodeFirst (.bind a b s c tok)).extractLsb' 9 5 = b := up (up (lo it))
  have h3 : (encodeFirst (.bind a b s c tok)).extractLsb' 5 4 = s := up (lo it)
  have h4 : (encodeFirst (.bind a b s c tok)).extractLsb' 0 5 = c := lo it
  have h5 : (encodeFirst (.bind a b s c tok)).extractLsb' 19 5 = 0#5 := up (up (up (up (lo it))))
  refine plain _ .c (fun tk => .bind (a) (b) (s) (c) tk) rfl (fun i0 i1 tk => ?_) rfl ⟨rfl, rfl, rfl, rfl, rfl, rfl⟩
  show buildC _ i0 i1 tk = _
  unfold buildC
  rw [h0]
  exact (if_pos h5).trans (by rw [h1, h2, h3, h4])

theorem unbind (a : BitVec 5) (tok : Option Tok) : Statement (.unbind a tok) := by
  have h0 : (encodeFirst (.unbind a tok)).extractLsb' 24 8 = 0x71#8 := up (up (up it))
  have h1 : (encodeFirst (.unbind a tok)).extractLsb' 14 5 = a := up (lo it)
  have h2 : (encodeFirst (.unbind a tok)).extractLsb' 19 5 = 0#5 := up (up (lo it))
  have h3 : (encodeFirst (.unbind a tok)).extractLsb' 0 14 = 0#14 := lo it
  refine plain _ .c (fun tk => .unbind (a) tk) rfl (fun i0 i1 tk => ?_) rfl ⟨rfl, rfl, rfl, rfl, rfl, rfl⟩
  show buildC _ i0 i1 tk = _
  unfold buildC
  rw [h0]
  exact (if_pos ⟨h2, h3⟩).trans (by rw [h1])

theorem acqX (a : BitVec 5) (tok : Option Tok) : Statement (.acqX a tok) := by
  have h0 : (encodeFirst (.acqX a tok)).extractLsb' 24 8 = 0x72#8 := up (up (up it))
  have h1 : (encodeFirst (.acqX a tok)).extractLsb' 14 5 = a := up (lo it)
  have h2 : (encodeFirst (.acqX a tok)).extractLsb' 19 5 = 0#5 := up (up (lo it))
  have h3 : (encodeFirst (.acqX a tok)).extractLsb' 0 14 = 0#14 := lo it
  refine plain _ .c (fun tk => .acqX (a) tk) rfl (fun i0 i1 tk => ?_) rfl ⟨rfl, rfl, rfl, rfl, rfl, rfl⟩
  show buildC _ i0 i1 tk = _
  unfold buildC
  rw [h0]
  exact (if_pos ⟨h2, h3⟩).trans (by rw [h1])

theorem acqS (a : BitVec 5) (tok : Option Tok) : Statement (.acqS a tok) := by
  have h0 : (encodeFirst (.acqS a tok)).extractLsb' 24 8 = 0x73#8 := up (up (up it))
  have h1 : (encodeFirst (.acqS a tok)).extractLsb' 14 5 = a := up (lo it)
  have h2 : (encodeFirst (.acqS a tok)).extractLsb' 19 5 = 0#5 := up (up (lo it))
  have h3 : (encodeFirst (.acqS a tok)).extractLsb' 0 14 = 0#14 := lo it
  refine plain _ .c (fun tk => .acqS (a) tk) rfl (fun i0 i1 tk => ?_) rfl ⟨rfl, rfl, rfl, rfl, rfl, rfl⟩
  show buildC _ i0 i1 tk = _
  unfold buildC
  rw [h0]
  exact (if_pos ⟨h2, h3⟩).trans (by rw [h1])

theorem rel (a : BitVec 5) (tok : Option Tok) : Statement (.rel a tok) := by
  have h0 : (encodeFirst (.rel a tok)).extractLsb' 24 8 = 0x74#8 := up (up (up it))
  have h1 : (encodeFirst (.rel a tok)).extractLsb' 14 5 = a := up (lo it)
  have h2 : (encodeFirst (.rel a tok)).extractLsb' 19 5 = 0#5 := up (up (lo it))
  have h3 : (encodeFirst (.rel a tok)).extractLsb' 0 14 = 0#14 := lo it
  refine plain _ .c (fun tk => .rel (a) tk) rfl (fun i0 i1 tk => ?_) rfl ⟨rfl, rfl, rfl, rfl, rfl, rfl⟩
  show buildC _ i0 i1 tk = _
  unfold buildC
  rw [h0]
  exact (if_pos ⟨h2, h3⟩).trans (by rw [h1])

theorem fence (s : BitVec 4) (tok : Option Tok) : Statement (.fence s tok) := by
  have h0 : (encodeFirst (.fence s tok)).extractLsb' 24 8 = 0x75#8 := up (up (up it))
  have h1 : (encodeFirst (.fence s tok)).extractLsb' 5 4 = s := up (lo it)
  have h2 : (encodeFirst (.fence s tok)).extractLsb' 9 15 = 0#15 := up (up (lo it))
  have h3 : (encodeFirst (.fence s tok)).extractLsb' 0 5 = 0#5 := lo it
  refine plain _ .c (fun tk => .fence (s) tk) rfl (fun i0 i1 tk => ?_) rfl ⟨rfl, rfl, rfl, rfl, rfl, rfl⟩
  show buildC _ i0 i1 tk = _
  unfold buildC
  rw [h0]
  exact (if_pos ⟨h2, h3⟩).trans (by rw [h1])

theorem bar (s : BitVec 4) (i : BitVec 4) (tok : Option Tok) : Statement (.bar s i tok) := by
  have h0 : (encodeFirst (.bar s i tok)).extractLsb' 24 8 = 0x76#8 := up (up (up (up it)))
  have h1 : (encodeFirst (.bar s i tok)).extractLsb' 5 4 = s := up (up (lo it))
  have h2 : (encodeFirst (.bar s i tok)).extractLsb' 1 4 = i := up (lo it)
  have h3 : (encodeFirst (.bar s i tok)).extractLsb' 9 15 = 0#15 := up (up (up (lo it)))
  have h4 : (encodeFirst (.bar s i tok)).extractLsb' 0 1 = 0#1 := lo it
  refine plain _ .c (fun tk => .bar (s) (i) tk) rfl (fun i0 i1 tk => ?_) rfl ⟨rfl, rfl, rfl, rfl, rfl, rfl⟩
  show buildC _ i0 i1 tk = _
  unfold buildC
  rw [h0]
  exact (if_pos ⟨h3, h4⟩).trans (by rw [h1, h2])

theorem iflush (a : BitVec 5) (b : BitVec 5) (tok : Option Tok) : Statement (.iflush a b tok) := by
  have h0 : (encodeFirst (.iflush a b tok)).extractLsb' 24 8 = 0x77#8 := up (up (up (up it)))
  have h1 : (encodeFirst (.iflush a b tok)).extractLsb' 14 5 = a := up (up (lo it))
  have h2 : (encodeFirst (.iflush a b tok)).extractLsb' 9 5 = b := up (lo it)
  have h3 : (encodeFirst (.iflush a b tok)).extractLsb' 19 5 = 0#5 := up (up (up (lo it)))
  have h4 : (encodeFirst (.iflush a b tok)).extractLsb' 0 9 = 0#9 := lo it
  refine plain _ .c (fun tk => .iflush (a) (b) tk) rfl (fun i0 i1 tk => ?_) rfl ⟨rfl, rfl, rfl, rfl, rfl, rfl⟩
  show buildC _ i0 i1 tk = _
  unfold buildC
  rw [h0]
  exact (if_pos ⟨h3, h4⟩).trans (by rw [h1, h2])

theorem tlook (d : BitVec 5) (a : BitVec 5) (tok : Option Tok) : Statement (.tlook d a tok) := by
  have h0 : (encodeFirst (.tlook d a tok)).extractLsb' 24 8 = 0x78#8 := up (up (up it))
  have h1 : (encodeFirst (.tlook d a tok)).extractLsb' 19 5 = d := up (up (lo it))
  have h2 : (encodeFirst (.tlook d a tok)).extractLsb' 14 5 = a := up (lo it)
  have h3 : (encodeFirst (.tlook d a tok)).extractLsb' 0 14 = 0#14 := lo it
  refine plain _ .c (fun tk => .tlook (d) (a) tk) rfl (fun i0 i1 tk => ?_) rfl ⟨rfl, rfl, rfl, rfl, rfl, rfl⟩
  show buildC _ i0 i1 tk = _
  unfold buildC
  rw [h0]
  exact (if_pos h3).trans (by rw [h1, h2])

theorem tset (a : BitVec 5) (b : BitVec 5) (tok : Option Tok) : Statement (.tset a b tok) := by
  have h0 : (encodeFirst (.tset a b tok)).extractLsb' 24 8 = 0x79#8 := up (up (up (up it)))
  have h1 : (encodeFirst (.tset a b tok)).extractLsb' 14 5 = a := up (up (lo it))
  have h2 : (encodeFirst (.tset a b tok)).extractLsb' 9 5 = b := up (lo it)
  have h3 : (encodeFirst (.tset a b tok)).extractLsb' 19 5 = 0#5 := up (up (up (lo it)))
  have h4 : (encodeFirst (.tset a b tok)).extractLsb' 0 9 = 0#9 := lo it
  refine plain _ .c (fun tk => .tset (a) (b) tk) rfl (fun i0 i1 tk => ?_) rfl ⟨rfl, rfl, rfl, rfl, rfl, rfl⟩
  show buildC _ i0 i1 tk = _
  unfold buildC
  rw [h0]
  exact (if_pos ⟨h3, h4⟩).trans (by rw [h1, h2])

theorem tclr (a : BitVec 5) (tok : Option Tok) : Statement (.tclr a tok) := by
  have h0 : (encodeFirst (.tclr a tok)).extractLsb' 24 8 = 0x7A#8 := up (up (up it))
  have h1 : (encodeFirst (.tclr a tok)).extractLsb' 14 5 = a := up (lo it)
  have h2 : (encodeFirst (.tclr a tok)).extractLsb' 19 5 = 0#5 := up (up (lo it))
  have h3 : (encodeFirst (.tclr a tok)).extractLsb' 0 14 = 0#14 := lo it
  refine plain _ .c (fun tk => .tclr (a) tk) rfl (fun i0 i1 tk => ?_) rfl ⟨rfl, rfl, rfl, rfl, rfl, rfl⟩
  show buildC _ i0 i1 tk = _
  unfold buildC
  rw [h0]
  exact (if_pos ⟨h2, h3⟩).trans (by rw [h1])

theorem rowpin (d : BitVec 5) (a : BitVec 5) (k : BitVec 1) (tok : Option Tok) : Statement (.rowpin d a k tok) := by
  have h0 : (encodeFirst (.rowpin d a k tok)).extractLsb' 24 8 = 0x7B#8 := up (up (up (up it)))
  have h1 : (encodeFirst (.rowpin d a k tok)).extractLsb' 19 5 = d := up (up (up (lo it)))
  have h2 : (encodeFirst (.rowpin d a k tok)).extractLsb' 14 5 = a := up (up (lo it))
  have h3 : (encodeFirst (.rowpin d a k tok)).extractLsb' 0 1 = k := lo it
  have h4 : (encodeFirst (.rowpin d a k tok)).extractLsb' 1 13 = 0#13 := up (lo it)
  refine plain _ .c (fun tk => .rowpin (d) (a) (k) tk) rfl (fun i0 i1 tk => ?_) rfl ⟨rfl, rfl, rfl, rfl, rfl, rfl⟩
  show buildC _ i0 i1 tk = _
  unfold buildC
  rw [h0]
  exact (if_pos h4).trans (by rw [h1, h2, h3])

theorem rowwb (d : BitVec 5) (tok : Option Tok) : Statement (.rowwb d tok) := by
  have h0 : (encodeFirst (.rowwb d tok)).extractLsb' 24 8 = 0x7C#8 := up (up it)
  have h1 : (encodeFirst (.rowwb d tok)).extractLsb' 19 5 = d := up (lo it)
  have h2 : (encodeFirst (.rowwb d tok)).extractLsb' 0 19 = 0#19 := lo it
  refine plain _ .c (fun tk => .rowwb (d) tk) rfl (fun i0 i1 tk => ?_) rfl ⟨rfl, rfl, rfl, rfl, rfl, rfl⟩
  show buildC _ i0 i1 tk = _
  unfold buildC
  rw [h0]
  exact (if_pos h2).trans (by rw [h1])

theorem rowrel (d : BitVec 5) (tok : Option Tok) : Statement (.rowrel d tok) := by
  have h0 : (encodeFirst (.rowrel d tok)).extractLsb' 24 8 = 0x7D#8 := up (up it)
  have h1 : (encodeFirst (.rowrel d tok)).extractLsb' 19 5 = d := up (lo it)
  have h2 : (encodeFirst (.rowrel d tok)).extractLsb' 0 19 = 0#19 := lo it
  refine plain _ .c (fun tk => .rowrel (d) tk) rfl (fun i0 i1 tk => ?_) rfl ⟨rfl, rfl, rfl, rfl, rfl, rfl⟩
  show buildC _ i0 i1 tk = _
  unfold buildC
  rw [h0]
  exact (if_pos h2).trans (by rw [h1])

theorem ringInit (d : BitVec 5) (a : BitVec 5) (b : BitVec 5) (tok : Option Tok) : Statement (.ringInit d a b tok) := by
  have h0 : (encodeFirst (.ringInit d a b tok)).extractLsb' 24 8 = 0x80#8 := up (up (up (up it)))
  have h1 : (encodeFirst (.ringInit d a b tok)).extractLsb' 19 5 = d := up (up (up (lo it)))
  have h2 : (encodeFirst (.ringInit d a b tok)).extractLsb' 14 5 = a := up (up (lo it))
  have h3 : (encodeFirst (.ringInit d a b tok)).extractLsb' 9 5 = b := up (lo it)
  have h4 : (encodeFirst (.ringInit d a b tok)).extractLsb' 0 9 = 0#9 := lo it
  refine plain _ .c (fun tk => .ringInit (d) (a) (b) tk) rfl (fun i0 i1 tk => ?_) rfl ⟨rfl, rfl, rfl, rfl, rfl, rfl⟩
  show buildC _ i0 i1 tk = _
  unfold buildC
  rw [h0]
  exact (if_pos h4).trans (by rw [h1, h2, h3])

theorem ringAcq (d : BitVec 5) (a : BitVec 5) (tok : Option Tok) : Statement (.ringAcq d a tok) := by
  have h0 : (encodeFirst (.ringAcq d a tok)).extractLsb' 24 8 = 0x81#8 := up (up (up it))
  have h1 : (encodeFirst (.ringAcq d a tok)).extractLsb' 19 5 = d := up (up (lo it))
  have h2 : (encodeFirst (.ringAcq d a tok)).extractLsb' 14 5 = a := up (lo it)
  have h3 : (encodeFirst (.ringAcq d a tok)).extractLsb' 0 14 = 0#14 := lo it
  refine plain _ .c (fun tk => .ringAcq (d) (a) tk) rfl (fun i0 i1 tk => ?_) rfl ⟨rfl, rfl, rfl, rfl, rfl, rfl⟩
  show buildC _ i0 i1 tk = _
  unfold buildC
  rw [h0]
  exact (if_pos h3).trans (by rw [h1, h2])

theorem ringRel (a : BitVec 5) (tok : Option Tok) : Statement (.ringRel a tok) := by
  have h0 : (encodeFirst (.ringRel a tok)).extractLsb' 24 8 = 0x82#8 := up (up (up it))
  have h1 : (encodeFirst (.ringRel a tok)).extractLsb' 14 5 = a := up (lo it)
  have h2 : (encodeFirst (.ringRel a tok)).extractLsb' 19 5 = 0#5 := up (up (lo it))
  have h3 : (encodeFirst (.ringRel a tok)).extractLsb' 0 14 = 0#14 := lo it
  refine plain _ .c (fun tk => .ringRel (a) tk) rfl (fun i0 i1 tk => ?_) rfl ⟨rfl, rfl, rfl, rfl, rfl, rfl⟩
  show buildC _ i0 i1 tk = _
  unfold buildC
  rw [h0]
  exact (if_pos ⟨h2, h3⟩).trans (by rw [h1])

theorem shld (d : BitVec 5) (a : BitVec 5) (tok : Option Tok) : Statement (.shld d a tok) := by
  have h0 : (encodeFirst (.shld d a tok)).extractLsb' 24 8 = 0x83#8 := up (up (up it))
  have h1 : (encodeFirst (.shld d a tok)).extractLsb' 19 5 = d := up (up (lo it))
  have h2 : (encodeFirst (.shld d a tok)).extractLsb' 14 5 = a := up (lo it)
  have h3 : (encodeFirst (.shld d a tok)).extractLsb' 0 14 = 0#14 := lo it
  refine plain _ .c (fun tk => .shld (d) (a) tk) rfl (fun i0 i1 tk => ?_) rfl ⟨rfl, rfl, rfl, rfl, rfl, rfl⟩
  show buildC _ i0 i1 tk = _
  unfold buildC
  rw [h0]
  exact (if_pos h3).trans (by rw [h1, h2])

theorem shset (d : BitVec 5) (a : BitVec 5) (b : BitVec 5) (tok : Option Tok) : Statement (.shset d a b tok) := by
  have h0 : (encodeFirst (.shset d a b tok)).extractLsb' 24 8 = 0x84#8 := up (up (up (up it)))
  have h1 : (encodeFirst (.shset d a b tok)).extractLsb' 19 5 = d := up (up (up (lo it)))
  have h2 : (encodeFirst (.shset d a b tok)).extractLsb' 14 5 = a := up (up (lo it))
  have h3 : (encodeFirst (.shset d a b tok)).extractLsb' 9 5 = b := up (lo it)
  have h4 : (encodeFirst (.shset d a b tok)).extractLsb' 0 9 = 0#9 := lo it
  refine plain _ .c (fun tk => .shset (d) (a) (b) tk) rfl (fun i0 i1 tk => ?_) rfl ⟨rfl, rfl, rfl, rfl, rfl, rfl⟩
  show buildC _ i0 i1 tk = _
  unfold buildC
  rw [h0]
  exact (if_pos h4).trans (by rw [h1, h2, h3])

theorem shget (d : BitVec 5) (a : BitVec 5) (b : BitVec 5) (tok : Option Tok) : Statement (.shget d a b tok) := by
  have h0 : (encodeFirst (.shget d a b tok)).extractLsb' 24 8 = 0x85#8 := up (up (up (up it)))
  have h1 : (encodeFirst (.shget d a b tok)).extractLsb' 19 5 = d := up (up (up (lo it)))
  have h2 : (encodeFirst (.shget d a b tok)).extractLsb' 14 5 = a := up (up (lo it))
  have h3 : (encodeFirst (.shget d a b tok)).extractLsb' 9 5 = b := up (lo it)
  have h4 : (encodeFirst (.shget d a b tok)).extractLsb' 0 9 = 0#9 := lo it
  refine plain _ .c (fun tk => .shget (d) (a) (b) tk) rfl (fun i0 i1 tk => ?_) rfl ⟨rfl, rfl, rfl, rfl, rfl, rfl⟩
  show buildC _ i0 i1 tk = _
  unfold buildC
  rw [h0]
  exact (if_pos h4).trans (by rw [h1, h2, h3])

theorem mfs (x : BitVec 5) (n : BitVec 8) (tok : Option Tok) : Statement (.mfs x n tok) := by
  have h0 : (encodeFirst (.mfs x n tok)).extractLsb' 24 8 = 0x88#8 := up (up (up it))
  have h1 : (encodeFirst (.mfs x n tok)).extractLsb' 19 5 = x := up (up (lo it))
  have h2 : (encodeFirst (.mfs x n tok)).extractLsb' 11 8 = n := up (lo it)
  have h3 : (encodeFirst (.mfs x n tok)).extractLsb' 0 11 = 0#11 := lo it
  refine plain _ .c (fun tk => .mfs (x) (n) tk) rfl (fun i0 i1 tk => ?_) rfl ⟨rfl, rfl, rfl, rfl, rfl, rfl⟩
  show buildC _ i0 i1 tk = _
  unfold buildC
  rw [h0]
  exact (if_pos h3).trans (by rw [h1, h2])

theorem mts (x : BitVec 5) (n : BitVec 8) (tok : Option Tok) : Statement (.mts x n tok) := by
  have h0 : (encodeFirst (.mts x n tok)).extractLsb' 24 8 = 0x89#8 := up (up (up it))
  have h1 : (encodeFirst (.mts x n tok)).extractLsb' 19 5 = x := up (up (lo it))
  have h2 : (encodeFirst (.mts x n tok)).extractLsb' 11 8 = n := up (lo it)
  have h3 : (encodeFirst (.mts x n tok)).extractLsb' 0 11 = 0#11 := lo it
  refine plain _ .c (fun tk => .mts (x) (n) tk) rfl (fun i0 i1 tk => ?_) rfl ⟨rfl, rfl, rfl, rfl, rfl, rfl⟩
  show buildC _ i0 i1 tk = _
  unfold buildC
  rw [h0]
  exact (if_pos h3).trans (by rw [h1, h2])

theorem trap (i : BitVec 14) (tok : Option Tok) : Statement (.trap i tok) := by
  have h0 : (encodeFirst (.trap i tok)).extractLsb' 24 8 = 0x8A#8 := up (up it)
  have h1 : (encodeFirst (.trap i tok)).extractLsb' 0 14 = i := lo it
  have h2 : (encodeFirst (.trap i tok)).extractLsb' 14 10 = 0#10 := up (lo it)
  refine plain _ .c (fun tk => .trap (i) tk) rfl (fun i0 i1 tk => ?_) rfl ⟨rfl, rfl, rfl, rfl, rfl, rfl⟩
  show buildC _ i0 i1 tk = _
  unfold buildC
  rw [h0]
  exact (if_pos h2).trans (by rw [h1])

theorem sys (i : BitVec 14) (tok : Option Tok) : Statement (.sys i tok) := by
  have h0 : (encodeFirst (.sys i tok)).extractLsb' 24 8 = 0x8B#8 := up (up it)
  have h1 : (encodeFirst (.sys i tok)).extractLsb' 0 14 = i := lo it
  have h2 : (encodeFirst (.sys i tok)).extractLsb' 14 10 = 0#10 := up (lo it)
  refine plain _ .c (fun tk => .sys (i) tk) rfl (fun i0 i1 tk => ?_) rfl ⟨rfl, rfl, rfl, rfl, rfl, rfl⟩
  show buildC _ i0 i1 tk = _
  unfold buildC
  rw [h0]
  exact (if_pos h2).trans (by rw [h1])

theorem eret (tok : Option Tok) : Statement (.eret tok) := by
  have h0 : (encodeFirst (.eret tok)).extractLsb' 24 8 = 0x8C#8 := up it
  have h1 : (encodeFirst (.eret tok)).extractLsb' 0 24 = 0#24 := lo it
  refine plain _ .c (fun tk => .eret tk) rfl (fun i0 i1 tk => ?_) rfl ⟨rfl, rfl, rfl, rfl, rfl, rfl⟩
  show buildC _ i0 i1 tk = _
  unfold buildC
  rw [h0]
  exact if_pos h1

theorem halt (tok : Option Tok) : Statement (.halt tok) := by
  have h0 : (encodeFirst (.halt tok)).extractLsb' 24 8 = 0x8D#8 := up it
  have h1 : (encodeFirst (.halt tok)).extractLsb' 0 24 = 0#24 := lo it
  refine plain _ .c (fun tk => .halt tk) rfl (fun i0 i1 tk => ?_) rfl ⟨rfl, rfl, rfl, rfl, rfl, rfl⟩
  show buildC _ i0 i1 tk = _
  unfold buildC
  rw [h0]
  exact if_pos h1

theorem refdefer (a : BitVec 5) (b : BitVec 5) (tok : Option Tok) : Statement (.refdefer a b tok) := by
  have h0 : (encodeFirst (.refdefer a b tok)).extractLsb' 24 8 = 0x8E#8 := up (up (up (up it)))
  have h1 : (encodeFirst (.refdefer a b tok)).extractLsb' 14 5 = a := up (up (lo it))
  have h2 : (encodeFirst (.refdefer a b tok)).extractLsb' 9 5 = b := up (lo it)
  have h3 : (encodeFirst (.refdefer a b tok)).extractLsb' 19 5 = 0#5 := up (up (up (lo it)))
  have h4 : (encodeFirst (.refdefer a b tok)).extractLsb' 0 9 = 0#9 := lo it
  refine plain _ .c (fun tk => .refdefer (a) (b) tk) rfl (fun i0 i1 tk => ?_) rfl ⟨rfl, rfl, rfl, rfl, rfl, rfl⟩
  show buildC _ i0 i1 tk = _
  unfold buildC
  rw [h0]
  exact (if_pos ⟨h3, h4⟩).trans (by rw [h1, h2])

theorem poison (a : BitVec 5) (tok : Option Tok) : Statement (.poison a tok) := by
  have h0 : (encodeFirst (.poison a tok)).extractLsb' 24 8 = 0x8F#8 := up (up (up it))
  have h1 : (encodeFirst (.poison a tok)).extractLsb' 14 5 = a := up (lo it)
  have h2 : (encodeFirst (.poison a tok)).extractLsb' 19 5 = 0#5 := up (up (lo it))
  have h3 : (encodeFirst (.poison a tok)).extractLsb' 0 14 = 0#14 := lo it
  refine plain _ .c (fun tk => .poison (a) tk) rfl (fun i0 i1 tk => ?_) rfl ⟨rfl, rfl, rfl, rfl, rfl, rfl⟩
  show buildC _ i0 i1 tk = _
  unfold buildC
  rw [h0]
  exact (if_pos ⟨h2, h3⟩).trans (by rw [h1])

theorem vNop (tok : Option Tok) : Statement (.vNop tok) := by
  have h0 : (encodeFirst (.vNop tok)).extractLsb' 24 8 = 0x00#8 := up it
  have h1 : (encodeFirst (.vNop tok)).extractLsb' 0 24 = 0#24 := lo it
  refine plain _ .v (fun tk => .vNop tk) rfl (fun i0 i1 tk => ?_) rfl ⟨rfl, rfl, rfl, rfl, rfl, rfl⟩
  show buildV _ i0 i1 tk = _
  unfold buildV
  rw [h0]
  exact if_pos h1

theorem vAdd (d : BitVec 6) (a : BitVec 6) (b : BitVec 6) (p : BitVec 4) (n : BitVec 1) (x : Option VExt) (tok : Option Tok) : Statement (.vAdd d a b p n x tok) := by
  have h0 : (encodeFirst (.vAdd d a b p n x tok)).extractLsb' 24 8 = 0x01#8 := up (up (up (up (up (up it)))))
  have h1 : (encodeFirst (.vAdd d a b p n x tok)).extractLsb' 18 6 = d := up (up (up (up (up (lo it)))))
  have h2 : (encodeFirst (.vAdd d a b p n x tok)).extractLsb' 12 6 = a := up (up (up (up (lo it))))
  have h3 : (encodeFirst (.vAdd d a b p n x tok)).extractLsb' 6 6 = b := up (up (up (lo it)))
  have h4 : (encodeFirst (.vAdd d a b p n x tok)).extractLsb' 2 4 = p := up (up (lo it))
  have h5 : (encodeFirst (.vAdd d a b p n x tok)).extractLsb' 1 1 = n := up (lo it)
  have h6 : (encodeFirst (.vAdd d a b p n x tok)).extractLsb' 0 1 = VExt.bit x := lo it
  have hb : ∀ i0 i1 tk, build .v (encodeFirst (.vAdd d a b p n x tok)) i0 i1 tk = some (.vAdd (d) (a) (b) (p) (n) (VExt.read (VExt.bit x) i0) tk) := by
    intro i0 i1 tk
    show buildV _ i0 i1 tk = _
    unfold buildV
    rw [h0]
    show some _ = _
    rw [h1, h2, h3, h4, h5, h6]
  refine withImms _ .v _ rfl hb ?_ ?_ ?_
  · cases x with
    | none => rfl
    | some y =>
      show Instr.vAdd d a b p n (some (VExt.ofWord y.toWord)) tok = _
      rw [ofWord_toWord]
  · cases x <;> exact ⟨rfl, rfl, rfl, rfl, rfl⟩
  · cases x with
    | none => rfl
    | some y =>
      show Instr.extOk (.vAdd d a b p n (some (VExt.ofWord y.toWord)) none) = _
      rw [ofWord_toWord]; rfl

theorem vSub (d : BitVec 6) (a : BitVec 6) (b : BitVec 6) (p : BitVec 4) (n : BitVec 1) (x : Option VExt) (tok : Option Tok) : Statement (.vSub d a b p n x tok) := by
  have h0 : (encodeFirst (.vSub d a b p n x tok)).extractLsb' 24 8 = 0x02#8 := up (up (up (up (up (up it)))))
  have h1 : (encodeFirst (.vSub d a b p n x tok)).extractLsb' 18 6 = d := up (up (up (up (up (lo it)))))
  have h2 : (encodeFirst (.vSub d a b p n x tok)).extractLsb' 12 6 = a := up (up (up (up (lo it))))
  have h3 : (encodeFirst (.vSub d a b p n x tok)).extractLsb' 6 6 = b := up (up (up (lo it)))
  have h4 : (encodeFirst (.vSub d a b p n x tok)).extractLsb' 2 4 = p := up (up (lo it))
  have h5 : (encodeFirst (.vSub d a b p n x tok)).extractLsb' 1 1 = n := up (lo it)
  have h6 : (encodeFirst (.vSub d a b p n x tok)).extractLsb' 0 1 = VExt.bit x := lo it
  have hb : ∀ i0 i1 tk, build .v (encodeFirst (.vSub d a b p n x tok)) i0 i1 tk = some (.vSub (d) (a) (b) (p) (n) (VExt.read (VExt.bit x) i0) tk) := by
    intro i0 i1 tk
    show buildV _ i0 i1 tk = _
    unfold buildV
    rw [h0]
    show some _ = _
    rw [h1, h2, h3, h4, h5, h6]
  refine withImms _ .v _ rfl hb ?_ ?_ ?_
  · cases x with
    | none => rfl
    | some y =>
      show Instr.vSub d a b p n (some (VExt.ofWord y.toWord)) tok = _
      rw [ofWord_toWord]
  · cases x <;> exact ⟨rfl, rfl, rfl, rfl, rfl⟩
  · cases x with
    | none => rfl
    | some y =>
      show Instr.extOk (.vSub d a b p n (some (VExt.ofWord y.toWord)) none) = _
      rw [ofWord_toWord]; rfl

theorem vMul (d : BitVec 6) (a : BitVec 6) (b : BitVec 6) (p : BitVec 4) (n : BitVec 1) (x : Option VExt) (tok : Option Tok) : Statement (.vMul d a b p n x tok) := by
  have h0 : (encodeFirst (.vMul d a b p n x tok)).extractLsb' 24 8 = 0x03#8 := up (up (up (up (up (up it)))))
  have h1 : (encodeFirst (.vMul d a b p n x tok)).extractLsb' 18 6 = d := up (up (up (up (up (lo it)))))
  have h2 : (encodeFirst (.vMul d a b p n x tok)).extractLsb' 12 6 = a := up (up (up (up (lo it))))
  have h3 : (encodeFirst (.vMul d a b p n x tok)).extractLsb' 6 6 = b := up (up (up (lo it)))
  have h4 : (encodeFirst (.vMul d a b p n x tok)).extractLsb' 2 4 = p := up (up (lo it))
  have h5 : (encodeFirst (.vMul d a b p n x tok)).extractLsb' 1 1 = n := up (lo it)
  have h6 : (encodeFirst (.vMul d a b p n x tok)).extractLsb' 0 1 = VExt.bit x := lo it
  have hb : ∀ i0 i1 tk, build .v (encodeFirst (.vMul d a b p n x tok)) i0 i1 tk = some (.vMul (d) (a) (b) (p) (n) (VExt.read (VExt.bit x) i0) tk) := by
    intro i0 i1 tk
    show buildV _ i0 i1 tk = _
    unfold buildV
    rw [h0]
    show some _ = _
    rw [h1, h2, h3, h4, h5, h6]
  refine withImms _ .v _ rfl hb ?_ ?_ ?_
  · cases x with
    | none => rfl
    | some y =>
      show Instr.vMul d a b p n (some (VExt.ofWord y.toWord)) tok = _
      rw [ofWord_toWord]
  · cases x <;> exact ⟨rfl, rfl, rfl, rfl, rfl⟩
  · cases x with
    | none => rfl
    | some y =>
      show Instr.extOk (.vMul d a b p n (some (VExt.ofWord y.toWord)) none) = _
      rw [ofWord_toWord]; rfl

theorem vFma (d : BitVec 6) (a : BitVec 6) (b : BitVec 6) (p : BitVec 4) (n : BitVec 1) (x : VExt) (tok : Option Tok) : Statement (.vFma d a b p n x tok) := by
  have h0 : (encodeFirst (.vFma d a b p n x tok)).extractLsb' 24 8 = 0x04#8 := up (up (up (up (up (up it)))))
  have h1 : (encodeFirst (.vFma d a b p n x tok)).extractLsb' 18 6 = d := up (up (up (up (up (lo it)))))
  have h2 : (encodeFirst (.vFma d a b p n x tok)).extractLsb' 12 6 = a := up (up (up (up (lo it))))
  have h3 : (encodeFirst (.vFma d a b p n x tok)).extractLsb' 6 6 = b := up (up (up (lo it)))
  have h4 : (encodeFirst (.vFma d a b p n x tok)).extractLsb' 2 4 = p := up (up (lo it))
  have h5 : (encodeFirst (.vFma d a b p n x tok)).extractLsb' 1 1 = n := up (lo it)
  have h6 : (encodeFirst (.vFma d a b p n x tok)).extractLsb' 0 1 = 1#1 := lo it
  have hb : ∀ i0 i1 tk, build .v (encodeFirst (.vFma d a b p n x tok)) i0 i1 tk = some (.vFma (d) (a) (b) (p) (n) (VExt.ofWord i0) tk) := by
    intro i0 i1 tk
    show buildV _ i0 i1 tk = _
    unfold buildV
    rw [h0]
    exact (if_pos h6).trans (by rw [h1, h2, h3, h4, h5])
  refine withImms _ .v _ rfl hb ?_ ⟨rfl, rfl, rfl, rfl, rfl⟩ ?_
  · show Instr.vFma d a b p n (VExt.ofWord x.toWord) tok = _
    rw [ofWord_toWord]
  · show Instr.extOk (.vFma d a b p n (VExt.ofWord x.toWord) none) = _
    rw [ofWord_toWord]; rfl

theorem vMin (d : BitVec 6) (a : BitVec 6) (b : BitVec 6) (p : BitVec 4) (n : BitVec 1) (x : Option VExt) (tok : Option Tok) : Statement (.vMin d a b p n x tok) := by
  have h0 : (encodeFirst (.vMin d a b p n x tok)).extractLsb' 24 8 = 0x05#8 := up (up (up (up (up (up it)))))
  have h1 : (encodeFirst (.vMin d a b p n x tok)).extractLsb' 18 6 = d := up (up (up (up (up (lo it)))))
  have h2 : (encodeFirst (.vMin d a b p n x tok)).extractLsb' 12 6 = a := up (up (up (up (lo it))))
  have h3 : (encodeFirst (.vMin d a b p n x tok)).extractLsb' 6 6 = b := up (up (up (lo it)))
  have h4 : (encodeFirst (.vMin d a b p n x tok)).extractLsb' 2 4 = p := up (up (lo it))
  have h5 : (encodeFirst (.vMin d a b p n x tok)).extractLsb' 1 1 = n := up (lo it)
  have h6 : (encodeFirst (.vMin d a b p n x tok)).extractLsb' 0 1 = VExt.bit x := lo it
  have hb : ∀ i0 i1 tk, build .v (encodeFirst (.vMin d a b p n x tok)) i0 i1 tk = some (.vMin (d) (a) (b) (p) (n) (VExt.read (VExt.bit x) i0) tk) := by
    intro i0 i1 tk
    show buildV _ i0 i1 tk = _
    unfold buildV
    rw [h0]
    show some _ = _
    rw [h1, h2, h3, h4, h5, h6]
  refine withImms _ .v _ rfl hb ?_ ?_ ?_
  · cases x with
    | none => rfl
    | some y =>
      show Instr.vMin d a b p n (some (VExt.ofWord y.toWord)) tok = _
      rw [ofWord_toWord]
  · cases x <;> exact ⟨rfl, rfl, rfl, rfl, rfl⟩
  · cases x with
    | none => rfl
    | some y =>
      show Instr.extOk (.vMin d a b p n (some (VExt.ofWord y.toWord)) none) = _
      rw [ofWord_toWord]; rfl

theorem vMax (d : BitVec 6) (a : BitVec 6) (b : BitVec 6) (p : BitVec 4) (n : BitVec 1) (x : Option VExt) (tok : Option Tok) : Statement (.vMax d a b p n x tok) := by
  have h0 : (encodeFirst (.vMax d a b p n x tok)).extractLsb' 24 8 = 0x06#8 := up (up (up (up (up (up it)))))
  have h1 : (encodeFirst (.vMax d a b p n x tok)).extractLsb' 18 6 = d := up (up (up (up (up (lo it)))))
  have h2 : (encodeFirst (.vMax d a b p n x tok)).extractLsb' 12 6 = a := up (up (up (up (lo it))))
  have h3 : (encodeFirst (.vMax d a b p n x tok)).extractLsb' 6 6 = b := up (up (up (lo it)))
  have h4 : (encodeFirst (.vMax d a b p n x tok)).extractLsb' 2 4 = p := up (up (lo it))
  have h5 : (encodeFirst (.vMax d a b p n x tok)).extractLsb' 1 1 = n := up (lo it)
  have h6 : (encodeFirst (.vMax d a b p n x tok)).extractLsb' 0 1 = VExt.bit x := lo it
  have hb : ∀ i0 i1 tk, build .v (encodeFirst (.vMax d a b p n x tok)) i0 i1 tk = some (.vMax (d) (a) (b) (p) (n) (VExt.read (VExt.bit x) i0) tk) := by
    intro i0 i1 tk
    show buildV _ i0 i1 tk = _
    unfold buildV
    rw [h0]
    show some _ = _
    rw [h1, h2, h3, h4, h5, h6]
  refine withImms _ .v _ rfl hb ?_ ?_ ?_
  · cases x with
    | none => rfl
    | some y =>
      show Instr.vMax d a b p n (some (VExt.ofWord y.toWord)) tok = _
      rw [ofWord_toWord]
  · cases x <;> exact ⟨rfl, rfl, rfl, rfl, rfl⟩
  · cases x with
    | none => rfl
    | some y =>
      show Instr.extOk (.vMax d a b p n (some (VExt.ofWord y.toWord)) none) = _
      rw [ofWord_toWord]; rfl

theorem vAbs (d : BitVec 6) (a : BitVec 6) (p : BitVec 4) (n : BitVec 1) (x : Option VExt) (tok : Option Tok) : Statement (.vAbs d a p n x tok) := by
  have h0 : (encodeFirst (.vAbs d a p n x tok)).extractLsb' 24 8 = 0x07#8 := up (up (up (up (up (up it)))))
  have h1 : (encodeFirst (.vAbs d a p n x tok)).extractLsb' 18 6 = d := up (up (up (up (up (lo it)))))
  have h2 : (encodeFirst (.vAbs d a p n x tok)).extractLsb' 12 6 = a := up (up (up (up (lo it))))
  have h3 : (encodeFirst (.vAbs d a p n x tok)).extractLsb' 2 4 = p := up (up (lo it))
  have h4 : (encodeFirst (.vAbs d a p n x tok)).extractLsb' 1 1 = n := up (lo it)
  have h5 : (encodeFirst (.vAbs d a p n x tok)).extractLsb' 0 1 = VExt.bit x := lo it
  have h6 : (encodeFirst (.vAbs d a p n x tok)).extractLsb' 6 6 = 0#6 := up (up (up (lo it)))
  have hb : ∀ i0 i1 tk, build .v (encodeFirst (.vAbs d a p n x tok)) i0 i1 tk = some (.vAbs (d) (a) (p) (n) (VExt.read (VExt.bit x) i0) tk) := by
    intro i0 i1 tk
    show buildV _ i0 i1 tk = _
    unfold buildV
    rw [h0]
    exact (if_pos h6).trans (by rw [h1, h2, h3, h4, h5])
  refine withImms _ .v _ rfl hb ?_ ?_ ?_
  · cases x with
    | none => rfl
    | some y =>
      show Instr.vAbs d a p n (some (VExt.ofWord y.toWord)) tok = _
      rw [ofWord_toWord]
  · cases x <;> exact ⟨rfl, rfl, rfl, rfl, rfl⟩
  · cases x with
    | none => rfl
    | some y =>
      show Instr.extOk (.vAbs d a p n (some (VExt.ofWord y.toWord)) none) = _
      rw [ofWord_toWord]; rfl

theorem vNeg (d : BitVec 6) (a : BitVec 6) (p : BitVec 4) (n : BitVec 1) (x : Option VExt) (tok : Option Tok) : Statement (.vNeg d a p n x tok) := by
  have h0 : (encodeFirst (.vNeg d a p n x tok)).extractLsb' 24 8 = 0x08#8 := up (up (up (up (up (up it)))))
  have h1 : (encodeFirst (.vNeg d a p n x tok)).extractLsb' 18 6 = d := up (up (up (up (up (lo it)))))
  have h2 : (encodeFirst (.vNeg d a p n x tok)).extractLsb' 12 6 = a := up (up (up (up (lo it))))
  have h3 : (encodeFirst (.vNeg d a p n x tok)).extractLsb' 2 4 = p := up (up (lo it))
  have h4 : (encodeFirst (.vNeg d a p n x tok)).extractLsb' 1 1 = n := up (lo it)
  have h5 : (encodeFirst (.vNeg d a p n x tok)).extractLsb' 0 1 = VExt.bit x := lo it
  have h6 : (encodeFirst (.vNeg d a p n x tok)).extractLsb' 6 6 = 0#6 := up (up (up (lo it)))
  have hb : ∀ i0 i1 tk, build .v (encodeFirst (.vNeg d a p n x tok)) i0 i1 tk = some (.vNeg (d) (a) (p) (n) (VExt.read (VExt.bit x) i0) tk) := by
    intro i0 i1 tk
    show buildV _ i0 i1 tk = _
    unfold buildV
    rw [h0]
    exact (if_pos h6).trans (by rw [h1, h2, h3, h4, h5])
  refine withImms _ .v _ rfl hb ?_ ?_ ?_
  · cases x with
    | none => rfl
    | some y =>
      show Instr.vNeg d a p n (some (VExt.ofWord y.toWord)) tok = _
      rw [ofWord_toWord]
  · cases x <;> exact ⟨rfl, rfl, rfl, rfl, rfl⟩
  · cases x with
    | none => rfl
    | some y =>
      show Instr.extOk (.vNeg d a p n (some (VExt.ofWord y.toWord)) none) = _
      rw [ofWord_toWord]; rfl

theorem vDiv (d : BitVec 6) (a : BitVec 6) (b : BitVec 6) (p : BitVec 4) (n : BitVec 1) (x : Option VExt) (tok : Option Tok) : Statement (.vDiv d a b p n x tok) := by
  have h0 : (encodeFirst (.vDiv d a b p n x tok)).extractLsb' 24 8 = 0x09#8 := up (up (up (up (up (up it)))))
  have h1 : (encodeFirst (.vDiv d a b p n x tok)).extractLsb' 18 6 = d := up (up (up (up (up (lo it)))))
  have h2 : (encodeFirst (.vDiv d a b p n x tok)).extractLsb' 12 6 = a := up (up (up (up (lo it))))
  have h3 : (encodeFirst (.vDiv d a b p n x tok)).extractLsb' 6 6 = b := up (up (up (lo it)))
  have h4 : (encodeFirst (.vDiv d a b p n x tok)).extractLsb' 2 4 = p := up (up (lo it))
  have h5 : (encodeFirst (.vDiv d a b p n x tok)).extractLsb' 1 1 = n := up (lo it)
  have h6 : (encodeFirst (.vDiv d a b p n x tok)).extractLsb' 0 1 = VExt.bit x := lo it
  have hb : ∀ i0 i1 tk, build .v (encodeFirst (.vDiv d a b p n x tok)) i0 i1 tk = some (.vDiv (d) (a) (b) (p) (n) (VExt.read (VExt.bit x) i0) tk) := by
    intro i0 i1 tk
    show buildV _ i0 i1 tk = _
    unfold buildV
    rw [h0]
    show some _ = _
    rw [h1, h2, h3, h4, h5, h6]
  refine withImms _ .v _ rfl hb ?_ ?_ ?_
  · cases x with
    | none => rfl
    | some y =>
      show Instr.vDiv d a b p n (some (VExt.ofWord y.toWord)) tok = _
      rw [ofWord_toWord]
  · cases x <;> exact ⟨rfl, rfl, rfl, rfl, rfl⟩
  · cases x with
    | none => rfl
    | some y =>
      show Instr.extOk (.vDiv d a b p n (some (VExt.ofWord y.toWord)) none) = _
      rw [ofWord_toWord]; rfl

theorem vSqrt (d : BitVec 6) (a : BitVec 6) (p : BitVec 4) (n : BitVec 1) (x : Option VExt) (tok : Option Tok) : Statement (.vSqrt d a p n x tok) := by
  have h0 : (encodeFirst (.vSqrt d a p n x tok)).extractLsb' 24 8 = 0x0A#8 := up (up (up (up (up (up it)))))
  have h1 : (encodeFirst (.vSqrt d a p n x tok)).extractLsb' 18 6 = d := up (up (up (up (up (lo it)))))
  have h2 : (encodeFirst (.vSqrt d a p n x tok)).extractLsb' 12 6 = a := up (up (up (up (lo it))))
  have h3 : (encodeFirst (.vSqrt d a p n x tok)).extractLsb' 2 4 = p := up (up (lo it))
  have h4 : (encodeFirst (.vSqrt d a p n x tok)).extractLsb' 1 1 = n := up (lo it)
  have h5 : (encodeFirst (.vSqrt d a p n x tok)).extractLsb' 0 1 = VExt.bit x := lo it
  have h6 : (encodeFirst (.vSqrt d a p n x tok)).extractLsb' 6 6 = 0#6 := up (up (up (lo it)))
  have hb : ∀ i0 i1 tk, build .v (encodeFirst (.vSqrt d a p n x tok)) i0 i1 tk = some (.vSqrt (d) (a) (p) (n) (VExt.read (VExt.bit x) i0) tk) := by
    intro i0 i1 tk
    show buildV _ i0 i1 tk = _
    unfold buildV
    rw [h0]
    exact (if_pos h6).trans (by rw [h1, h2, h3, h4, h5])
  refine withImms _ .v _ rfl hb ?_ ?_ ?_
  · cases x with
    | none => rfl
    | some y =>
      show Instr.vSqrt d a p n (some (VExt.ofWord y.toWord)) tok = _
      rw [ofWord_toWord]
  · cases x <;> exact ⟨rfl, rfl, rfl, rfl, rfl⟩
  · cases x with
    | none => rfl
    | some y =>
      show Instr.extOk (.vSqrt d a p n (some (VExt.ofWord y.toWord)) none) = _
      rw [ofWord_toWord]; rfl

theorem vRcp (d : BitVec 6) (a : BitVec 6) (p : BitVec 4) (n : BitVec 1) (x : Option VExt) (tok : Option Tok) : Statement (.vRcp d a p n x tok) := by
  have h0 : (encodeFirst (.vRcp d a p n x tok)).extractLsb' 24 8 = 0x0B#8 := up (up (up (up (up (up it)))))
  have h1 : (encodeFirst (.vRcp d a p n x tok)).extractLsb' 18 6 = d := up (up (up (up (up (lo it)))))
  have h2 : (encodeFirst (.vRcp d a p n x tok)).extractLsb' 12 6 = a := up (up (up (up (lo it))))
  have h3 : (encodeFirst (.vRcp d a p n x tok)).extractLsb' 2 4 = p := up (up (lo it))
  have h4 : (encodeFirst (.vRcp d a p n x tok)).extractLsb' 1 1 = n := up (lo it)
  have h5 : (encodeFirst (.vRcp d a p n x tok)).extractLsb' 0 1 = VExt.bit x := lo it
  have h6 : (encodeFirst (.vRcp d a p n x tok)).extractLsb' 6 6 = 0#6 := up (up (up (lo it)))
  have hb : ∀ i0 i1 tk, build .v (encodeFirst (.vRcp d a p n x tok)) i0 i1 tk = some (.vRcp (d) (a) (p) (n) (VExt.read (VExt.bit x) i0) tk) := by
    intro i0 i1 tk
    show buildV _ i0 i1 tk = _
    unfold buildV
    rw [h0]
    exact (if_pos h6).trans (by rw [h1, h2, h3, h4, h5])
  refine withImms _ .v _ rfl hb ?_ ?_ ?_
  · cases x with
    | none => rfl
    | some y =>
      show Instr.vRcp d a p n (some (VExt.ofWord y.toWord)) tok = _
      rw [ofWord_toWord]
  · cases x <;> exact ⟨rfl, rfl, rfl, rfl, rfl⟩
  · cases x with
    | none => rfl
    | some y =>
      show Instr.extOk (.vRcp d a p n (some (VExt.ofWord y.toWord)) none) = _
      rw [ofWord_toWord]; rfl

theorem vRsqrt (d : BitVec 6) (a : BitVec 6) (p : BitVec 4) (n : BitVec 1) (x : Option VExt) (tok : Option Tok) : Statement (.vRsqrt d a p n x tok) := by
  have h0 : (encodeFirst (.vRsqrt d a p n x tok)).extractLsb' 24 8 = 0x0C#8 := up (up (up (up (up (up it)))))
  have h1 : (encodeFirst (.vRsqrt d a p n x tok)).extractLsb' 18 6 = d := up (up (up (up (up (lo it)))))
  have h2 : (encodeFirst (.vRsqrt d a p n x tok)).extractLsb' 12 6 = a := up (up (up (up (lo it))))
  have h3 : (encodeFirst (.vRsqrt d a p n x tok)).extractLsb' 2 4 = p := up (up (lo it))
  have h4 : (encodeFirst (.vRsqrt d a p n x tok)).extractLsb' 1 1 = n := up (lo it)
  have h5 : (encodeFirst (.vRsqrt d a p n x tok)).extractLsb' 0 1 = VExt.bit x := lo it
  have h6 : (encodeFirst (.vRsqrt d a p n x tok)).extractLsb' 6 6 = 0#6 := up (up (up (lo it)))
  have hb : ∀ i0 i1 tk, build .v (encodeFirst (.vRsqrt d a p n x tok)) i0 i1 tk = some (.vRsqrt (d) (a) (p) (n) (VExt.read (VExt.bit x) i0) tk) := by
    intro i0 i1 tk
    show buildV _ i0 i1 tk = _
    unfold buildV
    rw [h0]
    exact (if_pos h6).trans (by rw [h1, h2, h3, h4, h5])
  refine withImms _ .v _ rfl hb ?_ ?_ ?_
  · cases x with
    | none => rfl
    | some y =>
      show Instr.vRsqrt d a p n (some (VExt.ofWord y.toWord)) tok = _
      rw [ofWord_toWord]
  · cases x <;> exact ⟨rfl, rfl, rfl, rfl, rfl⟩
  · cases x with
    | none => rfl
    | some y =>
      show Instr.extOk (.vRsqrt d a p n (some (VExt.ofWord y.toWord)) none) = _
      rw [ofWord_toWord]; rfl

theorem vExp2 (d : BitVec 6) (a : BitVec 6) (p : BitVec 4) (n : BitVec 1) (x : Option VExt) (tok : Option Tok) : Statement (.vExp2 d a p n x tok) := by
  have h0 : (encodeFirst (.vExp2 d a p n x tok)).extractLsb' 24 8 = 0x0D#8 := up (up (up (up (up (up it)))))
  have h1 : (encodeFirst (.vExp2 d a p n x tok)).extractLsb' 18 6 = d := up (up (up (up (up (lo it)))))
  have h2 : (encodeFirst (.vExp2 d a p n x tok)).extractLsb' 12 6 = a := up (up (up (up (lo it))))
  have h3 : (encodeFirst (.vExp2 d a p n x tok)).extractLsb' 2 4 = p := up (up (lo it))
  have h4 : (encodeFirst (.vExp2 d a p n x tok)).extractLsb' 1 1 = n := up (lo it)
  have h5 : (encodeFirst (.vExp2 d a p n x tok)).extractLsb' 0 1 = VExt.bit x := lo it
  have h6 : (encodeFirst (.vExp2 d a p n x tok)).extractLsb' 6 6 = 0#6 := up (up (up (lo it)))
  have hb : ∀ i0 i1 tk, build .v (encodeFirst (.vExp2 d a p n x tok)) i0 i1 tk = some (.vExp2 (d) (a) (p) (n) (VExt.read (VExt.bit x) i0) tk) := by
    intro i0 i1 tk
    show buildV _ i0 i1 tk = _
    unfold buildV
    rw [h0]
    exact (if_pos h6).trans (by rw [h1, h2, h3, h4, h5])
  refine withImms _ .v _ rfl hb ?_ ?_ ?_
  · cases x with
    | none => rfl
    | some y =>
      show Instr.vExp2 d a p n (some (VExt.ofWord y.toWord)) tok = _
      rw [ofWord_toWord]
  · cases x <;> exact ⟨rfl, rfl, rfl, rfl, rfl⟩
  · cases x with
    | none => rfl
    | some y =>
      show Instr.extOk (.vExp2 d a p n (some (VExt.ofWord y.toWord)) none) = _
      rw [ofWord_toWord]; rfl

theorem vLog2 (d : BitVec 6) (a : BitVec 6) (p : BitVec 4) (n : BitVec 1) (x : Option VExt) (tok : Option Tok) : Statement (.vLog2 d a p n x tok) := by
  have h0 : (encodeFirst (.vLog2 d a p n x tok)).extractLsb' 24 8 = 0x0E#8 := up (up (up (up (up (up it)))))
  have h1 : (encodeFirst (.vLog2 d a p n x tok)).extractLsb' 18 6 = d := up (up (up (up (up (lo it)))))
  have h2 : (encodeFirst (.vLog2 d a p n x tok)).extractLsb' 12 6 = a := up (up (up (up (lo it))))
  have h3 : (encodeFirst (.vLog2 d a p n x tok)).extractLsb' 2 4 = p := up (up (lo it))
  have h4 : (encodeFirst (.vLog2 d a p n x tok)).extractLsb' 1 1 = n := up (lo it)
  have h5 : (encodeFirst (.vLog2 d a p n x tok)).extractLsb' 0 1 = VExt.bit x := lo it
  have h6 : (encodeFirst (.vLog2 d a p n x tok)).extractLsb' 6 6 = 0#6 := up (up (up (lo it)))
  have hb : ∀ i0 i1 tk, build .v (encodeFirst (.vLog2 d a p n x tok)) i0 i1 tk = some (.vLog2 (d) (a) (p) (n) (VExt.read (VExt.bit x) i0) tk) := by
    intro i0 i1 tk
    show buildV _ i0 i1 tk = _
    unfold buildV
    rw [h0]
    exact (if_pos h6).trans (by rw [h1, h2, h3, h4, h5])
  refine withImms _ .v _ rfl hb ?_ ?_ ?_
  · cases x with
    | none => rfl
    | some y =>
      show Instr.vLog2 d a p n (some (VExt.ofWord y.toWord)) tok = _
      rw [ofWord_toWord]
  · cases x <;> exact ⟨rfl, rfl, rfl, rfl, rfl⟩
  · cases x with
    | none => rfl
    | some y =>
      show Instr.extOk (.vLog2 d a p n (some (VExt.ofWord y.toWord)) none) = _
      rw [ofWord_toWord]; rfl

theorem vTanh (d : BitVec 6) (a : BitVec 6) (p : BitVec 4) (n : BitVec 1) (x : Option VExt) (tok : Option Tok) : Statement (.vTanh d a p n x tok) := by
  have h0 : (encodeFirst (.vTanh d a p n x tok)).extractLsb' 24 8 = 0x0F#8 := up (up (up (up (up (up it)))))
  have h1 : (encodeFirst (.vTanh d a p n x tok)).extractLsb' 18 6 = d := up (up (up (up (up (lo it)))))
  have h2 : (encodeFirst (.vTanh d a p n x tok)).extractLsb' 12 6 = a := up (up (up (up (lo it))))
  have h3 : (encodeFirst (.vTanh d a p n x tok)).extractLsb' 2 4 = p := up (up (lo it))
  have h4 : (encodeFirst (.vTanh d a p n x tok)).extractLsb' 1 1 = n := up (lo it)
  have h5 : (encodeFirst (.vTanh d a p n x tok)).extractLsb' 0 1 = VExt.bit x := lo it
  have h6 : (encodeFirst (.vTanh d a p n x tok)).extractLsb' 6 6 = 0#6 := up (up (up (lo it)))
  have hb : ∀ i0 i1 tk, build .v (encodeFirst (.vTanh d a p n x tok)) i0 i1 tk = some (.vTanh (d) (a) (p) (n) (VExt.read (VExt.bit x) i0) tk) := by
    intro i0 i1 tk
    show buildV _ i0 i1 tk = _
    unfold buildV
    rw [h0]
    exact (if_pos h6).trans (by rw [h1, h2, h3, h4, h5])
  refine withImms _ .v _ rfl hb ?_ ?_ ?_
  · cases x with
    | none => rfl
    | some y =>
      show Instr.vTanh d a p n (some (VExt.ofWord y.toWord)) tok = _
      rw [ofWord_toWord]
  · cases x <;> exact ⟨rfl, rfl, rfl, rfl, rfl⟩
  · cases x with
    | none => rfl
    | some y =>
      show Instr.extOk (.vTanh d a p n (some (VExt.ofWord y.toWord)) none) = _
      rw [ofWord_toWord]; rfl

theorem vIadd (d : BitVec 6) (a : BitVec 6) (b : BitVec 6) (p : BitVec 4) (n : BitVec 1) (x : Option VExt) (tok : Option Tok) : Statement (.vIadd d a b p n x tok) := by
  have h0 : (encodeFirst (.vIadd d a b p n x tok)).extractLsb' 24 8 = 0x10#8 := up (up (up (up (up (up it)))))
  have h1 : (encodeFirst (.vIadd d a b p n x tok)).extractLsb' 18 6 = d := up (up (up (up (up (lo it)))))
  have h2 : (encodeFirst (.vIadd d a b p n x tok)).extractLsb' 12 6 = a := up (up (up (up (lo it))))
  have h3 : (encodeFirst (.vIadd d a b p n x tok)).extractLsb' 6 6 = b := up (up (up (lo it)))
  have h4 : (encodeFirst (.vIadd d a b p n x tok)).extractLsb' 2 4 = p := up (up (lo it))
  have h5 : (encodeFirst (.vIadd d a b p n x tok)).extractLsb' 1 1 = n := up (lo it)
  have h6 : (encodeFirst (.vIadd d a b p n x tok)).extractLsb' 0 1 = VExt.bit x := lo it
  have hb : ∀ i0 i1 tk, build .v (encodeFirst (.vIadd d a b p n x tok)) i0 i1 tk = some (.vIadd (d) (a) (b) (p) (n) (VExt.read (VExt.bit x) i0) tk) := by
    intro i0 i1 tk
    show buildV _ i0 i1 tk = _
    unfold buildV
    rw [h0]
    show some _ = _
    rw [h1, h2, h3, h4, h5, h6]
  refine withImms _ .v _ rfl hb ?_ ?_ ?_
  · cases x with
    | none => rfl
    | some y =>
      show Instr.vIadd d a b p n (some (VExt.ofWord y.toWord)) tok = _
      rw [ofWord_toWord]
  · cases x <;> exact ⟨rfl, rfl, rfl, rfl, rfl⟩
  · cases x with
    | none => rfl
    | some y =>
      show Instr.extOk (.vIadd d a b p n (some (VExt.ofWord y.toWord)) none) = _
      rw [ofWord_toWord]; rfl

theorem vIsub (d : BitVec 6) (a : BitVec 6) (b : BitVec 6) (p : BitVec 4) (n : BitVec 1) (x : Option VExt) (tok : Option Tok) : Statement (.vIsub d a b p n x tok) := by
  have h0 : (encodeFirst (.vIsub d a b p n x tok)).extractLsb' 24 8 = 0x11#8 := up (up (up (up (up (up it)))))
  have h1 : (encodeFirst (.vIsub d a b p n x tok)).extractLsb' 18 6 = d := up (up (up (up (up (lo it)))))
  have h2 : (encodeFirst (.vIsub d a b p n x tok)).extractLsb' 12 6 = a := up (up (up (up (lo it))))
  have h3 : (encodeFirst (.vIsub d a b p n x tok)).extractLsb' 6 6 = b := up (up (up (lo it)))
  have h4 : (encodeFirst (.vIsub d a b p n x tok)).extractLsb' 2 4 = p := up (up (lo it))
  have h5 : (encodeFirst (.vIsub d a b p n x tok)).extractLsb' 1 1 = n := up (lo it)
  have h6 : (encodeFirst (.vIsub d a b p n x tok)).extractLsb' 0 1 = VExt.bit x := lo it
  have hb : ∀ i0 i1 tk, build .v (encodeFirst (.vIsub d a b p n x tok)) i0 i1 tk = some (.vIsub (d) (a) (b) (p) (n) (VExt.read (VExt.bit x) i0) tk) := by
    intro i0 i1 tk
    show buildV _ i0 i1 tk = _
    unfold buildV
    rw [h0]
    show some _ = _
    rw [h1, h2, h3, h4, h5, h6]
  refine withImms _ .v _ rfl hb ?_ ?_ ?_
  · cases x with
    | none => rfl
    | some y =>
      show Instr.vIsub d a b p n (some (VExt.ofWord y.toWord)) tok = _
      rw [ofWord_toWord]
  · cases x <;> exact ⟨rfl, rfl, rfl, rfl, rfl⟩
  · cases x with
    | none => rfl
    | some y =>
      show Instr.extOk (.vIsub d a b p n (some (VExt.ofWord y.toWord)) none) = _
      rw [ofWord_toWord]; rfl

theorem vImul (d : BitVec 6) (a : BitVec 6) (b : BitVec 6) (p : BitVec 4) (n : BitVec 1) (x : Option VExt) (tok : Option Tok) : Statement (.vImul d a b p n x tok) := by
  have h0 : (encodeFirst (.vImul d a b p n x tok)).extractLsb' 24 8 = 0x12#8 := up (up (up (up (up (up it)))))
  have h1 : (encodeFirst (.vImul d a b p n x tok)).extractLsb' 18 6 = d := up (up (up (up (up (lo it)))))
  have h2 : (encodeFirst (.vImul d a b p n x tok)).extractLsb' 12 6 = a := up (up (up (up (lo it))))
  have h3 : (encodeFirst (.vImul d a b p n x tok)).extractLsb' 6 6 = b := up (up (up (lo it)))
  have h4 : (encodeFirst (.vImul d a b p n x tok)).extractLsb' 2 4 = p := up (up (lo it))
  have h5 : (encodeFirst (.vImul d a b p n x tok)).extractLsb' 1 1 = n := up (lo it)
  have h6 : (encodeFirst (.vImul d a b p n x tok)).extractLsb' 0 1 = VExt.bit x := lo it
  have hb : ∀ i0 i1 tk, build .v (encodeFirst (.vImul d a b p n x tok)) i0 i1 tk = some (.vImul (d) (a) (b) (p) (n) (VExt.read (VExt.bit x) i0) tk) := by
    intro i0 i1 tk
    show buildV _ i0 i1 tk = _
    unfold buildV
    rw [h0]
    show some _ = _
    rw [h1, h2, h3, h4, h5, h6]
  refine withImms _ .v _ rfl hb ?_ ?_ ?_
  · cases x with
    | none => rfl
    | some y =>
      show Instr.vImul d a b p n (some (VExt.ofWord y.toWord)) tok = _
      rw [ofWord_toWord]
  · cases x <;> exact ⟨rfl, rfl, rfl, rfl, rfl⟩
  · cases x with
    | none => rfl
    | some y =>
      show Instr.extOk (.vImul d a b p n (some (VExt.ofWord y.toWord)) none) = _
      rw [ofWord_toWord]; rfl

theorem vImin (d : BitVec 6) (a : BitVec 6) (b : BitVec 6) (p : BitVec 4) (n : BitVec 1) (x : Option VExt) (tok : Option Tok) : Statement (.vImin d a b p n x tok) := by
  have h0 : (encodeFirst (.vImin d a b p n x tok)).extractLsb' 24 8 = 0x13#8 := up (up (up (up (up (up it)))))
  have h1 : (encodeFirst (.vImin d a b p n x tok)).extractLsb' 18 6 = d := up (up (up (up (up (lo it)))))
  have h2 : (encodeFirst (.vImin d a b p n x tok)).extractLsb' 12 6 = a := up (up (up (up (lo it))))
  have h3 : (encodeFirst (.vImin d a b p n x tok)).extractLsb' 6 6 = b := up (up (up (lo it)))
  have h4 : (encodeFirst (.vImin d a b p n x tok)).extractLsb' 2 4 = p := up (up (lo it))
  have h5 : (encodeFirst (.vImin d a b p n x tok)).extractLsb' 1 1 = n := up (lo it)
  have h6 : (encodeFirst (.vImin d a b p n x tok)).extractLsb' 0 1 = VExt.bit x := lo it
  have hb : ∀ i0 i1 tk, build .v (encodeFirst (.vImin d a b p n x tok)) i0 i1 tk = some (.vImin (d) (a) (b) (p) (n) (VExt.read (VExt.bit x) i0) tk) := by
    intro i0 i1 tk
    show buildV _ i0 i1 tk = _
    unfold buildV
    rw [h0]
    show some _ = _
    rw [h1, h2, h3, h4, h5, h6]
  refine withImms _ .v _ rfl hb ?_ ?_ ?_
  · cases x with
    | none => rfl
    | some y =>
      show Instr.vImin d a b p n (some (VExt.ofWord y.toWord)) tok = _
      rw [ofWord_toWord]
  · cases x <;> exact ⟨rfl, rfl, rfl, rfl, rfl⟩
  · cases x with
    | none => rfl
    | some y =>
      show Instr.extOk (.vImin d a b p n (some (VExt.ofWord y.toWord)) none) = _
      rw [ofWord_toWord]; rfl

theorem vNmin (d : BitVec 6) (a : BitVec 6) (b : BitVec 6) (p : BitVec 4) (n : BitVec 1) (x : Option VExt) (tok : Option Tok) : Statement (.vNmin d a b p n x tok) := by
  have h0 : (encodeFirst (.vNmin d a b p n x tok)).extractLsb' 24 8 = 0x14#8 := up (up (up (up (up (up it)))))
  have h1 : (encodeFirst (.vNmin d a b p n x tok)).extractLsb' 18 6 = d := up (up (up (up (up (lo it)))))
  have h2 : (encodeFirst (.vNmin d a b p n x tok)).extractLsb' 12 6 = a := up (up (up (up (lo it))))
  have h3 : (encodeFirst (.vNmin d a b p n x tok)).extractLsb' 6 6 = b := up (up (up (lo it)))
  have h4 : (encodeFirst (.vNmin d a b p n x tok)).extractLsb' 2 4 = p := up (up (lo it))
  have h5 : (encodeFirst (.vNmin d a b p n x tok)).extractLsb' 1 1 = n := up (lo it)
  have h6 : (encodeFirst (.vNmin d a b p n x tok)).extractLsb' 0 1 = VExt.bit x := lo it
  have hb : ∀ i0 i1 tk, build .v (encodeFirst (.vNmin d a b p n x tok)) i0 i1 tk = some (.vNmin (d) (a) (b) (p) (n) (VExt.read (VExt.bit x) i0) tk) := by
    intro i0 i1 tk
    show buildV _ i0 i1 tk = _
    unfold buildV
    rw [h0]
    show some _ = _
    rw [h1, h2, h3, h4, h5, h6]
  refine withImms _ .v _ rfl hb ?_ ?_ ?_
  · cases x with
    | none => rfl
    | some y =>
      show Instr.vNmin d a b p n (some (VExt.ofWord y.toWord)) tok = _
      rw [ofWord_toWord]
  · cases x <;> exact ⟨rfl, rfl, rfl, rfl, rfl⟩
  · cases x with
    | none => rfl
    | some y =>
      show Instr.extOk (.vNmin d a b p n (some (VExt.ofWord y.toWord)) none) = _
      rw [ofWord_toWord]; rfl

theorem vImax (d : BitVec 6) (a : BitVec 6) (b : BitVec 6) (p : BitVec 4) (n : BitVec 1) (x : Option VExt) (tok : Option Tok) : Statement (.vImax d a b p n x tok) := by
  have h0 : (encodeFirst (.vImax d a b p n x tok)).extractLsb' 24 8 = 0x15#8 := up (up (up (up (up (up it)))))
  have h1 : (encodeFirst (.vImax d a b p n x tok)).extractLsb' 18 6 = d := up (up (up (up (up (lo it)))))
  have h2 : (encodeFirst (.vImax d a b p n x tok)).extractLsb' 12 6 = a := up (up (up (up (lo it))))
  have h3 : (encodeFirst (.vImax d a b p n x tok)).extractLsb' 6 6 = b := up (up (up (lo it)))
  have h4 : (encodeFirst (.vImax d a b p n x tok)).extractLsb' 2 4 = p := up (up (lo it))
  have h5 : (encodeFirst (.vImax d a b p n x tok)).extractLsb' 1 1 = n := up (lo it)
  have h6 : (encodeFirst (.vImax d a b p n x tok)).extractLsb' 0 1 = VExt.bit x := lo it
  have hb : ∀ i0 i1 tk, build .v (encodeFirst (.vImax d a b p n x tok)) i0 i1 tk = some (.vImax (d) (a) (b) (p) (n) (VExt.read (VExt.bit x) i0) tk) := by
    intro i0 i1 tk
    show buildV _ i0 i1 tk = _
    unfold buildV
    rw [h0]
    show some _ = _
    rw [h1, h2, h3, h4, h5, h6]
  refine withImms _ .v _ rfl hb ?_ ?_ ?_
  · cases x with
    | none => rfl
    | some y =>
      show Instr.vImax d a b p n (some (VExt.ofWord y.toWord)) tok = _
      rw [ofWord_toWord]
  · cases x <;> exact ⟨rfl, rfl, rfl, rfl, rfl⟩
  · cases x with
    | none => rfl
    | some y =>
      show Instr.extOk (.vImax d a b p n (some (VExt.ofWord y.toWord)) none) = _
      rw [ofWord_toWord]; rfl

theorem vNmax (d : BitVec 6) (a : BitVec 6) (b : BitVec 6) (p : BitVec 4) (n : BitVec 1) (x : Option VExt) (tok : Option Tok) : Statement (.vNmax d a b p n x tok) := by
  have h0 : (encodeFirst (.vNmax d a b p n x tok)).extractLsb' 24 8 = 0x16#8 := up (up (up (up (up (up it)))))
  have h1 : (encodeFirst (.vNmax d a b p n x tok)).extractLsb' 18 6 = d := up (up (up (up (up (lo it)))))
  have h2 : (encodeFirst (.vNmax d a b p n x tok)).extractLsb' 12 6 = a := up (up (up (up (lo it))))
  have h3 : (encodeFirst (.vNmax d a b p n x tok)).extractLsb' 6 6 = b := up (up (up (lo it)))
  have h4 : (encodeFirst (.vNmax d a b p n x tok)).extractLsb' 2 4 = p := up (up (lo it))
  have h5 : (encodeFirst (.vNmax d a b p n x tok)).extractLsb' 1 1 = n := up (lo it)
  have h6 : (encodeFirst (.vNmax d a b p n x tok)).extractLsb' 0 1 = VExt.bit x := lo it
  have hb : ∀ i0 i1 tk, build .v (encodeFirst (.vNmax d a b p n x tok)) i0 i1 tk = some (.vNmax (d) (a) (b) (p) (n) (VExt.read (VExt.bit x) i0) tk) := by
    intro i0 i1 tk
    show buildV _ i0 i1 tk = _
    unfold buildV
    rw [h0]
    show some _ = _
    rw [h1, h2, h3, h4, h5, h6]
  refine withImms _ .v _ rfl hb ?_ ?_ ?_
  · cases x with
    | none => rfl
    | some y =>
      show Instr.vNmax d a b p n (some (VExt.ofWord y.toWord)) tok = _
      rw [ofWord_toWord]
  · cases x <;> exact ⟨rfl, rfl, rfl, rfl, rfl⟩
  · cases x with
    | none => rfl
    | some y =>
      show Instr.extOk (.vNmax d a b p n (some (VExt.ofWord y.toWord)) none) = _
      rw [ofWord_toWord]; rfl

theorem vIabs (d : BitVec 6) (a : BitVec 6) (p : BitVec 4) (n : BitVec 1) (x : Option VExt) (tok : Option Tok) : Statement (.vIabs d a p n x tok) := by
  have h0 : (encodeFirst (.vIabs d a p n x tok)).extractLsb' 24 8 = 0x17#8 := up (up (up (up (up (up it)))))
  have h1 : (encodeFirst (.vIabs d a p n x tok)).extractLsb' 18 6 = d := up (up (up (up (up (lo it)))))
  have h2 : (encodeFirst (.vIabs d a p n x tok)).extractLsb' 12 6 = a := up (up (up (up (lo it))))
  have h3 : (encodeFirst (.vIabs d a p n x tok)).extractLsb' 2 4 = p := up (up (lo it))
  have h4 : (encodeFirst (.vIabs d a p n x tok)).extractLsb' 1 1 = n := up (lo it)
  have h5 : (encodeFirst (.vIabs d a p n x tok)).extractLsb' 0 1 = VExt.bit x := lo it
  have h6 : (encodeFirst (.vIabs d a p n x tok)).extractLsb' 6 6 = 0#6 := up (up (up (lo it)))
  have hb : ∀ i0 i1 tk, build .v (encodeFirst (.vIabs d a p n x tok)) i0 i1 tk = some (.vIabs (d) (a) (p) (n) (VExt.read (VExt.bit x) i0) tk) := by
    intro i0 i1 tk
    show buildV _ i0 i1 tk = _
    unfold buildV
    rw [h0]
    exact (if_pos h6).trans (by rw [h1, h2, h3, h4, h5])
  refine withImms _ .v _ rfl hb ?_ ?_ ?_
  · cases x with
    | none => rfl
    | some y =>
      show Instr.vIabs d a p n (some (VExt.ofWord y.toWord)) tok = _
      rw [ofWord_toWord]
  · cases x <;> exact ⟨rfl, rfl, rfl, rfl, rfl⟩
  · cases x with
    | none => rfl
    | some y =>
      show Instr.extOk (.vIabs d a p n (some (VExt.ofWord y.toWord)) none) = _
      rw [ofWord_toWord]; rfl

theorem vAnd (d : BitVec 6) (a : BitVec 6) (b : BitVec 6) (p : BitVec 4) (n : BitVec 1) (x : Option VExt) (tok : Option Tok) : Statement (.vAnd d a b p n x tok) := by
  have h0 : (encodeFirst (.vAnd d a b p n x tok)).extractLsb' 24 8 = 0x18#8 := up (up (up (up (up (up it)))))
  have h1 : (encodeFirst (.vAnd d a b p n x tok)).extractLsb' 18 6 = d := up (up (up (up (up (lo it)))))
  have h2 : (encodeFirst (.vAnd d a b p n x tok)).extractLsb' 12 6 = a := up (up (up (up (lo it))))
  have h3 : (encodeFirst (.vAnd d a b p n x tok)).extractLsb' 6 6 = b := up (up (up (lo it)))
  have h4 : (encodeFirst (.vAnd d a b p n x tok)).extractLsb' 2 4 = p := up (up (lo it))
  have h5 : (encodeFirst (.vAnd d a b p n x tok)).extractLsb' 1 1 = n := up (lo it)
  have h6 : (encodeFirst (.vAnd d a b p n x tok)).extractLsb' 0 1 = VExt.bit x := lo it
  have hb : ∀ i0 i1 tk, build .v (encodeFirst (.vAnd d a b p n x tok)) i0 i1 tk = some (.vAnd (d) (a) (b) (p) (n) (VExt.read (VExt.bit x) i0) tk) := by
    intro i0 i1 tk
    show buildV _ i0 i1 tk = _
    unfold buildV
    rw [h0]
    show some _ = _
    rw [h1, h2, h3, h4, h5, h6]
  refine withImms _ .v _ rfl hb ?_ ?_ ?_
  · cases x with
    | none => rfl
    | some y =>
      show Instr.vAnd d a b p n (some (VExt.ofWord y.toWord)) tok = _
      rw [ofWord_toWord]
  · cases x <;> exact ⟨rfl, rfl, rfl, rfl, rfl⟩
  · cases x with
    | none => rfl
    | some y =>
      show Instr.extOk (.vAnd d a b p n (some (VExt.ofWord y.toWord)) none) = _
      rw [ofWord_toWord]; rfl

theorem vOr (d : BitVec 6) (a : BitVec 6) (b : BitVec 6) (p : BitVec 4) (n : BitVec 1) (x : Option VExt) (tok : Option Tok) : Statement (.vOr d a b p n x tok) := by
  have h0 : (encodeFirst (.vOr d a b p n x tok)).extractLsb' 24 8 = 0x19#8 := up (up (up (up (up (up it)))))
  have h1 : (encodeFirst (.vOr d a b p n x tok)).extractLsb' 18 6 = d := up (up (up (up (up (lo it)))))
  have h2 : (encodeFirst (.vOr d a b p n x tok)).extractLsb' 12 6 = a := up (up (up (up (lo it))))
  have h3 : (encodeFirst (.vOr d a b p n x tok)).extractLsb' 6 6 = b := up (up (up (lo it)))
  have h4 : (encodeFirst (.vOr d a b p n x tok)).extractLsb' 2 4 = p := up (up (lo it))
  have h5 : (encodeFirst (.vOr d a b p n x tok)).extractLsb' 1 1 = n := up (lo it)
  have h6 : (encodeFirst (.vOr d a b p n x tok)).extractLsb' 0 1 = VExt.bit x := lo it
  have hb : ∀ i0 i1 tk, build .v (encodeFirst (.vOr d a b p n x tok)) i0 i1 tk = some (.vOr (d) (a) (b) (p) (n) (VExt.read (VExt.bit x) i0) tk) := by
    intro i0 i1 tk
    show buildV _ i0 i1 tk = _
    unfold buildV
    rw [h0]
    show some _ = _
    rw [h1, h2, h3, h4, h5, h6]
  refine withImms _ .v _ rfl hb ?_ ?_ ?_
  · cases x with
    | none => rfl
    | some y =>
      show Instr.vOr d a b p n (some (VExt.ofWord y.toWord)) tok = _
      rw [ofWord_toWord]
  · cases x <;> exact ⟨rfl, rfl, rfl, rfl, rfl⟩
  · cases x with
    | none => rfl
    | some y =>
      show Instr.extOk (.vOr d a b p n (some (VExt.ofWord y.toWord)) none) = _
      rw [ofWord_toWord]; rfl

theorem vXor (d : BitVec 6) (a : BitVec 6) (b : BitVec 6) (p : BitVec 4) (n : BitVec 1) (x : Option VExt) (tok : Option Tok) : Statement (.vXor d a b p n x tok) := by
  have h0 : (encodeFirst (.vXor d a b p n x tok)).extractLsb' 24 8 = 0x1A#8 := up (up (up (up (up (up it)))))
  have h1 : (encodeFirst (.vXor d a b p n x tok)).extractLsb' 18 6 = d := up (up (up (up (up (lo it)))))
  have h2 : (encodeFirst (.vXor d a b p n x tok)).extractLsb' 12 6 = a := up (up (up (up (lo it))))
  have h3 : (encodeFirst (.vXor d a b p n x tok)).extractLsb' 6 6 = b := up (up (up (lo it)))
  have h4 : (encodeFirst (.vXor d a b p n x tok)).extractLsb' 2 4 = p := up (up (lo it))
  have h5 : (encodeFirst (.vXor d a b p n x tok)).extractLsb' 1 1 = n := up (lo it)
  have h6 : (encodeFirst (.vXor d a b p n x tok)).extractLsb' 0 1 = VExt.bit x := lo it
  have hb : ∀ i0 i1 tk, build .v (encodeFirst (.vXor d a b p n x tok)) i0 i1 tk = some (.vXor (d) (a) (b) (p) (n) (VExt.read (VExt.bit x) i0) tk) := by
    intro i0 i1 tk
    show buildV _ i0 i1 tk = _
    unfold buildV
    rw [h0]
    show some _ = _
    rw [h1, h2, h3, h4, h5, h6]
  refine withImms _ .v _ rfl hb ?_ ?_ ?_
  · cases x with
    | none => rfl
    | some y =>
      show Instr.vXor d a b p n (some (VExt.ofWord y.toWord)) tok = _
      rw [ofWord_toWord]
  · cases x <;> exact ⟨rfl, rfl, rfl, rfl, rfl⟩
  · cases x with
    | none => rfl
    | some y =>
      show Instr.extOk (.vXor d a b p n (some (VExt.ofWord y.toWord)) none) = _
      rw [ofWord_toWord]; rfl

theorem vNot (d : BitVec 6) (a : BitVec 6) (p : BitVec 4) (n : BitVec 1) (x : Option VExt) (tok : Option Tok) : Statement (.vNot d a p n x tok) := by
  have h0 : (encodeFirst (.vNot d a p n x tok)).extractLsb' 24 8 = 0x1B#8 := up (up (up (up (up (up it)))))
  have h1 : (encodeFirst (.vNot d a p n x tok)).extractLsb' 18 6 = d := up (up (up (up (up (lo it)))))
  have h2 : (encodeFirst (.vNot d a p n x tok)).extractLsb' 12 6 = a := up (up (up (up (lo it))))
  have h3 : (encodeFirst (.vNot d a p n x tok)).extractLsb' 2 4 = p := up (up (lo it))
  have h4 : (encodeFirst (.vNot d a p n x tok)).extractLsb' 1 1 = n := up (lo it)
  have h5 : (encodeFirst (.vNot d a p n x tok)).extractLsb' 0 1 = VExt.bit x := lo it
  have h6 : (encodeFirst (.vNot d a p n x tok)).extractLsb' 6 6 = 0#6 := up (up (up (lo it)))
  have hb : ∀ i0 i1 tk, build .v (encodeFirst (.vNot d a p n x tok)) i0 i1 tk = some (.vNot (d) (a) (p) (n) (VExt.read (VExt.bit x) i0) tk) := by
    intro i0 i1 tk
    show buildV _ i0 i1 tk = _
    unfold buildV
    rw [h0]
    exact (if_pos h6).trans (by rw [h1, h2, h3, h4, h5])
  refine withImms _ .v _ rfl hb ?_ ?_ ?_
  · cases x with
    | none => rfl
    | some y =>
      show Instr.vNot d a p n (some (VExt.ofWord y.toWord)) tok = _
      rw [ofWord_toWord]
  · cases x <;> exact ⟨rfl, rfl, rfl, rfl, rfl⟩
  · cases x with
    | none => rfl
    | some y =>
      show Instr.extOk (.vNot d a p n (some (VExt.ofWord y.toWord)) none) = _
      rw [ofWord_toWord]; rfl

theorem vShl (d : BitVec 6) (a : BitVec 6) (b : BitVec 6) (p : BitVec 4) (n : BitVec 1) (x : Option VExt) (tok : Option Tok) : Statement (.vShl d a b p n x tok) := by
  have h0 : (encodeFirst (.vShl d a b p n x tok)).extractLsb' 24 8 = 0x1C#8 := up (up (up (up (up (up it)))))
  have h1 : (encodeFirst (.vShl d a b p n x tok)).extractLsb' 18 6 = d := up (up (up (up (up (lo it)))))
  have h2 : (encodeFirst (.vShl d a b p n x tok)).extractLsb' 12 6 = a := up (up (up (up (lo it))))
  have h3 : (encodeFirst (.vShl d a b p n x tok)).extractLsb' 6 6 = b := up (up (up (lo it)))
  have h4 : (encodeFirst (.vShl d a b p n x tok)).extractLsb' 2 4 = p := up (up (lo it))
  have h5 : (encodeFirst (.vShl d a b p n x tok)).extractLsb' 1 1 = n := up (lo it)
  have h6 : (encodeFirst (.vShl d a b p n x tok)).extractLsb' 0 1 = VExt.bit x := lo it
  have hb : ∀ i0 i1 tk, build .v (encodeFirst (.vShl d a b p n x tok)) i0 i1 tk = some (.vShl (d) (a) (b) (p) (n) (VExt.read (VExt.bit x) i0) tk) := by
    intro i0 i1 tk
    show buildV _ i0 i1 tk = _
    unfold buildV
    rw [h0]
    show some _ = _
    rw [h1, h2, h3, h4, h5, h6]
  refine withImms _ .v _ rfl hb ?_ ?_ ?_
  · cases x with
    | none => rfl
    | some y =>
      show Instr.vShl d a b p n (some (VExt.ofWord y.toWord)) tok = _
      rw [ofWord_toWord]
  · cases x <;> exact ⟨rfl, rfl, rfl, rfl, rfl⟩
  · cases x with
    | none => rfl
    | some y =>
      show Instr.extOk (.vShl d a b p n (some (VExt.ofWord y.toWord)) none) = _
      rw [ofWord_toWord]; rfl

theorem vShr (d : BitVec 6) (a : BitVec 6) (b : BitVec 6) (p : BitVec 4) (n : BitVec 1) (x : Option VExt) (tok : Option Tok) : Statement (.vShr d a b p n x tok) := by
  have h0 : (encodeFirst (.vShr d a b p n x tok)).extractLsb' 24 8 = 0x1D#8 := up (up (up (up (up (up it)))))
  have h1 : (encodeFirst (.vShr d a b p n x tok)).extractLsb' 18 6 = d := up (up (up (up (up (lo it)))))
  have h2 : (encodeFirst (.vShr d a b p n x tok)).extractLsb' 12 6 = a := up (up (up (up (lo it))))
  have h3 : (encodeFirst (.vShr d a b p n x tok)).extractLsb' 6 6 = b := up (up (up (lo it)))
  have h4 : (encodeFirst (.vShr d a b p n x tok)).extractLsb' 2 4 = p := up (up (lo it))
  have h5 : (encodeFirst (.vShr d a b p n x tok)).extractLsb' 1 1 = n := up (lo it)
  have h6 : (encodeFirst (.vShr d a b p n x tok)).extractLsb' 0 1 = VExt.bit x := lo it
  have hb : ∀ i0 i1 tk, build .v (encodeFirst (.vShr d a b p n x tok)) i0 i1 tk = some (.vShr (d) (a) (b) (p) (n) (VExt.read (VExt.bit x) i0) tk) := by
    intro i0 i1 tk
    show buildV _ i0 i1 tk = _
    unfold buildV
    rw [h0]
    show some _ = _
    rw [h1, h2, h3, h4, h5, h6]
  refine withImms _ .v _ rfl hb ?_ ?_ ?_
  · cases x with
    | none => rfl
    | some y =>
      show Instr.vShr d a b p n (some (VExt.ofWord y.toWord)) tok = _
      rw [ofWord_toWord]
  · cases x <;> exact ⟨rfl, rfl, rfl, rfl, rfl⟩
  · cases x with
    | none => rfl
    | some y =>
      show Instr.extOk (.vShr d a b p n (some (VExt.ofWord y.toWord)) none) = _
      rw [ofWord_toWord]; rfl

theorem vSar (d : BitVec 6) (a : BitVec 6) (b : BitVec 6) (p : BitVec 4) (n : BitVec 1) (x : Option VExt) (tok : Option Tok) : Statement (.vSar d a b p n x tok) := by
  have h0 : (encodeFirst (.vSar d a b p n x tok)).extractLsb' 24 8 = 0x1E#8 := up (up (up (up (up (up it)))))
  have h1 : (encodeFirst (.vSar d a b p n x tok)).extractLsb' 18 6 = d := up (up (up (up (up (lo it)))))
  have h2 : (encodeFirst (.vSar d a b p n x tok)).extractLsb' 12 6 = a := up (up (up (up (lo it))))
  have h3 : (encodeFirst (.vSar d a b p n x tok)).extractLsb' 6 6 = b := up (up (up (lo it)))
  have h4 : (encodeFirst (.vSar d a b p n x tok)).extractLsb' 2 4 = p := up (up (lo it))
  have h5 : (encodeFirst (.vSar d a b p n x tok)).extractLsb' 1 1 = n := up (lo it)
  have h6 : (encodeFirst (.vSar d a b p n x tok)).extractLsb' 0 1 = VExt.bit x := lo it
  have hb : ∀ i0 i1 tk, build .v (encodeFirst (.vSar d a b p n x tok)) i0 i1 tk = some (.vSar (d) (a) (b) (p) (n) (VExt.read (VExt.bit x) i0) tk) := by
    intro i0 i1 tk
    show buildV _ i0 i1 tk = _
    unfold buildV
    rw [h0]
    show some _ = _
    rw [h1, h2, h3, h4, h5, h6]
  refine withImms _ .v _ rfl hb ?_ ?_ ?_
  · cases x with
    | none => rfl
    | some y =>
      show Instr.vSar d a b p n (some (VExt.ofWord y.toWord)) tok = _
      rw [ofWord_toWord]
  · cases x <;> exact ⟨rfl, rfl, rfl, rfl, rfl⟩
  · cases x with
    | none => rfl
    | some y =>
      show Instr.extOk (.vSar d a b p n (some (VExt.ofWord y.toWord)) none) = _
      rw [ofWord_toWord]; rfl

theorem vFsh (d : BitVec 6) (a : BitVec 6) (b : BitVec 6) (p : BitVec 4) (n : BitVec 1) (x : VExt) (tok : Option Tok) : Statement (.vFsh d a b p n x tok) := by
  have h0 : (encodeFirst (.vFsh d a b p n x tok)).extractLsb' 24 8 = 0x1F#8 := up (up (up (up (up (up it)))))
  have h1 : (encodeFirst (.vFsh d a b p n x tok)).extractLsb' 18 6 = d := up (up (up (up (up (lo it)))))
  have h2 : (encodeFirst (.vFsh d a b p n x tok)).extractLsb' 12 6 = a := up (up (up (up (lo it))))
  have h3 : (encodeFirst (.vFsh d a b p n x tok)).extractLsb' 6 6 = b := up (up (up (lo it)))
  have h4 : (encodeFirst (.vFsh d a b p n x tok)).extractLsb' 2 4 = p := up (up (lo it))
  have h5 : (encodeFirst (.vFsh d a b p n x tok)).extractLsb' 1 1 = n := up (lo it)
  have h6 : (encodeFirst (.vFsh d a b p n x tok)).extractLsb' 0 1 = 1#1 := lo it
  have hb : ∀ i0 i1 tk, build .v (encodeFirst (.vFsh d a b p n x tok)) i0 i1 tk = some (.vFsh (d) (a) (b) (p) (n) (VExt.ofWord i0) tk) := by
    intro i0 i1 tk
    show buildV _ i0 i1 tk = _
    unfold buildV
    rw [h0]
    exact (if_pos h6).trans (by rw [h1, h2, h3, h4, h5])
  refine withImms _ .v _ rfl hb ?_ ⟨rfl, rfl, rfl, rfl, rfl⟩ ?_
  · show Instr.vFsh d a b p n (VExt.ofWord x.toWord) tok = _
    rw [ofWord_toWord]
  · show Instr.extOk (.vFsh d a b p n (VExt.ofWord x.toWord) none) = _
    rw [ofWord_toWord]; rfl

theorem vClz (d : BitVec 6) (a : BitVec 6) (p : BitVec 4) (n : BitVec 1) (x : Option VExt) (tok : Option Tok) : Statement (.vClz d a p n x tok) := by
  have h0 : (encodeFirst (.vClz d a p n x tok)).extractLsb' 24 8 = 0x20#8 := up (up (up (up (up (up it)))))
  have h1 : (encodeFirst (.vClz d a p n x tok)).extractLsb' 18 6 = d := up (up (up (up (up (lo it)))))
  have h2 : (encodeFirst (.vClz d a p n x tok)).extractLsb' 12 6 = a := up (up (up (up (lo it))))
  have h3 : (encodeFirst (.vClz d a p n x tok)).extractLsb' 2 4 = p := up (up (lo it))
  have h4 : (encodeFirst (.vClz d a p n x tok)).extractLsb' 1 1 = n := up (lo it)
  have h5 : (encodeFirst (.vClz d a p n x tok)).extractLsb' 0 1 = VExt.bit x := lo it
  have h6 : (encodeFirst (.vClz d a p n x tok)).extractLsb' 6 6 = 0#6 := up (up (up (lo it)))
  have hb : ∀ i0 i1 tk, build .v (encodeFirst (.vClz d a p n x tok)) i0 i1 tk = some (.vClz (d) (a) (p) (n) (VExt.read (VExt.bit x) i0) tk) := by
    intro i0 i1 tk
    show buildV _ i0 i1 tk = _
    unfold buildV
    rw [h0]
    exact (if_pos h6).trans (by rw [h1, h2, h3, h4, h5])
  refine withImms _ .v _ rfl hb ?_ ?_ ?_
  · cases x with
    | none => rfl
    | some y =>
      show Instr.vClz d a p n (some (VExt.ofWord y.toWord)) tok = _
      rw [ofWord_toWord]
  · cases x <;> exact ⟨rfl, rfl, rfl, rfl, rfl⟩
  · cases x with
    | none => rfl
    | some y =>
      show Instr.extOk (.vClz d a p n (some (VExt.ofWord y.toWord)) none) = _
      rw [ofWord_toWord]; rfl

theorem vPopc (d : BitVec 6) (a : BitVec 6) (p : BitVec 4) (n : BitVec 1) (x : Option VExt) (tok : Option Tok) : Statement (.vPopc d a p n x tok) := by
  have h0 : (encodeFirst (.vPopc d a p n x tok)).extractLsb' 24 8 = 0x21#8 := up (up (up (up (up (up it)))))
  have h1 : (encodeFirst (.vPopc d a p n x tok)).extractLsb' 18 6 = d := up (up (up (up (up (lo it)))))
  have h2 : (encodeFirst (.vPopc d a p n x tok)).extractLsb' 12 6 = a := up (up (up (up (lo it))))
  have h3 : (encodeFirst (.vPopc d a p n x tok)).extractLsb' 2 4 = p := up (up (lo it))
  have h4 : (encodeFirst (.vPopc d a p n x tok)).extractLsb' 1 1 = n := up (lo it)
  have h5 : (encodeFirst (.vPopc d a p n x tok)).extractLsb' 0 1 = VExt.bit x := lo it
  have h6 : (encodeFirst (.vPopc d a p n x tok)).extractLsb' 6 6 = 0#6 := up (up (up (lo it)))
  have hb : ∀ i0 i1 tk, build .v (encodeFirst (.vPopc d a p n x tok)) i0 i1 tk = some (.vPopc (d) (a) (p) (n) (VExt.read (VExt.bit x) i0) tk) := by
    intro i0 i1 tk
    show buildV _ i0 i1 tk = _
    unfold buildV
    rw [h0]
    exact (if_pos h6).trans (by rw [h1, h2, h3, h4, h5])
  refine withImms _ .v _ rfl hb ?_ ?_ ?_
  · cases x with
    | none => rfl
    | some y =>
      show Instr.vPopc d a p n (some (VExt.ofWord y.toWord)) tok = _
      rw [ofWord_toWord]
  · cases x <;> exact ⟨rfl, rfl, rfl, rfl, rfl⟩
  · cases x with
    | none => rfl
    | some y =>
      show Instr.extOk (.vPopc d a p n (some (VExt.ofWord y.toWord)) none) = _
      rw [ofWord_toWord]; rfl

theorem vFfs (d : BitVec 6) (a : BitVec 6) (p : BitVec 4) (n : BitVec 1) (x : Option VExt) (tok : Option Tok) : Statement (.vFfs d a p n x tok) := by
  have h0 : (encodeFirst (.vFfs d a p n x tok)).extractLsb' 24 8 = 0x22#8 := up (up (up (up (up (up it)))))
  have h1 : (encodeFirst (.vFfs d a p n x tok)).extractLsb' 18 6 = d := up (up (up (up (up (lo it)))))
  have h2 : (encodeFirst (.vFfs d a p n x tok)).extractLsb' 12 6 = a := up (up (up (up (lo it))))
  have h3 : (encodeFirst (.vFfs d a p n x tok)).extractLsb' 2 4 = p := up (up (lo it))
  have h4 : (encodeFirst (.vFfs d a p n x tok)).extractLsb' 1 1 = n := up (lo it)
  have h5 : (encodeFirst (.vFfs d a p n x tok)).extractLsb' 0 1 = VExt.bit x := lo it
  have h6 : (encodeFirst (.vFfs d a p n x tok)).extractLsb' 6 6 = 0#6 := up (up (up (lo it)))
  have hb : ∀ i0 i1 tk, build .v (encodeFirst (.vFfs d a p n x tok)) i0 i1 tk = some (.vFfs (d) (a) (p) (n) (VExt.read (VExt.bit x) i0) tk) := by
    intro i0 i1 tk
    show buildV _ i0 i1 tk = _
    unfold buildV
    rw [h0]
    exact (if_pos h6).trans (by rw [h1, h2, h3, h4, h5])
  refine withImms _ .v _ rfl hb ?_ ?_ ?_
  · cases x with
    | none => rfl
    | some y =>
      show Instr.vFfs d a p n (some (VExt.ofWord y.toWord)) tok = _
      rw [ofWord_toWord]
  · cases x <;> exact ⟨rfl, rfl, rfl, rfl, rfl⟩
  · cases x with
    | none => rfl
    | some y =>
      show Instr.extOk (.vFfs d a p n (some (VExt.ofWord y.toWord)) none) = _
      rw [ofWord_toWord]; rfl

theorem vShli (d : BitVec 6) (a : BitVec 6) (i : BitVec 6) (p : BitVec 4) (n : BitVec 1) (x : Option VExt) (tok : Option Tok) : Statement (.vShli d a i p n x tok) := by
  have h0 : (encodeFirst (.vShli d a i p n x tok)).extractLsb' 24 8 = 0x23#8 := up (up (up (up (up (up it)))))
  have h1 : (encodeFirst (.vShli d a i p n x tok)).extractLsb' 18 6 = d := up (up (up (up (up (lo it)))))
  have h2 : (encodeFirst (.vShli d a i p n x tok)).extractLsb' 12 6 = a := up (up (up (up (lo it))))
  have h3 : (encodeFirst (.vShli d a i p n x tok)).extractLsb' 6 6 = i := up (up (up (lo it)))
  have h4 : (encodeFirst (.vShli d a i p n x tok)).extractLsb' 2 4 = p := up (up (lo it))
  have h5 : (encodeFirst (.vShli d a i p n x tok)).extractLsb' 1 1 = n := up (lo it)
  have h6 : (encodeFirst (.vShli d a i p n x tok)).extractLsb' 0 1 = VExt.bit x := lo it
  have hb : ∀ i0 i1 tk, build .v (encodeFirst (.vShli d a i p n x tok)) i0 i1 tk = some (.vShli (d) (a) (i) (p) (n) (VExt.read (VExt.bit x) i0) tk) := by
    intro i0 i1 tk
    show buildV _ i0 i1 tk = _
    unfold buildV
    rw [h0]
    show some _ = _
    rw [h1, h2, h3, h4, h5, h6]
  refine withImms _ .v _ rfl hb ?_ ?_ ?_
  · cases x with
    | none => rfl
    | some y =>
      show Instr.vShli d a i p n (some (VExt.ofWord y.toWord)) tok = _
      rw [ofWord_toWord]
  · cases x <;> exact ⟨rfl, rfl, rfl, rfl, rfl⟩
  · cases x with
    | none => rfl
    | some y =>
      show Instr.extOk (.vShli d a i p n (some (VExt.ofWord y.toWord)) none) = _
      rw [ofWord_toWord]; rfl

theorem vShri (d : BitVec 6) (a : BitVec 6) (i : BitVec 6) (p : BitVec 4) (n : BitVec 1) (x : Option VExt) (tok : Option Tok) : Statement (.vShri d a i p n x tok) := by
  have h0 : (encodeFirst (.vShri d a i p n x tok)).extractLsb' 24 8 = 0x24#8 := up (up (up (up (up (up it)))))
  have h1 : (encodeFirst (.vShri d a i p n x tok)).extractLsb' 18 6 = d := up (up (up (up (up (lo it)))))
  have h2 : (encodeFirst (.vShri d a i p n x tok)).extractLsb' 12 6 = a := up (up (up (up (lo it))))
  have h3 : (encodeFirst (.vShri d a i p n x tok)).extractLsb' 6 6 = i := up (up (up (lo it)))
  have h4 : (encodeFirst (.vShri d a i p n x tok)).extractLsb' 2 4 = p := up (up (lo it))
  have h5 : (encodeFirst (.vShri d a i p n x tok)).extractLsb' 1 1 = n := up (lo it)
  have h6 : (encodeFirst (.vShri d a i p n x tok)).extractLsb' 0 1 = VExt.bit x := lo it
  have hb : ∀ i0 i1 tk, build .v (encodeFirst (.vShri d a i p n x tok)) i0 i1 tk = some (.vShri (d) (a) (i) (p) (n) (VExt.read (VExt.bit x) i0) tk) := by
    intro i0 i1 tk
    show buildV _ i0 i1 tk = _
    unfold buildV
    rw [h0]
    show some _ = _
    rw [h1, h2, h3, h4, h5, h6]
  refine withImms _ .v _ rfl hb ?_ ?_ ?_
  · cases x with
    | none => rfl
    | some y =>
      show Instr.vShri d a i p n (some (VExt.ofWord y.toWord)) tok = _
      rw [ofWord_toWord]
  · cases x <;> exact ⟨rfl, rfl, rfl, rfl, rfl⟩
  · cases x with
    | none => rfl
    | some y =>
      show Instr.extOk (.vShri d a i p n (some (VExt.ofWord y.toWord)) none) = _
      rw [ofWord_toWord]; rfl

theorem vSari (d : BitVec 6) (a : BitVec 6) (i : BitVec 6) (p : BitVec 4) (n : BitVec 1) (x : Option VExt) (tok : Option Tok) : Statement (.vSari d a i p n x tok) := by
  have h0 : (encodeFirst (.vSari d a i p n x tok)).extractLsb' 24 8 = 0x25#8 := up (up (up (up (up (up it)))))
  have h1 : (encodeFirst (.vSari d a i p n x tok)).extractLsb' 18 6 = d := up (up (up (up (up (lo it)))))
  have h2 : (encodeFirst (.vSari d a i p n x tok)).extractLsb' 12 6 = a := up (up (up (up (lo it))))
  have h3 : (encodeFirst (.vSari d a i p n x tok)).extractLsb' 6 6 = i := up (up (up (lo it)))
  have h4 : (encodeFirst (.vSari d a i p n x tok)).extractLsb' 2 4 = p := up (up (lo it))
  have h5 : (encodeFirst (.vSari d a i p n x tok)).extractLsb' 1 1 = n := up (lo it)
  have h6 : (encodeFirst (.vSari d a i p n x tok)).extractLsb' 0 1 = VExt.bit x := lo it
  have hb : ∀ i0 i1 tk, build .v (encodeFirst (.vSari d a i p n x tok)) i0 i1 tk = some (.vSari (d) (a) (i) (p) (n) (VExt.read (VExt.bit x) i0) tk) := by
    intro i0 i1 tk
    show buildV _ i0 i1 tk = _
    unfold buildV
    rw [h0]
    show some _ = _
    rw [h1, h2, h3, h4, h5, h6]
  refine withImms _ .v _ rfl hb ?_ ?_ ?_
  · cases x with
    | none => rfl
    | some y =>
      show Instr.vSari d a i p n (some (VExt.ofWord y.toWord)) tok = _
      rw [ofWord_toWord]
  · cases x <;> exact ⟨rfl, rfl, rfl, rfl, rfl⟩
  · cases x with
    | none => rfl
    | some y =>
      show Instr.extOk (.vSari d a i p n (some (VExt.ofWord y.toWord)) none) = _
      rw [ofWord_toWord]; rfl

theorem vRshr (d : BitVec 6) (a : BitVec 6) (i : BitVec 6) (p : BitVec 4) (n : BitVec 1) (x : Option VExt) (tok : Option Tok) : Statement (.vRshr d a i p n x tok) := by
  have h0 : (encodeFirst (.vRshr d a i p n x tok)).extractLsb' 24 8 = 0x26#8 := up (up (up (up (up (up it)))))
  have h1 : (encodeFirst (.vRshr d a i p n x tok)).extractLsb' 18 6 = d := up (up (up (up (up (lo it)))))
  have h2 : (encodeFirst (.vRshr d a i p n x tok)).extractLsb' 12 6 = a := up (up (up (up (lo it))))
  have h3 : (encodeFirst (.vRshr d a i p n x tok)).extractLsb' 6 6 = i := up (up (up (lo it)))
  have h4 : (encodeFirst (.vRshr d a i p n x tok)).extractLsb' 2 4 = p := up (up (lo it))
  have h5 : (encodeFirst (.vRshr d a i p n x tok)).extractLsb' 1 1 = n := up (lo it)
  have h6 : (encodeFirst (.vRshr d a i p n x tok)).extractLsb' 0 1 = VExt.bit x := lo it
  have hb : ∀ i0 i1 tk, build .v (encodeFirst (.vRshr d a i p n x tok)) i0 i1 tk = some (.vRshr (d) (a) (i) (p) (n) (VExt.read (VExt.bit x) i0) tk) := by
    intro i0 i1 tk
    show buildV _ i0 i1 tk = _
    unfold buildV
    rw [h0]
    show some _ = _
    rw [h1, h2, h3, h4, h5, h6]
  refine withImms _ .v _ rfl hb ?_ ?_ ?_
  · cases x with
    | none => rfl
    | some y =>
      show Instr.vRshr d a i p n (some (VExt.ofWord y.toWord)) tok = _
      rw [ofWord_toWord]
  · cases x <;> exact ⟨rfl, rfl, rfl, rfl, rfl⟩
  · cases x with
    | none => rfl
    | some y =>
      show Instr.extOk (.vRshr d a i p n (some (VExt.ofWord y.toWord)) none) = _
      rw [ofWord_toWord]; rfl

theorem vFeq (q : BitVec 4) (a : BitVec 6) (b : BitVec 6) (p : BitVec 4) (n : BitVec 1) (x : Option VExt) (tok : Option Tok) : Statement (.vFeq q a b p n x tok) := by
  have h0 : (encodeFirst (.vFeq q a b p n x tok)).extractLsb' 24 8 = 0x28#8 := up (up (up (up (up (up (up it))))))
  have h1 : (encodeFirst (.vFeq q a b p n x tok)).extractLsb' 20 4 = q := up (up (up (up (up (up (lo it))))))
  have h2 : (encodeFirst (.vFeq q a b p n x tok)).extractLsb' 12 6 = a := up (up (up (up (lo it))))
  have h3 : (encodeFirst (.vFeq q a b p n x tok)).extractLsb' 6 6 = b := up (up (up (lo it)))
  have h4 : (encodeFirst (.vFeq q a b p n x tok)).extractLsb' 2 4 = p := up (up (lo it))
  have h5 : (encodeFirst (.vFeq q a b p n x tok)).extractLsb' 1 1 = n := up (lo it)
  have h6 : (encodeFirst (.vFeq q a b p n x tok)).extractLsb' 0 1 = VExt.bit x := lo it
  have h7 : (encodeFirst (.vFeq q a b p n x tok)).extractLsb' 18 2 = 0#2 := up (up (up (up (up (lo it)))))
  have hb : ∀ i0 i1 tk, build .v (encodeFirst (.vFeq q a b p n x tok)) i0 i1 tk = some (.vFeq (q) (a) (b) (p) (n) (VExt.read (VExt.bit x) i0) tk) := by
    intro i0 i1 tk
    show buildV _ i0 i1 tk = _
    unfold buildV
    rw [h0]
    exact (if_pos h7).trans (by rw [h1, h2, h3, h4, h5, h6])
  refine withImms _ .v _ rfl hb ?_ ?_ ?_
  · cases x with
    | none => rfl
    | some y =>
      show Instr.vFeq q a b p n (some (VExt.ofWord y.toWord)) tok = _
      rw [ofWord_toWord]
  · cases x <;> exact ⟨rfl, rfl, rfl, rfl, rfl⟩
  · cases x with
    | none => rfl
    | some y =>
      show Instr.extOk (.vFeq q a b p n (some (VExt.ofWord y.toWord)) none) = _
      rw [ofWord_toWord]; rfl

theorem vFlt (q : BitVec 4) (a : BitVec 6) (b : BitVec 6) (p : BitVec 4) (n : BitVec 1) (x : Option VExt) (tok : Option Tok) : Statement (.vFlt q a b p n x tok) := by
  have h0 : (encodeFirst (.vFlt q a b p n x tok)).extractLsb' 24 8 = 0x29#8 := up (up (up (up (up (up (up it))))))
  have h1 : (encodeFirst (.vFlt q a b p n x tok)).extractLsb' 20 4 = q := up (up (up (up (up (up (lo it))))))
  have h2 : (encodeFirst (.vFlt q a b p n x tok)).extractLsb' 12 6 = a := up (up (up (up (lo it))))
  have h3 : (encodeFirst (.vFlt q a b p n x tok)).extractLsb' 6 6 = b := up (up (up (lo it)))
  have h4 : (encodeFirst (.vFlt q a b p n x tok)).extractLsb' 2 4 = p := up (up (lo it))
  have h5 : (encodeFirst (.vFlt q a b p n x tok)).extractLsb' 1 1 = n := up (lo it)
  have h6 : (encodeFirst (.vFlt q a b p n x tok)).extractLsb' 0 1 = VExt.bit x := lo it
  have h7 : (encodeFirst (.vFlt q a b p n x tok)).extractLsb' 18 2 = 0#2 := up (up (up (up (up (lo it)))))
  have hb : ∀ i0 i1 tk, build .v (encodeFirst (.vFlt q a b p n x tok)) i0 i1 tk = some (.vFlt (q) (a) (b) (p) (n) (VExt.read (VExt.bit x) i0) tk) := by
    intro i0 i1 tk
    show buildV _ i0 i1 tk = _
    unfold buildV
    rw [h0]
    exact (if_pos h7).trans (by rw [h1, h2, h3, h4, h5, h6])
  refine withImms _ .v _ rfl hb ?_ ?_ ?_
  · cases x with
    | none => rfl
    | some y =>
      show Instr.vFlt q a b p n (some (VExt.ofWord y.toWord)) tok = _
      rw [ofWord_toWord]
  · cases x <;> exact ⟨rfl, rfl, rfl, rfl, rfl⟩
  · cases x with
    | none => rfl
    | some y =>
      show Instr.extOk (.vFlt q a b p n (some (VExt.ofWord y.toWord)) none) = _
      rw [ofWord_toWord]; rfl

theorem vFle (q : BitVec 4) (a : BitVec 6) (b : BitVec 6) (p : BitVec 4) (n : BitVec 1) (x : Option VExt) (tok : Option Tok) : Statement (.vFle q a b p n x tok) := by
  have h0 : (encodeFirst (.vFle q a b p n x tok)).extractLsb' 24 8 = 0x2A#8 := up (up (up (up (up (up (up it))))))
  have h1 : (encodeFirst (.vFle q a b p n x tok)).extractLsb' 20 4 = q := up (up (up (up (up (up (lo it))))))
  have h2 : (encodeFirst (.vFle q a b p n x tok)).extractLsb' 12 6 = a := up (up (up (up (lo it))))
  have h3 : (encodeFirst (.vFle q a b p n x tok)).extractLsb' 6 6 = b := up (up (up (lo it)))
  have h4 : (encodeFirst (.vFle q a b p n x tok)).extractLsb' 2 4 = p := up (up (lo it))
  have h5 : (encodeFirst (.vFle q a b p n x tok)).extractLsb' 1 1 = n := up (lo it)
  have h6 : (encodeFirst (.vFle q a b p n x tok)).extractLsb' 0 1 = VExt.bit x := lo it
  have h7 : (encodeFirst (.vFle q a b p n x tok)).extractLsb' 18 2 = 0#2 := up (up (up (up (up (lo it)))))
  have hb : ∀ i0 i1 tk, build .v (encodeFirst (.vFle q a b p n x tok)) i0 i1 tk = some (.vFle (q) (a) (b) (p) (n) (VExt.read (VExt.bit x) i0) tk) := by
    intro i0 i1 tk
    show buildV _ i0 i1 tk = _
    unfold buildV
    rw [h0]
    exact (if_pos h7).trans (by rw [h1, h2, h3, h4, h5, h6])
  refine withImms _ .v _ rfl hb ?_ ?_ ?_
  · cases x with
    | none => rfl
    | some y =>
      show Instr.vFle q a b p n (some (VExt.ofWord y.toWord)) tok = _
      rw [ofWord_toWord]
  · cases x <;> exact ⟨rfl, rfl, rfl, rfl, rfl⟩
  · cases x with
    | none => rfl
    | some y =>
      show Instr.extOk (.vFle q a b p n (some (VExt.ofWord y.toWord)) none) = _
      rw [ofWord_toWord]; rfl

theorem vIeq (q : BitVec 4) (a : BitVec 6) (b : BitVec 6) (p : BitVec 4) (n : BitVec 1) (x : Option VExt) (tok : Option Tok) : Statement (.vIeq q a b p n x tok) := by
  have h0 : (encodeFirst (.vIeq q a b p n x tok)).extractLsb' 24 8 = 0x2B#8 := up (up (up (up (up (up (up it))))))
  have h1 : (encodeFirst (.vIeq q a b p n x tok)).extractLsb' 20 4 = q := up (up (up (up (up (up (lo it))))))
  have h2 : (encodeFirst (.vIeq q a b p n x tok)).extractLsb' 12 6 = a := up (up (up (up (lo it))))
  have h3 : (encodeFirst (.vIeq q a b p n x tok)).extractLsb' 6 6 = b := up (up (up (lo it)))
  have h4 : (encodeFirst (.vIeq q a b p n x tok)).extractLsb' 2 4 = p := up (up (lo it))
  have h5 : (encodeFirst (.vIeq q a b p n x tok)).extractLsb' 1 1 = n := up (lo it)
  have h6 : (encodeFirst (.vIeq q a b p n x tok)).extractLsb' 0 1 = VExt.bit x := lo it
  have h7 : (encodeFirst (.vIeq q a b p n x tok)).extractLsb' 18 2 = 0#2 := up (up (up (up (up (lo it)))))
  have hb : ∀ i0 i1 tk, build .v (encodeFirst (.vIeq q a b p n x tok)) i0 i1 tk = some (.vIeq (q) (a) (b) (p) (n) (VExt.read (VExt.bit x) i0) tk) := by
    intro i0 i1 tk
    show buildV _ i0 i1 tk = _
    unfold buildV
    rw [h0]
    exact (if_pos h7).trans (by rw [h1, h2, h3, h4, h5, h6])
  refine withImms _ .v _ rfl hb ?_ ?_ ?_
  · cases x with
    | none => rfl
    | some y =>
      show Instr.vIeq q a b p n (some (VExt.ofWord y.toWord)) tok = _
      rw [ofWord_toWord]
  · cases x <;> exact ⟨rfl, rfl, rfl, rfl, rfl⟩
  · cases x with
    | none => rfl
    | some y =>
      show Instr.extOk (.vIeq q a b p n (some (VExt.ofWord y.toWord)) none) = _
      rw [ofWord_toWord]; rfl

theorem vIlt (q : BitVec 4) (a : BitVec 6) (b : BitVec 6) (p : BitVec 4) (n : BitVec 1) (x : Option VExt) (tok : Option Tok) : Statement (.vIlt q a b p n x tok) := by
  have h0 : (encodeFirst (.vIlt q a b p n x tok)).extractLsb' 24 8 = 0x2C#8 := up (up (up (up (up (up (up it))))))
  have h1 : (encodeFirst (.vIlt q a b p n x tok)).extractLsb' 20 4 = q := up (up (up (up (up (up (lo it))))))
  have h2 : (encodeFirst (.vIlt q a b p n x tok)).extractLsb' 12 6 = a := up (up (up (up (lo it))))
  have h3 : (encodeFirst (.vIlt q a b p n x tok)).extractLsb' 6 6 = b := up (up (up (lo it)))
  have h4 : (encodeFirst (.vIlt q a b p n x tok)).extractLsb' 2 4 = p := up (up (lo it))
  have h5 : (encodeFirst (.vIlt q a b p n x tok)).extractLsb' 1 1 = n := up (lo it)
  have h6 : (encodeFirst (.vIlt q a b p n x tok)).extractLsb' 0 1 = VExt.bit x := lo it
  have h7 : (encodeFirst (.vIlt q a b p n x tok)).extractLsb' 18 2 = 0#2 := up (up (up (up (up (lo it)))))
  have hb : ∀ i0 i1 tk, build .v (encodeFirst (.vIlt q a b p n x tok)) i0 i1 tk = some (.vIlt (q) (a) (b) (p) (n) (VExt.read (VExt.bit x) i0) tk) := by
    intro i0 i1 tk
    show buildV _ i0 i1 tk = _
    unfold buildV
    rw [h0]
    exact (if_pos h7).trans (by rw [h1, h2, h3, h4, h5, h6])
  refine withImms _ .v _ rfl hb ?_ ?_ ?_
  · cases x with
    | none => rfl
    | some y =>
      show Instr.vIlt q a b p n (some (VExt.ofWord y.toWord)) tok = _
      rw [ofWord_toWord]
  · cases x <;> exact ⟨rfl, rfl, rfl, rfl, rfl⟩
  · cases x with
    | none => rfl
    | some y =>
      show Instr.extOk (.vIlt q a b p n (some (VExt.ofWord y.toWord)) none) = _
      rw [ofWord_toWord]; rfl

theorem vNlt (q : BitVec 4) (a : BitVec 6) (b : BitVec 6) (p : BitVec 4) (n : BitVec 1) (x : Option VExt) (tok : Option Tok) : Statement (.vNlt q a b p n x tok) := by
  have h0 : (encodeFirst (.vNlt q a b p n x tok)).extractLsb' 24 8 = 0x2D#8 := up (up (up (up (up (up (up it))))))
  have h1 : (encodeFirst (.vNlt q a b p n x tok)).extractLsb' 20 4 = q := up (up (up (up (up (up (lo it))))))
  have h2 : (encodeFirst (.vNlt q a b p n x tok)).extractLsb' 12 6 = a := up (up (up (up (lo it))))
  have h3 : (encodeFirst (.vNlt q a b p n x tok)).extractLsb' 6 6 = b := up (up (up (lo it)))
  have h4 : (encodeFirst (.vNlt q a b p n x tok)).extractLsb' 2 4 = p := up (up (lo it))
  have h5 : (encodeFirst (.vNlt q a b p n x tok)).extractLsb' 1 1 = n := up (lo it)
  have h6 : (encodeFirst (.vNlt q a b p n x tok)).extractLsb' 0 1 = VExt.bit x := lo it
  have h7 : (encodeFirst (.vNlt q a b p n x tok)).extractLsb' 18 2 = 0#2 := up (up (up (up (up (lo it)))))
  have hb : ∀ i0 i1 tk, build .v (encodeFirst (.vNlt q a b p n x tok)) i0 i1 tk = some (.vNlt (q) (a) (b) (p) (n) (VExt.read (VExt.bit x) i0) tk) := by
    intro i0 i1 tk
    show buildV _ i0 i1 tk = _
    unfold buildV
    rw [h0]
    exact (if_pos h7).trans (by rw [h1, h2, h3, h4, h5, h6])
  refine withImms _ .v _ rfl hb ?_ ?_ ?_
  · cases x with
    | none => rfl
    | some y =>
      show Instr.vNlt q a b p n (some (VExt.ofWord y.toWord)) tok = _
      rw [ofWord_toWord]
  · cases x <;> exact ⟨rfl, rfl, rfl, rfl, rfl⟩
  · cases x with
    | none => rfl
    | some y =>
      show Instr.extOk (.vNlt q a b p n (some (VExt.ofWord y.toWord)) none) = _
      rw [ofWord_toWord]; rfl

theorem vSel (d : BitVec 6) (a : BitVec 6) (b : BitVec 6) (p : BitVec 4) (n : BitVec 1) (x : Option VExt) (tok : Option Tok) : Statement (.vSel d a b p n x tok) := by
  have h0 : (encodeFirst (.vSel d a b p n x tok)).extractLsb' 24 8 = 0x2E#8 := up (up (up (up (up (up it)))))
  have h1 : (encodeFirst (.vSel d a b p n x tok)).extractLsb' 18 6 = d := up (up (up (up (up (lo it)))))
  have h2 : (encodeFirst (.vSel d a b p n x tok)).extractLsb' 12 6 = a := up (up (up (up (lo it))))
  have h3 : (encodeFirst (.vSel d a b p n x tok)).extractLsb' 6 6 = b := up (up (up (lo it)))
  have h4 : (encodeFirst (.vSel d a b p n x tok)).extractLsb' 2 4 = p := up (up (lo it))
  have h5 : (encodeFirst (.vSel d a b p n x tok)).extractLsb' 1 1 = n := up (lo it)
  have h6 : (encodeFirst (.vSel d a b p n x tok)).extractLsb' 0 1 = VExt.bit x := lo it
  have hb : ∀ i0 i1 tk, build .v (encodeFirst (.vSel d a b p n x tok)) i0 i1 tk = some (.vSel (d) (a) (b) (p) (n) (VExt.read (VExt.bit x) i0) tk) := by
    intro i0 i1 tk
    show buildV _ i0 i1 tk = _
    unfold buildV
    rw [h0]
    show some _ = _
    rw [h1, h2, h3, h4, h5, h6]
  refine withImms _ .v _ rfl hb ?_ ?_ ?_
  · cases x with
    | none => rfl
    | some y =>
      show Instr.vSel d a b p n (some (VExt.ofWord y.toWord)) tok = _
      rw [ofWord_toWord]
  · cases x <;> exact ⟨rfl, rfl, rfl, rfl, rfl⟩
  · cases x with
    | none => rfl
    | some y =>
      show Instr.extOk (.vSel d a b p n (some (VExt.ofWord y.toWord)) none) = _
      rw [ofWord_toWord]; rfl

theorem vCvtIf (d : BitVec 6) (a : BitVec 6) (p : BitVec 4) (n : BitVec 1) (x : Option VExt) (tok : Option Tok) : Statement (.vCvtIf d a p n x tok) := by
  have h0 : (encodeFirst (.vCvtIf d a p n x tok)).extractLsb' 24 8 = 0x30#8 := up (up (up (up (up (up it)))))
  have h1 : (encodeFirst (.vCvtIf d a p n x tok)).extractLsb' 18 6 = d := up (up (up (up (up (lo it)))))
  have h2 : (encodeFirst (.vCvtIf d a p n x tok)).extractLsb' 12 6 = a := up (up (up (up (lo it))))
  have h3 : (encodeFirst (.vCvtIf d a p n x tok)).extractLsb' 2 4 = p := up (up (lo it))
  have h4 : (encodeFirst (.vCvtIf d a p n x tok)).extractLsb' 1 1 = n := up (lo it)
  have h5 : (encodeFirst (.vCvtIf d a p n x tok)).extractLsb' 0 1 = VExt.bit x := lo it
  have h6 : (encodeFirst (.vCvtIf d a p n x tok)).extractLsb' 6 6 = 0#6 := up (up (up (lo it)))
  have hb : ∀ i0 i1 tk, build .v (encodeFirst (.vCvtIf d a p n x tok)) i0 i1 tk = some (.vCvtIf (d) (a) (p) (n) (VExt.read (VExt.bit x) i0) tk) := by
    intro i0 i1 tk
    show buildV _ i0 i1 tk = _
    unfold buildV
    rw [h0]
    exact (if_pos h6).trans (by rw [h1, h2, h3, h4, h5])
  refine withImms _ .v _ rfl hb ?_ ?_ ?_
  · cases x with
    | none => rfl
    | some y =>
      show Instr.vCvtIf d a p n (some (VExt.ofWord y.toWord)) tok = _
      rw [ofWord_toWord]
  · cases x <;> exact ⟨rfl, rfl, rfl, rfl, rfl⟩
  · cases x with
    | none => rfl
    | some y =>
      show Instr.extOk (.vCvtIf d a p n (some (VExt.ofWord y.toWord)) none) = _
      rw [ofWord_toWord]; rfl

theorem vCvtFi (d : BitVec 6) (a : BitVec 6) (p : BitVec 4) (n : BitVec 1) (x : Option VExt) (tok : Option Tok) : Statement (.vCvtFi d a p n x tok) := by
  have h0 : (encodeFirst (.vCvtFi d a p n x tok)).extractLsb' 24 8 = 0x31#8 := up (up (up (up (up (up it)))))
  have h1 : (encodeFirst (.vCvtFi d a p n x tok)).extractLsb' 18 6 = d := up (up (up (up (up (lo it)))))
  have h2 : (encodeFirst (.vCvtFi d a p n x tok)).extractLsb' 12 6 = a := up (up (up (up (lo it))))
  have h3 : (encodeFirst (.vCvtFi d a p n x tok)).extractLsb' 2 4 = p := up (up (lo it))
  have h4 : (encodeFirst (.vCvtFi d a p n x tok)).extractLsb' 1 1 = n := up (lo it)
  have h5 : (encodeFirst (.vCvtFi d a p n x tok)).extractLsb' 0 1 = VExt.bit x := lo it
  have h6 : (encodeFirst (.vCvtFi d a p n x tok)).extractLsb' 6 6 = 0#6 := up (up (up (lo it)))
  have hb : ∀ i0 i1 tk, build .v (encodeFirst (.vCvtFi d a p n x tok)) i0 i1 tk = some (.vCvtFi (d) (a) (p) (n) (VExt.read (VExt.bit x) i0) tk) := by
    intro i0 i1 tk
    show buildV _ i0 i1 tk = _
    unfold buildV
    rw [h0]
    exact (if_pos h6).trans (by rw [h1, h2, h3, h4, h5])
  refine withImms _ .v _ rfl hb ?_ ?_ ?_
  · cases x with
    | none => rfl
    | some y =>
      show Instr.vCvtFi d a p n (some (VExt.ofWord y.toWord)) tok = _
      rw [ofWord_toWord]
  · cases x <;> exact ⟨rfl, rfl, rfl, rfl, rfl⟩
  · cases x with
    | none => rfl
    | some y =>
      show Instr.extOk (.vCvtFi d a p n (some (VExt.ofWord y.toWord)) none) = _
      rw [ofWord_toWord]; rfl

theorem vCvtFf (d : BitVec 6) (a : BitVec 6) (p : BitVec 4) (n : BitVec 1) (x : Option VExt) (tok : Option Tok) : Statement (.vCvtFf d a p n x tok) := by
  have h0 : (encodeFirst (.vCvtFf d a p n x tok)).extractLsb' 24 8 = 0x32#8 := up (up (up (up (up (up it)))))
  have h1 : (encodeFirst (.vCvtFf d a p n x tok)).extractLsb' 18 6 = d := up (up (up (up (up (lo it)))))
  have h2 : (encodeFirst (.vCvtFf d a p n x tok)).extractLsb' 12 6 = a := up (up (up (up (lo it))))
  have h3 : (encodeFirst (.vCvtFf d a p n x tok)).extractLsb' 2 4 = p := up (up (lo it))
  have h4 : (encodeFirst (.vCvtFf d a p n x tok)).extractLsb' 1 1 = n := up (lo it)
  have h5 : (encodeFirst (.vCvtFf d a p n x tok)).extractLsb' 0 1 = VExt.bit x := lo it
  have h6 : (encodeFirst (.vCvtFf d a p n x tok)).extractLsb' 6 6 = 0#6 := up (up (up (lo it)))
  have hb : ∀ i0 i1 tk, build .v (encodeFirst (.vCvtFf d a p n x tok)) i0 i1 tk = some (.vCvtFf (d) (a) (p) (n) (VExt.read (VExt.bit x) i0) tk) := by
    intro i0 i1 tk
    show buildV _ i0 i1 tk = _
    unfold buildV
    rw [h0]
    exact (if_pos h6).trans (by rw [h1, h2, h3, h4, h5])
  refine withImms _ .v _ rfl hb ?_ ?_ ?_
  · cases x with
    | none => rfl
    | some y =>
      show Instr.vCvtFf d a p n (some (VExt.ofWord y.toWord)) tok = _
      rw [ofWord_toWord]
  · cases x <;> exact ⟨rfl, rfl, rfl, rfl, rfl⟩
  · cases x with
    | none => rfl
    | some y =>
      show Instr.extOk (.vCvtFf d a p n (some (VExt.ofWord y.toWord)) none) = _
      rw [ofWord_toWord]; rfl

theorem vQnt (d : BitVec 6) (a : BitVec 6) (b : BitVec 6) (p : BitVec 4) (n : BitVec 1) (x : VExt) (tok : Option Tok) : Statement (.vQnt d a b p n x tok) := by
  have h0 : (encodeFirst (.vQnt d a b p n x tok)).extractLsb' 24 8 = 0x33#8 := up (up (up (up (up (up it)))))
  have h1 : (encodeFirst (.vQnt d a b p n x tok)).extractLsb' 18 6 = d := up (up (up (up (up (lo it)))))
  have h2 : (encodeFirst (.vQnt d a b p n x tok)).extractLsb' 12 6 = a := up (up (up (up (lo it))))
  have h3 : (encodeFirst (.vQnt d a b p n x tok)).extractLsb' 6 6 = b := up (up (up (lo it)))
  have h4 : (encodeFirst (.vQnt d a b p n x tok)).extractLsb' 2 4 = p := up (up (lo it))
  have h5 : (encodeFirst (.vQnt d a b p n x tok)).extractLsb' 1 1 = n := up (lo it)
  have h6 : (encodeFirst (.vQnt d a b p n x tok)).extractLsb' 0 1 = 1#1 := lo it
  have hb : ∀ i0 i1 tk, build .v (encodeFirst (.vQnt d a b p n x tok)) i0 i1 tk = some (.vQnt (d) (a) (b) (p) (n) (VExt.ofWord i0) tk) := by
    intro i0 i1 tk
    show buildV _ i0 i1 tk = _
    unfold buildV
    rw [h0]
    exact (if_pos h6).trans (by rw [h1, h2, h3, h4, h5])
  refine withImms _ .v _ rfl hb ?_ ⟨rfl, rfl, rfl, rfl, rfl⟩ ?_
  · show Instr.vQnt d a b p n (VExt.ofWord x.toWord) tok = _
    rw [ofWord_toWord]
  · show Instr.extOk (.vQnt d a b p n (VExt.ofWord x.toWord) none) = _
    rw [ofWord_toWord]; rfl

theorem vDp4 (d : BitVec 6) (a : BitVec 6) (b : BitVec 6) (p : BitVec 4) (n : BitVec 1) (x : Option VExt) (tok : Option Tok) : Statement (.vDp4 d a b p n x tok) := by
  have h0 : (encodeFirst (.vDp4 d a b p n x tok)).extractLsb' 24 8 = 0x34#8 := up (up (up (up (up (up it)))))
  have h1 : (encodeFirst (.vDp4 d a b p n x tok)).extractLsb' 18 6 = d := up (up (up (up (up (lo it)))))
  have h2 : (encodeFirst (.vDp4 d a b p n x tok)).extractLsb' 12 6 = a := up (up (up (up (lo it))))
  have h3 : (encodeFirst (.vDp4 d a b p n x tok)).extractLsb' 6 6 = b := up (up (up (lo it)))
  have h4 : (encodeFirst (.vDp4 d a b p n x tok)).extractLsb' 2 4 = p := up (up (lo it))
  have h5 : (encodeFirst (.vDp4 d a b p n x tok)).extractLsb' 1 1 = n := up (lo it)
  have h6 : (encodeFirst (.vDp4 d a b p n x tok)).extractLsb' 0 1 = VExt.bit x := lo it
  have hb : ∀ i0 i1 tk, build .v (encodeFirst (.vDp4 d a b p n x tok)) i0 i1 tk = some (.vDp4 (d) (a) (b) (p) (n) (VExt.read (VExt.bit x) i0) tk) := by
    intro i0 i1 tk
    show buildV _ i0 i1 tk = _
    unfold buildV
    rw [h0]
    show some _ = _
    rw [h1, h2, h3, h4, h5, h6]
  refine withImms _ .v _ rfl hb ?_ ?_ ?_
  · cases x with
    | none => rfl
    | some y =>
      show Instr.vDp4 d a b p n (some (VExt.ofWord y.toWord)) tok = _
      rw [ofWord_toWord]
  · cases x <;> exact ⟨rfl, rfl, rfl, rfl, rfl⟩
  · cases x with
    | none => rfl
    | some y =>
      show Instr.extOk (.vDp4 d a b p n (some (VExt.ofWord y.toWord)) none) = _
      rw [ofWord_toWord]; rfl

theorem vRadd (d : BitVec 6) (a : BitVec 6) (p : BitVec 4) (n : BitVec 1) (x : Option VExt) (tok : Option Tok) : Statement (.vRadd d a p n x tok) := by
  have h0 : (encodeFirst (.vRadd d a p n x tok)).extractLsb' 24 8 = 0x38#8 := up (up (up (up (up (up it)))))
  have h1 : (encodeFirst (.vRadd d a p n x tok)).extractLsb' 18 6 = d := up (up (up (up (up (lo it)))))
  have h2 : (encodeFirst (.vRadd d a p n x tok)).extractLsb' 12 6 = a := up (up (up (up (lo it))))
  have h3 : (encodeFirst (.vRadd d a p n x tok)).extractLsb' 2 4 = p := up (up (lo it))
  have h4 : (encodeFirst (.vRadd d a p n x tok)).extractLsb' 1 1 = n := up (lo it)
  have h5 : (encodeFirst (.vRadd d a p n x tok)).extractLsb' 0 1 = VExt.bit x := lo it
  have h6 : (encodeFirst (.vRadd d a p n x tok)).extractLsb' 6 6 = 0#6 := up (up (up (lo it)))
  have hb : ∀ i0 i1 tk, build .v (encodeFirst (.vRadd d a p n x tok)) i0 i1 tk = some (.vRadd (d) (a) (p) (n) (VExt.read (VExt.bit x) i0) tk) := by
    intro i0 i1 tk
    show buildV _ i0 i1 tk = _
    unfold buildV
    rw [h0]
    exact (if_pos h6).trans (by rw [h1, h2, h3, h4, h5])
  refine withImms _ .v _ rfl hb ?_ ?_ ?_
  · cases x with
    | none => rfl
    | some y =>
      show Instr.vRadd d a p n (some (VExt.ofWord y.toWord)) tok = _
      rw [ofWord_toWord]
  · cases x <;> exact ⟨rfl, rfl, rfl, rfl, rfl⟩
  · cases x with
    | none => rfl
    | some y =>
      show Instr.extOk (.vRadd d a p n (some (VExt.ofWord y.toWord)) none) = _
      rw [ofWord_toWord]; rfl

theorem vRmax (d : BitVec 6) (a : BitVec 6) (p : BitVec 4) (n : BitVec 1) (x : Option VExt) (tok : Option Tok) : Statement (.vRmax d a p n x tok) := by
  have h0 : (encodeFirst (.vRmax d a p n x tok)).extractLsb' 24 8 = 0x39#8 := up (up (up (up (up (up it)))))
  have h1 : (encodeFirst (.vRmax d a p n x tok)).extractLsb' 18 6 = d := up (up (up (up (up (lo it)))))
  have h2 : (encodeFirst (.vRmax d a p n x tok)).extractLsb' 12 6 = a := up (up (up (up (lo it))))
  have h3 : (encodeFirst (.vRmax d a p n x tok)).extractLsb' 2 4 = p := up (up (lo it))
  have h4 : (encodeFirst (.vRmax d a p n x tok)).extractLsb' 1 1 = n := up (lo it)
  have h5 : (encodeFirst (.vRmax d a p n x tok)).extractLsb' 0 1 = VExt.bit x := lo it
  have h6 : (encodeFirst (.vRmax d a p n x tok)).extractLsb' 6 6 = 0#6 := up (up (up (lo it)))
  have hb : ∀ i0 i1 tk, build .v (encodeFirst (.vRmax d a p n x tok)) i0 i1 tk = some (.vRmax (d) (a) (p) (n) (VExt.read (VExt.bit x) i0) tk) := by
    intro i0 i1 tk
    show buildV _ i0 i1 tk = _
    unfold buildV
    rw [h0]
    exact (if_pos h6).trans (by rw [h1, h2, h3, h4, h5])
  refine withImms _ .v _ rfl hb ?_ ?_ ?_
  · cases x with
    | none => rfl
    | some y =>
      show Instr.vRmax d a p n (some (VExt.ofWord y.toWord)) tok = _
      rw [ofWord_toWord]
  · cases x <;> exact ⟨rfl, rfl, rfl, rfl, rfl⟩
  · cases x with
    | none => rfl
    | some y =>
      show Instr.extOk (.vRmax d a p n (some (VExt.ofWord y.toWord)) none) = _
      rw [ofWord_toWord]; rfl

theorem vRmin (d : BitVec 6) (a : BitVec 6) (p : BitVec 4) (n : BitVec 1) (x : Option VExt) (tok : Option Tok) : Statement (.vRmin d a p n x tok) := by
  have h0 : (encodeFirst (.vRmin d a p n x tok)).extractLsb' 24 8 = 0x3A#8 := up (up (up (up (up (up it)))))
  have h1 : (encodeFirst (.vRmin d a p n x tok)).extractLsb' 18 6 = d := up (up (up (up (up (lo it)))))
  have h2 : (encodeFirst (.vRmin d a p n x tok)).extractLsb' 12 6 = a := up (up (up (up (lo it))))
  have h3 : (encodeFirst (.vRmin d a p n x tok)).extractLsb' 2 4 = p := up (up (lo it))
  have h4 : (encodeFirst (.vRmin d a p n x tok)).extractLsb' 1 1 = n := up (lo it)
  have h5 : (encodeFirst (.vRmin d a p n x tok)).extractLsb' 0 1 = VExt.bit x := lo it
  have h6 : (encodeFirst (.vRmin d a p n x tok)).extractLsb' 6 6 = 0#6 := up (up (up (lo it)))
  have hb : ∀ i0 i1 tk, build .v (encodeFirst (.vRmin d a p n x tok)) i0 i1 tk = some (.vRmin (d) (a) (p) (n) (VExt.read (VExt.bit x) i0) tk) := by
    intro i0 i1 tk
    show buildV _ i0 i1 tk = _
    unfold buildV
    rw [h0]
    exact (if_pos h6).trans (by rw [h1, h2, h3, h4, h5])
  refine withImms _ .v _ rfl hb ?_ ?_ ?_
  · cases x with
    | none => rfl
    | some y =>
      show Instr.vRmin d a p n (some (VExt.ofWord y.toWord)) tok = _
      rw [ofWord_toWord]
  · cases x <;> exact ⟨rfl, rfl, rfl, rfl, rfl⟩
  · cases x with
    | none => rfl
    | some y =>
      show Instr.extOk (.vRmin d a p n (some (VExt.ofWord y.toWord)) none) = _
      rw [ofWord_toWord]; rfl

theorem vScan (d : BitVec 6) (a : BitVec 6) (p : BitVec 4) (n : BitVec 1) (x : Option VExt) (tok : Option Tok) : Statement (.vScan d a p n x tok) := by
  have h0 : (encodeFirst (.vScan d a p n x tok)).extractLsb' 24 8 = 0x3B#8 := up (up (up (up (up (up it)))))
  have h1 : (encodeFirst (.vScan d a p n x tok)).extractLsb' 18 6 = d := up (up (up (up (up (lo it)))))
  have h2 : (encodeFirst (.vScan d a p n x tok)).extractLsb' 12 6 = a := up (up (up (up (lo it))))
  have h3 : (encodeFirst (.vScan d a p n x tok)).extractLsb' 2 4 = p := up (up (lo it))
  have h4 : (encodeFirst (.vScan d a p n x tok)).extractLsb' 1 1 = n := up (lo it)
  have h5 : (encodeFirst (.vScan d a p n x tok)).extractLsb' 0 1 = VExt.bit x := lo it
  have h6 : (encodeFirst (.vScan d a p n x tok)).extractLsb' 6 6 = 0#6 := up (up (up (lo it)))
  have hb : ∀ i0 i1 tk, build .v (encodeFirst (.vScan d a p n x tok)) i0 i1 tk = some (.vScan (d) (a) (p) (n) (VExt.read (VExt.bit x) i0) tk) := by
    intro i0 i1 tk
    show buildV _ i0 i1 tk = _
    unfold buildV
    rw [h0]
    exact (if_pos h6).trans (by rw [h1, h2, h3, h4, h5])
  refine withImms _ .v _ rfl hb ?_ ?_ ?_
  · cases x with
    | none => rfl
    | some y =>
      show Instr.vScan d a p n (some (VExt.ofWord y.toWord)) tok = _
      rw [ofWord_toWord]
  · cases x <;> exact ⟨rfl, rfl, rfl, rfl, rfl⟩
  · cases x with
    | none => rfl
    | some y =>
      show Instr.extOk (.vScan d a p n (some (VExt.ofWord y.toWord)) none) = _
      rw [ofWord_toWord]; rfl

theorem vPerm (d : BitVec 6) (a : BitVec 6) (b : BitVec 6) (p : BitVec 4) (n : BitVec 1) (x : Option VExt) (tok : Option Tok) : Statement (.vPerm d a b p n x tok) := by
  have h0 : (encodeFirst (.vPerm d a b p n x tok)).extractLsb' 24 8 = 0x3C#8 := up (up (up (up (up (up it)))))
  have h1 : (encodeFirst (.vPerm d a b p n x tok)).extractLsb' 18 6 = d := up (up (up (up (up (lo it)))))
  have h2 : (encodeFirst (.vPerm d a b p n x tok)).extractLsb' 12 6 = a := up (up (up (up (lo it))))
  have h3 : (encodeFirst (.vPerm d a b p n x tok)).extractLsb' 6 6 = b := up (up (up (lo it)))
  have h4 : (encodeFirst (.vPerm d a b p n x tok)).extractLsb' 2 4 = p := up (up (lo it))
  have h5 : (encodeFirst (.vPerm d a b p n x tok)).extractLsb' 1 1 = n := up (lo it)
  have h6 : (encodeFirst (.vPerm d a b p n x tok)).extractLsb' 0 1 = VExt.bit x := lo it
  have hb : ∀ i0 i1 tk, build .v (encodeFirst (.vPerm d a b p n x tok)) i0 i1 tk = some (.vPerm (d) (a) (b) (p) (n) (VExt.read (VExt.bit x) i0) tk) := by
    intro i0 i1 tk
    show buildV _ i0 i1 tk = _
    unfold buildV
    rw [h0]
    show some _ = _
    rw [h1, h2, h3, h4, h5, h6]
  refine withImms _ .v _ rfl hb ?_ ?_ ?_
  · cases x with
    | none => rfl
    | some y =>
      show Instr.vPerm d a b p n (some (VExt.ofWord y.toWord)) tok = _
      rw [ofWord_toWord]
  · cases x <;> exact ⟨rfl, rfl, rfl, rfl, rfl⟩
  · cases x with
    | none => rfl
    | some y =>
      show Instr.extOk (.vPerm d a b p n (some (VExt.ofWord y.toWord)) none) = _
      rw [ofWord_toWord]; rfl

theorem vBcast (d : BitVec 6) (s : BitVec 5) (p : BitVec 4) (n : BitVec 1) (x : Option VExt) (tok : Option Tok) : Statement (.vBcast d s p n x tok) := by
  have h0 : (encodeFirst (.vBcast d s p n x tok)).extractLsb' 24 8 = 0x3D#8 := up (up (up (up (up (up it)))))
  have h1 : (encodeFirst (.vBcast d s p n x tok)).extractLsb' 18 6 = d := up (up (up (up (up (lo it)))))
  have h2 : (encodeFirst (.vBcast d s p n x tok)).extractLsb' 6 5 = s := up (up (up (lo it)))
  have h3 : (encodeFirst (.vBcast d s p n x tok)).extractLsb' 2 4 = p := up (up (lo it))
  have h4 : (encodeFirst (.vBcast d s p n x tok)).extractLsb' 1 1 = n := up (lo it)
  have h5 : (encodeFirst (.vBcast d s p n x tok)).extractLsb' 0 1 = VExt.bit x := lo it
  have h6 : (encodeFirst (.vBcast d s p n x tok)).extractLsb' 11 7 = 0#7 := up (up (up (up (lo it))))
  have hb : ∀ i0 i1 tk, build .v (encodeFirst (.vBcast d s p n x tok)) i0 i1 tk = some (.vBcast (d) (s) (p) (n) (VExt.read (VExt.bit x) i0) tk) := by
    intro i0 i1 tk
    show buildV _ i0 i1 tk = _
    unfold buildV
    rw [h0]
    exact (if_pos h6).trans (by rw [h1, h2, h3, h4, h5])
  refine withImms _ .v _ rfl hb ?_ ?_ ?_
  · cases x with
    | none => rfl
    | some y =>
      show Instr.vBcast d s p n (some (VExt.ofWord y.toWord)) tok = _
      rw [ofWord_toWord]
  · cases x <;> exact ⟨rfl, rfl, rfl, rfl, rfl⟩
  · cases x with
    | none => rfl
    | some y =>
      show Instr.extOk (.vBcast d s p n (some (VExt.ofWord y.toWord)) none) = _
      rw [ofWord_toWord]; rfl

theorem vIns (d : BitVec 6) (a : BitVec 6) (s : BitVec 5) (p : BitVec 4) (n : BitVec 1) (x : Option VExt) (tok : Option Tok) : Statement (.vIns d a s p n x tok) := by
  have h0 : (encodeFirst (.vIns d a s p n x tok)).extractLsb' 24 8 = 0x3E#8 := up (up (up (up (up (up (up it))))))
  have h1 : (encodeFirst (.vIns d a s p n x tok)).extractLsb' 18 6 = d := up (up (up (up (up (up (lo it))))))
  have h2 : (encodeFirst (.vIns d a s p n x tok)).extractLsb' 12 6 = a := up (up (up (up (up (lo it)))))
  have h3 : (encodeFirst (.vIns d a s p n x tok)).extractLsb' 6 5 = s := up (up (up (lo it)))
  have h4 : (encodeFirst (.vIns d a s p n x tok)).extractLsb' 2 4 = p := up (up (lo it))
  have h5 : (encodeFirst (.vIns d a s p n x tok)).extractLsb' 1 1 = n := up (lo it)
  have h6 : (encodeFirst (.vIns d a s p n x tok)).extractLsb' 0 1 = VExt.bit x := lo it
  have h7 : (encodeFirst (.vIns d a s p n x tok)).extractLsb' 11 1 = 0#1 := up (up (up (up (lo it))))
  have hb : ∀ i0 i1 tk, build .v (encodeFirst (.vIns d a s p n x tok)) i0 i1 tk = some (.vIns (d) (a) (s) (p) (n) (VExt.read (VExt.bit x) i0) tk) := by
    intro i0 i1 tk
    show buildV _ i0 i1 tk = _
    unfold buildV
    rw [h0]
    exact (if_pos h7).trans (by rw [h1, h2, h3, h4, h5, h6])
  refine withImms _ .v _ rfl hb ?_ ?_ ?_
  · cases x with
    | none => rfl
    | some y =>
      show Instr.vIns d a s p n (some (VExt.ofWord y.toWord)) tok = _
      rw [ofWord_toWord]
  · cases x <;> exact ⟨rfl, rfl, rfl, rfl, rfl⟩
  · cases x with
    | none => rfl
    | some y =>
      show Instr.extOk (.vIns d a s p n (some (VExt.ofWord y.toWord)) none) = _
      rw [ofWord_toWord]; rfl

theorem vExt (d : BitVec 6) (a : BitVec 6) (s : BitVec 5) (p : BitVec 4) (n : BitVec 1) (x : Option VExt) (tok : Option Tok) : Statement (.vExt d a s p n x tok) := by
  have h0 : (encodeFirst (.vExt d a s p n x tok)).extractLsb' 24 8 = 0x3F#8 := up (up (up (up (up (up (up it))))))
  have h1 : (encodeFirst (.vExt d a s p n x tok)).extractLsb' 18 6 = d := up (up (up (up (up (up (lo it))))))
  have h2 : (encodeFirst (.vExt d a s p n x tok)).extractLsb' 12 6 = a := up (up (up (up (up (lo it)))))
  have h3 : (encodeFirst (.vExt d a s p n x tok)).extractLsb' 6 5 = s := up (up (up (lo it)))
  have h4 : (encodeFirst (.vExt d a s p n x tok)).extractLsb' 2 4 = p := up (up (lo it))
  have h5 : (encodeFirst (.vExt d a s p n x tok)).extractLsb' 1 1 = n := up (lo it)
  have h6 : (encodeFirst (.vExt d a s p n x tok)).extractLsb' 0 1 = VExt.bit x := lo it
  have h7 : (encodeFirst (.vExt d a s p n x tok)).extractLsb' 11 1 = 0#1 := up (up (up (up (lo it))))
  have hb : ∀ i0 i1 tk, build .v (encodeFirst (.vExt d a s p n x tok)) i0 i1 tk = some (.vExt (d) (a) (s) (p) (n) (VExt.read (VExt.bit x) i0) tk) := by
    intro i0 i1 tk
    show buildV _ i0 i1 tk = _
    unfold buildV
    rw [h0]
    exact (if_pos h7).trans (by rw [h1, h2, h3, h4, h5, h6])
  refine withImms _ .v _ rfl hb ?_ ?_ ?_
  · cases x with
    | none => rfl
    | some y =>
      show Instr.vExt d a s p n (some (VExt.ofWord y.toWord)) tok = _
      rw [ofWord_toWord]
  · cases x <;> exact ⟨rfl, rfl, rfl, rfl, rfl⟩
  · cases x with
    | none => rfl
    | some y =>
      show Instr.extOk (.vExt d a s p n (some (VExt.ofWord y.toWord)) none) = _
      rw [ofWord_toWord]; rfl

theorem vLse (d : BitVec 6) (a : BitVec 6) (b : BitVec 6) (p : BitVec 4) (n : BitVec 1) (x : Option VExt) (tok : Option Tok) : Statement (.vLse d a b p n x tok) := by
  have h0 : (encodeFirst (.vLse d a b p n x tok)).extractLsb' 24 8 = 0x40#8 := up (up (up (up (up (up it)))))
  have h1 : (encodeFirst (.vLse d a b p n x tok)).extractLsb' 18 6 = d := up (up (up (up (up (lo it)))))
  have h2 : (encodeFirst (.vLse d a b p n x tok)).extractLsb' 12 6 = a := up (up (up (up (lo it))))
  have h3 : (encodeFirst (.vLse d a b p n x tok)).extractLsb' 6 6 = b := up (up (up (lo it)))
  have h4 : (encodeFirst (.vLse d a b p n x tok)).extractLsb' 2 4 = p := up (up (lo it))
  have h5 : (encodeFirst (.vLse d a b p n x tok)).extractLsb' 1 1 = n := up (lo it)
  have h6 : (encodeFirst (.vLse d a b p n x tok)).extractLsb' 0 1 = VExt.bit x := lo it
  have hb : ∀ i0 i1 tk, build .v (encodeFirst (.vLse d a b p n x tok)) i0 i1 tk = some (.vLse (d) (a) (b) (p) (n) (VExt.read (VExt.bit x) i0) tk) := by
    intro i0 i1 tk
    show buildV _ i0 i1 tk = _
    unfold buildV
    rw [h0]
    show some _ = _
    rw [h1, h2, h3, h4, h5, h6]
  refine withImms _ .v _ rfl hb ?_ ?_ ?_
  · cases x with
    | none => rfl
    | some y =>
      show Instr.vLse d a b p n (some (VExt.ofWord y.toWord)) tok = _
      rw [ofWord_toWord]
  · cases x <;> exact ⟨rfl, rfl, rfl, rfl, rfl⟩
  · cases x with
    | none => rfl
    | some y =>
      show Instr.extOk (.vLse d a b p n (some (VExt.ofWord y.toWord)) none) = _
      rw [ofWord_toWord]; rfl

theorem vCex (d : BitVec 6) (a : BitVec 6) (b : BitVec 6) (p : BitVec 4) (n : BitVec 1) (x : Option VExt) (tok : Option Tok) : Statement (.vCex d a b p n x tok) := by
  have h0 : (encodeFirst (.vCex d a b p n x tok)).extractLsb' 24 8 = 0x41#8 := up (up (up (up (up (up it)))))
  have h1 : (encodeFirst (.vCex d a b p n x tok)).extractLsb' 18 6 = d := up (up (up (up (up (lo it)))))
  have h2 : (encodeFirst (.vCex d a b p n x tok)).extractLsb' 12 6 = a := up (up (up (up (lo it))))
  have h3 : (encodeFirst (.vCex d a b p n x tok)).extractLsb' 6 6 = b := up (up (up (lo it)))
  have h4 : (encodeFirst (.vCex d a b p n x tok)).extractLsb' 2 4 = p := up (up (lo it))
  have h5 : (encodeFirst (.vCex d a b p n x tok)).extractLsb' 1 1 = n := up (lo it)
  have h6 : (encodeFirst (.vCex d a b p n x tok)).extractLsb' 0 1 = VExt.bit x := lo it
  have hb : ∀ i0 i1 tk, build .v (encodeFirst (.vCex d a b p n x tok)) i0 i1 tk = some (.vCex (d) (a) (b) (p) (n) (VExt.read (VExt.bit x) i0) tk) := by
    intro i0 i1 tk
    show buildV _ i0 i1 tk = _
    unfold buildV
    rw [h0]
    show some _ = _
    rw [h1, h2, h3, h4, h5, h6]
  refine withImms _ .v _ rfl hb ?_ ?_ ?_
  · cases x with
    | none => rfl
    | some y =>
      show Instr.vCex d a b p n (some (VExt.ofWord y.toWord)) tok = _
      rw [ofWord_toWord]
  · cases x <;> exact ⟨rfl, rfl, rfl, rfl, rfl⟩
  · cases x with
    | none => rfl
    | some y =>
      show Instr.extOk (.vCex d a b p n (some (VExt.ofWord y.toWord)) none) = _
      rw [ofWord_toWord]; rfl

theorem vSeed (s : BitVec 5) (p : BitVec 4) (n : BitVec 1) (x : Option VExt) (tok : Option Tok) : Statement (.vSeed s p n x tok) := by
  have h0 : (encodeFirst (.vSeed s p n x tok)).extractLsb' 24 8 = 0x42#8 := up (up (up (up (up it))))
  have h1 : (encodeFirst (.vSeed s p n x tok)).extractLsb' 6 5 = s := up (up (up (lo it)))
  have h2 : (encodeFirst (.vSeed s p n x tok)).extractLsb' 2 4 = p := up (up (lo it))
  have h3 : (encodeFirst (.vSeed s p n x tok)).extractLsb' 1 1 = n := up (lo it)
  have h4 : (encodeFirst (.vSeed s p n x tok)).extractLsb' 0 1 = VExt.bit x := lo it
  have h5 : (encodeFirst (.vSeed s p n x tok)).extractLsb' 11 13 = 0#13 := up (up (up (up (lo it))))
  have hb : ∀ i0 i1 tk, build .v (encodeFirst (.vSeed s p n x tok)) i0 i1 tk = some (.vSeed (s) (p) (n) (VExt.read (VExt.bit x) i0) tk) := by
    intro i0 i1 tk
    show buildV _ i0 i1 tk = _
    unfold buildV
    rw [h0]
    exact (if_pos h5).trans (by rw [h1, h2, h3, h4])
  refine withImms _ .v _ rfl hb ?_ ?_ ?_
  · cases x with
    | none => rfl
    | some y =>
      show Instr.vSeed s p n (some (VExt.ofWord y.toWord)) tok = _
      rw [ofWord_toWord]
  · cases x <;> exact ⟨rfl, rfl, rfl, rfl, rfl⟩
  · cases x with
    | none => rfl
    | some y =>
      show Instr.extOk (.vSeed s p n (some (VExt.ofWord y.toWord)) none) = _
      rw [ofWord_toWord]; rfl

theorem vLd (v : BitVec 6) (s : BitVec 5) (i : BitVec 7) (p : BitVec 4) (n : BitVec 1) (x : Option VExt) (tok : Option Tok) : Statement (.vLd v s i p n x tok) := by
  have h0 : (encodeFirst (.vLd v s i p n x tok)).extractLsb' 24 8 = 0x48#8 := up (up (up (up (up (up it)))))
  have h1 : (encodeFirst (.vLd v s i p n x tok)).extractLsb' 18 6 = v := up (up (up (up (up (lo it)))))
  have h2 : (encodeFirst (.vLd v s i p n x tok)).extractLsb' 13 5 = s := up (up (up (up (lo it))))
  have h3 : (encodeFirst (.vLd v s i p n x tok)).extractLsb' 6 7 = i := up (up (up (lo it)))
  have h4 : (encodeFirst (.vLd v s i p n x tok)).extractLsb' 2 4 = p := up (up (lo it))
  have h5 : (encodeFirst (.vLd v s i p n x tok)).extractLsb' 1 1 = n := up (lo it)
  have h6 : (encodeFirst (.vLd v s i p n x tok)).extractLsb' 0 1 = VExt.bit x := lo it
  have hb : ∀ i0 i1 tk, build .v (encodeFirst (.vLd v s i p n x tok)) i0 i1 tk = some (.vLd (v) (s) (i) (p) (n) (VExt.read (VExt.bit x) i0) tk) := by
    intro i0 i1 tk
    show buildV _ i0 i1 tk = _
    unfold buildV
    rw [h0]
    show some _ = _
    rw [h1, h2, h3, h4, h5, h6]
  refine withImms _ .v _ rfl hb ?_ ?_ ?_
  · cases x with
    | none => rfl
    | some y =>
      show Instr.vLd v s i p n (some (VExt.ofWord y.toWord)) tok = _
      rw [ofWord_toWord]
  · cases x <;> exact ⟨rfl, rfl, rfl, rfl, rfl⟩
  · cases x with
    | none => rfl
    | some y =>
      show Instr.extOk (.vLd v s i p n (some (VExt.ofWord y.toWord)) none) = _
      rw [ofWord_toWord]; rfl

theorem vSt (v : BitVec 6) (s : BitVec 5) (i : BitVec 7) (p : BitVec 4) (n : BitVec 1) (x : Option VExt) (tok : Option Tok) : Statement (.vSt v s i p n x tok) := by
  have h0 : (encodeFirst (.vSt v s i p n x tok)).extractLsb' 24 8 = 0x49#8 := up (up (up (up (up (up it)))))
  have h1 : (encodeFirst (.vSt v s i p n x tok)).extractLsb' 18 6 = v := up (up (up (up (up (lo it)))))
  have h2 : (encodeFirst (.vSt v s i p n x tok)).extractLsb' 13 5 = s := up (up (up (up (lo it))))
  have h3 : (encodeFirst (.vSt v s i p n x tok)).extractLsb' 6 7 = i := up (up (up (lo it)))
  have h4 : (encodeFirst (.vSt v s i p n x tok)).extractLsb' 2 4 = p := up (up (lo it))
  have h5 : (encodeFirst (.vSt v s i p n x tok)).extractLsb' 1 1 = n := up (lo it)
  have h6 : (encodeFirst (.vSt v s i p n x tok)).extractLsb' 0 1 = VExt.bit x := lo it
  have hb : ∀ i0 i1 tk, build .v (encodeFirst (.vSt v s i p n x tok)) i0 i1 tk = some (.vSt (v) (s) (i) (p) (n) (VExt.read (VExt.bit x) i0) tk) := by
    intro i0 i1 tk
    show buildV _ i0 i1 tk = _
    unfold buildV
    rw [h0]
    show some _ = _
    rw [h1, h2, h3, h4, h5, h6]
  refine withImms _ .v _ rfl hb ?_ ?_ ?_
  · cases x with
    | none => rfl
    | some y =>
      show Instr.vSt v s i p n (some (VExt.ofWord y.toWord)) tok = _
      rw [ofWord_toWord]
  · cases x <;> exact ⟨rfl, rfl, rfl, rfl, rfl⟩
  · cases x with
    | none => rfl
    | some y =>
      show Instr.extOk (.vSt v s i p n (some (VExt.ofWord y.toWord)) none) = _
      rw [ofWord_toWord]; rfl

theorem vLdu (v : BitVec 6) (s : BitVec 5) (i : BitVec 7) (p : BitVec 4) (n : BitVec 1) (x : Option VExt) (tok : Option Tok) : Statement (.vLdu v s i p n x tok) := by
  have h0 : (encodeFirst (.vLdu v s i p n x tok)).extractLsb' 24 8 = 0x4A#8 := up (up (up (up (up (up it)))))
  have h1 : (encodeFirst (.vLdu v s i p n x tok)).extractLsb' 18 6 = v := up (up (up (up (up (lo it)))))
  have h2 : (encodeFirst (.vLdu v s i p n x tok)).extractLsb' 13 5 = s := up (up (up (up (lo it))))
  have h3 : (encodeFirst (.vLdu v s i p n x tok)).extractLsb' 6 7 = i := up (up (up (lo it)))
  have h4 : (encodeFirst (.vLdu v s i p n x tok)).extractLsb' 2 4 = p := up (up (lo it))
  have h5 : (encodeFirst (.vLdu v s i p n x tok)).extractLsb' 1 1 = n := up (lo it)
  have h6 : (encodeFirst (.vLdu v s i p n x tok)).extractLsb' 0 1 = VExt.bit x := lo it
  have hb : ∀ i0 i1 tk, build .v (encodeFirst (.vLdu v s i p n x tok)) i0 i1 tk = some (.vLdu (v) (s) (i) (p) (n) (VExt.read (VExt.bit x) i0) tk) := by
    intro i0 i1 tk
    show buildV _ i0 i1 tk = _
    unfold buildV
    rw [h0]
    show some _ = _
    rw [h1, h2, h3, h4, h5, h6]
  refine withImms _ .v _ rfl hb ?_ ?_ ?_
  · cases x with
    | none => rfl
    | some y =>
      show Instr.vLdu v s i p n (some (VExt.ofWord y.toWord)) tok = _
      rw [ofWord_toWord]
  · cases x <;> exact ⟨rfl, rfl, rfl, rfl, rfl⟩
  · cases x with
    | none => rfl
    | some y =>
      show Instr.extOk (.vLdu v s i p n (some (VExt.ofWord y.toWord)) none) = _
      rw [ofWord_toWord]; rfl

theorem vStu (v : BitVec 6) (s : BitVec 5) (i : BitVec 7) (p : BitVec 4) (n : BitVec 1) (x : Option VExt) (tok : Option Tok) : Statement (.vStu v s i p n x tok) := by
  have h0 : (encodeFirst (.vStu v s i p n x tok)).extractLsb' 24 8 = 0x4B#8 := up (up (up (up (up (up it)))))
  have h1 : (encodeFirst (.vStu v s i p n x tok)).extractLsb' 18 6 = v := up (up (up (up (up (lo it)))))
  have h2 : (encodeFirst (.vStu v s i p n x tok)).extractLsb' 13 5 = s := up (up (up (up (lo it))))
  have h3 : (encodeFirst (.vStu v s i p n x tok)).extractLsb' 6 7 = i := up (up (up (lo it)))
  have h4 : (encodeFirst (.vStu v s i p n x tok)).extractLsb' 2 4 = p := up (up (lo it))
  have h5 : (encodeFirst (.vStu v s i p n x tok)).extractLsb' 1 1 = n := up (lo it)
  have h6 : (encodeFirst (.vStu v s i p n x tok)).extractLsb' 0 1 = VExt.bit x := lo it
  have hb : ∀ i0 i1 tk, build .v (encodeFirst (.vStu v s i p n x tok)) i0 i1 tk = some (.vStu (v) (s) (i) (p) (n) (VExt.read (VExt.bit x) i0) tk) := by
    intro i0 i1 tk
    show buildV _ i0 i1 tk = _
    unfold buildV
    rw [h0]
    show some _ = _
    rw [h1, h2, h3, h4, h5, h6]
  refine withImms _ .v _ rfl hb ?_ ?_ ?_
  · cases x with
    | none => rfl
    | some y =>
      show Instr.vStu v s i p n (some (VExt.ofWord y.toWord)) tok = _
      rw [ofWord_toWord]
  · cases x <;> exact ⟨rfl, rfl, rfl, rfl, rfl⟩
  · cases x with
    | none => rfl
    | some y =>
      show Instr.extOk (.vStu v s i p n (some (VExt.ofWord y.toWord)) none) = _
      rw [ofWord_toWord]; rfl

theorem vStm (v : BitVec 6) (s : BitVec 5) (i : BitVec 7) (p : BitVec 4) (n : BitVec 1) (x : VExt) (tok : Option Tok) : Statement (.vStm v s i p n x tok) := by
  have h0 : (encodeFirst (.vStm v s i p n x tok)).extractLsb' 24 8 = 0x4C#8 := up (up (up (up (up (up it)))))
  have h1 : (encodeFirst (.vStm v s i p n x tok)).extractLsb' 18 6 = v := up (up (up (up (up (lo it)))))
  have h2 : (encodeFirst (.vStm v s i p n x tok)).extractLsb' 13 5 = s := up (up (up (up (lo it))))
  have h3 : (encodeFirst (.vStm v s i p n x tok)).extractLsb' 6 7 = i := up (up (up (lo it)))
  have h4 : (encodeFirst (.vStm v s i p n x tok)).extractLsb' 2 4 = p := up (up (lo it))
  have h5 : (encodeFirst (.vStm v s i p n x tok)).extractLsb' 1 1 = n := up (lo it)
  have h6 : (encodeFirst (.vStm v s i p n x tok)).extractLsb' 0 1 = 1#1 := lo it
  have hb : ∀ i0 i1 tk, build .v (encodeFirst (.vStm v s i p n x tok)) i0 i1 tk = some (.vStm (v) (s) (i) (p) (n) (VExt.ofWord i0) tk) := by
    intro i0 i1 tk
    show buildV _ i0 i1 tk = _
    unfold buildV
    rw [h0]
    exact (if_pos h6).trans (by rw [h1, h2, h3, h4, h5])
  refine withImms _ .v _ rfl hb ?_ ⟨rfl, rfl, rfl, rfl, rfl⟩ ?_
  · show Instr.vStm v s i p n (VExt.ofWord x.toWord) tok = _
    rw [ofWord_toWord]
  · show Instr.extOk (.vStm v s i p n (VExt.ofWord x.toWord) none) = _
    rw [ofWord_toWord]; rfl

theorem vGth (d : BitVec 6) (a : BitVec 6) (s : BitVec 5) (p : BitVec 4) (n : BitVec 1) (x : Option VExt) (tok : Option Tok) : Statement (.vGth d a s p n x tok) := by
  have h0 : (encodeFirst (.vGth d a s p n x tok)).extractLsb' 24 8 = 0x4D#8 := up (up (up (up (up (up (up it))))))
  have h1 : (encodeFirst (.vGth d a s p n x tok)).extractLsb' 18 6 = d := up (up (up (up (up (up (lo it))))))
  have h2 : (encodeFirst (.vGth d a s p n x tok)).extractLsb' 12 6 = a := up (up (up (up (up (lo it)))))
  have h3 : (encodeFirst (.vGth d a s p n x tok)).extractLsb' 6 5 = s := up (up (up (lo it)))
  have h4 : (encodeFirst (.vGth d a s p n x tok)).extractLsb' 2 4 = p := up (up (lo it))
  have h5 : (encodeFirst (.vGth d a s p n x tok)).extractLsb' 1 1 = n := up (lo it)
  have h6 : (encodeFirst (.vGth d a s p n x tok)).extractLsb' 0 1 = VExt.bit x := lo it
  have h7 : (encodeFirst (.vGth d a s p n x tok)).extractLsb' 11 1 = 0#1 := up (up (up (up (lo it))))
  have hb : ∀ i0 i1 tk, build .v (encodeFirst (.vGth d a s p n x tok)) i0 i1 tk = some (.vGth (d) (a) (s) (p) (n) (VExt.read (VExt.bit x) i0) tk) := by
    intro i0 i1 tk
    show buildV _ i0 i1 tk = _
    unfold buildV
    rw [h0]
    exact (if_pos h7).trans (by rw [h1, h2, h3, h4, h5, h6])
  refine withImms _ .v _ rfl hb ?_ ?_ ?_
  · cases x with
    | none => rfl
    | some y =>
      show Instr.vGth d a s p n (some (VExt.ofWord y.toWord)) tok = _
      rw [ofWord_toWord]
  · cases x <;> exact ⟨rfl, rfl, rfl, rfl, rfl⟩
  · cases x with
    | none => rfl
    | some y =>
      show Instr.extOk (.vGth d a s p n (some (VExt.ofWord y.toWord)) none) = _
      rw [ofWord_toWord]; rfl

theorem vSct (d : BitVec 6) (a : BitVec 6) (s : BitVec 5) (p : BitVec 4) (n : BitVec 1) (x : Option VExt) (tok : Option Tok) : Statement (.vSct d a s p n x tok) := by
  have h0 : (encodeFirst (.vSct d a s p n x tok)).extractLsb' 24 8 = 0x4E#8 := up (up (up (up (up (up (up it))))))
  have h1 : (encodeFirst (.vSct d a s p n x tok)).extractLsb' 18 6 = d := up (up (up (up (up (up (lo it))))))
  have h2 : (encodeFirst (.vSct d a s p n x tok)).extractLsb' 12 6 = a := up (up (up (up (up (lo it)))))
  have h3 : (encodeFirst (.vSct d a s p n x tok)).extractLsb' 6 5 = s := up (up (up (lo it)))
  have h4 : (encodeFirst (.vSct d a s p n x tok)).extractLsb' 2 4 = p := up (up (lo it))
  have h5 : (encodeFirst (.vSct d a s p n x tok)).extractLsb' 1 1 = n := up (lo it)
  have h6 : (encodeFirst (.vSct d a s p n x tok)).extractLsb' 0 1 = VExt.bit x := lo it
  have h7 : (encodeFirst (.vSct d a s p n x tok)).extractLsb' 11 1 = 0#1 := up (up (up (up (lo it))))
  have hb : ∀ i0 i1 tk, build .v (encodeFirst (.vSct d a s p n x tok)) i0 i1 tk = some (.vSct (d) (a) (s) (p) (n) (VExt.read (VExt.bit x) i0) tk) := by
    intro i0 i1 tk
    show buildV _ i0 i1 tk = _
    unfold buildV
    rw [h0]
    exact (if_pos h7).trans (by rw [h1, h2, h3, h4, h5, h6])
  refine withImms _ .v _ rfl hb ?_ ?_ ?_
  · cases x with
    | none => rfl
    | some y =>
      show Instr.vSct d a s p n (some (VExt.ofWord y.toWord)) tok = _
      rw [ofWord_toWord]
  · cases x <;> exact ⟨rfl, rfl, rfl, rfl, rfl⟩
  · cases x with
    | none => rfl
    | some y =>
      show Instr.extOk (.vSct d a s p n (some (VExt.ofWord y.toWord)) none) = _
      rw [ofWord_toWord]; rfl

theorem pAnd (q : BitVec 4) (a : BitVec 4) (b : BitVec 4) (tok : Option Tok) : Statement (.pAnd q a b tok) := by
  have h0 : (encodeFirst (.pAnd q a b tok)).extractLsb' 24 8 = 0x50#8 := up (up (up (up it)))
  have h1 : (encodeFirst (.pAnd q a b tok)).extractLsb' 20 4 = q := up (up (up (lo it)))
  have h2 : (encodeFirst (.pAnd q a b tok)).extractLsb' 16 4 = a := up (up (lo it))
  have h3 : (encodeFirst (.pAnd q a b tok)).extractLsb' 12 4 = b := up (lo it)
  have h4 : (encodeFirst (.pAnd q a b tok)).extractLsb' 0 12 = 0#12 := lo it
  refine plain _ .v (fun tk => .pAnd (q) (a) (b) tk) rfl (fun i0 i1 tk => ?_) rfl ⟨rfl, rfl, rfl, rfl, rfl, rfl⟩
  show buildV _ i0 i1 tk = _
  unfold buildV
  rw [h0]
  exact (if_pos h4).trans (by rw [h1, h2, h3])

theorem pOr (q : BitVec 4) (a : BitVec 4) (b : BitVec 4) (tok : Option Tok) : Statement (.pOr q a b tok) := by
  have h0 : (encodeFirst (.pOr q a b tok)).extractLsb' 24 8 = 0x51#8 := up (up (up (up it)))
  have h1 : (encodeFirst (.pOr q a b tok)).extractLsb' 20 4 = q := up (up (up (lo it)))
  have h2 : (encodeFirst (.pOr q a b tok)).extractLsb' 16 4 = a := up (up (lo it))
  have h3 : (encodeFirst (.pOr q a b tok)).extractLsb' 12 4 = b := up (lo it)
  have h4 : (encodeFirst (.pOr q a b tok)).extractLsb' 0 12 = 0#12 := lo it
  refine plain _ .v (fun tk => .pOr (q) (a) (b) tk) rfl (fun i0 i1 tk => ?_) rfl ⟨rfl, rfl, rfl, rfl, rfl, rfl⟩
  show buildV _ i0 i1 tk = _
  unfold buildV
  rw [h0]
  exact (if_pos h4).trans (by rw [h1, h2, h3])

theorem pXor (q : BitVec 4) (a : BitVec 4) (b : BitVec 4) (tok : Option Tok) : Statement (.pXor q a b tok) := by
  have h0 : (encodeFirst (.pXor q a b tok)).extractLsb' 24 8 = 0x52#8 := up (up (up (up it)))
  have h1 : (encodeFirst (.pXor q a b tok)).extractLsb' 20 4 = q := up (up (up (lo it)))
  have h2 : (encodeFirst (.pXor q a b tok)).extractLsb' 16 4 = a := up (up (lo it))
  have h3 : (encodeFirst (.pXor q a b tok)).extractLsb' 12 4 = b := up (lo it)
  have h4 : (encodeFirst (.pXor q a b tok)).extractLsb' 0 12 = 0#12 := lo it
  refine plain _ .v (fun tk => .pXor (q) (a) (b) tk) rfl (fun i0 i1 tk => ?_) rfl ⟨rfl, rfl, rfl, rfl, rfl, rfl⟩
  show buildV _ i0 i1 tk = _
  unfold buildV
  rw [h0]
  exact (if_pos h4).trans (by rw [h1, h2, h3])

theorem pAndn (q : BitVec 4) (a : BitVec 4) (b : BitVec 4) (tok : Option Tok) : Statement (.pAndn q a b tok) := by
  have h0 : (encodeFirst (.pAndn q a b tok)).extractLsb' 24 8 = 0x53#8 := up (up (up (up it)))
  have h1 : (encodeFirst (.pAndn q a b tok)).extractLsb' 20 4 = q := up (up (up (lo it)))
  have h2 : (encodeFirst (.pAndn q a b tok)).extractLsb' 16 4 = a := up (up (lo it))
  have h3 : (encodeFirst (.pAndn q a b tok)).extractLsb' 12 4 = b := up (lo it)
  have h4 : (encodeFirst (.pAndn q a b tok)).extractLsb' 0 12 = 0#12 := lo it
  refine plain _ .v (fun tk => .pAndn (q) (a) (b) tk) rfl (fun i0 i1 tk => ?_) rfl ⟨rfl, rfl, rfl, rfl, rfl, rfl⟩
  show buildV _ i0 i1 tk = _
  unfold buildV
  rw [h0]
  exact (if_pos h4).trans (by rw [h1, h2, h3])

theorem pNot (q : BitVec 4) (a : BitVec 4) (tok : Option Tok) : Statement (.pNot q a tok) := by
  have h0 : (encodeFirst (.pNot q a tok)).extractLsb' 24 8 = 0x54#8 := up (up (up it))
  have h1 : (encodeFirst (.pNot q a tok)).extractLsb' 20 4 = q := up (up (lo it))
  have h2 : (encodeFirst (.pNot q a tok)).extractLsb' 16 4 = a := up (lo it)
  have h3 : (encodeFirst (.pNot q a tok)).extractLsb' 0 16 = 0#16 := lo it
  refine plain _ .v (fun tk => .pNot (q) (a) tk) rfl (fun i0 i1 tk => ?_) rfl ⟨rfl, rfl, rfl, rfl, rfl, rfl⟩
  show buildV _ i0 i1 tk = _
  unfold buildV
  rw [h0]
  exact (if_pos h3).trans (by rw [h1, h2])

theorem pCnt (a : BitVec 4) (s : BitVec 5) (tok : Option Tok) : Statement (.pCnt a s tok) := by
  have h0 : (encodeFirst (.pCnt a s tok)).extractLsb' 24 8 = 0x55#8 := up (up (up (up (up it))))
  have h1 : (encodeFirst (.pCnt a s tok)).extractLsb' 16 4 = a := up (up (up (lo it)))
  have h2 : (encodeFirst (.pCnt a s tok)).extractLsb' 7 5 = s := up (lo it)
  have h3 : (encodeFirst (.pCnt a s tok)).extractLsb' 20 4 = 0#4 := up (up (up (up (lo it))))
  have h4 : (encodeFirst (.pCnt a s tok)).extractLsb' 12 4 = 0#4 := up (up (lo it))
  have h5 : (encodeFirst (.pCnt a s tok)).extractLsb' 0 7 = 0#7 := lo it
  refine plain _ .v (fun tk => .pCnt (a) (s) tk) rfl (fun i0 i1 tk => ?_) rfl ⟨rfl, rfl, rfl, rfl, rfl, rfl⟩
  show buildV _ i0 i1 tk = _
  unfold buildV
  rw [h0]
  exact (if_pos ⟨h3, h4, h5⟩).trans (by rw [h1, h2])

theorem mNop (tok : Option Tok) : Statement (.mNop tok) := by
  have h0 : (encodeFirst (.mNop tok)).extractLsb' 24 8 = 0x00#8 := up it
  have h1 : (encodeFirst (.mNop tok)).extractLsb' 0 24 = 0#24 := lo it
  refine plain _ .m (fun tk => .mNop tk) rfl (fun i0 i1 tk => ?_) rfl ⟨rfl, rfl, rfl, rfl, rfl, rfl⟩
  show buildM _ i0 i1 tk = _
  unfold buildM
  rw [h0]
  exact if_pos h1

theorem mMma (a : BitVec 4) (b : BitVec 4) (r : BitVec 6) (c : BitVec 6) (m : BitVec 3) (tok : Option Tok) : Statement (.mMma a b r c m tok) := by
  have h0 : (encodeFirst (.mMma a b r c m tok)).extractLsb' 24 8 = 0x01#8 := up (up (up (up (up (up it)))))
  have h1 : (encodeFirst (.mMma a b r c m tok)).extractLsb' 20 4 = a := up (up (up (up (up (lo it)))))
  have h2 : (encodeFirst (.mMma a b r c m tok)).extractLsb' 16 4 = b := up (up (up (up (lo it))))
  have h3 : (encodeFirst (.mMma a b r c m tok)).extractLsb' 10 6 = r := up (up (up (lo it)))
  have h4 : (encodeFirst (.mMma a b r c m tok)).extractLsb' 4 6 = c := up (up (lo it))
  have h5 : (encodeFirst (.mMma a b r c m tok)).extractLsb' 1 3 = m := up (lo it)
  have h6 : (encodeFirst (.mMma a b r c m tok)).extractLsb' 0 1 = 0#1 := lo it
  refine plain _ .m (fun tk => .mMma (a) (b) (r) (c) (m) tk) rfl (fun i0 i1 tk => ?_) rfl ⟨rfl, rfl, rfl, rfl, rfl, rfl⟩
  show buildM _ i0 i1 tk = _
  unfold buildM
  rw [h0]
  exact (if_pos h6).trans (by rw [h1, h2, h3, h4, h5])

theorem mMmaI (a : BitVec 4) (b : BitVec 4) (r : BitVec 6) (c : BitVec 6) (tok : Option Tok) : Statement (.mMmaI a b r c tok) := by
  have h0 : (encodeFirst (.mMmaI a b r c tok)).extractLsb' 24 8 = 0x02#8 := up (up (up (up (up it))))
  have h1 : (encodeFirst (.mMmaI a b r c tok)).extractLsb' 20 4 = a := up (up (up (up (lo it))))
  have h2 : (encodeFirst (.mMmaI a b r c tok)).extractLsb' 16 4 = b := up (up (up (lo it)))
  have h3 : (encodeFirst (.mMmaI a b r c tok)).extractLsb' 10 6 = r := up (up (lo it))
  have h4 : (encodeFirst (.mMmaI a b r c tok)).extractLsb' 4 6 = c := up (lo it)
  have h5 : (encodeFirst (.mMmaI a b r c tok)).extractLsb' 0 4 = 0#4 := lo it
  refine plain _ .m (fun tk => .mMmaI (a) (b) (r) (c) tk) rfl (fun i0 i1 tk => ?_) rfl ⟨rfl, rfl, rfl, rfl, rfl, rfl⟩
  show buildM _ i0 i1 tk = _
  unfold buildM
  rw [h0]
  exact (if_pos h5).trans (by rw [h1, h2, h3, h4])

theorem mMmaK4 (a : BitVec 4) (b : BitVec 4) (r : BitVec 6) (c : BitVec 6) (tok : Option Tok) : Statement (.mMmaK4 a b r c tok) := by
  have h0 : (encodeFirst (.mMmaK4 a b r c tok)).extractLsb' 24 8 = 0x03#8 := up (up (up (up (up it))))
  have h1 : (encodeFirst (.mMmaK4 a b r c tok)).extractLsb' 20 4 = a := up (up (up (up (lo it))))
  have h2 : (encodeFirst (.mMmaK4 a b r c tok)).extractLsb' 16 4 = b := up (up (up (lo it)))
  have h3 : (encodeFirst (.mMmaK4 a b r c tok)).extractLsb' 10 6 = r := up (up (lo it))
  have h4 : (encodeFirst (.mMmaK4 a b r c tok)).extractLsb' 4 6 = c := up (lo it)
  have h5 : (encodeFirst (.mMmaK4 a b r c tok)).extractLsb' 0 4 = 0#4 := lo it
  refine plain _ .m (fun tk => .mMmaK4 (a) (b) (r) (c) tk) rfl (fun i0 i1 tk => ?_) rfl ⟨rfl, rfl, rfl, rfl, rfl, rfl⟩
  show buildM _ i0 i1 tk = _
  unfold buildM
  rw [h0]
  exact (if_pos h5).trans (by rw [h1, h2, h3, h4])

theorem mScacc (a : BitVec 4) (b : BitVec 4) (r : BitVec 6) (c : BitVec 6) (m : BitVec 3) (tok : Option Tok) : Statement (.mScacc a b r c m tok) := by
  have h0 : (encodeFirst (.mScacc a b r c m tok)).extractLsb' 24 8 = 0x04#8 := up (up (up (up (up (up it)))))
  have h1 : (encodeFirst (.mScacc a b r c m tok)).extractLsb' 20 4 = a := up (up (up (up (up (lo it)))))
  have h2 : (encodeFirst (.mScacc a b r c m tok)).extractLsb' 16 4 = b := up (up (up (up (lo it))))
  have h3 : (encodeFirst (.mScacc a b r c m tok)).extractLsb' 10 6 = r := up (up (up (lo it)))
  have h4 : (encodeFirst (.mScacc a b r c m tok)).extractLsb' 4 6 = c := up (up (lo it))
  have h5 : (encodeFirst (.mScacc a b r c m tok)).extractLsb' 1 3 = m := up (lo it)
  have h6 : (encodeFirst (.mScacc a b r c m tok)).extractLsb' 0 1 = 0#1 := lo it
  refine plain _ .m (fun tk => .mScacc (a) (b) (r) (c) (m) tk) rfl (fun i0 i1 tk => ?_) rfl ⟨rfl, rfl, rfl, rfl, rfl, rfl⟩
  show buildM _ i0 i1 tk = _
  unfold buildM
  rw [h0]
  exact (if_pos h6).trans (by rw [h1, h2, h3, h4, h5])

theorem mZero (tok : Option Tok) : Statement (.mZero tok) := by
  have h0 : (encodeFirst (.mZero tok)).extractLsb' 24 8 = 0x05#8 := up it
  have h1 : (encodeFirst (.mZero tok)).extractLsb' 0 24 = 0#24 := lo it
  refine plain _ .m (fun tk => .mZero tk) rfl (fun i0 i1 tk => ?_) rfl ⟨rfl, rfl, rfl, rfl, rfl, rfl⟩
  show buildM _ i0 i1 tk = _
  unfold buildM
  rw [h0]
  exact if_pos h1

theorem mSwap (tok : Option Tok) : Statement (.mSwap tok) := by
  have h0 : (encodeFirst (.mSwap tok)).extractLsb' 24 8 = 0x06#8 := up it
  have h1 : (encodeFirst (.mSwap tok)).extractLsb' 0 24 = 0#24 := lo it
  refine plain _ .m (fun tk => .mSwap tk) rfl (fun i0 i1 tk => ?_) rfl ⟨rfl, rfl, rfl, rfl, rfl, rfl⟩
  show buildM _ i0 i1 tk = _
  unfold buildM
  rw [h0]
  exact if_pos h1

theorem mDrain (d : BitVec 4) (m : BitVec 3) (s : BitVec 1) (r : BitVec 6) (h : BitVec 1) (tok : Option Tok) : Statement (.mDrain d m s r h tok) := by
  have h0 : (encodeFirst (.mDrain d m s r h tok)).extractLsb' 24 8 = 0x07#8 := up (up (up (up (up (up it)))))
  have h1 : (encodeFirst (.mDrain d m s r h tok)).extractLsb' 20 4 = d := up (up (up (up (up (lo it)))))
  have h2 : (encodeFirst (.mDrain d m s r h tok)).extractLsb' 8 3 = m := up (up (up (lo it)))
  have h3 : (encodeFirst (.mDrain d m s r h tok)).extractLsb' 7 1 = s := up (up (lo it))
  have h4 : (encodeFirst (.mDrain d m s r h tok)).extractLsb' 1 6 = r := up (lo it)
  have h5 : (encodeFirst (.mDrain d m s r h tok)).extractLsb' 0 1 = h := lo it
  have h6 : (encodeFirst (.mDrain d m s r h tok)).extractLsb' 11 9 = 0#9 := up (up (up (up (lo it))))
  refine plain _ .m (fun tk => .mDrain (d) (m) (s) (r) (h) tk) rfl (fun i0 i1 tk => ?_) rfl ⟨rfl, rfl, rfl, rfl, rfl, rfl⟩
  show buildM _ i0 i1 tk = _
  unfold buildM
  rw [h0]
  exact (if_pos h6).trans (by rw [h1, h2, h3, h4, h5])

theorem mDrainAmax (d : BitVec 4) (e : BitVec 5) (m : BitVec 3) (s : BitVec 1) (r : BitVec 6) (h : BitVec 1) (tok : Option Tok) : Statement (.mDrainAmax d e m s r h tok) := by
  have h0 : (encodeFirst (.mDrainAmax d e m s r h tok)).extractLsb' 24 8 = 0x08#8 := up (up (up (up (up (up (up it))))))
  have h1 : (encodeFirst (.mDrainAmax d e m s r h tok)).extractLsb' 20 4 = d := up (up (up (up (up (up (lo it))))))
  have h2 : (encodeFirst (.mDrainAmax d e m s r h tok)).extractLsb' 11 5 = e := up (up (up (up (lo it))))
  have h3 : (encodeFirst (.mDrainAmax d e m s r h tok)).extractLsb' 8 3 = m := up (up (up (lo it)))
  have h4 : (encodeFirst (.mDrainAmax d e m s r h tok)).extractLsb' 7 1 = s := up (up (lo it))
  have h5 : (encodeFirst (.mDrainAmax d e m s r h tok)).extractLsb' 1 6 = r := up (lo it)
  have h6 : (encodeFirst (.mDrainAmax d e m s r h tok)).extractLsb' 0 1 = h := lo it
  have h7 : (encodeFirst (.mDrainAmax d e m s r h tok)).extractLsb' 16 4 = 0#4 := up (up (up (up (up (lo it)))))
  refine plain _ .m (fun tk => .mDrainAmax (d) (e) (m) (s) (r) (h) tk) rfl (fun i0 i1 tk => ?_) rfl ⟨rfl, rfl, rfl, rfl, rfl, rfl⟩
  show buildM _ i0 i1 tk = _
  unfold buildM
  rw [h0]
  exact (if_pos h7).trans (by rw [h1, h2, h3, h4, h5, h6])

theorem mKat (id : BitVec 4) (fmt : BitVec 4) (tok : Option Tok) : Statement (.mKat id fmt tok) := by
  have h0 : (encodeFirst (.mKat id fmt tok)).extractLsb' 24 8 = 0x09#8 := up (up (up it))
  have h1 : (encodeFirst (.mKat id fmt tok)).extractLsb' 20 4 = id := up (up (lo it))
  have h2 : (encodeFirst (.mKat id fmt tok)).extractLsb' 16 4 = fmt := up (lo it)
  have h3 : (encodeFirst (.mKat id fmt tok)).extractLsb' 0 16 = 0#16 := lo it
  refine plain _ .m (fun tk => .mKat (id) (fmt) tk) rfl (fun i0 i1 tk => ?_) rfl ⟨rfl, rfl, rfl, rfl, rfl, rfl⟩
  show buildM _ i0 i1 tk = _
  unfold buildM
  rw [h0]
  exact (if_pos h3).trans (by rw [h1, h2])

theorem mChk (sig : BitVec 32) (tok : Option Tok) : Statement (.mChk sig tok) := by
  have h0 : (encodeFirst (.mChk sig tok)).extractLsb' 24 8 = 0x0A#8 := up it
  have h1 : (encodeFirst (.mChk sig tok)).extractLsb' 0 24 = 0#24 := lo it
  have hb : ∀ i0 i1 tk, build .m (encodeFirst (.mChk sig tok)) i0 i1 tk = some (.mChk i0 tk) := by
    intro i0 i1 tk
    show buildM _ i0 i1 tk = _
    unfold buildM
    rw [h0]
    exact if_pos h1
  exact withImms _ .m _ rfl hb rfl ⟨rfl, rfl, rfl, rfl, rfl⟩ rfl

theorem mEpi (d : BitVec 4) (m : BitVec 3) (s : BitVec 1) (r : BitVec 6) (h : BitVec 1) (tok : Option Tok) : Statement (.mEpi d m s r h tok) := by
  have h0 : (encodeFirst (.mEpi d m s r h tok)).extractLsb' 24 8 = 0x0B#8 := up (up (up (up (up (up it)))))
  have h1 : (encodeFirst (.mEpi d m s r h tok)).extractLsb' 20 4 = d := up (up (up (up (up (lo it)))))
  have h2 : (encodeFirst (.mEpi d m s r h tok)).extractLsb' 8 3 = m := up (up (up (lo it)))
  have h3 : (encodeFirst (.mEpi d m s r h tok)).extractLsb' 7 1 = s := up (up (lo it))
  have h4 : (encodeFirst (.mEpi d m s r h tok)).extractLsb' 1 6 = r := up (lo it)
  have h5 : (encodeFirst (.mEpi d m s r h tok)).extractLsb' 0 1 = h := lo it
  have h6 : (encodeFirst (.mEpi d m s r h tok)).extractLsb' 11 9 = 0#9 := up (up (up (up (lo it))))
  refine plain _ .m (fun tk => .mEpi (d) (m) (s) (r) (h) tk) rfl (fun i0 i1 tk => ?_) rfl ⟨rfl, rfl, rfl, rfl, rfl, rfl⟩
  show buildM _ i0 i1 tk = _
  unfold buildM
  rw [h0]
  exact (if_pos h6).trans (by rw [h1, h2, h3, h4, h5])

theorem mEpiLd (a : BitVec 4) (tok : Option Tok) : Statement (.mEpiLd a tok) := by
  have h0 : (encodeFirst (.mEpiLd a tok)).extractLsb' 24 8 = 0x0B#8 := up (up it)
  have h1 : (encodeFirst (.mEpiLd a tok)).extractLsb' 20 4 = a := up (lo it)
  have h2 : (encodeFirst (.mEpiLd a tok)).extractLsb' 0 20 = 32768#20 := lo it
  refine plain _ .m (fun tk => .mEpiLd (a) tk) rfl (fun i0 i1 tk => ?_) rfl ⟨rfl, rfl, rfl, rfl, rfl, rfl⟩
  show buildM _ i0 i1 tk = _
  unfold buildM
  rw [h0]
  exact (if_neg (fun h => absurd (h.symm.trans (fewer h2 11 9 (by decide))) (by decide))).trans ((if_pos h2).trans (by rw [h1]))

theorem mGang (m : BitVec 4) (g : BitVec 2) : Statement (.mGang m g) := by
  have h0 : (encodeFirst (.mGang m g)).extractLsb' 24 8 = 0x0C#8 := up (up (up it))
  have h1 : (encodeFirst (.mGang m g)).extractLsb' 20 4 = m := up (up (lo it))
  have h2 : (encodeFirst (.mGang m g)).extractLsb' 18 2 = g := up (lo it)
  have h3 : (encodeFirst (.mGang m g)).extractLsb' 0 18 = 0#18 := lo it
  refine plain _ .m (fun tk => .mGang (m) (g)) rfl (fun i0 i1 tk => ?_) rfl ⟨rfl, rfl, rfl, rfl, rfl, rfl⟩
  show buildM _ i0 i1 tk = _
  unfold buildM
  rw [h0]
  exact (if_pos h3).trans (by rw [h1, h2])

theorem mAcct (t : BitVec 2) (tok : Option Tok) : Statement (.mAcct t tok) := by
  have h0 : (encodeFirst (.mAcct t tok)).extractLsb' 24 8 = 0x0D#8 := up (up it)
  have h1 : (encodeFirst (.mAcct t tok)).extractLsb' 0 2 = t := lo it
  have h2 : (encodeFirst (.mAcct t tok)).extractLsb' 2 22 = 0#22 := up (lo it)
  refine plain _ .m (fun tk => .mAcct (t) tk) rfl (fun i0 i1 tk => ?_) rfl ⟨rfl, rfl, rfl, rfl, rfl, rfl⟩
  show buildM _ i0 i1 tk = _
  unfold buildM
  rw [h0]
  exact (if_pos h2).trans (by rw [h1])

theorem dNop (tok : Option Tok) : Statement (.dNop tok) := by
  have h0 : (encodeFirst (.dNop tok)).extractLsb' 24 8 = 0x00#8 := up it
  have h1 : (encodeFirst (.dNop tok)).extractLsb' 0 24 = 0#24 := lo it
  refine plain _ .d (fun tk => .dNop tk) rfl (fun i0 i1 tk => ?_) rfl ⟨rfl, rfl, rfl, rfl, rfl, rfl⟩
  show buildD _ i0 i1 tk = _
  unfold buildD
  rw [h0]
  exact if_pos h1

theorem dCopy (x : BitVec 5) (y : BitVec 5) (z : BitVec 5) (tok : Option Tok) : Statement (.dCopy x y z tok) := by
  have h0 : (encodeFirst (.dCopy x y z tok)).extractLsb' 24 8 = 0x01#8 := up (up (up (up it)))
  have h1 : (encodeFirst (.dCopy x y z tok)).extractLsb' 19 5 = x := up (up (up (lo it)))
  have h2 : (encodeFirst (.dCopy x y z tok)).extractLsb' 14 5 = y := up (up (lo it))
  have h3 : (encodeFirst (.dCopy x y z tok)).extractLsb' 9 5 = z := up (lo it)
  have h4 : (encodeFirst (.dCopy x y z tok)).extractLsb' 0 9 = 0#9 := lo it
  refine plain _ .d (fun tk => .dCopy (x) (y) (z) tk) rfl (fun i0 i1 tk => ?_) rfl ⟨rfl, rfl, rfl, rfl, rfl, rfl⟩
  show buildD _ i0 i1 tk = _
  unfold buildD
  rw [h0]
  exact (if_pos h4).trans (by rw [h1, h2, h3])

theorem dCopyRg (y : BitVec 5) (z : BitVec 5) (r : BitVec 4) (m : BitVec 2) (tok : Option Tok) : Statement (.dCopyRg y z r m tok) := by
  have h0 : (encodeFirst (.dCopyRg y z r m tok)).extractLsb' 24 8 = 0x01#8 := up (up (up (up (up (up (up it))))))
  have h1 : (encodeFirst (.dCopyRg y z r m tok)).extractLsb' 14 5 = y := up (up (up (up (up (lo it)))))
  have h2 : (encodeFirst (.dCopyRg y z r m tok)).extractLsb' 9 5 = z := up (up (up (up (lo it))))
  have h3 : (encodeFirst (.dCopyRg y z r m tok)).extractLsb' 4 4 = r := up (up (lo it))
  have h4 : (encodeFirst (.dCopyRg y z r m tok)).extractLsb' 2 2 = m := up (lo it)
  have h5 : (encodeFirst (.dCopyRg y z r m tok)).extractLsb' 19 5 = 0#5 := up (up (up (up (up (up (lo it))))))
  have h6 : (encodeFirst (.dCopyRg y z r m tok)).extractLsb' 8 1 = 1#1 := up (up (up (lo it)))
  have h7 : (encodeFirst (.dCopyRg y z r m tok)).extractLsb' 0 2 = 0#2 := lo it
  refine plain _ .d (fun tk => .dCopyRg (y) (z) (r) (m) tk) rfl (fun i0 i1 tk => ?_) rfl ⟨rfl, rfl, rfl, rfl, rfl, rfl⟩
  show buildD _ i0 i1 tk = _
  unfold buildD
  rw [h0]
  exact (if_neg (fun h => absurd ((h6).symm.trans (fewer h 8 1 (by decide))) (by decide))).trans ((if_pos ⟨h5, h6, h7⟩).trans (by rw [h1, h2, h3, h4]))

theorem dBcast (x : BitVec 5) (y : BitVec 5) (z : BitVec 5) (tok : Option Tok) : Statement (.dBcast x y z tok) := by
  have h0 : (encodeFirst (.dBcast x y z tok)).extractLsb' 24 8 = 0x02#8 := up (up (up (up it)))
  have h1 : (encodeFirst (.dBcast x y z tok)).extractLsb' 19 5 = x := up (up (up (lo it)))
  have h2 : (encodeFirst (.dBcast x y z tok)).extractLsb' 14 5 = y := up (up (lo it))
  have h3 : (encodeFirst (.dBcast x y z tok)).extractLsb' 9 5 = z := up (lo it)
  have h4 : (encodeFirst (.dBcast x y z tok)).extractLsb' 0 9 = 0#9 := lo it
  refine plain _ .d (fun tk => .dBcast (x) (y) (z) tk) rfl (fun i0 i1 tk => ?_) rfl ⟨rfl, rfl, rfl, rfl, rfl, rfl⟩
  show buildD _ i0 i1 tk = _
  unfold buildD
  rw [h0]
  exact (if_pos h4).trans (by rw [h1, h2, h3])

theorem dStore (x : BitVec 5) (y : BitVec 5) (z : BitVec 5) (w : BitVec 2) (tok : Option Tok) : Statement (.dStore x y z w tok) := by
  have h0 : (encodeFirst (.dStore x y z w tok)).extractLsb' 24 8 = 0x03#8 := up (up (up (up (up it))))
  have h1 : (encodeFirst (.dStore x y z w tok)).extractLsb' 19 5 = x := up (up (up (up (lo it))))
  have h2 : (encodeFirst (.dStore x y z w tok)).extractLsb' 14 5 = y := up (up (up (lo it)))
  have h3 : (encodeFirst (.dStore x y z w tok)).extractLsb' 9 5 = z := up (up (lo it))
  have h4 : (encodeFirst (.dStore x y z w tok)).extractLsb' 0 2 = w := lo it
  have h5 : (encodeFirst (.dStore x y z w tok)).extractLsb' 2 7 = 0#7 := up (lo it)
  refine plain _ .d (fun tk => .dStore (x) (y) (z) (w) tk) rfl (fun i0 i1 tk => ?_) rfl ⟨rfl, rfl, rfl, rfl, rfl, rfl⟩
  show buildD _ i0 i1 tk = _
  unfold buildD
  rw [h0]
  exact (if_pos h5).trans (by rw [h1, h2, h3, h4])

theorem dSpill (x : BitVec 5) (y : BitVec 5) (t : BitVec 1) (r : BitVec 6) (tok : Option Tok) : Statement (.dSpill x y t r tok) := by
  have h0 : (encodeFirst (.dSpill x y t r tok)).extractLsb' 24 8 = 0x04#8 := up (up (up (up (up (up it)))))
  have h1 : (encodeFirst (.dSpill x y t r tok)).extractLsb' 19 5 = x := up (up (up (up (up (lo it)))))
  have h2 : (encodeFirst (.dSpill x y t r tok)).extractLsb' 14 5 = y := up (up (up (up (lo it))))
  have h3 : (encodeFirst (.dSpill x y t r tok)).extractLsb' 8 1 = t := up (up (lo it))
  have h4 : (encodeFirst (.dSpill x y t r tok)).extractLsb' 2 6 = r := up (lo it)
  have h5 : (encodeFirst (.dSpill x y t r tok)).extractLsb' 9 5 = 0#5 := up (up (up (lo it)))
  have h6 : (encodeFirst (.dSpill x y t r tok)).extractLsb' 0 2 = 0#2 := lo it
  refine plain _ .d (fun tk => .dSpill (x) (y) (t) (r) tk) rfl (fun i0 i1 tk => ?_) rfl ⟨rfl, rfl, rfl, rfl, rfl, rfl⟩
  show buildD _ i0 i1 tk = _
  unfold buildD
  rw [h0]
  exact (if_pos ⟨h5, h6⟩).trans (by rw [h1, h2, h3, h4])

theorem dFill (x : BitVec 5) (y : BitVec 5) (t : BitVec 1) (r : BitVec 6) (tok : Option Tok) : Statement (.dFill x y t r tok) := by
  have h0 : (encodeFirst (.dFill x y t r tok)).extractLsb' 24 8 = 0x05#8 := up (up (up (up (up (up it)))))
  have h1 : (encodeFirst (.dFill x y t r tok)).extractLsb' 19 5 = x := up (up (up (up (up (lo it)))))
  have h2 : (encodeFirst (.dFill x y t r tok)).extractLsb' 14 5 = y := up (up (up (up (lo it))))
  have h3 : (encodeFirst (.dFill x y t r tok)).extractLsb' 8 1 = t := up (up (lo it))
  have h4 : (encodeFirst (.dFill x y t r tok)).extractLsb' 2 6 = r := up (lo it)
  have h5 : (encodeFirst (.dFill x y t r tok)).extractLsb' 9 5 = 0#5 := up (up (up (lo it)))
  have h6 : (encodeFirst (.dFill x y t r tok)).extractLsb' 0 2 = 0#2 := lo it
  refine plain _ .d (fun tk => .dFill (x) (y) (t) (r) tk) rfl (fun i0 i1 tk => ?_) rfl ⟨rfl, rfl, rfl, rfl, rfl, rfl⟩
  show buildD _ i0 i1 tk = _
  unfold buildD
  rw [h0]
  exact (if_pos ⟨h5, h6⟩).trans (by rw [h1, h2, h3, h4])

theorem dAtom (x : BitVec 5) (y : BitVec 5) (z : BitVec 5) (o : BitVec 4) (s : BitVec 1) (tok : Option Tok) : Statement (.dAtom x y z o s tok) := by
  have h0 : (encodeFirst (.dAtom x y z o s tok)).extractLsb' 24 8 = 0x06#8 := up (up (up (up (up (up it)))))
  have h1 : (encodeFirst (.dAtom x y z o s tok)).extractLsb' 19 5 = x := up (up (up (up (up (lo it)))))
  have h2 : (encodeFirst (.dAtom x y z o s tok)).extractLsb' 14 5 = y := up (up (up (up (lo it))))
  have h3 : (encodeFirst (.dAtom x y z o s tok)).extractLsb' 9 5 = z := up (up (up (lo it)))
  have h4 : (encodeFirst (.dAtom x y z o s tok)).extractLsb' 5 4 = o := up (up (lo it))
  have h5 : (encodeFirst (.dAtom x y z o s tok)).extractLsb' 4 1 = s := up (lo it)
  have h6 : (encodeFirst (.dAtom x y z o s tok)).extractLsb' 0 4 = 0#4 := lo it
  refine plain _ .d (fun tk => .dAtom (x) (y) (z) (o) (s) tk) rfl (fun i0 i1 tk => ?_) rfl ⟨rfl, rfl, rfl, rfl, rfl, rfl⟩
  show buildD _ i0 i1 tk = _
  unfold buildD
  rw [h0]
  exact (if_pos h6).trans (by rw [h1, h2, h3, h4, h5])

theorem dAtomNr (x : BitVec 5) (y : BitVec 5) (z : BitVec 5) (o : BitVec 4) (s : BitVec 1) (tok : Option Tok) : Statement (.dAtomNr x y z o s tok) := by
  have h0 : (encodeFirst (.dAtomNr x y z o s tok)).extractLsb' 24 8 = 0x07#8 := up (up (up (up (up (up it)))))
  have h1 : (encodeFirst (.dAtomNr x y z o s tok)).extractLsb' 19 5 = x := up (up (up (up (up (lo it)))))
  have h2 : (encodeFirst (.dAtomNr x y z o s tok)).extractLsb' 14 5 = y := up (up (up (up (lo it))))
  have h3 : (encodeFirst (.dAtomNr x y z o s tok)).extractLsb' 9 5 = z := up (up (up (lo it)))
  have h4 : (encodeFirst (.dAtomNr x y z o s tok)).extractLsb' 5 4 = o := up (up (lo it))
  have h5 : (encodeFirst (.dAtomNr x y z o s tok)).extractLsb' 4 1 = s := up (lo it)
  have h6 : (encodeFirst (.dAtomNr x y z o s tok)).extractLsb' 0 4 = 0#4 := lo it
  refine plain _ .d (fun tk => .dAtomNr (x) (y) (z) (o) (s) tk) rfl (fun i0 i1 tk => ?_) rfl ⟨rfl, rfl, rfl, rfl, rfl, rfl⟩
  show buildD _ i0 i1 tk = _
  unfold buildD
  rw [h0]
  exact (if_pos h6).trans (by rw [h1, h2, h3, h4, h5])

theorem dAfence (s : BitVec 4) (tok : Option Tok) : Statement (.dAfence s tok) := by
  have h0 : (encodeFirst (.dAfence s tok)).extractLsb' 24 8 = 0x08#8 := up (up (up it))
  have h1 : (encodeFirst (.dAfence s tok)).extractLsb' 5 4 = s := up (lo it)
  have h2 : (encodeFirst (.dAfence s tok)).extractLsb' 9 15 = 0#15 := up (up (lo it))
  have h3 : (encodeFirst (.dAfence s tok)).extractLsb' 0 5 = 0#5 := lo it
  refine plain _ .d (fun tk => .dAfence (s) tk) rfl (fun i0 i1 tk => ?_) rfl ⟨rfl, rfl, rfl, rfl, rfl, rfl⟩
  show buildD _ i0 i1 tk = _
  unfold buildD
  rw [h0]
  exact (if_pos ⟨h2, h3⟩).trans (by rw [h1])

theorem dQpost (x : BitVec 5) (i : BitVec 6) (tok : Option Tok) : Statement (.dQpost x i tok) := by
  have h0 : (encodeFirst (.dQpost x i tok)).extractLsb' 24 8 = 0x09#8 := up (up (up (up it)))
  have h1 : (encodeFirst (.dQpost x i tok)).extractLsb' 19 5 = x := up (up (up (lo it)))
  have h2 : (encodeFirst (.dQpost x i tok)).extractLsb' 3 6 = i := up (lo it)
  have h3 : (encodeFirst (.dQpost x i tok)).extractLsb' 9 10 = 0#10 := up (up (lo it))
  have h4 : (encodeFirst (.dQpost x i tok)).extractLsb' 0 3 = 0#3 := lo it
  refine plain _ .d (fun tk => .dQpost (x) (i) tk) rfl (fun i0 i1 tk => ?_) rfl ⟨rfl, rfl, rfl, rfl, rfl, rfl⟩
  show buildD _ i0 i1 tk = _
  unfold buildD
  rw [h0]
  exact (if_pos ⟨h3, h4⟩).trans (by rw [h1, h2])

theorem dQget (x : BitVec 5) (i : BitVec 6) (tok : Option Tok) : Statement (.dQget x i tok) := by
  have h0 : (encodeFirst (.dQget x i tok)).extractLsb' 24 8 = 0x0A#8 := up (up (up (up it)))
  have h1 : (encodeFirst (.dQget x i tok)).extractLsb' 19 5 = x := up (up (up (lo it)))
  have h2 : (encodeFirst (.dQget x i tok)).extractLsb' 3 6 = i := up (lo it)
  have h3 : (encodeFirst (.dQget x i tok)).extractLsb' 9 10 = 0#10 := up (up (lo it))
  have h4 : (encodeFirst (.dQget x i tok)).extractLsb' 0 3 = 0#3 := lo it
  refine plain _ .d (fun tk => .dQget (x) (i) tk) rfl (fun i0 i1 tk => ?_) rfl ⟨rfl, rfl, rfl, rfl, rfl, rfl⟩
  show buildD _ i0 i1 tk = _
  unfold buildD
  rw [h0]
  exact (if_pos ⟨h3, h4⟩).trans (by rw [h1, h2])

theorem dAppend (x : BitVec 5) (y : BitVec 5) (z : BitVec 5) (tok : Option Tok) : Statement (.dAppend x y z tok) := by
  have h0 : (encodeFirst (.dAppend x y z tok)).extractLsb' 24 8 = 0x0B#8 := up (up (up (up it)))
  have h1 : (encodeFirst (.dAppend x y z tok)).extractLsb' 19 5 = x := up (up (up (lo it)))
  have h2 : (encodeFirst (.dAppend x y z tok)).extractLsb' 14 5 = y := up (up (lo it))
  have h3 : (encodeFirst (.dAppend x y z tok)).extractLsb' 9 5 = z := up (lo it)
  have h4 : (encodeFirst (.dAppend x y z tok)).extractLsb' 0 9 = 0#9 := lo it
  refine plain _ .d (fun tk => .dAppend (x) (y) (z) tk) rfl (fun i0 i1 tk => ?_) rfl ⟨rfl, rfl, rfl, rfl, rfl, rfl⟩
  show buildD _ i0 i1 tk = _
  unfold buildD
  rw [h0]
  exact (if_pos h4).trans (by rw [h1, h2, h3])

theorem dPref (x : BitVec 5) (z : BitVec 5) (tok : Option Tok) : Statement (.dPref x z tok) := by
  have h0 : (encodeFirst (.dPref x z tok)).extractLsb' 24 8 = 0x0C#8 := up (up (up (up it)))
  have h1 : (encodeFirst (.dPref x z tok)).extractLsb' 19 5 = x := up (up (up (lo it)))
  have h2 : (encodeFirst (.dPref x z tok)).extractLsb' 9 5 = z := up (lo it)
  have h3 : (encodeFirst (.dPref x z tok)).extractLsb' 14 5 = 0#5 := up (up (lo it))
  have h4 : (encodeFirst (.dPref x z tok)).extractLsb' 0 9 = 0#9 := lo it
  refine plain _ .d (fun tk => .dPref (x) (z) tk) rfl (fun i0 i1 tk => ?_) rfl ⟨rfl, rfl, rfl, rfl, rfl, rfl⟩
  show buildD _ i0 i1 tk = _
  unfold buildD
  rw [h0]
  exact (if_pos ⟨h3, h4⟩).trans (by rw [h1, h2])

theorem dTfill (x : BitVec 5) (y : BitVec 5) (tok : Option Tok) : Statement (.dTfill x y tok) := by
  have h0 : (encodeFirst (.dTfill x y tok)).extractLsb' 24 8 = 0x0D#8 := up (up (up it))
  have h1 : (encodeFirst (.dTfill x y tok)).extractLsb' 19 5 = x := up (up (lo it))
  have h2 : (encodeFirst (.dTfill x y tok)).extractLsb' 14 5 = y := up (lo it)
  have h3 : (encodeFirst (.dTfill x y tok)).extractLsb' 0 14 = 0#14 := lo it
  refine plain _ .d (fun tk => .dTfill (x) (y) tk) rfl (fun i0 i1 tk => ?_) rfl ⟨rfl, rfl, rfl, rfl, rfl, rfl⟩
  show buildD _ i0 i1 tk = _
  unfold buildD
  rw [h0]
  exact (if_pos h3).trans (by rw [h1, h2])

theorem fNop (tok : Option Tok) : Statement (.fNop tok) := by
  have h0 : (encodeFirst (.fNop tok)).extractLsb' 24 8 = 0x00#8 := up it
  have h1 : (encodeFirst (.fNop tok)).extractLsb' 0 24 = 0#24 := lo it
  refine plain _ .f (fun tk => .fNop tk) rfl (fun i0 i1 tk => ?_) rfl ⟨rfl, rfl, rfl, rfl, rfl, rfl⟩
  show buildF _ i0 i1 tk = _
  unfold buildF
  rw [h0]
  exact if_pos h1

theorem fFur (d : BitVec 3) (x : BitVec 5) (y : BitVec 5) (z : BitVec 5) (tok : Option Tok) : Statement (.fFur d x y z tok) := by
  have h0 : (encodeFirst (.fFur d x y z tok)).extractLsb' 24 8 = 0x01#8 := up (up (up (up (up it))))
  have h1 : (encodeFirst (.fFur d x y z tok)).extractLsb' 21 3 = d := up (up (up (up (lo it))))
  have h2 : (encodeFirst (.fFur d x y z tok)).extractLsb' 16 5 = x := up (up (up (lo it)))
  have h3 : (encodeFirst (.fFur d x y z tok)).extractLsb' 11 5 = y := up (up (lo it))
  have h4 : (encodeFirst (.fFur d x y z tok)).extractLsb' 6 5 = z := up (lo it)
  have h5 : (encodeFirst (.fFur d x y z tok)).extractLsb' 0 6 = 0#6 := lo it
  refine plain _ .f (fun tk => .fFur (d) (x) (y) (z) tk) rfl (fun i0 i1 tk => ?_) rfl ⟨rfl, rfl, rfl, rfl, rfl, rfl⟩
  show buildF _ i0 i1 tk = _
  unfold buildF
  rw [h0]
  exact (if_pos h5).trans (by rw [h1, h2, h3, h4])

theorem fFurQm (x : BitVec 5) (y : BitVec 5) (z : BitVec 5) (m : BitVec 2) (tok : Option Tok) : Statement (.fFurQm x y z m tok) := by
  have h0 : (encodeFirst (.fFurQm x y z m tok)).extractLsb' 24 8 = 0x01#8 := up (up (up (up (up (up (up it))))))
  have h1 : (encodeFirst (.fFurQm x y z m tok)).extractLsb' 16 5 = x := up (up (up (up (up (lo it)))))
  have h2 : (encodeFirst (.fFurQm x y z m tok)).extractLsb' 11 5 = y := up (up (up (up (lo it))))
  have h3 : (encodeFirst (.fFurQm x y z m tok)).extractLsb' 6 5 = z := up (up (up (lo it)))
  have h4 : (encodeFirst (.fFurQm x y z m tok)).extractLsb' 3 2 = m := up (lo it)
  have h5 : (encodeFirst (.fFurQm x y z m tok)).extractLsb' 21 3 = 0#3 := up (up (up (up (up (up (lo it))))))
  have h6 : (encodeFirst (.fFurQm x y z m tok)).extractLsb' 5 1 = 1#1 := up (up (lo it))
  have h7 : (encodeFirst (.fFurQm x y z m tok)).extractLsb' 0 3 = 0#3 := lo it
  refine plain _ .f (fun tk => .fFurQm (x) (y) (z) (m) tk) rfl (fun i0 i1 tk => ?_) rfl ⟨rfl, rfl, rfl, rfl, rfl, rfl⟩
  show buildF _ i0 i1 tk = _
  unfold buildF
  rw [h0]
  exact (if_neg (fun h => absurd ((h6).symm.trans (fewer h 5 1 (by decide))) (by decide))).trans ((if_pos ⟨h5, h6, h7⟩).trans (by rw [h1, h2, h3, h4]))

theorem fSys (d : BitVec 3) (x : BitVec 5) (y : BitVec 5) (z : BitVec 5) (tok : Option Tok) : Statement (.fSys d x y z tok) := by
  have h0 : (encodeFirst (.fSys d x y z tok)).extractLsb' 24 8 = 0x02#8 := up (up (up (up (up it))))
  have h1 : (encodeFirst (.fSys d x y z tok)).extractLsb' 21 3 = d := up (up (up (up (lo it))))
  have h2 : (encodeFirst (.fSys d x y z tok)).extractLsb' 16 5 = x := up (up (up (lo it)))
  have h3 : (encodeFirst (.fSys d x y z tok)).extractLsb' 11 5 = y := up (up (lo it))
  have h4 : (encodeFirst (.fSys d x y z tok)).extractLsb' 6 5 = z := up (lo it)
  have h5 : (encodeFirst (.fSys d x y z tok)).extractLsb' 0 6 = 0#6 := lo it
  refine plain _ .f (fun tk => .fSys (d) (x) (y) (z) tk) rfl (fun i0 i1 tk => ?_) rfl ⟨rfl, rfl, rfl, rfl, rfl, rfl⟩
  show buildF _ i0 i1 tk = _
  unfold buildF
  rw [h0]
  exact (if_pos h5).trans (by rw [h1, h2, h3, h4])

theorem fHead (x : BitVec 5) (y : BitVec 5) (z : BitVec 5) (tok : Option Tok) : Statement (.fHead x y z tok) := by
  have h0 : (encodeFirst (.fHead x y z tok)).extractLsb' 24 8 = 0x03#8 := up (up (up (up (up it))))
  have h1 : (encodeFirst (.fHead x y z tok)).extractLsb' 16 5 = x := up (up (up (lo it)))
  have h2 : (encodeFirst (.fHead x y z tok)).extractLsb' 11 5 = y := up (up (lo it))
  have h3 : (encodeFirst (.fHead x y z tok)).extractLsb' 6 5 = z := up (lo it)
  have h4 : (encodeFirst (.fHead x y z tok)).extractLsb' 21 3 = 0#3 := up (up (up (up (lo it))))
  have h5 : (encodeFirst (.fHead x y z tok)).extractLsb' 0 6 = 0#6 := lo it
  refine plain _ .f (fun tk => .fHead (x) (y) (z) tk) rfl (fun i0 i1 tk => ?_) rfl ⟨rfl, rfl, rfl, rfl, rfl, rfl⟩
  show buildF _ i0 i1 tk = _
  unfold buildF
  rw [h0]
  exact (if_pos ⟨h4, h5⟩).trans (by rw [h1, h2, h3])

theorem fRing (x : BitVec 5) (y : BitVec 5) (z : BitVec 5) (r : BitVec 1) (tok : Option Tok) : Statement (.fRing x y z r tok) := by
  have h0 : (encodeFirst (.fRing x y z r tok)).extractLsb' 24 8 = 0x04#8 := up (up (up (up (up (up it)))))
  have h1 : (encodeFirst (.fRing x y z r tok)).extractLsb' 16 5 = x := up (up (up (up (lo it))))
  have h2 : (encodeFirst (.fRing x y z r tok)).extractLsb' 11 5 = y := up (up (up (lo it)))
  have h3 : (encodeFirst (.fRing x y z r tok)).extractLsb' 6 5 = z := up (up (lo it))
  have h4 : (encodeFirst (.fRing x y z r tok)).extractLsb' 0 1 = r := lo it
  have h5 : (encodeFirst (.fRing x y z r tok)).extractLsb' 21 3 = 0#3 := up (up (up (up (up (lo it)))))
  have h6 : (encodeFirst (.fRing x y z r tok)).extractLsb' 1 5 = 0#5 := up (lo it)
  refine plain _ .f (fun tk => .fRing (x) (y) (z) (r) tk) rfl (fun i0 i1 tk => ?_) rfl ⟨rfl, rfl, rfl, rfl, rfl, rfl⟩
  show buildF _ i0 i1 tk = _
  unfold buildF
  rw [h0]
  exact (if_pos ⟨h5, h6⟩).trans (by rw [h1, h2, h3, h4])

theorem fGbcast (x : BitVec 5) (y : BitVec 5) (z : BitVec 5) (m : BitVec 4) (tok : Option Tok) : Statement (.fGbcast x y z m tok) := by
  have h0 : (encodeFirst (.fGbcast x y z m tok)).extractLsb' 24 8 = 0x05#8 := up (up (up (up (up (up it)))))
  have h1 : (encodeFirst (.fGbcast x y z m tok)).extractLsb' 16 5 = x := up (up (up (up (lo it))))
  have h2 : (encodeFirst (.fGbcast x y z m tok)).extractLsb' 11 5 = y := up (up (up (lo it)))
  have h3 : (encodeFirst (.fGbcast x y z m tok)).extractLsb' 6 5 = z := up (up (lo it))
  have h4 : (encodeFirst (.fGbcast x y z m tok)).extractLsb' 0 4 = m := lo it
  have h5 : (encodeFirst (.fGbcast x y z m tok)).extractLsb' 21 3 = 0#3 := up (up (up (up (up (lo it)))))
  have h6 : (encodeFirst (.fGbcast x y z m tok)).extractLsb' 4 2 = 0#2 := up (lo it)
  refine plain _ .f (fun tk => .fGbcast (x) (y) (z) (m) tk) rfl (fun i0 i1 tk => ?_) rfl ⟨rfl, rfl, rfl, rfl, rfl, rfl⟩
  show buildF _ i0 i1 tk = _
  unfold buildF
  rw [h0]
  exact (if_pos ⟨h5, h6⟩).trans (by rw [h1, h2, h3, h4])

theorem dealerFetch (tb : TableId) : Statement (.dealerFetch tb) := fun _ h => nomatch h

theorem privateFetch (tb : TableId) : Statement (.privateFetch tb) := fun _ h => nomatch h

theorem instructionHandOver (k : CoreId) : Statement (.instructionHandOver k) := fun _ h => nomatch h

theorem joinComplete (tb : TableId) : Statement (.joinComplete tb) := fun _ h => nomatch h

theorem vacancyRule (tb : TableId) : Statement (.vacancyRule tb) := fun _ h => nomatch h

theorem instructionStart (k : CoreId) (e : Engine) : Statement (.instructionStart k e) := fun _ h => nomatch h

theorem instructionRetire (k : CoreId) (e : Engine) : Statement (.instructionRetire k e) := fun _ h => nomatch h

theorem tokdead (k : CoreId) (ck : Nat) : Statement (.tokdead k ck) := fun _ h => nomatch h

theorem tokdeadEvent (k : CoreId) (ck : Nat) : Statement (.tokdeadEvent k ck) := fun _ h => nomatch h

theorem gangStart (tb : TableId) (q : BitVec 2) : Statement (.gangStart tb q) := fun _ h => nomatch h

theorem gangCompletion (tb : TableId) (q : BitVec 2) : Statement (.gangCompletion tb q) := fun _ h => nomatch h

theorem trapEntry (k : CoreId) : Statement (.trapEntry k) := fun _ h => nomatch h

theorem interruptRequest (k : CoreId) (cause : Word) : Statement (.interruptRequest k cause) := fun _ h => nomatch h

theorem intr (k : CoreId) : Statement (.intr k) := fun _ h => nomatch h

theorem automaticRefetch (k : CoreId) (off : BitVec 25) : Statement (.automaticRefetch k off) := fun _ h => nomatch h

theorem subarrayRefresh (k : CoreId) (sub : BitVec 10) (age : Nat) : Statement (.subarrayRefresh k sub age) := fun _ h => nomatch h

theorem forcedRefresh (k : CoreId) (sub : BitVec 10) (age : Nat) : Statement (.forcedRefresh k sub age) := fun _ h => nomatch h

theorem towerOverTemperature (k : CoreId) : Statement (.towerOverTemperature k) := fun _ h => nomatch h

theorem acquireFill (k : CoreId) (e : Engine) : Statement (.acquireFill k e) := fun _ h => nomatch h

theorem acquireDrain (k : CoreId) (e : Engine) : Statement (.acquireDrain k e) := fun _ h => nomatch h

theorem drillLineBeat (k : CoreId) : Statement (.drillLineBeat k) := fun _ h => nomatch h

theorem readPacket (src : CoreId) (tag : Nat) (a : BitVec 52) (il : BitVec 3) (len : Nat) : Statement (.readPacket src tag a il len) := fun _ h => nomatch h

theorem writePacket (src : CoreId) (tag : Nat) (a : BitVec 52) (il : BitVec 3) (bytes : List (Option (BitVec 8))) : Statement (.writePacket src tag a il bytes) := fun _ h => nomatch h

theorem atomicPacket (src : CoreId) (tag : Nat) (a : BitVec 52) (il : BitVec 3) (aop : BitVec 4) (sz : BitVec 1) (val : Word) (cmp : Word) (nr : Bool) : Statement (.atomicPacket src tag a il aop sz val cmp nr) := fun _ h => nomatch h

theorem appendPacket (src : CoreId) (tag : Nat) (a : BitVec 52) (il : BitVec 3) (bytes : List (BitVec 8)) : Statement (.appendPacket src tag a il bytes) := fun _ h => nomatch h

theorem parityDelta (st : StackId) (n : Nat) : Statement (.parityDelta st n) := fun _ h => nomatch h

theorem packetReply (k : CoreId) (tag : Nat) : Statement (.packetReply k tag) := fun _ h => nomatch h

theorem spareLayerMigration (st : StackId) (layer : BitVec 4) : Statement (.spareLayerMigration st layer) := fun _ h => nomatch h

theorem migrationRowCopy (st : StackId) : Statement (.migrationRowCopy st) := fun _ h => nomatch h

theorem precharge (st : StackId) (pc : BitVec 6) (bank : BitVec 4) (row : BitVec 17) : Statement (.precharge st pc bank row) := fun _ h => nomatch h

theorem criticalTemperatureRise (st : StackId) : Statement (.criticalTemperatureRise st) := fun _ h => nomatch h

theorem criticalTemperatureFall (st : StackId) : Statement (.criticalTemperatureFall st) := fun _ h => nomatch h

theorem thermalHold (st : StackId) : Statement (.thermalHold st) := fun _ h => nomatch h

theorem translationWalk (k : CoreId) (w : WalkFor) : Statement (.translationWalk k w) := fun _ h => nomatch h

theorem tictlGo (d : DieId) (v : Word) : Statement (.tictlGo d v) := fun _ h => nomatch h

theorem shootdownComplete (d : DieId) : Statement (.shootdownComplete d) := fun _ h => nomatch h

theorem objectGrant (obj : Nat) : Statement (.objectGrant obj) := fun _ h => nomatch h

theorem fenceComplete (k : CoreId) : Statement (.fenceComplete k) := fun _ h => nomatch h

theorem barrierComplete (k : CoreId) (lvl : BitVec 3) (id : BitVec 4) : Statement (.barrierComplete k lvl id) := fun _ h => nomatch h

theorem attentionPosition (unit : BitVec 12) : Statement (.attentionPosition unit) := fun _ h => nomatch h

theorem queryPacket (st : StackId) (n : Nat) : Statement (.queryPacket st n) := fun _ h => nomatch h

theorem tripleWrite (k : CoreId) : Statement (.tripleWrite k) := fun _ h => nomatch h

theorem preemptionRequest (tb : TableId) : Statement (.preemptionRequest tb) := fun _ h => nomatch h

theorem preemptionDrainComplete (tb : TableId) : Statement (.preemptionDrainComplete tb) := fun _ h => nomatch h

theorem taskResume (n : Nat) : Statement (.taskResume n) := fun _ h => nomatch h

theorem ltrig (v : Word) : Statement (.ltrig v) := fun _ h => nomatch h

theorem lgregRegister (v : Word) : Statement (.lgregRegister v) := fun _ h => nomatch h

theorem lgregUnregister (v : Word) : Statement (.lgregUnregister v) := fun _ h => nomatch h

theorem labort (v : Word) : Statement (.labort v) := fun _ h => nomatch h

theorem lerrClear (v : Word) : Statement (.lerrClear v) := fun _ h => nomatch h

theorem instanceStart (gid : BitVec 8) : Statement (.instanceStart gid) := fun _ h => nomatch h

theorem nodePlace : Statement (.nodePlace) := fun _ h => nomatch h

theorem nodeComplete (gid : BitVec 8) (node : BitVec 12) : Statement (.nodeComplete gid node) := fun _ h => nomatch h

theorem powerOnReset : Statement (.powerOnReset) := fun _ h => nomatch h

theorem coreReset (what : ResetTarget) : Statement (.coreReset what) := fun _ h => nomatch h

theorem firmwareVerify (d : DieId) (images : BootImages) : Statement (.firmwareVerify d images) := fun _ h => nomatch h

theorem spdmMeasurement (first count : Nat) : Statement (.spdmMeasurement first count) := fun _ h => nomatch h

theorem spareCoreTakeover (tb : TableId) (sp : SpareSeat) : Statement (.spareCoreTakeover tb sp) := fun _ h => nomatch h

theorem hostLinkTraining (host : HostEnd) (gen6 : Bool) (x16 : Bool) (x8 : Bool) : Statement (.hostLinkTraining host gen6 x16 x8) := fun _ h => nomatch h

theorem readyBitClear (d : DieId) (bit : BitVec 5) : Statement (.readyBitClear d bit) := fun _ h => nomatch h

theorem ipost (d : DieId) (v : Word) : Statement (.ipost d v) := fun _ h => nomatch h

theorem eventForward (d : DieId) (tgt : Option CoreId) : Statement (.eventForward d tgt) := fun _ h => nomatch h

theorem plim (v : Word) : Statement (.plim v) := fun _ h => nomatch h

theorem powerCapInterval (watts : Nat) : Statement (.powerCapInterval watts) := fun _ h => nomatch h

theorem hostBar4Access (off : BitVec 36) (acc : HostAccess) : Statement (.hostBar4Access off acc) := fun _ h => nomatch h

theorem hostMemoryRequest (off : BitVec 50) (ans : HostAnswer) : Statement (.hostMemoryRequest off ans) := fun _ h => nomatch h

theorem fmWriteRoute (v : Word) : Statement (.fmWriteRoute v) := fun _ h => nomatch h

theorem fmReadRoute (v : Word) : Statement (.fmReadRoute v) := fun _ h => nomatch h

theorem fmWriteKey (v : Word) : Statement (.fmWriteKey v) := fun _ h => nomatch h

theorem fmReadKey (v : Word) : Statement (.fmReadKey v) := fun _ h => nomatch h

theorem fmSetId (v : Word) : Statement (.fmSetId v) := fun _ h => nomatch h

theorem fmWritePodMember (v : Word) : Statement (.fmWritePodMember v) := fun _ h => nomatch h

theorem fmWriteGraphMask (v : Word) : Statement (.fmWriteGraphMask v) := fun _ h => nomatch h

theorem fmQuiesce (v : Word) : Statement (.fmQuiesce v) := fun _ h => nomatch h

theorem fmResume (v : Word) : Statement (.fmResume v) := fun _ h => nomatch h

theorem fmlinkClear (v : Word) : Statement (.fmlinkClear v) := fun _ h => nomatch h

theorem fqtail (d : DieId) (v : Word) : Statement (.fqtail d v) := fun _ h => nomatch h

theorem descriptorStart (d : DieId) : Statement (.descriptorStart d) := fun _ h => nomatch h

theorem descriptorComplete (d : DieId) (n : Nat) : Statement (.descriptorComplete d n) := fun _ h => nomatch h

theorem fabricPacketSend (d : DieId) (n : Nat) (port : BitVec 5) : Statement (.fabricPacketSend d n port) := fun _ h => nomatch h

theorem fabricPacketArrival (p : FabricPacket) : Statement (.fabricPacketArrival p) := fun _ h => nomatch h

theorem portLinkUp (port : BitVec 5) : Statement (.portLinkUp port) := fun _ h => nomatch h

theorem portFailure (port : BitVec 5) : Statement (.portFailure port) := fun _ h => nomatch h

theorem packetResend (dst : BitVec 14) (lane : BitVec 4) (port : BitVec 5) : Statement (.packetResend dst lane port) := fun _ h => nomatch h

theorem laneTimeout (dst : BitVec 14) (lane : BitVec 4) : Statement (.laneTimeout dst lane) := fun _ h => nomatch h

theorem podBarrierArrival (member : BitVec 6) (id : BitVec 4) : Statement (.podBarrierArrival member id) := fun _ h => nomatch h

theorem registerWrite (reg : DevReg) (v : Word) : Statement (.registerWrite reg v) := fun _ h => nomatch h

theorem towerTemperatureFall (k : CoreId) : Statement (.towerTemperatureFall k) := fun _ h => nomatch h

theorem stackTraining (st : StackId) : Statement (.stackTraining st) := fun _ h => nomatch h

theorem markedFailed (st : StackId) (what : FailMark) : Statement (.markedFailed st what) := fun _ h => nomatch h

theorem endToEndAcknowledgement (dst : BitVec 14) (lane : BitVec 4) (seq : Nat) (status : BitVec 8) (bytes : List (BitVec 8)) (poison : List Nat) : Statement (.endToEndAcknowledgement dst lane seq status bytes poison) := fun _ h => nomatch h

theorem hostDoorbell (v : Word) : Statement (.hostDoorbell v) := fun _ h => nomatch h

end Sys2Proof.Laws.Encoding
end

