-- ==== Sys2Proof/Laws/Bundle.lean ====
section
/-! SUPPORT. The slots and routing codes of a bundle laid out by `bundleOf` (R35, R36). -/

namespace Sys2Proof

open Laws.Encoding

/-- Slot k of a bundle that is laid out from slot 1 (R35). -/
theorem bundleSlot_bundleOf (l : List (BitVec 4 × BitVec 32)) (k : Nat) (h1 : 1 ≤ k) (h2 : k ≤ 7) :
    bundleSlot (bundleOf l) k = (l.getD (k - 1) (0#4, 0#32)).2 := by
  interval_cases k
  exacts [up (lo it), up (up (lo it)), up (up (up (lo it))), up (up (up (up (lo it)))), up (up (up (up (up (lo it))))),
    up (up (up (up (up (up (lo it)))))), up (up (up (up (up (up (up it))))))]

/-- The routing code of slot k (R36). -/
theorem bundleCode_bundleOf (l : List (BitVec 4 × BitVec 32)) (k : Nat) (h1 : 1 ≤ k) (h2 : k ≤ 7) :
    bundleCode (bundleOf l) k = (l.getD (k - 1) (0#4, 0#32)).1 := by
  interval_cases k
  exacts [lo (up (lo it)), lo (up (up (lo it))), lo (up (up (up (lo it)))), lo (up (up (up (up (lo it))))),
    lo (up (up (up (up (up (lo it)))))), lo (up (up (up (up (up (up (lo it))))))), lo (up (up (up (up (up (up (up it)))))))]

/-- Bits [3:0] of the header, which name no slot, are zero (R36). -/
theorem header_bundleOf (l : List (BitVec 4 × BitVec 32)) : (bundleOf l).extractLsb' 0 4 = 0#4 := lo (lo it)

end Sys2Proof
end

