-- ==== Sys2Proof/Laws/Exec.lean ====
section
/-! SUPPORT. One equation per constructor: what `exec` answers is what the instruction's own meaning answers. -/

namespace Sys2Proof.Machine

theorem exec_nop : ∀ tok s, exec (.nop tok) s = execNop tok s := fun _ _ => rfl
theorem exec_add : ∀ d a b tok s, exec (.add d a b tok) s = execAdd d a b tok s := fun _ _ _ _ _ => rfl
theorem exec_sub : ∀ d a b tok s, exec (.sub d a b tok) s = execSub d a b tok s := fun _ _ _ _ _ => rfl
theorem exec_mul : ∀ d a b tok s, exec (.mul d a b tok) s = execMul d a b tok s := fun _ _ _ _ _ => rfl
theorem exec_mulhI : ∀ d a b tok s, exec (.mulhI d a b tok) s = execMulhI d a b tok s := fun _ _ _ _ _ => rfl
theorem exec_mulhN : ∀ d a b tok s, exec (.mulhN d a b tok) s = execMulhN d a b tok s := fun _ _ _ _ _ => rfl
theorem exec_divI : ∀ d a b tok s, exec (.divI d a b tok) s = execDivI d a b tok s := fun _ _ _ _ _ => rfl
theorem exec_divN : ∀ d a b tok s, exec (.divN d a b tok) s = execDivN d a b tok s := fun _ _ _ _ _ => rfl
theorem exec_remI : ∀ d a b tok s, exec (.remI d a b tok) s = execRemI d a b tok s := fun _ _ _ _ _ => rfl
theorem exec_remN : ∀ d a b tok s, exec (.remN d a b tok) s = execRemN d a b tok s := fun _ _ _ _ _ => rfl
theorem exec_and : ∀ d a b tok s, exec (.and d a b tok) s = execAnd d a b tok s := fun _ _ _ _ _ => rfl
theorem exec_or : ∀ d a b tok s, exec (.or d a b tok) s = execOr d a b tok s := fun _ _ _ _ _ => rfl
theorem exec_xor : ∀ d a b tok s, exec (.xor d a b tok) s = execXor d a b tok s := fun _ _ _ _ _ => rfl
theorem exec_andn : ∀ d a b tok s, exec (.andn d a b tok) s = execAndn d a b tok s := fun _ _ _ _ _ => rfl
theorem exec_sll : ∀ d a b tok s, exec (.sll d a b tok) s = execSll d a b tok s := fun _ _ _ _ _ => rfl
theorem exec_srl : ∀ d a b tok s, exec (.srl d a b tok) s = execSrl d a b tok s := fun _ _ _ _ _ => rfl
theorem exec_sra : ∀ d a b tok s, exec (.sra d a b tok) s = execSra d a b tok s := fun _ _ _ _ _ => rfl
theorem exec_rol : ∀ d a b tok s, exec (.rol d a b tok) s = execRol d a b tok s := fun _ _ _ _ _ => rfl
theorem exec_fsh : ∀ d a b c tok s, exec (.fsh d a b c tok) s = execFsh d a b c tok s := fun _ _ _ _ _ _ => rfl
theorem exec_clz : ∀ d a w tok s, exec (.clz d a w tok) s = execClz d a w tok s := fun _ _ _ _ _ => rfl
theorem exec_ctz : ∀ d a w tok s, exec (.ctz d a w tok) s = execCtz d a w tok s := fun _ _ _ _ _ => rfl
theorem exec_ffs : ∀ d a w tok s, exec (.ffs d a w tok) s = execFfs d a w tok s := fun _ _ _ _ _ => rfl
theorem exec_popc : ∀ d a w tok s, exec (.popc d a w tok) s = execPopc d a w tok s := fun _ _ _ _ _ => rfl
theorem exec_bswap : ∀ d a w tok s, exec (.bswap d a w tok) s = execBswap d a w tok s := fun _ _ _ _ _ => rfl
theorem exec_minI : ∀ d a b tok s, exec (.minI d a b tok) s = execMinI d a b tok s := fun _ _ _ _ _ => rfl
theorem exec_minN : ∀ d a b tok s, exec (.minN d a b tok) s = execMinN d a b tok s := fun _ _ _ _ _ => rfl
theorem exec_maxI : ∀ d a b tok s, exec (.maxI d a b tok) s = execMaxI d a b tok s := fun _ _ _ _ _ => rfl
theorem exec_maxN : ∀ d a b tok s, exec (.maxN d a b tok) s = execMaxN d a b tok s := fun _ _ _ _ _ => rfl
theorem exec_seq : ∀ d a b tok s, exec (.seq d a b tok) s = execSeq d a b tok s := fun _ _ _ _ _ => rfl
theorem exec_sne : ∀ d a b tok s, exec (.sne d a b tok) s = execSne d a b tok s := fun _ _ _ _ _ => rfl
theorem exec_sltI : ∀ d a b tok s, exec (.sltI d a b tok) s = execSltI d a b tok s := fun _ _ _ _ _ => rfl
theorem exec_sltN : ∀ d a b tok s, exec (.sltN d a b tok) s = execSltN d a b tok s := fun _ _ _ _ _ => rfl
theorem exec_sleI : ∀ d a b tok s, exec (.sleI d a b tok) s = execSleI d a b tok s := fun _ _ _ _ _ => rfl
theorem exec_sleN : ∀ d a b tok s, exec (.sleN d a b tok) s = execSleN d a b tok s := fun _ _ _ _ _ => rfl
theorem exec_sel : ∀ d a b c tok s, exec (.sel d a b c tok) s = execSel d a b c tok s := fun _ _ _ _ _ _ => rfl
theorem exec_addi : ∀ d a imm tok s, exec (.addi d a imm tok) s = execAddi d a imm tok s := fun _ _ _ _ _ => rfl
theorem exec_andi : ∀ d a imm tok s, exec (.andi d a imm tok) s = execAndi d a imm tok s := fun _ _ _ _ _ => rfl
theorem exec_ori : ∀ d a imm tok s, exec (.ori d a imm tok) s = execOri d a imm tok s := fun _ _ _ _ _ => rfl
theorem exec_xori : ∀ d a imm tok s, exec (.xori d a imm tok) s = execXori d a imm tok s := fun _ _ _ _ _ => rfl
theorem exec_slli : ∀ d a imm tok s, exec (.slli d a imm tok) s = execSlli d a imm tok s := fun _ _ _ _ _ => rfl
theorem exec_srli : ∀ d a imm tok s, exec (.srli d a imm tok) s = execSrli d a imm tok s := fun _ _ _ _ _ => rfl
theorem exec_srai : ∀ d a imm tok s, exec (.srai d a imm tok) s = execSrai d a imm tok s := fun _ _ _ _ _ => rfl
theorem exec_roli : ∀ d a imm tok s, exec (.roli d a imm tok) s = execRoli d a imm tok s := fun _ _ _ _ _ => rfl
theorem exec_seqi : ∀ d a imm tok s, exec (.seqi d a imm tok) s = execSeqi d a imm tok s := fun _ _ _ _ _ => rfl
theorem exec_sltiI : ∀ d a imm tok s, exec (.sltiI d a imm tok) s = execSltiI d a imm tok s := fun _ _ _ _ _ => rfl
theorem exec_sltiN : ∀ d a imm tok s, exec (.sltiN d a imm tok) s = execSltiN d a imm tok s := fun _ _ _ _ _ => rfl
theorem exec_muli : ∀ d a imm tok s, exec (.muli d a imm tok) s = execMuli d a imm tok s := fun _ _ _ _ _ => rfl
theorem exec_li : ∀ d lit tok s, exec (.li d lit tok) s = execLi d lit tok s := fun _ _ _ _ => rfl
theorem exec_lip : ∀ d lit tok s, exec (.lip d lit tok) s = execLip d lit tok s := fun _ _ _ _ => rfl
theorem exec_fadd : ∀ d a b r t tok s, exec (.fadd d a b r t tok) s = execFadd d a b r t tok s := fun _ _ _ _ _ _ _ => rfl
theorem exec_fsub : ∀ d a b r t tok s, exec (.fsub d a b r t tok) s = execFsub d a b r t tok s := fun _ _ _ _ _ _ _ => rfl
theorem exec_fmul : ∀ d a b r t tok s, exec (.fmul d a b r t tok) s = execFmul d a b r t tok s := fun _ _ _ _ _ _ _ => rfl
theorem exec_ffma : ∀ d a b r t c tok s, exec (.ffma d a b r t c tok) s = execFfma d a b r t c tok s := fun _ _ _ _ _ _ _ _ => rfl
theorem exec_fdiv : ∀ d a b r t tok s, exec (.fdiv d a b r t tok) s = execFdiv d a b r t tok s := fun _ _ _ _ _ _ _ => rfl
theorem exec_fsqrt : ∀ d a r t tok s, exec (.fsqrt d a r t tok) s = execFsqrt d a r t tok s := fun _ _ _ _ _ _ => rfl
theorem exec_fmin : ∀ d a b t tok s, exec (.fmin d a b t tok) s = execFmin d a b t tok s := fun _ _ _ _ _ _ => rfl
theorem exec_fmax : ∀ d a b t tok s, exec (.fmax d a b t tok) s = execFmax d a b t tok s := fun _ _ _ _ _ _ => rfl
theorem exec_feq : ∀ d a b t tok s, exec (.feq d a b t tok) s = execFeq d a b t tok s := fun _ _ _ _ _ _ => rfl
theorem exec_flt : ∀ d a b t tok s, exec (.flt d a b t tok) s = execFlt d a b t tok s := fun _ _ _ _ _ _ => rfl
theorem exec_fle : ∀ d a b t tok s, exec (.fle d a b t tok) s = execFle d a b t tok s := fun _ _ _ _ _ _ => rfl
theorem exec_fcvt : ∀ d a k r t tok s, exec (.fcvt d a k r t tok) s = execFcvt d a k r t tok s := fun _ _ _ _ _ _ _ => rfl
theorem exec_fneg : ∀ d a t tok s, exec (.fneg d a t tok) s = execFneg d a t tok s := fun _ _ _ _ _ => rfl
theorem exec_fabs : ∀ d a t tok s, exec (.fabs d a t tok) s = execFabs d a t tok s := fun _ _ _ _ _ => rfl
theorem exec_beq : ∀ a b j off tok s, exec (.beq a b j off tok) s = execBeq a b j off tok s := fun _ _ _ _ _ _ => rfl
theorem exec_bne : ∀ a b j off tok s, exec (.bne a b j off tok) s = execBne a b j off tok s := fun _ _ _ _ _ _ => rfl
theorem exec_bltI : ∀ a b j off tok s, exec (.bltI a b j off tok) s = execBltI a b j off tok s := fun _ _ _ _ _ _ => rfl
theorem exec_bltN : ∀ a b j off tok s, exec (.bltN a b j off tok) s = execBltN a b j off tok s := fun _ _ _ _ _ _ => rfl
theorem exec_bgeI : ∀ a b j off tok s, exec (.bgeI a b j off tok) s = execBgeI a b j off tok s := fun _ _ _ _ _ _ => rfl
theorem exec_bgeN : ∀ a b j off tok s, exec (.bgeN a b j off tok) s = execBgeN a b j off tok s := fun _ _ _ _ _ _ => rfl
theorem exec_brx : ∀ a j tok s, exec (.brx a j tok) s = execBrx a j tok s := fun _ _ _ _ => rfl
theorem exec_loop : ∀ a j off tok s, exec (.loop a j off tok) s = execLoop a j off tok s := fun _ _ _ _ _ => rfl
theorem exec_fold : ∀ j tok s, exec (.fold j tok) s = execFold j tok s := fun _ _ _ => rfl
theorem exec_join : ∀ j tok s, exec (.join j tok) s = execJoin j tok s := fun _ _ _ => rfl
theorem exec_seat : ∀ d tok s, exec (.seat d tok) s = execSeat d tok s := fun _ _ _ => rfl
theorem exec_jmp : ∀ o tok s, exec (.jmp o tok) s = execJmp o tok s := fun _ _ _ => rfl
theorem exec_call : ∀ o tok s, exec (.call o tok) s = execCall o tok s := fun _ _ _ => rfl
theorem exec_ret : ∀ a tok s, exec (.ret a tok) s = execRet a tok s := fun _ _ _ => rfl
theorem exec_ldI8 : ∀ d a imm tok s, exec (.ldI8 d a imm tok) s = execLdI8 d a imm tok s := fun _ _ _ _ _ => rfl
theorem exec_ldN8 : ∀ d a imm tok s, exec (.ldN8 d a imm tok) s = execLdN8 d a imm tok s := fun _ _ _ _ _ => rfl
theorem exec_ldI16 : ∀ d a imm tok s, exec (.ldI16 d a imm tok) s = execLdI16 d a imm tok s := fun _ _ _ _ _ => rfl
theorem exec_ldN16 : ∀ d a imm tok s, exec (.ldN16 d a imm tok) s = execLdN16 d a imm tok s := fun _ _ _ _ _ => rfl
theorem exec_ldI32 : ∀ d a imm tok s, exec (.ldI32 d a imm tok) s = execLdI32 d a imm tok s := fun _ _ _ _ _ => rfl
theorem exec_ldN32 : ∀ d a imm tok s, exec (.ldN32 d a imm tok) s = execLdN32 d a imm tok s := fun _ _ _ _ _ => rfl
theorem exec_ldI64 : ∀ d a imm tok s, exec (.ldI64 d a imm tok) s = execLdI64 d a imm tok s := fun _ _ _ _ _ => rfl
theorem exec_stI8 : ∀ d a imm tok s, exec (.stI8 d a imm tok) s = execStI8 d a imm tok s := fun _ _ _ _ _ => rfl
theorem exec_stI16 : ∀ d a imm tok s, exec (.stI16 d a imm tok) s = execStI16 d a imm tok s := fun _ _ _ _ _ => rfl
theorem exec_stI32 : ∀ d a imm tok s, exec (.stI32 d a imm tok) s = execStI32 d a imm tok s := fun _ _ _ _ _ => rfl
theorem exec_stI64 : ∀ d a imm tok s, exec (.stI64 d a imm tok) s = execStI64 d a imm tok s := fun _ _ _ _ _ => rfl
theorem exec_amo : ∀ d a b o z tok s, exec (.amo d a b o z tok) s = execAmo d a b o z tok s := fun _ _ _ _ _ _ _ => rfl
theorem exec_bind : ∀ a b scope c tok s, exec (.bind a b scope c tok) s = execBind a b scope c tok s := fun _ _ _ _ _ _ => rfl
theorem exec_unbind : ∀ a tok s, exec (.unbind a tok) s = execUnbind a tok s := fun _ _ _ => rfl
theorem exec_acqX : ∀ a tok s, exec (.acqX a tok) s = execAcqX a tok s := fun _ _ _ => rfl
theorem exec_acqS : ∀ a tok s, exec (.acqS a tok) s = execAcqS a tok s := fun _ _ _ => rfl
theorem exec_rel : ∀ a tok s, exec (.rel a tok) s = execRel a tok s := fun _ _ _ => rfl
theorem exec_fence : ∀ scope tok s, exec (.fence scope tok) s = execFence scope tok s := fun _ _ _ => rfl
theorem exec_bar : ∀ scope imm tok s, exec (.bar scope imm tok) s = execBar scope imm tok s := fun _ _ _ _ => rfl
theorem exec_iflush : ∀ a b tok s, exec (.iflush a b tok) s = execIflush a b tok s := fun _ _ _ _ => rfl
theorem exec_tlook : ∀ d a tok s, exec (.tlook d a tok) s = execTlook d a tok s := fun _ _ _ _ => rfl
theorem exec_tset : ∀ a b tok s, exec (.tset a b tok) s = execTset a b tok s := fun _ _ _ _ => rfl
theorem exec_tclr : ∀ a tok s, exec (.tclr a tok) s = execTclr a tok s := fun _ _ _ => rfl
theorem exec_rowpin : ∀ d a k tok s, exec (.rowpin d a k tok) s = execRowpin d a k tok s := fun _ _ _ _ _ => rfl
theorem exec_rowwb : ∀ d tok s, exec (.rowwb d tok) s = execRowwb d tok s := fun _ _ _ => rfl
theorem exec_rowrel : ∀ d tok s, exec (.rowrel d tok) s = execRowrel d tok s := fun _ _ _ => rfl
theorem exec_ringInit : ∀ d a b tok s, exec (.ringInit d a b tok) s = execRingInit d a b tok s := fun _ _ _ _ _ => rfl
theorem exec_ringAcq : ∀ d a tok s, exec (.ringAcq d a tok) s = execRingAcq d a tok s := fun _ _ _ _ => rfl
theorem exec_ringRel : ∀ a tok s, exec (.ringRel a tok) s = execRingRel a tok s := fun _ _ _ => rfl
theorem exec_shld : ∀ d a tok s, exec (.shld d a tok) s = execShld d a tok s := fun _ _ _ _ => rfl
theorem exec_shset : ∀ d a b tok s, exec (.shset d a b tok) s = execShset d a b tok s := fun _ _ _ _ _ => rfl
theorem exec_shget : ∀ d a b tok s, exec (.shget d a b tok) s = execShget d a b tok s := fun _ _ _ _ _ => rfl
theorem exec_mfs : ∀ x n tok s, exec (.mfs x n tok) s = execMfs x n tok s := fun _ _ _ _ => rfl
theorem exec_mts : ∀ x n tok s, exec (.mts x n tok) s = execMts x n tok s := fun _ _ _ _ => rfl
theorem exec_trap : ∀ imm tok s, exec (.trap imm tok) s = execTrap imm tok s := fun _ _ _ => rfl
theorem exec_sys : ∀ imm tok s, exec (.sys imm tok) s = execSys imm tok s := fun _ _ _ => rfl
theorem exec_eret : ∀ tok s, exec (.eret tok) s = execEret tok s := fun _ _ => rfl
theorem exec_halt : ∀ tok s, exec (.halt tok) s = execHalt tok s := fun _ _ => rfl
theorem exec_refdefer : ∀ a b tok s, exec (.refdefer a b tok) s = execRefdefer a b tok s := fun _ _ _ _ => rfl
theorem exec_poison : ∀ a tok s, exec (.poison a tok) s = execPoison a tok s := fun _ _ _ => rfl
theorem exec_vNop : ∀ tok s, exec (.vNop tok) s = execVNop tok s := fun _ _ => rfl
theorem exec_vAdd : ∀ d a b p n x tok s, exec (.vAdd d a b p n x tok) s = execVAdd d a b p n x tok s := fun _ _ _ _ _ _ _ _ => rfl
theorem exec_vSub : ∀ d a b p n x tok s, exec (.vSub d a b p n x tok) s = execVSub d a b p n x tok s := fun _ _ _ _ _ _ _ _ => rfl
theorem exec_vMul : ∀ d a b p n x tok s, exec (.vMul d a b p n x tok) s = execVMul d a b p n x tok s := fun _ _ _ _ _ _ _ _ => rfl
theorem exec_vFma : ∀ d a b p n x tok s, exec (.vFma d a b p n x tok) s = execVFma d a b p n x tok s := fun _ _ _ _ _ _ _ _ => rfl
theorem exec_vMin : ∀ d a b p n x tok s, exec (.vMin d a b p n x tok) s = execVMin d a b p n x tok s := fun _ _ _ _ _ _ _ _ => rfl
theorem exec_vMax : ∀ d a b p n x tok s, exec (.vMax d a b p n x tok) s = execVMax d a b p n x tok s := fun _ _ _ _ _ _ _ _ => rfl
theorem exec_vAbs : ∀ d a p n x tok s, exec (.vAbs d a p n x tok) s = execVAbs d a p n x tok s := fun _ _ _ _ _ _ _ => rfl
theorem exec_vNeg : ∀ d a p n x tok s, exec (.vNeg d a p n x tok) s = execVNeg d a p n x tok s := fun _ _ _ _ _ _ _ => rfl
theorem exec_vDiv : ∀ d a b p n x tok s, exec (.vDiv d a b p n x tok) s = execVDiv d a b p n x tok s := fun _ _ _ _ _ _ _ _ => rfl
theorem exec_vSqrt : ∀ d a p n x tok s, exec (.vSqrt d a p n x tok) s = execVSqrt d a p n x tok s := fun _ _ _ _ _ _ _ => rfl
theorem exec_vRcp : ∀ d a p n x tok s, exec (.vRcp d a p n x tok) s = execVRcp d a p n x tok s := fun _ _ _ _ _ _ _ => rfl
theorem exec_vRsqrt : ∀ d a p n x tok s, exec (.vRsqrt d a p n x tok) s = execVRsqrt d a p n x tok s := fun _ _ _ _ _ _ _ => rfl
theorem exec_vExp2 : ∀ d a p n x tok s, exec (.vExp2 d a p n x tok) s = execVExp2 d a p n x tok s := fun _ _ _ _ _ _ _ => rfl
theorem exec_vLog2 : ∀ d a p n x tok s, exec (.vLog2 d a p n x tok) s = execVLog2 d a p n x tok s := fun _ _ _ _ _ _ _ => rfl
theorem exec_vTanh : ∀ d a p n x tok s, exec (.vTanh d a p n x tok) s = execVTanh d a p n x tok s := fun _ _ _ _ _ _ _ => rfl
theorem exec_vIadd : ∀ d a b p n x tok s, exec (.vIadd d a b p n x tok) s = execVIadd d a b p n x tok s := fun _ _ _ _ _ _ _ _ => rfl
theorem exec_vIsub : ∀ d a b p n x tok s, exec (.vIsub d a b p n x tok) s = execVIsub d a b p n x tok s := fun _ _ _ _ _ _ _ _ => rfl
theorem exec_vImul : ∀ d a b p n x tok s, exec (.vImul d a b p n x tok) s = execVImul d a b p n x tok s := fun _ _ _ _ _ _ _ _ => rfl
theorem exec_vImin : ∀ d a b p n x tok s, exec (.vImin d a b p n x tok) s = execVImin d a b p n x tok s := fun _ _ _ _ _ _ _ _ => rfl
theorem exec_vNmin : ∀ d a b p n x tok s, exec (.vNmin d a b p n x tok) s = execVNmin d a b p n x tok s := fun _ _ _ _ _ _ _ _ => rfl
theorem exec_vImax : ∀ d a b p n x tok s, exec (.vImax d a b p n x tok) s = execVImax d a b p n x tok s := fun _ _ _ _ _ _ _ _ => rfl
theorem exec_vNmax : ∀ d a b p n x tok s, exec (.vNmax d a b p n x tok) s = execVNmax d a b p n x tok s := fun _ _ _ _ _ _ _ _ => rfl
theorem exec_vIabs : ∀ d a p n x tok s, exec (.vIabs d a p n x tok) s = execVIabs d a p n x tok s := fun _ _ _ _ _ _ _ => rfl
theorem exec_vAnd : ∀ d a b p n x tok s, exec (.vAnd d a b p n x tok) s = execVAnd d a b p n x tok s := fun _ _ _ _ _ _ _ _ => rfl
theorem exec_vOr : ∀ d a b p n x tok s, exec (.vOr d a b p n x tok) s = execVOr d a b p n x tok s := fun _ _ _ _ _ _ _ _ => rfl
theorem exec_vXor : ∀ d a b p n x tok s, exec (.vXor d a b p n x tok) s = execVXor d a b p n x tok s := fun _ _ _ _ _ _ _ _ => rfl
theorem exec_vNot : ∀ d a p n x tok s, exec (.vNot d a p n x tok) s = execVNot d a p n x tok s := fun _ _ _ _ _ _ _ => rfl
theorem exec_vShl : ∀ d a b p n x tok s, exec (.vShl d a b p n x tok) s = execVShl d a b p n x tok s := fun _ _ _ _ _ _ _ _ => rfl
theorem exec_vShr : ∀ d a b p n x tok s, exec (.vShr d a b p n x tok) s = execVShr d a b p n x tok s := fun _ _ _ _ _ _ _ _ => rfl
theorem exec_vSar : ∀ d a b p n x tok s, exec (.vSar d a b p n x tok) s = execVSar d a b p n x tok s := fun _ _ _ _ _ _ _ _ => rfl
theorem exec_vFsh : ∀ d a b p n x tok s, exec (.vFsh d a b p n x tok) s = execVFsh d a b p n x tok s := fun _ _ _ _ _ _ _ _ => rfl
theorem exec_vClz : ∀ d a p n x tok s, exec (.vClz d a p n x tok) s = execVClz d a p n x tok s := fun _ _ _ _ _ _ _ => rfl
theorem exec_vPopc : ∀ d a p n x tok s, exec (.vPopc d a p n x tok) s = execVPopc d a p n x tok s := fun _ _ _ _ _ _ _ => rfl
theorem exec_vFfs : ∀ d a p n x tok s, exec (.vFfs d a p n x tok) s = execVFfs d a p n x tok s := fun _ _ _ _ _ _ _ => rfl
theorem exec_vShli : ∀ d a imm p n x tok s, exec (.vShli d a imm p n x tok) s = execVShli d a imm p n x tok s := fun _ _ _ _ _ _ _ _ => rfl
theorem exec_vShri : ∀ d a imm p n x tok s, exec (.vShri d a imm p n x tok) s = execVShri d a imm p n x tok s := fun _ _ _ _ _ _ _ _ => rfl
theorem exec_vSari : ∀ d a imm p n x tok s, exec (.vSari d a imm p n x tok) s = execVSari d a imm p n x tok s := fun _ _ _ _ _ _ _ _ => rfl
theorem exec_vRshr : ∀ d a imm p n x tok s, exec (.vRshr d a imm p n x tok) s = execVRshr d a imm p n x tok s := fun _ _ _ _ _ _ _ _ => rfl
theorem exec_vFeq : ∀ q a b p n x tok s, exec (.vFeq q a b p n x tok) s = execVFeq q a b p n x tok s := fun _ _ _ _ _ _ _ _ => rfl
theorem exec_vFlt : ∀ q a b p n x tok s, exec (.vFlt q a b p n x tok) s = execVFlt q a b p n x tok s := fun _ _ _ _ _ _ _ _ => rfl
theorem exec_vFle : ∀ q a b p n x tok s, exec (.vFle q a b p n x tok) s = execVFle q a b p n x tok s := fun _ _ _ _ _ _ _ _ => rfl
theorem exec_vIeq : ∀ q a b p n x tok s, exec (.vIeq q a b p n x tok) s = execVIeq q a b p n x tok s := fun _ _ _ _ _ _ _ _ => rfl
theorem exec_vIlt : ∀ q a b p n x tok s, exec (.vIlt q a b p n x tok) s = execVIlt q a b p n x tok s := fun _ _ _ _ _ _ _ _ => rfl
theorem exec_vNlt : ∀ q a b p n x tok s, exec (.vNlt q a b p n x tok) s = execVNlt q a b p n x tok s := fun _ _ _ _ _ _ _ _ => rfl
theorem exec_vSel : ∀ d a b p n x tok s, exec (.vSel d a b p n x tok) s = execVSel d a b p n x tok s := fun _ _ _ _ _ _ _ _ => rfl
theorem exec_vCvtIf : ∀ d a p n x tok s, exec (.vCvtIf d a p n x tok) s = execVCvtIf d a p n x tok s := fun _ _ _ _ _ _ _ => rfl
theorem exec_vCvtFi : ∀ d a p n x tok s, exec (.vCvtFi d a p n x tok) s = execVCvtFi d a p n x tok s := fun _ _ _ _ _ _ _ => rfl
theorem exec_vCvtFf : ∀ d a p n x tok s, exec (.vCvtFf d a p n x tok) s = execVCvtFf d a p n x tok s := fun _ _ _ _ _ _ _ => rfl
theorem exec_vQnt : ∀ d a b p n x tok s, exec (.vQnt d a b p n x tok) s = execVQnt d a b p n x tok s := fun _ _ _ _ _ _ _ _ => rfl
theorem exec_vDp4 : ∀ d a b p n x tok s, exec (.vDp4 d a b p n x tok) s = execVDp4 d a b p n x tok s := fun _ _ _ _ _ _ _ _ => rfl
theorem exec_vRadd : ∀ d a p n x tok s, exec (.vRadd d a p n x tok) s = execVRadd d a p n x tok s := fun _ _ _ _ _ _ _ => rfl
theorem exec_vRmax : ∀ d a p n x tok s, exec (.vRmax d a p n x tok) s = execVRmax d a p n x tok s := fun _ _ _ _ _ _ _ => rfl
theorem exec_vRmin : ∀ d a p n x tok s, exec (.vRmin d a p n x tok) s = execVRmin d a p n x tok s := fun _ _ _ _ _ _ _ => rfl
theorem exec_vScan : ∀ d a p n x tok s, exec (.vScan d a p n x tok) s = execVScan d a p n x tok s := fun _ _ _ _ _ _ _ => rfl
theorem exec_vPerm : ∀ d a b p n x tok s, exec (.vPerm d a b p n x tok) s = execVPerm d a b p n x tok s := fun _ _ _ _ _ _ _ _ => rfl
theorem exec_vBcast : ∀ d scope p n x tok s, exec (.vBcast d scope p n x tok) s = execVBcast d scope p n x tok s := fun _ _ _ _ _ _ _ => rfl
theorem exec_vIns : ∀ d a scope p n x tok s, exec (.vIns d a scope p n x tok) s = execVIns d a scope p n x tok s := fun _ _ _ _ _ _ _ _ => rfl
theorem exec_vExt : ∀ d a scope p n x tok s, exec (.vExt d a scope p n x tok) s = execVExt d a scope p n x tok s := fun _ _ _ _ _ _ _ _ => rfl
theorem exec_vLse : ∀ d a b p n x tok s, exec (.vLse d a b p n x tok) s = execVLse d a b p n x tok s := fun _ _ _ _ _ _ _ _ => rfl
theorem exec_vCex : ∀ d a b p n x tok s, exec (.vCex d a b p n x tok) s = execVCex d a b p n x tok s := fun _ _ _ _ _ _ _ _ => rfl
theorem exec_vSeed : ∀ scope p n x tok s, exec (.vSeed scope p n x tok) s = execVSeed scope p n x tok s := fun _ _ _ _ _ _ => rfl
theorem exec_vLd : ∀ v scope imm p n x tok s, exec (.vLd v scope imm p n x tok) s = execVLd v scope imm p n x tok s := fun _ _ _ _ _ _ _ _ => rfl
theorem exec_vSt : ∀ v scope imm p n x tok s, exec (.vSt v scope imm p n x tok) s = execVSt v scope imm p n x tok s := fun _ _ _ _ _ _ _ _ => rfl
theorem exec_vLdu : ∀ v scope imm p n x tok s, exec (.vLdu v scope imm p n x tok) s = execVLdu v scope imm p n x tok s := fun _ _ _ _ _ _ _ _ => rfl
theorem exec_vStu : ∀ v scope imm p n x tok s, exec (.vStu v scope imm p n x tok) s = execVStu v scope imm p n x tok s := fun _ _ _ _ _ _ _ _ => rfl
theorem exec_vStm : ∀ v scope imm p n x tok s, exec (.vStm v scope imm p n x tok) s = execVStm v scope imm p n x tok s := fun _ _ _ _ _ _ _ _ => rfl
theorem exec_vGth : ∀ d a scope p n x tok s, exec (.vGth d a scope p n x tok) s = execVGth d a scope p n x tok s := fun _ _ _ _ _ _ _ _ => rfl
theorem exec_vSct : ∀ d a scope p n x tok s, exec (.vSct d a scope p n x tok) s = execVSct d a scope p n x tok s := fun _ _ _ _ _ _ _ _ => rfl
theorem exec_pAnd : ∀ q a b tok s, exec (.pAnd q a b tok) s = execPAnd q a b tok s := fun _ _ _ _ _ => rfl
theorem exec_pOr : ∀ q a b tok s, exec (.pOr q a b tok) s = execPOr q a b tok s := fun _ _ _ _ _ => rfl
theorem exec_pXor : ∀ q a b tok s, exec (.pXor q a b tok) s = execPXor q a b tok s := fun _ _ _ _ _ => rfl
theorem exec_pAndn : ∀ q a b tok s, exec (.pAndn q a b tok) s = execPAndn q a b tok s := fun _ _ _ _ _ => rfl
theorem exec_pNot : ∀ q a tok s, exec (.pNot q a tok) s = execPNot q a tok s := fun _ _ _ _ => rfl
theorem exec_pCnt : ∀ a scope tok s, exec (.pCnt a scope tok) s = execPCnt a scope tok s := fun _ _ _ _ => rfl
theorem exec_mNop : ∀ tok s, exec (.mNop tok) s = execMNop tok s := fun _ _ => rfl
theorem exec_mMma : ∀ a b r c m tok s, exec (.mMma a b r c m tok) s = execMMma a b r c m tok s := fun _ _ _ _ _ _ _ => rfl
theorem exec_mMmaI : ∀ a b r c tok s, exec (.mMmaI a b r c tok) s = execMMmaI a b r c tok s := fun _ _ _ _ _ _ => rfl
theorem exec_mMmaK4 : ∀ a b r c tok s, exec (.mMmaK4 a b r c tok) s = execMMmaK4 a b r c tok s := fun _ _ _ _ _ _ => rfl
theorem exec_mScacc : ∀ a b r c m tok s, exec (.mScacc a b r c m tok) s = execMScacc a b r c m tok s := fun _ _ _ _ _ _ _ => rfl
theorem exec_mZero : ∀ tok s, exec (.mZero tok) s = execMZero tok s := fun _ _ => rfl
theorem exec_mSwap : ∀ tok s, exec (.mSwap tok) s = execMSwap tok s := fun _ _ => rfl
theorem exec_mDrain : ∀ d m scope r h tok s, exec (.mDrain d m scope r h tok) s = execMDrain d m scope r h tok s := fun _ _ _ _ _ _ _ => rfl
theorem exec_mDrainAmax : ∀ d e m scope r h tok s, exec (.mDrainAmax d e m scope r h tok) s = execMDrainAmax d e m scope r h tok s := fun _ _ _ _ _ _ _ _ => rfl
theorem exec_mKat : ∀ id fmt tok s, exec (.mKat id fmt tok) s = execMKat id fmt tok s := fun _ _ _ _ => rfl
theorem exec_mChk : ∀ sig tok s, exec (.mChk sig tok) s = execMChk sig tok s := fun _ _ _ => rfl
theorem exec_mEpi : ∀ d m scope r h tok s, exec (.mEpi d m scope r h tok) s = execMEpi d m scope r h tok s := fun _ _ _ _ _ _ _ => rfl
theorem exec_mEpiLd : ∀ a tok s, exec (.mEpiLd a tok) s = execMEpiLd a tok s := fun _ _ _ => rfl
theorem exec_mGang : ∀ m g s, exec (.mGang m g) s = execMGang m g s := fun _ _ _ => rfl
theorem exec_mAcct : ∀ t tok s, exec (.mAcct t tok) s = execMAcct t tok s := fun _ _ _ => rfl
theorem exec_dNop : ∀ tok s, exec (.dNop tok) s = execDNop tok s := fun _ _ => rfl
theorem exec_dCopy : ∀ x y z tok s, exec (.dCopy x y z tok) s = execDCopy x y z tok s := fun _ _ _ _ _ => rfl
theorem exec_dCopyRg : ∀ y z r m tok s, exec (.dCopyRg y z r m tok) s = execDCopyRg y z r m tok s := fun _ _ _ _ _ _ => rfl
theorem exec_dBcast : ∀ x y z tok s, exec (.dBcast x y z tok) s = execDBcast x y z tok s := fun _ _ _ _ _ => rfl
theorem exec_dStore : ∀ x y z w tok s, exec (.dStore x y z w tok) s = execDStore x y z w tok s := fun _ _ _ _ _ _ => rfl
theorem exec_dSpill : ∀ x y t r tok s, exec (.dSpill x y t r tok) s = execDSpill x y t r tok s := fun _ _ _ _ _ _ => rfl
theorem exec_dFill : ∀ x y t r tok s, exec (.dFill x y t r tok) s = execDFill x y t r tok s := fun _ _ _ _ _ _ => rfl
theorem exec_dAtom : ∀ x y z o scope tok s, exec (.dAtom x y z o scope tok) s = execDAtom x y z o scope tok s := fun _ _ _ _ _ _ _ => rfl
theorem exec_dAtomNr : ∀ x y z o scope tok s, exec (.dAtomNr x y z o scope tok) s = execDAtomNr x y z o scope tok s := fun _ _ _ _ _ _ _ => rfl
theorem exec_dAfence : ∀ scope tok s, exec (.dAfence scope tok) s = execDAfence scope tok s := fun _ _ _ => rfl
theorem exec_dQpost : ∀ x imm tok s, exec (.dQpost x imm tok) s = execDQpost x imm tok s := fun _ _ _ _ => rfl
theorem exec_dQget : ∀ x imm tok s, exec (.dQget x imm tok) s = execDQget x imm tok s := fun _ _ _ _ => rfl
theorem exec_dAppend : ∀ x y z tok s, exec (.dAppend x y z tok) s = execDAppend x y z tok s := fun _ _ _ _ _ => rfl
theorem exec_dPref : ∀ x z tok s, exec (.dPref x z tok) s = execDPref x z tok s := fun _ _ _ _ => rfl
theorem exec_dTfill : ∀ x y tok s, exec (.dTfill x y tok) s = execDTfill x y tok s := fun _ _ _ _ => rfl
theorem exec_fNop : ∀ tok s, exec (.fNop tok) s = execFNop tok s := fun _ _ => rfl
theorem exec_fFur : ∀ d x y z tok s, exec (.fFur d x y z tok) s = execFFur d x y z tok s := fun _ _ _ _ _ _ => rfl
theorem exec_fFurQm : ∀ x y z m tok s, exec (.fFurQm x y z m tok) s = execFFurQm x y z m tok s := fun _ _ _ _ _ _ => rfl
theorem exec_fSys : ∀ d x y z tok s, exec (.fSys d x y z tok) s = execFSys d x y z tok s := fun _ _ _ _ _ _ => rfl
theorem exec_fHead : ∀ x y z tok s, exec (.fHead x y z tok) s = execFHead x y z tok s := fun _ _ _ _ _ => rfl
theorem exec_fRing : ∀ x y z r tok s, exec (.fRing x y z r tok) s = execFRing x y z r tok s := fun _ _ _ _ _ _ => rfl
theorem exec_fGbcast : ∀ x y z m tok s, exec (.fGbcast x y z m tok) s = execFGbcast x y z m tok s := fun _ _ _ _ _ _ => rfl
theorem exec_dealerFetch : ∀ tb s, exec (.dealerFetch tb) s = execDealerFetch tb s := fun _ _ => rfl
theorem exec_privateFetch : ∀ tb s, exec (.privateFetch tb) s = execPrivateFetch tb s := fun _ _ => rfl
theorem exec_instructionHandOver : ∀ k s, exec (.instructionHandOver k) s = execInstructionHandOver k s := fun _ _ => rfl
theorem exec_joinComplete : ∀ tb s, exec (.joinComplete tb) s = execJoinComplete tb s := fun _ _ => rfl
theorem exec_vacancyRule : ∀ tb s, exec (.vacancyRule tb) s = execVacancyRule tb s := fun _ _ => rfl
theorem exec_instructionStart : ∀ k e s, exec (.instructionStart k e) s = execInstructionStart k e s := fun _ _ _ => rfl
theorem exec_instructionRetire : ∀ k e s, exec (.instructionRetire k e) s = execInstructionRetire k e s := fun _ _ _ => rfl
theorem exec_tokdead : ∀ k ck s, exec (.tokdead k ck) s = execTokdead k ck s := fun _ _ _ => rfl
theorem exec_tokdeadEvent : ∀ k ck s, exec (.tokdeadEvent k ck) s = execTokdeadEvent k ck s := fun _ _ _ => rfl
theorem exec_gangStart : ∀ tb q s, exec (.gangStart tb q) s = execGangStart tb q s := fun _ _ _ => rfl
theorem exec_gangCompletion : ∀ tb q s, exec (.gangCompletion tb q) s = execGangCompletion tb q s := fun _ _ _ => rfl
theorem exec_trapEntry : ∀ k s, exec (.trapEntry k) s = execTrapEntry k s := fun _ _ => rfl
theorem exec_interruptRequest : ∀ k cause s, exec (.interruptRequest k cause) s = execInterruptRequest k cause s := fun _ _ _ => rfl
theorem exec_intr : ∀ k s, exec (.intr k) s = execIntr k s := fun _ _ => rfl
theorem exec_automaticRefetch : ∀ k off s, exec (.automaticRefetch k off) s = execAutomaticRefetch k off s := fun _ _ _ => rfl
theorem exec_subarrayRefresh : ∀ k sub age s, exec (.subarrayRefresh k sub age) s = execSubarrayRefresh k sub age s := fun _ _ _ _ => rfl
theorem exec_forcedRefresh : ∀ k sub age s, exec (.forcedRefresh k sub age) s = execForcedRefresh k sub age s := fun _ _ _ _ => rfl
theorem exec_towerOverTemperature : ∀ k s, exec (.towerOverTemperature k) s = execTowerOverTemperature k s := fun _ _ => rfl
theorem exec_acquireFill : ∀ k e s, exec (.acquireFill k e) s = execAcquireFill k e s := fun _ _ _ => rfl
theorem exec_acquireDrain : ∀ k e s, exec (.acquireDrain k e) s = execAcquireDrain k e s := fun _ _ _ => rfl
theorem exec_drillLineBeat : ∀ k s, exec (.drillLineBeat k) s = execDrillLineBeat k s := fun _ _ => rfl
theorem exec_readPacket : ∀ src tag a il len s, exec (.readPacket src tag a il len) s = execReadPacket src tag a il len s := fun _ _ _ _ _ _ => rfl
theorem exec_writePacket : ∀ src tag a il bytes s, exec (.writePacket src tag a il bytes) s = execWritePacket src tag a il bytes s := fun _ _ _ _ _ _ => rfl
theorem exec_atomicPacket : ∀ src tag a il aop sz val cmp nr s, exec (.atomicPacket src tag a il aop sz val cmp nr) s = execAtomicPacket src tag a il aop sz val cmp nr s := fun _ _ _ _ _ _ _ _ _ _ => rfl
theorem exec_appendPacket : ∀ src tag a il bytes s, exec (.appendPacket src tag a il bytes) s = execAppendPacket src tag a il bytes s := fun _ _ _ _ _ _ => rfl
theorem exec_parityDelta : ∀ st n s, exec (.parityDelta st n) s = execParityDelta st n s := fun _ _ _ => rfl
theorem exec_packetReply : ∀ k tag s, exec (.packetReply k tag) s = execPacketReply k tag s := fun _ _ _ => rfl
theorem exec_spareLayerMigration : ∀ st layer s, exec (.spareLayerMigration st layer) s = execSpareLayerMigration st layer s := fun _ _ _ => rfl
theorem exec_migrationRowCopy : ∀ st s, exec (.migrationRowCopy st) s = execMigrationRowCopy st s := fun _ _ => rfl
theorem exec_precharge : ∀ st pc bank row s, exec (.precharge st pc bank row) s = execPrecharge st pc bank row s := fun _ _ _ _ _ => rfl
theorem exec_criticalTemperatureRise : ∀ st s, exec (.criticalTemperatureRise st) s = execCriticalTemperatureRise st s := fun _ _ => rfl
theorem exec_criticalTemperatureFall : ∀ st s, exec (.criticalTemperatureFall st) s = execCriticalTemperatureFall st s := fun _ _ => rfl
theorem exec_thermalHold : ∀ st s, exec (.thermalHold st) s = execThermalHold st s := fun _ _ => rfl
theorem exec_translationWalk : ∀ k w s, exec (.translationWalk k w) s = execTranslationWalk k w s := fun _ _ _ => rfl
theorem exec_tictlGo : ∀ d v s, exec (.tictlGo d v) s = execTictlGo d v s := fun _ _ _ => rfl
theorem exec_shootdownComplete : ∀ d s, exec (.shootdownComplete d) s = execShootdownComplete d s := fun _ _ => rfl
theorem exec_objectGrant : ∀ obj s, exec (.objectGrant obj) s = execObjectGrant obj s := fun _ _ => rfl
theorem exec_fenceComplete : ∀ k s, exec (.fenceComplete k) s = execFenceComplete k s := fun _ _ => rfl
theorem exec_barrierComplete : ∀ k lvl id s, exec (.barrierComplete k lvl id) s = execBarrierComplete k lvl id s := fun _ _ _ _ => rfl
theorem exec_attentionPosition : ∀ unit s, exec (.attentionPosition unit) s = execAttentionPosition unit s := fun _ _ => rfl
theorem exec_queryPacket : ∀ st n s, exec (.queryPacket st n) s = execQueryPacket st n s := fun _ _ _ => rfl
theorem exec_tripleWrite : ∀ k s, exec (.tripleWrite k) s = execTripleWrite k s := fun _ _ => rfl
theorem exec_preemptionRequest : ∀ tb s, exec (.preemptionRequest tb) s = execPreemptionRequest tb s := fun _ _ => rfl
theorem exec_preemptionDrainComplete : ∀ tb s, exec (.preemptionDrainComplete tb) s = execPreemptionDrainComplete tb s := fun _ _ => rfl
theorem exec_taskResume : ∀ n s, exec (.taskResume n) s = execTaskResume n s := fun _ _ => rfl
theorem exec_ltrig : ∀ v s, exec (.ltrig v) s = execLtrig v s := fun _ _ => rfl
theorem exec_lgregRegister : ∀ v s, exec (.lgregRegister v) s = execLgregRegister v s := fun _ _ => rfl
theorem exec_lgregUnregister : ∀ v s, exec (.lgregUnregister v) s = execLgregUnregister v s := fun _ _ => rfl
theorem exec_labort : ∀ v s, exec (.labort v) s = execLabort v s := fun _ _ => rfl
theorem exec_lerrClear : ∀ v s, exec (.lerrClear v) s = execLerrClear v s := fun _ _ => rfl
theorem exec_instanceStart : ∀ gid s, exec (.instanceStart gid) s = execInstanceStart gid s := fun _ _ => rfl
theorem exec_nodePlace : ∀ s, exec (.nodePlace) s = execNodePlace s := fun _ => rfl
theorem exec_nodeComplete : ∀ gid node s, exec (.nodeComplete gid node) s = execNodeComplete gid node s := fun _ _ _ => rfl
theorem exec_powerOnReset : ∀ s, exec (.powerOnReset) s = execPowerOnReset s := fun _ => rfl
theorem exec_coreReset : ∀ what s, exec (.coreReset what) s = execCoreReset what s := fun _ _ => rfl
theorem exec_firmwareVerify : ∀ d images s, exec (.firmwareVerify d images) s = execFirmwareVerify d images s := fun _ _ _ => rfl
theorem exec_spdmMeasurement : ∀ first count s, exec (.spdmMeasurement first count) s = execSpdmMeasurement first count s := fun _ _ _ => rfl
theorem exec_spareCoreTakeover : ∀ tb sp s, exec (.spareCoreTakeover tb sp) s = execSpareCoreTakeover tb sp s := fun _ _ _ => rfl
theorem exec_hostLinkTraining : ∀ host gen6 x16 x8 s, exec (.hostLinkTraining host gen6 x16 x8) s = execHostLinkTraining host gen6 x16 x8 s := fun _ _ _ _ _ => rfl
theorem exec_readyBitClear : ∀ d bit s, exec (.readyBitClear d bit) s = execReadyBitClear d bit s := fun _ _ _ => rfl
theorem exec_ipost : ∀ d v s, exec (.ipost d v) s = execIpost d v s := fun _ _ _ => rfl
theorem exec_eventForward : ∀ d tgt s, exec (.eventForward d tgt) s = execEventForward d tgt s := fun _ _ _ => rfl
theorem exec_plim : ∀ v s, exec (.plim v) s = execPlim v s := fun _ _ => rfl
theorem exec_powerCapInterval : ∀ watts s, exec (.powerCapInterval watts) s = execPowerCapInterval watts s := fun _ _ => rfl
theorem exec_hostBar4Access : ∀ off acc s, exec (.hostBar4Access off acc) s = execHostBar4Access off acc s := fun _ _ _ => rfl
theorem exec_hostMemoryRequest : ∀ off ans s, exec (.hostMemoryRequest off ans) s = execHostMemoryRequest off ans s := fun _ _ _ => rfl
theorem exec_fmWriteRoute : ∀ v s, exec (.fmWriteRoute v) s = execFmWriteRoute v s := fun _ _ => rfl
theorem exec_fmReadRoute : ∀ v s, exec (.fmReadRoute v) s = execFmReadRoute v s := fun _ _ => rfl
theorem exec_fmWriteKey : ∀ v s, exec (.fmWriteKey v) s = execFmWriteKey v s := fun _ _ => rfl
theorem exec_fmReadKey : ∀ v s, exec (.fmReadKey v) s = execFmReadKey v s := fun _ _ => rfl
theorem exec_fmSetId : ∀ v s, exec (.fmSetId v) s = execFmSetId v s := fun _ _ => rfl
theorem exec_fmWritePodMember : ∀ v s, exec (.fmWritePodMember v) s = execFmWritePodMember v s := fun _ _ => rfl
theorem exec_fmWriteGraphMask : ∀ v s, exec (.fmWriteGraphMask v) s = execFmWriteGraphMask v s := fun _ _ => rfl
theorem exec_fmQuiesce : ∀ v s, exec (.fmQuiesce v) s = execFmQuiesce v s := fun _ _ => rfl
theorem exec_fmResume : ∀ v s, exec (.fmResume v) s = execFmResume v s := fun _ _ => rfl
theorem exec_fmlinkClear : ∀ v s, exec (.fmlinkClear v) s = execFmlinkClear v s := fun _ _ => rfl
theorem exec_fqtail : ∀ d v s, exec (.fqtail d v) s = execFqtail d v s := fun _ _ _ => rfl
theorem exec_descriptorStart : ∀ d s, exec (.descriptorStart d) s = execDescriptorStart d s := fun _ _ => rfl
theorem exec_descriptorComplete : ∀ d n s, exec (.descriptorComplete d n) s = execDescriptorComplete d n s := fun _ _ _ => rfl
theorem exec_fabricPacketSend : ∀ d n port s, exec (.fabricPacketSend d n port) s = execFabricPacketSend d n port s := fun _ _ _ _ => rfl
theorem exec_fabricPacketArrival : ∀ p s, exec (.fabricPacketArrival p) s = execFabricPacketArrival p s := fun _ _ => rfl
theorem exec_portLinkUp : ∀ port s, exec (.portLinkUp port) s = execPortLinkUp port s := fun _ _ => rfl
theorem exec_portFailure : ∀ port s, exec (.portFailure port) s = execPortFailure port s := fun _ _ => rfl
theorem exec_packetResend : ∀ dst lane port s, exec (.packetResend dst lane port) s = execPacketResend dst lane port s := fun _ _ _ _ => rfl
theorem exec_laneTimeout : ∀ dst lane s, exec (.laneTimeout dst lane) s = execLaneTimeout dst lane s := fun _ _ _ => rfl
theorem exec_podBarrierArrival : ∀ member id s, exec (.podBarrierArrival member id) s = execPodBarrierArrival member id s := fun _ _ _ => rfl
theorem exec_registerWrite : ∀ reg v s, exec (.registerWrite reg v) s = execRegisterWrite reg v s := fun _ _ _ => rfl
theorem exec_towerTemperatureFall : ∀ k s, exec (.towerTemperatureFall k) s = execTowerTemperatureFall k s := fun _ _ => rfl
theorem exec_stackTraining : ∀ st s, exec (.stackTraining st) s = execStackTraining st s := fun _ _ => rfl
theorem exec_markedFailed : ∀ st what s, exec (.markedFailed st what) s = execMarkedFailed st what s := fun _ _ _ => rfl
theorem exec_endToEndAcknowledgement : ∀ dst lane seq status bytes poison s, exec (.endToEndAcknowledgement dst lane seq status bytes poison) s = execEndToEndAcknowledgement dst lane seq status bytes poison s := fun _ _ _ _ _ _ _ => rfl
theorem exec_hostDoorbell : ∀ v s, exec (.hostDoorbell v) s = execHostDoorbell v s := fun _ _ => rfl

end Sys2Proof.Machine
end

