-- ==== Sys2Proof/Laws/Memory.lean ====
section
/-! SUPPORT. Memories: every operation keeps the canonical form; a byte reads back what was written to it, and a write
leaves every other byte. -/

namespace Sys2Proof.Machine

/-! ## The canonical form -/

/-- The canonical form, one entry at a time. -/
theorem Memory.wf_cons (a : Nat) (b : BitVec 8) (m : Memory) :
    Memory.wf ((a, b) :: m) = true ↔ b ≠ 0#8 ∧ (∀ c ∈ m, a < c.1) ∧ Memory.wf m = true := by
  induction m generalizing a b with
  | nil => simp [Memory.wf]
  | cons e rest ih =>
    obtain ⟨a', b'⟩ := e
    rw [Memory.wf, Bool.and_eq_true, Bool.and_eq_true, decide_eq_true_eq, decide_eq_true_eq, ih a' b']
    constructor
    · rintro ⟨⟨hlt, hb⟩, hb', hr, hw⟩
      refine ⟨hb, ?_, hb', hr, hw⟩
      intro c hc
      rcases List.mem_cons.mp hc with rfl | hc
      · exact hlt
      · exact Nat.lt_trans hlt (hr c hc)
    · rintro ⟨hb, hr, hb', hr', hw⟩
      exact ⟨⟨hr (a', b') (by simp), hb⟩, hb', hr', hw⟩

/-- The empty memory is canonical. -/
theorem Memory.wf_nil : Memory.wf [] = true := rfl

/-- Dropping entries keeps the form. -/
theorem Memory.wf_filter (m : Memory) (p : Host.Cell → Bool) (h : Memory.wf m = true) : Memory.wf (m.filter p) = true := by
  induction m with
  | nil => rfl
  | cons e rest ih =>
    obtain ⟨a, b⟩ := e
    obtain ⟨hb, hr, hw⟩ := (Memory.wf_cons a b rest).mp h
    by_cases hp : p (a, b)
    · rw [List.filter_cons_of_pos hp, Memory.wf_cons]
      exact ⟨hb, fun c hc => hr c (List.mem_filter.mp hc).1, ih hw⟩
    · rw [List.filter_cons_of_neg hp]
      exact ih hw

/-- The entries after an insertion are the new one and the old ones. -/
theorem Memory.mem_insert (m : Memory) (a : Nat) (b : BitVec 8) (c : Host.Cell) (h : c ∈ Memory.insert m a b) :
    c = (a, b) ∨ c ∈ m := by
  induction m with
  | nil => simpa [Memory.insert] using h
  | cons e rest ih =>
    obtain ⟨a', b'⟩ := e
    unfold Memory.insert at h
    split at h
    · simpa using h
    · rcases List.mem_cons.mp h with rfl | h
      · exact .inr (by simp)
      · rcases ih h with rfl | h
        · exact .inl rfl
        · exact .inr (by simp [h])

/-- Inserting a nonzero byte at an address that is not listed keeps the form. -/
theorem Memory.wf_insert (m : Memory) (a : Nat) (b : BitVec 8) (hb : b ≠ 0#8) (hn : ∀ c ∈ m, c.1 ≠ a)
    (h : Memory.wf m = true) : Memory.wf (Memory.insert m a b) = true := by
  induction m with
  | nil => simpa [Memory.insert, Memory.wf] using hb
  | cons e rest ih =>
    obtain ⟨a', b'⟩ := e
    obtain ⟨hb', hr, hw⟩ := (Memory.wf_cons a' b' rest).mp h
    have hne : a' ≠ a := hn (a', b') (by simp)
    unfold Memory.insert
    split
    · rename_i hlt
      rw [Memory.wf_cons]
      refine ⟨hb, ?_, h⟩
      intro c hc
      rcases List.mem_cons.mp hc with rfl | hc
      · exact hlt
      · exact Nat.lt_trans hlt (hr c hc)
    · rename_i hge
      rw [Memory.wf_cons]
      refine ⟨hb', ?_, ih (fun c hc => hn c (by simp [hc])) hw⟩
      intro c hc
      rcases Memory.mem_insert rest a b c hc with rfl | hc
      · exact Nat.lt_of_le_of_ne (Nat.le_of_not_lt hge) hne
      · exact hr c hc

/-- Writing one byte keeps the form. -/
theorem Memory.wf_set (m : Memory) (a : Nat) (b : BitVec 8) (h : Memory.wf m = true) :
    Memory.wf (Memory.set m a b) = true := by
  unfold Memory.set
  split
  · exact Memory.wf_filter m _ h
  · rename_i hb
    refine Memory.wf_insert _ a b hb ?_ (Memory.wf_filter m _ h)
    intro c hc
    simpa using (List.mem_filter.mp hc).2

/-- Writing bytes keeps the form. -/
theorem Memory.wf_write (m : Memory) (a : Nat) (bs : List (BitVec 8)) (h : Memory.wf m = true) :
    Memory.wf (Memory.write m a bs) = true := by
  induction bs generalizing m a with
  | nil => exact h
  | cons b rest ih => exact ih _ _ (Memory.wf_set m a b h)

/-- Writing a number keeps the form. -/
theorem Memory.wf_writeNat (m : Memory) (a n v : Nat) (h : Memory.wf m = true) :
    Memory.wf (Memory.writeNat m a n v) = true := Memory.wf_write _ _ _ h

/-- Clearing a range keeps the form. -/
theorem Memory.wf_clear (m : Memory) (a n : Nat) (h : Memory.wf m = true) : Memory.wf (Memory.clear m a n) = true :=
  Memory.wf_filter m _ h

/-! ## Reading what was written -/

/-- An address below every listed one reads as unlisted. -/
theorem Memory.get_unlisted (m : Memory) (a : Nat) (h : ∀ c ∈ m, c.1 ≠ a) : Memory.get m a = 0#8 := by
  induction m with
  | nil => rfl
  | cons e rest ih =>
    obtain ⟨a', b'⟩ := e
    have hne : a' ≠ a := h (a', b') (by simp)
    rw [Memory.get, if_neg hne]
    exact ih (fun c hc => h c (by simp [hc]))

/-- Dropping other entries leaves a byte. -/
theorem Memory.get_filter (m : Memory) (p : Nat → Bool) (a : Nat) (h : p a = true) :
    Memory.get (m.filter (fun c => p c.1)) a = Memory.get m a := by
  induction m with
  | nil => rfl
  | cons e rest ih =>
    obtain ⟨a', b'⟩ := e
    by_cases hp : p a'
    · rw [List.filter_cons_of_pos (by simpa using hp), Memory.get, Memory.get, ih]
    · have hne : a' ≠ a := fun e => hp (e ▸ h)
      rw [List.filter_cons_of_neg (by simpa using hp), ih, Memory.get, if_neg hne]

/-- A byte of an insertion, elsewhere. -/
theorem Memory.get_insert_ne (m : Memory) (a a' : Nat) (b : BitVec 8) (h : a' ≠ a) :
    Memory.get (Memory.insert m a b) a' = Memory.get m a' := by
  have h' : a ≠ a' := fun e => h e.symm
  induction m with
  | nil => simp [Memory.insert, Memory.get, h']
  | cons e rest ih =>
    obtain ⟨x, y⟩ := e
    unfold Memory.insert
    split
    · rw [Memory.get, if_neg h']
    · rw [Memory.get, Memory.get, ih]

/-- A byte of an insertion, at its place, when the address was not listed. -/
theorem Memory.get_insert_same (m : Memory) (a : Nat) (b : BitVec 8) (h : ∀ c ∈ m, c.1 ≠ a) :
    Memory.get (Memory.insert m a b) a = b := by
  induction m with
  | nil => simp [Memory.insert, Memory.get]
  | cons e rest ih =>
    obtain ⟨x, y⟩ := e
    have hne : x ≠ a := h (x, y) (by simp)
    unfold Memory.insert
    split
    · rw [Memory.get, if_pos rfl]
    · rw [Memory.get, if_neg hne]
      exact ih (fun c hc => h c (by simp [hc]))

/-- A byte reads back what was written to it. -/
theorem Memory.get_set_same (m : Memory) (a : Nat) (b : BitVec 8) : Memory.get (Memory.set m a b) a = b := by
  have hn : ∀ c ∈ m.filter (fun c => decide (c.1 ≠ a)), c.1 ≠ a := fun c hc => by simpa using (List.mem_filter.mp hc).2
  unfold Memory.set
  split
  · rename_i hb
    rw [Memory.get_unlisted _ _ hn, hb]
  · exact Memory.get_insert_same _ _ _ hn

/-- A write leaves every other byte. -/
theorem Memory.get_set_ne (m : Memory) (a a' : Nat) (b : BitVec 8) (h : a' ≠ a) :
    Memory.get (Memory.set m a b) a' = Memory.get m a' := by
  have hf : Memory.get (m.filter (fun c => decide (c.1 ≠ a))) a' = Memory.get m a' :=
    Memory.get_filter m (fun x => decide (x ≠ a)) a' (by simpa using h)
  unfold Memory.set
  split
  · exact hf
  · rw [Memory.get_insert_ne _ _ _ _ h, hf]

/-- A byte after a write of several: the written one inside, the old one outside. -/
theorem Memory.get_write (m : Memory) (a x : Nat) (bs : List (BitVec 8)) :
    Memory.get (Memory.write m a bs) x =
      if a ≤ x ∧ x < a + bs.length then bs.getD (x - a) 0#8 else Memory.get m x := by
  induction bs generalizing m a with
  | nil =>
    have : ¬(a ≤ x ∧ x < a + ([] : List (BitVec 8)).length) := by simp
    rw [if_neg this]; rfl
  | cons b rest ih =>
    rw [Memory.write, ih]
    simp only [List.length_cons]
    by_cases h1 : a + 1 ≤ x ∧ x < a + 1 + rest.length
    · have h2 : a ≤ x ∧ x < a + (rest.length + 1) := by omega
      have h3 : x - a = (x - (a + 1)) + 1 := by omega
      rw [if_pos h1, if_pos h2, h3, List.getD_cons_succ]
    · rw [if_neg h1]
      by_cases hx : x = a
      · subst hx
        have h2 : x ≤ x ∧ x < x + (rest.length + 1) := by omega
        rw [if_pos h2, Memory.get_set_same, Nat.sub_self, List.getD_cons_zero]
      · have h2 : ¬(a ≤ x ∧ x < a + (rest.length + 1)) := by omega
        rw [if_neg h2, Memory.get_set_ne _ _ _ _ hx]

/-- A byte outside a write is as before. -/
theorem Memory.get_write_outside (m : Memory) (a x : Nat) (bs : List (BitVec 8)) (h : x < a ∨ a + bs.length ≤ x) :
    Memory.get (Memory.write m a bs) x = Memory.get m x := by
  rw [Memory.get_write, if_neg (by omega)]

/-- Reading the bytes just written. -/
theorem Memory.read_write (m : Memory) (a : Nat) (bs : List (BitVec 8)) :
    Memory.read (Memory.write m a bs) a bs.length = bs := by
  have gen : ∀ (n o : Nat), o + n = bs.length →
      Memory.read (Memory.write m a bs) (a + o) n = bs.drop o := by
    intro n
    induction n with
    | zero => intro o ho; rw [Memory.read, List.drop_of_length_le (by omega)]
    | succ n ih =>
      intro o ho
      have hlt : o < bs.length := by omega
      rw [Memory.read, Nat.add_assoc, ih (o + 1) (by omega), Memory.get_write,
        if_pos (by omega), Nat.add_sub_cancel_left, List.getD_eq_getElem _ _ hlt]
      exact (List.drop_eq_getElem_cons hlt).symm
  simpa using gen bs.length 0 (by simp)

/-- Bytes read elsewhere are as before. -/
theorem Memory.read_write_outside (m : Memory) (a x n : Nat) (bs : List (BitVec 8))
    (h : x + n ≤ a ∨ a + bs.length ≤ x) : Memory.read (Memory.write m a bs) x n = Memory.read m x n := by
  induction n generalizing x with
  | zero => rfl
  | succ n ih =>
    rw [Memory.read, Memory.read, Memory.get_write_outside _ _ _ _ (by omega), ih (x + 1) (by omega)]

/-- The bytes read are as many as were asked for. -/
@[simp] theorem Memory.length_read (m : Memory) (a n : Nat) : (Memory.read m a n).length = n := by
  induction n generalizing a with
  | zero => rfl
  | succ n ih => simp [Memory.read, ih]

/-! ## Numbers and their fields -/

/-- A bit of a number built from fields. -/
theorem testBit_packNat {w : Nat} (hw : 0 < w) (xs : List Nat) (j : Nat) :
    (packNat w xs).testBit j = (xs.getD (j / w) 0).testBit (j % w) := by
  induction xs generalizing j with
  | nil => simp [packNat]
  | cons x rest ih =>
    rw [packNat, List.foldr_cons, ← packNat, Nat.testBit_or, Nat.testBit_shiftLeft, Nat.testBit_mod_two_pow]
    rcases Nat.lt_or_ge j w with h | h
    · simp [h, Nat.not_le.mpr h, Nat.div_eq_of_lt h, Nat.mod_eq_of_lt h]
    · obtain ⟨i, rfl⟩ := Nat.exists_eq_add_of_le h
      simp [ih, hw, Nat.add_div_left]

/-- How many bytes `natToBytes` gives. -/
@[simp] theorem length_natToBytes (n v : Nat) : (natToBytes n v).length = n := by simp [natToBytes]

/-- The n low bytes of a number, as a number. -/
theorem bytesToNat_natToBytes (n v : Nat) : bytesToNat (natToBytes n v) = v % 256 ^ n := by
  refine Nat.eq_of_testBit_eq fun j => ?_
  have hp : (256 : Nat) ^ n = 2 ^ (8 * n) := by rw [pow_mul]; norm_num
  rw [hp, Nat.testBit_mod_two_pow, bytesToNat, testBit_packNat (by decide)]
  by_cases h : j / 8 < n
  · have hj : j < 8 * n := by omega
    have key : (v >>> (8 * (j / 8)) % 2 ^ 8).testBit (j % 8) = v.testBit j := by
      rw [Nat.testBit_mod_two_pow, Nat.testBit_shiftRight, Nat.div_add_mod, decide_eq_true (Nat.mod_lt _ (by decide)), Bool.true_and]
    simpa [natToBytes, h, hj] using key
  · have hj : ¬ j < 8 * n := by omega
    simp [natToBytes, h, hj]

end Sys2Proof.Machine
end

