-- ==== Sys2Proof/Laws/State.lean ====
section
/-! SUPPORT. Each field of the state after each update of a part of the package, and reading a part after writing one. -/

namespace Sys2Proof.Machine

/-! ## After `setCore` -/

@[simp] theorem State.setCore_tables (s : State) (k : CoreId) (c : Core) : (s.setCore k c).tables = s.tables := rfl
@[simp] theorem State.setCore_dies (s : State) (k : CoreId) (c : Core) : (s.setCore k c).dies = s.dies := rfl
@[simp] theorem State.setCore_hbm (s : State) (k : CoreId) (c : Core) : (s.setCore k c).hbm = s.hbm := rfl
@[simp] theorem State.setCore_objects (s : State) (k : CoreId) (c : Core) : (s.setCore k c).objects = s.objects := rfl
@[simp] theorem State.setCore_spaces (s : State) (k : CoreId) (c : Core) : (s.setCore k c).spaces = s.spaces := rfl
@[simp] theorem State.setCore_late (s : State) (k : CoreId) (c : Core) : (s.setCore k c).late = s.late := rfl
@[simp] theorem State.setCore_early (s : State) (k : CoreId) (c : Core) : (s.setCore k c).early = s.early := rfl
@[simp] theorem State.setCore_launch (s : State) (k : CoreId) (c : Core) : (s.setCore k c).launch = s.launch := rfl
@[simp] theorem State.setCore_pkg (s : State) (k : CoreId) (c : Core) : (s.setCore k c).pkg = s.pkg := rfl
@[simp] theorem State.setCore_fabric (s : State) (k : CoreId) (c : Core) : (s.setCore k c).fabric = s.fabric := rfl
@[simp] theorem State.setCore_host (s : State) (k : CoreId) (c : Core) : (s.setCore k c).host = s.host := rfl
@[simp] theorem State.setCore_rom (s : State) (k : CoreId) (c : Core) : (s.setCore k c).rom = s.rom := rfl
@[simp] theorem State.setCore_agenda (s : State) (k : CoreId) (c : Core) : (s.setCore k c).agenda = s.agenda := rfl
@[simp] theorem State.setCore_focus (s : State) (k : CoreId) (c : Core) : (s.setCore k c).focus = s.focus := rfl
@[simp] theorem State.setCore_exe (s : State) (k : CoreId) (c : Core) : (s.setCore k c).exe = s.exe := rfl
@[simp] theorem State.setCore_tick (s : State) (k : CoreId) (c : Core) : (s.setCore k c).tick = s.tick := rfl

/-! ## After `setTable` -/

@[simp] theorem State.setTable_cores (s : State) (tb : TableId) (t : Table) : (s.setTable tb t).cores = s.cores := rfl
@[simp] theorem State.setTable_dies (s : State) (tb : TableId) (t : Table) : (s.setTable tb t).dies = s.dies := rfl
@[simp] theorem State.setTable_hbm (s : State) (tb : TableId) (t : Table) : (s.setTable tb t).hbm = s.hbm := rfl
@[simp] theorem State.setTable_objects (s : State) (tb : TableId) (t : Table) : (s.setTable tb t).objects = s.objects := rfl
@[simp] theorem State.setTable_spaces (s : State) (tb : TableId) (t : Table) : (s.setTable tb t).spaces = s.spaces := rfl
@[simp] theorem State.setTable_late (s : State) (tb : TableId) (t : Table) : (s.setTable tb t).late = s.late := rfl
@[simp] theorem State.setTable_early (s : State) (tb : TableId) (t : Table) : (s.setTable tb t).early = s.early := rfl
@[simp] theorem State.setTable_launch (s : State) (tb : TableId) (t : Table) : (s.setTable tb t).launch = s.launch := rfl
@[simp] theorem State.setTable_pkg (s : State) (tb : TableId) (t : Table) : (s.setTable tb t).pkg = s.pkg := rfl
@[simp] theorem State.setTable_fabric (s : State) (tb : TableId) (t : Table) : (s.setTable tb t).fabric = s.fabric := rfl
@[simp] theorem State.setTable_host (s : State) (tb : TableId) (t : Table) : (s.setTable tb t).host = s.host := rfl
@[simp] theorem State.setTable_rom (s : State) (tb : TableId) (t : Table) : (s.setTable tb t).rom = s.rom := rfl
@[simp] theorem State.setTable_agenda (s : State) (tb : TableId) (t : Table) : (s.setTable tb t).agenda = s.agenda := rfl
@[simp] theorem State.setTable_focus (s : State) (tb : TableId) (t : Table) : (s.setTable tb t).focus = s.focus := rfl
@[simp] theorem State.setTable_exe (s : State) (tb : TableId) (t : Table) : (s.setTable tb t).exe = s.exe := rfl
@[simp] theorem State.setTable_tick (s : State) (tb : TableId) (t : Table) : (s.setTable tb t).tick = s.tick := rfl

/-! ## After `setDie` -/

@[simp] theorem State.setDie_cores (s : State) (d : DieId) (x : Die) : (s.setDie d x).cores = s.cores := rfl
@[simp] theorem State.setDie_tables (s : State) (d : DieId) (x : Die) : (s.setDie d x).tables = s.tables := rfl
@[simp] theorem State.setDie_hbm (s : State) (d : DieId) (x : Die) : (s.setDie d x).hbm = s.hbm := rfl
@[simp] theorem State.setDie_objects (s : State) (d : DieId) (x : Die) : (s.setDie d x).objects = s.objects := rfl
@[simp] theorem State.setDie_spaces (s : State) (d : DieId) (x : Die) : (s.setDie d x).spaces = s.spaces := rfl
@[simp] theorem State.setDie_late (s : State) (d : DieId) (x : Die) : (s.setDie d x).late = s.late := rfl
@[simp] theorem State.setDie_early (s : State) (d : DieId) (x : Die) : (s.setDie d x).early = s.early := rfl
@[simp] theorem State.setDie_launch (s : State) (d : DieId) (x : Die) : (s.setDie d x).launch = s.launch := rfl
@[simp] theorem State.setDie_pkg (s : State) (d : DieId) (x : Die) : (s.setDie d x).pkg = s.pkg := rfl
@[simp] theorem State.setDie_fabric (s : State) (d : DieId) (x : Die) : (s.setDie d x).fabric = s.fabric := rfl
@[simp] theorem State.setDie_host (s : State) (d : DieId) (x : Die) : (s.setDie d x).host = s.host := rfl
@[simp] theorem State.setDie_rom (s : State) (d : DieId) (x : Die) : (s.setDie d x).rom = s.rom := rfl
@[simp] theorem State.setDie_agenda (s : State) (d : DieId) (x : Die) : (s.setDie d x).agenda = s.agenda := rfl
@[simp] theorem State.setDie_focus (s : State) (d : DieId) (x : Die) : (s.setDie d x).focus = s.focus := rfl
@[simp] theorem State.setDie_exe (s : State) (d : DieId) (x : Die) : (s.setDie d x).exe = s.exe := rfl
@[simp] theorem State.setDie_tick (s : State) (d : DieId) (x : Die) : (s.setDie d x).tick = s.tick := rfl

/-! ## After `setStack` -/

@[simp] theorem State.setStack_cores (s : State) (n : StackId) (x : Stack) : (s.setStack n x).cores = s.cores := rfl
@[simp] theorem State.setStack_tables (s : State) (n : StackId) (x : Stack) : (s.setStack n x).tables = s.tables := rfl
@[simp] theorem State.setStack_dies (s : State) (n : StackId) (x : Stack) : (s.setStack n x).dies = s.dies := rfl
@[simp] theorem State.setStack_objects (s : State) (n : StackId) (x : Stack) : (s.setStack n x).objects = s.objects := rfl
@[simp] theorem State.setStack_spaces (s : State) (n : StackId) (x : Stack) : (s.setStack n x).spaces = s.spaces := rfl
@[simp] theorem State.setStack_late (s : State) (n : StackId) (x : Stack) : (s.setStack n x).late = s.late := rfl
@[simp] theorem State.setStack_early (s : State) (n : StackId) (x : Stack) : (s.setStack n x).early = s.early := rfl
@[simp] theorem State.setStack_launch (s : State) (n : StackId) (x : Stack) : (s.setStack n x).launch = s.launch := rfl
@[simp] theorem State.setStack_pkg (s : State) (n : StackId) (x : Stack) : (s.setStack n x).pkg = s.pkg := rfl
@[simp] theorem State.setStack_fabric (s : State) (n : StackId) (x : Stack) : (s.setStack n x).fabric = s.fabric := rfl
@[simp] theorem State.setStack_host (s : State) (n : StackId) (x : Stack) : (s.setStack n x).host = s.host := rfl
@[simp] theorem State.setStack_rom (s : State) (n : StackId) (x : Stack) : (s.setStack n x).rom = s.rom := rfl
@[simp] theorem State.setStack_agenda (s : State) (n : StackId) (x : Stack) : (s.setStack n x).agenda = s.agenda := rfl
@[simp] theorem State.setStack_focus (s : State) (n : StackId) (x : Stack) : (s.setStack n x).focus = s.focus := rfl
@[simp] theorem State.setStack_exe (s : State) (n : StackId) (x : Stack) : (s.setStack n x).exe = s.exe := rfl
@[simp] theorem State.setStack_tick (s : State) (n : StackId) (x : Stack) : (s.setStack n x).tick = s.tick := rfl

/-! ## After `modCore` -/

@[simp] theorem State.modCore_tables (s : State) (k : CoreId) (f : Core → Core) : (s.modCore k f).tables = s.tables := rfl
@[simp] theorem State.modCore_dies (s : State) (k : CoreId) (f : Core → Core) : (s.modCore k f).dies = s.dies := rfl
@[simp] theorem State.modCore_hbm (s : State) (k : CoreId) (f : Core → Core) : (s.modCore k f).hbm = s.hbm := rfl
@[simp] theorem State.modCore_objects (s : State) (k : CoreId) (f : Core → Core) : (s.modCore k f).objects = s.objects := rfl
@[simp] theorem State.modCore_spaces (s : State) (k : CoreId) (f : Core → Core) : (s.modCore k f).spaces = s.spaces := rfl
@[simp] theorem State.modCore_late (s : State) (k : CoreId) (f : Core → Core) : (s.modCore k f).late = s.late := rfl
@[simp] theorem State.modCore_early (s : State) (k : CoreId) (f : Core → Core) : (s.modCore k f).early = s.early := rfl
@[simp] theorem State.modCore_launch (s : State) (k : CoreId) (f : Core → Core) : (s.modCore k f).launch = s.launch := rfl
@[simp] theorem State.modCore_pkg (s : State) (k : CoreId) (f : Core → Core) : (s.modCore k f).pkg = s.pkg := rfl
@[simp] theorem State.modCore_fabric (s : State) (k : CoreId) (f : Core → Core) : (s.modCore k f).fabric = s.fabric := rfl
@[simp] theorem State.modCore_host (s : State) (k : CoreId) (f : Core → Core) : (s.modCore k f).host = s.host := rfl
@[simp] theorem State.modCore_rom (s : State) (k : CoreId) (f : Core → Core) : (s.modCore k f).rom = s.rom := rfl
@[simp] theorem State.modCore_agenda (s : State) (k : CoreId) (f : Core → Core) : (s.modCore k f).agenda = s.agenda := rfl
@[simp] theorem State.modCore_focus (s : State) (k : CoreId) (f : Core → Core) : (s.modCore k f).focus = s.focus := rfl
@[simp] theorem State.modCore_exe (s : State) (k : CoreId) (f : Core → Core) : (s.modCore k f).exe = s.exe := rfl
@[simp] theorem State.modCore_tick (s : State) (k : CoreId) (f : Core → Core) : (s.modCore k f).tick = s.tick := rfl

/-! ## After `modTable` -/

@[simp] theorem State.modTable_cores (s : State) (tb : TableId) (f : Table → Table) : (s.modTable tb f).cores = s.cores := rfl
@[simp] theorem State.modTable_dies (s : State) (tb : TableId) (f : Table → Table) : (s.modTable tb f).dies = s.dies := rfl
@[simp] theorem State.modTable_hbm (s : State) (tb : TableId) (f : Table → Table) : (s.modTable tb f).hbm = s.hbm := rfl
@[simp] theorem State.modTable_objects (s : State) (tb : TableId) (f : Table → Table) : (s.modTable tb f).objects = s.objects := rfl
@[simp] theorem State.modTable_spaces (s : State) (tb : TableId) (f : Table → Table) : (s.modTable tb f).spaces = s.spaces := rfl
@[simp] theorem State.modTable_late (s : State) (tb : TableId) (f : Table → Table) : (s.modTable tb f).late = s.late := rfl
@[simp] theorem State.modTable_early (s : State) (tb : TableId) (f : Table → Table) : (s.modTable tb f).early = s.early := rfl
@[simp] theorem State.modTable_launch (s : State) (tb : TableId) (f : Table → Table) : (s.modTable tb f).launch = s.launch := rfl
@[simp] theorem State.modTable_pkg (s : State) (tb : TableId) (f : Table → Table) : (s.modTable tb f).pkg = s.pkg := rfl
@[simp] theorem State.modTable_fabric (s : State) (tb : TableId) (f : Table → Table) : (s.modTable tb f).fabric = s.fabric := rfl
@[simp] theorem State.modTable_host (s : State) (tb : TableId) (f : Table → Table) : (s.modTable tb f).host = s.host := rfl
@[simp] theorem State.modTable_rom (s : State) (tb : TableId) (f : Table → Table) : (s.modTable tb f).rom = s.rom := rfl
@[simp] theorem State.modTable_agenda (s : State) (tb : TableId) (f : Table → Table) : (s.modTable tb f).agenda = s.agenda := rfl
@[simp] theorem State.modTable_focus (s : State) (tb : TableId) (f : Table → Table) : (s.modTable tb f).focus = s.focus := rfl
@[simp] theorem State.modTable_exe (s : State) (tb : TableId) (f : Table → Table) : (s.modTable tb f).exe = s.exe := rfl
@[simp] theorem State.modTable_tick (s : State) (tb : TableId) (f : Table → Table) : (s.modTable tb f).tick = s.tick := rfl

/-! ## After `modDie` -/

@[simp] theorem State.modDie_cores (s : State) (d : DieId) (f : Die → Die) : (s.modDie d f).cores = s.cores := rfl
@[simp] theorem State.modDie_tables (s : State) (d : DieId) (f : Die → Die) : (s.modDie d f).tables = s.tables := rfl
@[simp] theorem State.modDie_hbm (s : State) (d : DieId) (f : Die → Die) : (s.modDie d f).hbm = s.hbm := rfl
@[simp] theorem State.modDie_objects (s : State) (d : DieId) (f : Die → Die) : (s.modDie d f).objects = s.objects := rfl
@[simp] theorem State.modDie_spaces (s : State) (d : DieId) (f : Die → Die) : (s.modDie d f).spaces = s.spaces := rfl
@[simp] theorem State.modDie_late (s : State) (d : DieId) (f : Die → Die) : (s.modDie d f).late = s.late := rfl
@[simp] theorem State.modDie_early (s : State) (d : DieId) (f : Die → Die) : (s.modDie d f).early = s.early := rfl
@[simp] theorem State.modDie_launch (s : State) (d : DieId) (f : Die → Die) : (s.modDie d f).launch = s.launch := rfl
@[simp] theorem State.modDie_pkg (s : State) (d : DieId) (f : Die → Die) : (s.modDie d f).pkg = s.pkg := rfl
@[simp] theorem State.modDie_fabric (s : State) (d : DieId) (f : Die → Die) : (s.modDie d f).fabric = s.fabric := rfl
@[simp] theorem State.modDie_host (s : State) (d : DieId) (f : Die → Die) : (s.modDie d f).host = s.host := rfl
@[simp] theorem State.modDie_rom (s : State) (d : DieId) (f : Die → Die) : (s.modDie d f).rom = s.rom := rfl
@[simp] theorem State.modDie_agenda (s : State) (d : DieId) (f : Die → Die) : (s.modDie d f).agenda = s.agenda := rfl
@[simp] theorem State.modDie_focus (s : State) (d : DieId) (f : Die → Die) : (s.modDie d f).focus = s.focus := rfl
@[simp] theorem State.modDie_exe (s : State) (d : DieId) (f : Die → Die) : (s.modDie d f).exe = s.exe := rfl
@[simp] theorem State.modDie_tick (s : State) (d : DieId) (f : Die → Die) : (s.modDie d f).tick = s.tick := rfl

/-! ## After `modStack` -/

@[simp] theorem State.modStack_cores (s : State) (n : StackId) (f : Stack → Stack) : (s.modStack n f).cores = s.cores := rfl
@[simp] theorem State.modStack_tables (s : State) (n : StackId) (f : Stack → Stack) : (s.modStack n f).tables = s.tables := rfl
@[simp] theorem State.modStack_dies (s : State) (n : StackId) (f : Stack → Stack) : (s.modStack n f).dies = s.dies := rfl
@[simp] theorem State.modStack_objects (s : State) (n : StackId) (f : Stack → Stack) : (s.modStack n f).objects = s.objects := rfl
@[simp] theorem State.modStack_spaces (s : State) (n : StackId) (f : Stack → Stack) : (s.modStack n f).spaces = s.spaces := rfl
@[simp] theorem State.modStack_late (s : State) (n : StackId) (f : Stack → Stack) : (s.modStack n f).late = s.late := rfl
@[simp] theorem State.modStack_early (s : State) (n : StackId) (f : Stack → Stack) : (s.modStack n f).early = s.early := rfl
@[simp] theorem State.modStack_launch (s : State) (n : StackId) (f : Stack → Stack) : (s.modStack n f).launch = s.launch := rfl
@[simp] theorem State.modStack_pkg (s : State) (n : StackId) (f : Stack → Stack) : (s.modStack n f).pkg = s.pkg := rfl
@[simp] theorem State.modStack_fabric (s : State) (n : StackId) (f : Stack → Stack) : (s.modStack n f).fabric = s.fabric := rfl
@[simp] theorem State.modStack_host (s : State) (n : StackId) (f : Stack → Stack) : (s.modStack n f).host = s.host := rfl
@[simp] theorem State.modStack_rom (s : State) (n : StackId) (f : Stack → Stack) : (s.modStack n f).rom = s.rom := rfl
@[simp] theorem State.modStack_agenda (s : State) (n : StackId) (f : Stack → Stack) : (s.modStack n f).agenda = s.agenda := rfl
@[simp] theorem State.modStack_focus (s : State) (n : StackId) (f : Stack → Stack) : (s.modStack n f).focus = s.focus := rfl
@[simp] theorem State.modStack_exe (s : State) (n : StackId) (f : Stack → Stack) : (s.modStack n f).exe = s.exe := rfl
@[simp] theorem State.modStack_tick (s : State) (n : StackId) (f : Stack → Stack) : (s.modStack n f).tick = s.tick := rfl

/-! ## After `advanceTick` -/

@[simp] theorem State.advanceTick_cores (s : State) : s.advanceTick.cores = s.cores := rfl
@[simp] theorem State.advanceTick_tables (s : State) : s.advanceTick.tables = s.tables := rfl
@[simp] theorem State.advanceTick_dies (s : State) : s.advanceTick.dies = s.dies := rfl
@[simp] theorem State.advanceTick_hbm (s : State) : s.advanceTick.hbm = s.hbm := rfl
@[simp] theorem State.advanceTick_objects (s : State) : s.advanceTick.objects = s.objects := rfl
@[simp] theorem State.advanceTick_spaces (s : State) : s.advanceTick.spaces = s.spaces := rfl
@[simp] theorem State.advanceTick_late (s : State) : s.advanceTick.late = s.late := rfl
@[simp] theorem State.advanceTick_early (s : State) : s.advanceTick.early = s.early := rfl
@[simp] theorem State.advanceTick_launch (s : State) : s.advanceTick.launch = s.launch := rfl
@[simp] theorem State.advanceTick_pkg (s : State) : s.advanceTick.pkg = s.pkg := rfl
@[simp] theorem State.advanceTick_fabric (s : State) : s.advanceTick.fabric = s.fabric := rfl
@[simp] theorem State.advanceTick_host (s : State) : s.advanceTick.host = s.host := rfl
@[simp] theorem State.advanceTick_rom (s : State) : s.advanceTick.rom = s.rom := rfl
@[simp] theorem State.advanceTick_agenda (s : State) : s.advanceTick.agenda = s.agenda := rfl
@[simp] theorem State.advanceTick_focus (s : State) : s.advanceTick.focus = s.focus := rfl
@[simp] theorem State.advanceTick_exe (s : State) : s.advanceTick.exe = s.exe := rfl
@[simp] theorem State.advanceTick_tick (s : State) : s.advanceTick.tick = s.tick + 1 := rfl

/-! ## After `performed` and `performedBy` (R247) -/

@[simp] theorem State.performed_cores (s : State) (k : CoreId) : (s.performed k).cores = s.cores := rfl
@[simp] theorem State.performed_tables (s : State) (k : CoreId) : (s.performed k).tables = s.tables := rfl
@[simp] theorem State.performed_dies (s : State) (k : CoreId) : (s.performed k).dies = s.dies := rfl
@[simp] theorem State.performed_hbm (s : State) (k : CoreId) : (s.performed k).hbm = s.hbm := rfl
@[simp] theorem State.performed_spaces (s : State) (k : CoreId) : (s.performed k).spaces = s.spaces := rfl
@[simp] theorem State.performed_objects (s : State) (k : CoreId) : (s.performed k).objects = s.objects := rfl
@[simp] theorem State.performed_launch (s : State) (k : CoreId) : (s.performed k).launch = s.launch := rfl
@[simp] theorem State.performed_pkg (s : State) (k : CoreId) : (s.performed k).pkg = s.pkg := rfl
@[simp] theorem State.performed_fabric (s : State) (k : CoreId) : (s.performed k).fabric = s.fabric := rfl
@[simp] theorem State.performed_host (s : State) (k : CoreId) : (s.performed k).host = s.host := rfl
@[simp] theorem State.performed_rom (s : State) (k : CoreId) : (s.performed k).rom = s.rom := rfl
@[simp] theorem State.performed_agenda (s : State) (k : CoreId) : (s.performed k).agenda = s.agenda := rfl
@[simp] theorem State.performed_focus (s : State) (k : CoreId) : (s.performed k).focus = s.focus := rfl
@[simp] theorem State.performed_exe (s : State) (k : CoreId) : (s.performed k).exe = s.exe := rfl
@[simp] theorem State.performed_tick (s : State) (k : CoreId) : (s.performed k).tick = s.tick := rfl
@[simp] theorem State.core_performed (s : State) (k k' : CoreId) : (s.performed k).core k' = s.core k' := rfl
/-- The stores of other cores are as they were. -/
theorem State.mem_performed (s : State) (k : CoreId) (l : Late) (h : l.core ≠ k) : l ∈ (s.performed k).late ↔ l ∈ s.late := by
  simp [State.performed, State.stored, State.awaited, h]
/-- What other cores have read ahead is as it was. -/
theorem State.mem_performed_early (s : State) (k : CoreId) (e : Early) (h : e.core ≠ k) :
    e ∈ (s.performed k).early ↔ e ∈ s.early := by
  simp [State.performed, State.stored, State.awaited, h]

/-- With a POST token the stores are performed, with a WAIT token nothing stays read ahead; nothing else happens. -/
theorem performedBy_cases (k : CoreId) (t : Option Tok) (s : State) :
    performedBy k t s = s ∨ performedBy k t s = s.stored k ∨ performedBy k t s = s.awaited k ∨
      performedBy k t s = s.performed k := by
  cases t with
  | none => exact .inl rfl
  | some t =>
    by_cases hp : t.post = 0#5 <;> by_cases hw : t.waits.isEmpty = true <;> simp [performedBy, hp, hw, State.performed]

@[simp] theorem performedBy_cores (k : CoreId) (t : Option Tok) (s : State) : (performedBy k t s).cores = s.cores := by
  rcases performedBy_cases k t s with h | h | h | h <;> rw [h] <;> rfl
@[simp] theorem performedBy_tables (k : CoreId) (t : Option Tok) (s : State) : (performedBy k t s).tables = s.tables := by
  rcases performedBy_cases k t s with h | h | h | h <;> rw [h] <;> rfl
@[simp] theorem performedBy_dies (k : CoreId) (t : Option Tok) (s : State) : (performedBy k t s).dies = s.dies := by
  rcases performedBy_cases k t s with h | h | h | h <;> rw [h] <;> rfl
@[simp] theorem performedBy_hbm (k : CoreId) (t : Option Tok) (s : State) : (performedBy k t s).hbm = s.hbm := by
  rcases performedBy_cases k t s with h | h | h | h <;> rw [h] <;> rfl
@[simp] theorem performedBy_spaces (k : CoreId) (t : Option Tok) (s : State) : (performedBy k t s).spaces = s.spaces := by
  rcases performedBy_cases k t s with h | h | h | h <;> rw [h] <;> rfl
@[simp] theorem performedBy_objects (k : CoreId) (t : Option Tok) (s : State) : (performedBy k t s).objects = s.objects := by
  rcases performedBy_cases k t s with h | h | h | h <;> rw [h] <;> rfl
@[simp] theorem performedBy_launch (k : CoreId) (t : Option Tok) (s : State) : (performedBy k t s).launch = s.launch := by
  rcases performedBy_cases k t s with h | h | h | h <;> rw [h] <;> rfl
@[simp] theorem performedBy_pkg (k : CoreId) (t : Option Tok) (s : State) : (performedBy k t s).pkg = s.pkg := by
  rcases performedBy_cases k t s with h | h | h | h <;> rw [h] <;> rfl
@[simp] theorem performedBy_fabric (k : CoreId) (t : Option Tok) (s : State) : (performedBy k t s).fabric = s.fabric := by
  rcases performedBy_cases k t s with h | h | h | h <;> rw [h] <;> rfl
@[simp] theorem performedBy_host (k : CoreId) (t : Option Tok) (s : State) : (performedBy k t s).host = s.host := by
  rcases performedBy_cases k t s with h | h | h | h <;> rw [h] <;> rfl
@[simp] theorem performedBy_rom (k : CoreId) (t : Option Tok) (s : State) : (performedBy k t s).rom = s.rom := by
  rcases performedBy_cases k t s with h | h | h | h <;> rw [h] <;> rfl
@[simp] theorem performedBy_agenda (k : CoreId) (t : Option Tok) (s : State) : (performedBy k t s).agenda = s.agenda := by
  rcases performedBy_cases k t s with h | h | h | h <;> rw [h] <;> rfl
@[simp] theorem performedBy_focus (k : CoreId) (t : Option Tok) (s : State) : (performedBy k t s).focus = s.focus := by
  rcases performedBy_cases k t s with h | h | h | h <;> rw [h] <;> rfl
@[simp] theorem performedBy_exe (k : CoreId) (t : Option Tok) (s : State) : (performedBy k t s).exe = s.exe := by
  rcases performedBy_cases k t s with h | h | h | h <;> rw [h] <;> rfl
@[simp] theorem performedBy_tick (k : CoreId) (t : Option Tok) (s : State) : (performedBy k t s).tick = s.tick := by
  rcases performedBy_cases k t s with h | h | h | h <;> rw [h] <;> rfl
@[simp] theorem core_performedBy (k k' : CoreId) (t : Option Tok) (s : State) : (performedBy k t s).core k' = s.core k' := by
  unfold State.core; rw [performedBy_cores]
/-- The stores of other cores are as they were. -/
theorem mem_performedBy (k : CoreId) (t : Option Tok) (s : State) (l : Late) (h : l.core ≠ k) :
    l ∈ (performedBy k t s).late ↔ l ∈ s.late := by
  rcases performedBy_cases k t s with e | e | e | e <;> rw [e] <;> simp [State.performed, State.stored, State.awaited, h]
/-- What other cores have read ahead is as it was. -/
theorem mem_performedBy_early (k : CoreId) (t : Option Tok) (s : State) (x : Early) (h : x.core ≠ k) :
    x ∈ (performedBy k t s).early ↔ x ∈ s.early := by
  rcases performedBy_cases k t s with e | e | e | e <;> rw [e] <;> simp [State.performed, State.stored, State.awaited, h]

/-! ## Parts read after parts written -/

@[simp] theorem State.core_setCore (s : State) (k : CoreId) (x : Core) : (s.setCore k x).core k = x :=
  Bank.get_set_same _ _ _ _
theorem State.core_setCore_ne (s : State) (k k' : CoreId) (x : Core) (h : k' ≠ k) : (s.setCore k x).core k' = s.core k' :=
  Bank.get_set_ne _ _ _ _ _ h
@[simp] theorem State.core_modCore (s : State) (k : CoreId) (f : Core → Core) : (s.modCore k f).core k = f (s.core k) :=
  State.core_setCore _ _ _
theorem State.core_modCore_ne (s : State) (k k' : CoreId) (f : Core → Core) (h : k' ≠ k) : (s.modCore k f).core k' = s.core k' :=
  State.core_setCore_ne _ _ _ _ h

@[simp] theorem State.table_setCore (s : State) (k : CoreId) (x : Core) (tb : TableId) : (s.setCore k x).table tb = s.table tb := rfl
@[simp] theorem State.table_modCore (s : State) (k : CoreId) (f : Core → Core) (tb : TableId) : (s.modCore k f).table tb = s.table tb := rfl
@[simp] theorem State.die_setCore (s : State) (k : CoreId) (x : Core) (d : DieId) : (s.setCore k x).die d = s.die d := rfl
@[simp] theorem State.die_modCore (s : State) (k : CoreId) (f : Core → Core) (d : DieId) : (s.modCore k f).die d = s.die d := rfl
@[simp] theorem State.stack_setCore (s : State) (k : CoreId) (x : Core) (n : StackId) : (s.setCore k x).stack n = s.stack n := rfl
@[simp] theorem State.stack_modCore (s : State) (k : CoreId) (f : Core → Core) (n : StackId) : (s.modCore k f).stack n = s.stack n := rfl
@[simp] theorem State.core_advanceTick (s : State) (k : CoreId) : s.advanceTick.core k = s.core k := rfl

@[simp] theorem State.table_setTable (s : State) (tb : TableId) (x : Table) : (s.setTable tb x).table tb = x :=
  Bank.get_set_same _ _ _ _
theorem State.table_setTable_ne (s : State) (tb tb' : TableId) (x : Table) (h : tb' ≠ tb) : (s.setTable tb x).table tb' = s.table tb' :=
  Bank.get_set_ne _ _ _ _ _ h
@[simp] theorem State.table_modTable (s : State) (tb : TableId) (f : Table → Table) : (s.modTable tb f).table tb = f (s.table tb) :=
  State.table_setTable _ _ _
theorem State.table_modTable_ne (s : State) (tb tb' : TableId) (f : Table → Table) (h : tb' ≠ tb) : (s.modTable tb f).table tb' = s.table tb' :=
  State.table_setTable_ne _ _ _ _ h

@[simp] theorem State.core_setTable (s : State) (tb : TableId) (x : Table) (k : CoreId) : (s.setTable tb x).core k = s.core k := rfl
@[simp] theorem State.core_modTable (s : State) (tb : TableId) (f : Table → Table) (k : CoreId) : (s.modTable tb f).core k = s.core k := rfl
@[simp] theorem State.die_setTable (s : State) (tb : TableId) (x : Table) (d : DieId) : (s.setTable tb x).die d = s.die d := rfl
@[simp] theorem State.die_modTable (s : State) (tb : TableId) (f : Table → Table) (d : DieId) : (s.modTable tb f).die d = s.die d := rfl
@[simp] theorem State.stack_setTable (s : State) (tb : TableId) (x : Table) (n : StackId) : (s.setTable tb x).stack n = s.stack n := rfl
@[simp] theorem State.stack_modTable (s : State) (tb : TableId) (f : Table → Table) (n : StackId) : (s.modTable tb f).stack n = s.stack n := rfl
@[simp] theorem State.table_advanceTick (s : State) (tb : TableId) : s.advanceTick.table tb = s.table tb := rfl

@[simp] theorem State.die_setDie (s : State) (d : DieId) (x : Die) : (s.setDie d x).die d = x :=
  Bank.get_set_same _ _ _ _
theorem State.die_setDie_ne (s : State) (d d' : DieId) (x : Die) (h : d' ≠ d) : (s.setDie d x).die d' = s.die d' :=
  Bank.get_set_ne _ _ _ _ _ h
@[simp] theorem State.die_modDie (s : State) (d : DieId) (f : Die → Die) : (s.modDie d f).die d = f (s.die d) :=
  State.die_setDie _ _ _
theorem State.die_modDie_ne (s : State) (d d' : DieId) (f : Die → Die) (h : d' ≠ d) : (s.modDie d f).die d' = s.die d' :=
  State.die_setDie_ne _ _ _ _ h

@[simp] theorem State.core_setDie (s : State) (d : DieId) (x : Die) (k : CoreId) : (s.setDie d x).core k = s.core k := rfl
@[simp] theorem State.core_modDie (s : State) (d : DieId) (f : Die → Die) (k : CoreId) : (s.modDie d f).core k = s.core k := rfl
@[simp] theorem State.table_setDie (s : State) (d : DieId) (x : Die) (tb : TableId) : (s.setDie d x).table tb = s.table tb := rfl
@[simp] theorem State.table_modDie (s : State) (d : DieId) (f : Die → Die) (tb : TableId) : (s.modDie d f).table tb = s.table tb := rfl
@[simp] theorem State.stack_setDie (s : State) (d : DieId) (x : Die) (n : StackId) : (s.setDie d x).stack n = s.stack n := rfl
@[simp] theorem State.stack_modDie (s : State) (d : DieId) (f : Die → Die) (n : StackId) : (s.modDie d f).stack n = s.stack n := rfl
@[simp] theorem State.die_advanceTick (s : State) (d : DieId) : s.advanceTick.die d = s.die d := rfl

@[simp] theorem State.stack_setStack (s : State) (n : StackId) (x : Stack) : (s.setStack n x).stack n = x :=
  Bank.get_set_same _ _ _ _
theorem State.stack_setStack_ne (s : State) (n n' : StackId) (x : Stack) (h : n' ≠ n) : (s.setStack n x).stack n' = s.stack n' :=
  Bank.get_set_ne _ _ _ _ _ h
@[simp] theorem State.stack_modStack (s : State) (n : StackId) (f : Stack → Stack) : (s.modStack n f).stack n = f (s.stack n) :=
  State.stack_setStack _ _ _
theorem State.stack_modStack_ne (s : State) (n n' : StackId) (f : Stack → Stack) (h : n' ≠ n) : (s.modStack n f).stack n' = s.stack n' :=
  State.stack_setStack_ne _ _ _ _ h

@[simp] theorem State.core_setStack (s : State) (n : StackId) (x : Stack) (k : CoreId) : (s.setStack n x).core k = s.core k := rfl
@[simp] theorem State.core_modStack (s : State) (n : StackId) (f : Stack → Stack) (k : CoreId) : (s.modStack n f).core k = s.core k := rfl
@[simp] theorem State.table_setStack (s : State) (n : StackId) (x : Stack) (tb : TableId) : (s.setStack n x).table tb = s.table tb := rfl
@[simp] theorem State.table_modStack (s : State) (n : StackId) (f : Stack → Stack) (tb : TableId) : (s.modStack n f).table tb = s.table tb := rfl
@[simp] theorem State.die_setStack (s : State) (n : StackId) (x : Stack) (d : DieId) : (s.setStack n x).die d = s.die d := rfl
@[simp] theorem State.die_modStack (s : State) (n : StackId) (f : Stack → Stack) (d : DieId) : (s.modStack n f).die d = s.die d := rfl
@[simp] theorem State.stack_advanceTick (s : State) (n : StackId) : s.advanceTick.stack n = s.stack n := rfl

/-- Two changes of one core are one. -/
theorem State.modCore_modCore (s : State) (k : CoreId) (f g : Core → Core) :
    (s.modCore k f).modCore k g = s.modCore k (fun c => g (f c)) := by
  have e := State.core_modCore s k f
  show (s.modCore k f).setCore k (g ((s.modCore k f).core k)) = _
  rw [e]
  simp only [State.modCore, State.setCore, Bank.set_set]

/-! ## Scalar registers (R11) -/

/-- s0 reads as zero. -/
@[simp] theorem Ctl.reg_zero (c : Ctl) : c.reg 0#5 = 0#64 := rfl
/-- A write to s0 is discarded. -/
@[simp] theorem Ctl.setReg_zero (c : Ctl) (v : Word) : c.setReg 0#5 v = c := rfl
/-- A register reads back what was written to it. -/
theorem Ctl.reg_setReg_same (c : Ctl) (r : BitVec 5) (v : Word) (h : r ≠ 0#5) : (c.setReg r v).reg r = v := by
  simp [Ctl.setReg, Ctl.reg, h, Bank.get_set_same]
/-- A write to one register leaves every other. -/
theorem Ctl.reg_setReg_ne (c : Ctl) (r r' : BitVec 5) (v : Word) (h : r' ≠ r) : (c.setReg r v).reg r' = c.reg r' := by
  by_cases h0 : r = 0#5
  · simp [Ctl.setReg, h0]
  · simp [Ctl.setReg, Ctl.reg, h0, Bank.get_set_ne _ _ _ _ _ h]

@[simp] theorem Ctl.setReg_cst (c : Ctl) (r : BitVec 5) (v : Word) : (c.setReg r v).cst = c.cst := by unfold Ctl.setReg; split <;> rfl
@[simp] theorem Ctl.setReg_xpc (c : Ctl) (r : BitVec 5) (v : Word) : (c.setReg r v).xpc = c.xpc := by unfold Ctl.setReg; split <;> rfl
@[simp] theorem Ctl.setReg_xcause (c : Ctl) (r : BitVec 5) (v : Word) : (c.setReg r v).xcause = c.xcause := by unfold Ctl.setReg; split <;> rfl
@[simp] theorem Ctl.setReg_xaddr (c : Ctl) (r : BitVec 5) (v : Word) : (c.setReg r v).xaddr = c.xaddr := by unfold Ctl.setReg; split <;> rfl
@[simp] theorem Ctl.setReg_xvec (c : Ctl) (r : BitVec 5) (v : Word) : (c.setReg r v).xvec = c.xvec := by unfold Ctl.setReg; split <;> rfl
@[simp] theorem Ctl.setReg_asid (c : Ctl) (r : BitVec 5) (v : Word) : (c.setReg r v).asid = c.asid := by unfold Ctl.setReg; split <;> rfl
@[simp] theorem Ctl.setReg_cyc (c : Ctl) (r : BitVec 5) (v : Word) : (c.setReg r v).cyc = c.cyc := by unfold Ctl.setReg; split <;> rfl
@[simp] theorem Ctl.setReg_stbank (c : Ctl) (r : BitVec 5) (v : Word) : (c.setReg r v).stbank = c.stbank := by unfold Ctl.setReg; split <;> rfl
@[simp] theorem Ctl.setReg_sttok (c : Ctl) (r : BitVec 5) (v : Word) : (c.setReg r v).sttok = c.sttok := by unfold Ctl.setReg; split <;> rfl
@[simp] theorem Ctl.setReg_stfetch (c : Ctl) (r : BitVec 5) (v : Word) : (c.setReg r v).stfetch = c.stfetch := by unfold Ctl.setReg; split <;> rfl
@[simp] theorem Ctl.setReg_vrb (c : Ctl) (r : BitVec 5) (v : Word) : (c.setReg r v).vrb = c.vrb := by unfold Ctl.setReg; split <;> rfl
@[simp] theorem Ctl.setReg_prb (c : Ctl) (r : BitVec 5) (v : Word) : (c.setReg r v).prb = c.prb := by unfold Ctl.setReg; split <;> rfl
@[simp] theorem Ctl.setReg_sscr (c : Ctl) (r : BitVec 5) (v : Word) : (c.setReg r v).sscr = c.sscr := by unfold Ctl.setReg; split <;> rfl

@[simp] theorem Core.setReg_ctl (c : Core) (r : BitVec 5) (v : Word) : (c.setReg r v).ctl = c.ctl.setReg r v := rfl
@[simp] theorem Core.setReg_front (c : Core) (r : BitVec 5) (v : Word) : (c.setReg r v).front = c.front := rfl
@[simp] theorem Core.setReg_seat (c : Core) (r : BitVec 5) (v : Word) : (c.setReg r v).seat = c.seat := rfl
@[simp] theorem Core.setReg_vec (c : Core) (r : BitVec 5) (v : Word) : (c.setReg r v).vec = c.vec := rfl
@[simp] theorem Core.setReg_mtx (c : Core) (r : BitVec 5) (v : Word) : (c.setReg r v).mtx = c.mtx := rfl
@[simp] theorem Core.setReg_tok (c : Core) (r : BitVec 5) (v : Word) : (c.setReg r v).tok = c.tok := rfl
@[simp] theorem Core.setReg_vq (c : Core) (r : BitVec 5) (v : Word) : (c.setReg r v).vq = c.vq := rfl
@[simp] theorem Core.setReg_mq (c : Core) (r : BitVec 5) (v : Word) : (c.setReg r v).mq = c.mq := rfl
@[simp] theorem Core.setReg_dq (c : Core) (r : BitVec 5) (v : Word) : (c.setReg r v).dq = c.dq := rfl
@[simp] theorem Core.setReg_fq (c : Core) (r : BitVec 5) (v : Word) : (c.setReg r v).fq = c.fq := rfl
@[simp] theorem Core.setReg_tower (c : Core) (r : BitVec 5) (v : Word) : (c.setReg r v).tower = c.tower := rfl
@[simp] theorem Core.setReg_binds (c : Core) (r : BitVec 5) (v : Word) : (c.setReg r v).binds = c.binds := rfl
@[simp] theorem Core.setReg_rings (c : Core) (r : BitVec 5) (v : Word) : (c.setReg r v).rings = c.rings := rfl
@[simp] theorem Core.setReg_tags (c : Core) (r : BitVec 5) (v : Word) : (c.setReg r v).tags = c.tags := rfl
@[simp] theorem Core.setReg_shapes (c : Core) (r : BitVec 5) (v : Word) : (c.setReg r v).shapes = c.shapes := rfl
@[simp] theorem Core.setReg_queries (c : Core) (r : BitVec 5) (v : Word) : (c.setReg r v).queries = c.queries := rfl
@[simp] theorem Core.setReg_inbox (c : Core) (r : BitVec 5) (v : Word) : (c.setReg r v).inbox = c.inbox := rfl
@[simp] theorem Core.setReg_spill (c : Core) (r : BitVec 5) (v : Word) : (c.setReg r v).spill = c.spill := rfl
@[simp] theorem Core.setReg_replies (c : Core) (r : BitVec 5) (v : Word) : (c.setReg r v).replies = c.replies := rfl
@[simp] theorem Core.setReg_refused (c : Core) (r : BitVec 5) (v : Word) : (c.setReg r v).refused = c.refused := rfl
@[simp] theorem Core.setReg_irq (c : Core) (r : BitVec 5) (v : Word) : (c.setReg r v).irq = c.irq := rfl
@[simp] theorem Core.setReg_tlb (c : Core) (r : BitVec 5) (v : Word) : (c.setReg r v).tlb = c.tlb := rfl
@[simp] theorem Core.setReg_icache (c : Core) (r : BitVec 5) (v : Word) : (c.setReg r v).icache = c.icache := rfl
@[simp] theorem Core.setReg_arrived (c : Core) (r : BitVec 5) (v : Word) : (c.setReg r v).arrived = c.arrived := rfl
@[simp] theorem Core.setReg_released (c : Core) (r : BitVec 5) (v : Word) : (c.setReg r v).released = c.released := rfl
@[simp] theorem Core.setReg_deadCk (c : Core) (r : BitVec 5) (v : Word) : (c.setReg r v).deadCk = c.deadCk := rfl

end Sys2Proof.Machine
end

