-- ==== Sys2Proof/Laws/Ops.lean ====
section
/-! SUPPORT. What the shared operations do: running a control instruction, running an engine instruction, taking a trap. -/

namespace Sys2Proof.Machine

/-! ## Control instructions -/

/-- An instruction that can go runs its body, and finishes, traps or waits. -/
theorem runC_goes (t : Option Tok) (body : CoreId → State → Eff) (s : State) (h : s.goes t) :
    runC t body s =
      match body s.exe s with
      | .done s' => .next (finishC s.exe t false s')
      | .trap tr s' => .next (takeTrap s.exe tr (s.core s.exe).front.pc (s.core s.exe).front.slot s')
      | .fault tr _ s' => .next (takeTrap s.exe tr (s.core s.exe).front.pc (s.core s.exe).front.slot s')
      | .wait s' => .next (startC s.exe t false s')
      | .hold _ s' => .next (startC s.exe t false s')
      | .after tr s' =>
        if ((finishC s.exe t false s').core s.exe).front.done then .next (finishC s.exe t false s')
        else .next (takeTrap s.exe tr (s.core s.exe).front.after.1 (s.core s.exe).front.after.2 (finishC s.exe t false s')) := by
  obtain ⟨h1, h2, h3, h4, h5⟩ := h
  simp only [runC, h1, h2, h3, h4, Bool.not_false, Bool.not_true, Bool.and_false, Bool.false_eq_true, if_false]
  all_goals (cases body s.exe s <;> rfl)

/-- Finishing, when the body left the tokens alone and the POST queue has room. -/
theorem finishC_room (k : CoreId) (t : Option Tok) (s' : State) (h : ((s'.core k).tok.pop t).room t = true) :
    finishC k t false s' = s'.went k t := by
  simp [finishC, State.went, State.modCore, h]

/-- An instruction that can go and takes its effect retires. -/
theorem runC_done (t : Option Tok) (body : CoreId → State → Eff) (s s' : State) (h : s.goes t)
    (hb : body s.exe s = .done s') (ht : (s'.core s.exe).tok = (s.core s.exe).tok) :
    runC t body s = .next (s'.went s.exe t) := by
  rw [runC_goes t body s h, hb]
  show Host.Outcome.next _ = _
  rw [finishC_room _ _ _ (by rw [ht]; exact h.2.2.2.2)]

/-- An instruction that can go and traps is not retired: nothing popped, nothing posted. -/
theorem runC_trap (t : Option Tok) (body : CoreId → State → Eff) (s s' : State) (tr : TrapInfo) (h : s.goes t)
    (hb : body s.exe s = .trap tr s') :
    runC t body s = .next (takeTrap s.exe tr (s.core s.exe).front.pc (s.core s.exe).front.slot s') := by
  rw [runC_goes t body s h, hb]

/-- An instruction on the scalar side alone retires with its effect. -/
theorem runCtl_goes (t : Option Tok) (f : Ctl → Ctl) (s : State) (h : s.goes t) :
    runCtl t f s = .next ((s.modCore s.exe (fun c => { c with ctl := f c.ctl })).went s.exe t) :=
  runC_done t _ s _ h rfl (by simp)

/-- An instruction on the scalar side and the control unit retires with its effect. -/
theorem runCF_goes (t : Option Tok) (f : Ctl → Front → Ctl × Front) (s : State) (h : s.goes t) :
    runCF t f s = .next ((s.modCore s.exe (fun c =>
      { c with ctl := (f c.ctl c.front).1, front := (f c.ctl c.front).2 })).went s.exe t) :=
  runC_done t _ s _ h rfl (by simp)

/-- Without its tokens a control instruction waits, and nothing changes (R301). -/
theorem runC_waits (t : Option Tok) (body : CoreId → State → Eff) (s : State)
    (h1 : (s.core s.exe).front.done = false) (h2 : (s.core s.exe).front.started = false)
    (h3 : (s.core s.exe).tok.ready t = false) : runC t body s = .next s := by
  simp [runC, h1, h2, h3]

/-- A control instruction always answers a next state. -/
theorem runC_next (t : Option Tok) (body : CoreId → State → Eff) (s : State) : ∃ s', runC t body s = .next s' := by
  unfold runC
  simp only []
  repeat' split
  all_goals exact ⟨_, rfl⟩

/-- A control instruction that only writes a register retires having written it. -/
theorem runCtl_puts (t : Option Tok) (d : BitVec 5) (f : Ctl → Word) (s : State) (h : s.goes t) :
    runCtl t (fun c => c.setReg d (f c)) s = .next (s.puts d (f (s.core s.exe).ctl) t) :=
  runCtl_goes t _ s h

/-- A control instruction that writes a register and raises flags retires having done both. -/
theorem runCtl_putsFl (t : Option Tok) (d : BitVec 5) (f : Ctl → Word × Fl) (s : State) (h : s.goes t) :
    runCtl t (fun c => (c.setReg d (f c).1).raise (f c).2) s = .next (s.putsFl d (f (s.core s.exe).ctl) t) :=
  runCtl_goes t _ s h

/-- Raising no flag changes nothing. -/
@[simp] theorem Ctl.raise_none (c : Ctl) : c.raise 0#6 = c := by
  cases c; simp [Ctl.raise]

/-- Writing a register and raising no flag is writing the register. -/
theorem State.putsFl_none (s : State) (d : BitVec 5) (v : Word) (t : Option Tok) :
    s.putsFl d (v, 0#6) t = s.puts d v t := by
  unfold State.putsFl State.puts State.setReg
  congr 1
  simp [Core.raise]
  rfl

/-! ## Engine instructions -/

/-- An engine instruction that can go is performed in the step that hands it over. -/
theorem engineGoes_now {e : Engine} {t : Option Tok} {s : State} (h : s.engineGoes e t) :
    ((s.core s.exe).queue e).isEmpty && (s.core s.exe).tok.ready t && ((s.core s.exe).tok.gangFault t).isNone
      && ((s.core s.exe).tok.pop t).room t && !(s.late.any (fun l => decide (l.core = s.exe)))
      && (s.core s.exe).mtx.before.isEmpty && !(s.core s.exe).midMul && !(s.table (tableOf s.exe)).stop && !(decide (e = .d) && s.anySent s.exe) := by
  obtain ⟨h1, h2, h3, h4, h5, h6, h7, h10, h8⟩ := h
  have h9 : (s.late.any (fun l => decide (l.core = s.exe))) = false := by simpa using h5
  by_cases he : e = .d
  · simp [h1, h2, h3, h4, h6, h7, h10, h9, h8 he]
  · simp [h1, h2, h3, h4, h6, h7, h10, h9, he]

/-- An engine instruction that can go and takes its effect retires at once. -/
theorem runE_done (e : Engine) (i : Instr) (cap : Cap) (body : Body) (s s' : State) (h : s.engineGoes e i.tok?)
    (hb : body s.exe cap 0#64 s = .done s') : runE e i cap body s = .next (s'.engineWent s.exe i) := by
  rw [runE, if_pos (engineGoes_now h)]
  simp [hb, State.engineWent]

/-- An engine instruction that can go and traps before it starts stays in its queue, and the core takes the trap. -/
theorem runE_trap (e : Engine) (i : Instr) (cap : Cap) (body : Body) (s s' : State) (tr : TrapInfo)
    (h : s.engineGoes e i.tok?) (hb : body s.exe cap 0#64 s = .trap tr s') :
    runE e i cap body s = .next (takeEngineTrap s.exe { tr with eng := e.num }
      (leaveSlot s.exe (enqueue s.exe e { ins := i, slots := i.slots, cap := cap, faulted := some tr } s'))) := by
  rw [runE, if_pos (engineGoes_now h)]
  simp [hb]

/-- An engine instruction always answers a next state. -/
theorem runE_next (e : Engine) (i : Instr) (cap : Cap) (body : Body) (s : State) : ∃ s', runE e i cap body s = .next s' := by
  unfold runE
  simp only []
  repeat' split
  all_goals exact ⟨_, rfl⟩

/-! ## Taking a trap -/

/-- What a trap that is no double trap leaves: the entry of R390 at the core, and the objects' queues without it. -/
theorem takeTrap_enters (k : CoreId) (t : TrapInfo) (pc : Pc) (slot : Nat) (s : State)
    (h1 : (s.core k).seat.depth ≠ 255#8) (h2 : (s.core k).front.vec = false) :
    takeTrap k t pc slot s = (s.leaveQueues k).modCore k (trapCore t pc slot) := by
  have e : (s.leaveQueues k).core k = s.core k := rfl
  simp [takeTrap, e, h1, h2]

/-- A trap at depth 255, or before the handler's first slot took effect, is a double trap (R391). -/
theorem takeTrap_doubles (k : CoreId) (t : TrapInfo) (pc : Pc) (slot : Nat) (s : State)
    (h : (s.core k).seat.depth = 255#8 ∨ (s.core k).front.vec = true) :
    takeTrap k t pc slot s = doubleTrap k (s.leaveQueues k) := by
  have e : (s.leaveQueues k).core k = s.core k := rfl
  simp [takeTrap, e, h]

/-- Retiring the vector queue touches nothing but the queue, the tokens and the queries. -/
theorem retireList_same (q : List QEntry) (c : Core) :
    (retireList q c).2.ctl = c.ctl ∧ (retireList q c).2.front = c.front ∧ (retireList q c).2.seat = c.seat ∧
      (retireList q c).2.vec = c.vec ∧ (retireList q c).2.mtx = c.mtx ∧ (retireList q c).2.tower = c.tower := by
  induction q generalizing c with
  | nil => simp [retireList]
  | cons e rest ih =>
    unfold retireList
    split
    · exact ih c
    · split
      · have h := ih (retireEffect e.ins { c with tok := c.tok.push e.ins.tok? })
        have r : (retireEffect e.ins { c with tok := c.tok.push e.ins.tok? }).ctl = c.ctl ∧
            (retireEffect e.ins { c with tok := c.tok.push e.ins.tok? }).front = c.front ∧
            (retireEffect e.ins { c with tok := c.tok.push e.ins.tok? }).seat = c.seat ∧
            (retireEffect e.ins { c with tok := c.tok.push e.ins.tok? }).vec = c.vec ∧
            (retireEffect e.ins { c with tok := c.tok.push e.ins.tok? }).mtx = c.mtx ∧
            (retireEffect e.ins { c with tok := c.tok.push e.ins.tok? }).tower = c.tower := by
          unfold retireEffect; split <;> simp
        obtain ⟨a1, a2, a3, a4, a5, a6⟩ := h
        obtain ⟨b1, b2, b3, b4, b5, b6⟩ := r
        exact ⟨a1.trans b1, a2.trans b2, a3.trans b3, a4.trans b4, a5.trans b5, a6.trans b6⟩
      · simp

/-- What the entry of R390 leaves of a core: the trap registers written, the status changed, the seat folded, the control
unit at the vector, and the scalar registers, tiles and tower as they were. -/
theorem trapCore_leaves (t : TrapInfo) (pc : Pc) (slot : Nat) (c : Core) :
    (trapCore t pc slot c).ctl =
        { c.ctl with cst := trapCst c.ctl.cst, xcause := causeWord t, xaddr := t.addr, xpc := xpcWord pc slot } ∧
      (trapCore t pc slot c).seat.depth = c.seat.depth + 1#8 ∧ (trapCore t pc slot c).front.pc = c.ctl.xvec ∧
      (trapCore t pc slot c).front.vec = true ∧ (trapCore t pc slot c).vec = c.vec ∧
      (trapCore t pc slot c).mtx = { c.mtx with before := [] } ∧ (trapCore t pc slot c).tower = c.tower := by
  obtain ⟨_, _, _, h4, h5, h6⟩ := retireList_same (c.land.queue .v) c.land
  refine ⟨rfl, rfl, rfl, rfl, ?_, ?_, ?_⟩
  · simpa [trapCore, Core.mapQueues, Core.retire, Core.setQueue] using (show _ = c.vec from h4)
  · simpa [trapCore, Core.mapQueues, Core.retire, Core.setQueue] using (show _ = { c.mtx with before := [] } from h5)
  · simpa [trapCore, Core.mapQueues, Core.retire, Core.setQueue] using (show _ = c.tower from h6)

end Sys2Proof.Machine
end

