-- ==== Sys2Proof/Laws/Lanes.lean ====
section
/-! SUPPORT. What an element-wise vector instruction does: each element, each row, each lane's generator, the flags (R121, R135,
R162, R163, R166). -/

namespace Sys2Proof.Machine

/-- A lane's generator after a write to a lane's generator. -/
theorem Vec.gen_setGen (v : Vec) (l l' : Nat) (x : BitVec 32) (h : l < 32) (h' : l' < 32) :
    (v.setGen l x).gen l' = if l' = l then x else v.gen l' := by
  unfold Vec.setGen Vec.gen
  split
  · subst l'; exact Bank.get_set_same ..
  · rename_i hne
    exact Bank.get_set_ne _ _ _ _ _ (fun e => hne (by
      have := congrArg BitVec.toNat e
      simp only [BitVec.toNat_ofNat] at this
      omega))

/-- Two vector units that differ in their generators alone. -/
def Vec.sameBut (u v : Vec) : Prop :=
  u.acc0 = v.acc0 ∧ u.acc1 = v.acc1 ∧ u.exposed = v.exposed ∧ u.preds = v.preds

/-- One more advance of a generator. -/
theorem gensAfter_succ (n : Nat) (g : BitVec 32) : gensAfter (n + 1) g = rsAdvance (gensAfter n g) := by
  induction n generalizing g with
  | zero => rfl
  | succ n ih => exact ih (rsAdvance g)

/-- The draws of a lane before an element, counted over a predicate. -/
def drawsIn (active : Nat → Bool) (n lane e : Nat) : Nat :=
  ((List.range e).filter (fun j => active j && decide (laneOf n j = lane))).length

/-- The draws up to and with one more element. -/
theorem drawsIn_succ (active : Nat → Bool) (n lane e : Nat) :
    drawsIn active n lane (e + 1) = drawsIn active n lane e + (if active e = true ∧ laneOf n e = lane then 1 else 0) := by
  simp [drawsIn, List.range_succ, List.filter_append, List.filter_cons]
  split <;> simp_all

/-- The mode of an element in the loop. -/
def loopMode (m : BitVec 3) (n : Nat) (active : Nat → Bool) (draws : Bool) (v0 : Vec) (e : Nat) : Mode :=
  if draws = true ∧ m = 4#3 then .rs (gensAfter (drawsIn active n (laneOf n e) e + 1) (v0.gen (laneOf n e))) else modeOf m m

/-- The loop over a run of elements: the bits of each, the generators after it, the flags. -/
theorem vLoop_spec (m : BitVec 3) (n : Nat) (active : Nat → Bool) (draws : Bool) (old : Nat → Nat)
    (f : Nat → Mode → Nat × Fl) (v0 : Vec) (hn : ∀ e, e < n → laneOf n e < 32) :
    ∀ (len a : Nat) (v : Vec) (fl : Fl), a + len ≤ n → v.sameBut v0 →
      (∀ l, l < 32 → v.gen l = if draws = true ∧ m = 4#3 then gensAfter (drawsIn active n l a) (v0.gen l) else v0.gen l) →
      let r := vLoop m n active (fun _ => draws) old f (List.range' a len) v fl
      r.1 = (List.range' a len).map (fun e => if active e then (f e (loopMode m n active draws v0 e)).1 else old e) ∧
      r.2.1.sameBut v0 ∧
      (∀ l, l < 32 → r.2.1.gen l =
        if draws = true ∧ m = 4#3 then gensAfter (drawsIn active n l (a + len)) (v0.gen l) else v0.gen l) ∧
      r.2.2 = ((List.range' a len).filter active).foldl (fun fl e => fl ||| (f e (loopMode m n active draws v0 e)).2) fl := by
  intro len
  induction len with
  | zero => intro a v fl _ hs hg; exact ⟨rfl, hs, by simpa [vLoop] using hg, rfl⟩
  | succ len ih =>
    intro a v fl ha hs hg
    have hla := hn a (by omega)
    rw [List.range'_succ]
    unfold vLoop
    by_cases hact : active a = true
    · by_cases hd : draws = true ∧ m = 4#3
      · obtain ⟨hd1, hm⟩ := hd
        have hmode : drawMode m (laneOf n a) v = (loopMode m n active draws v0 a,
            v.setGen (laneOf n a) (rsAdvance (v.gen (laneOf n a)))) := by
          simp [drawMode, loopMode, hm, hd1, hg _ hla, gensAfter_succ]
        have := ih (a + 1) (v.setGen (laneOf n a) (rsAdvance (v.gen (laneOf n a))))
          (fl ||| (f a (loopMode m n active draws v0 a)).2) (by omega) hs (by
            intro l hl
            rw [Vec.gen_setGen _ _ _ _ hla hl, drawsIn_succ]
            simp only [hd1, hm, and_self, if_true, hact, true_and]
            by_cases e : l = laneOf n a
            · subst e; simp [hg _ hla, hd1, hm, gensAfter_succ]
            · simp [e, Ne.symm e, hg l hl, hd1, hm])
        simp only [hact, if_true, hd1, hmode, List.map_cons, List.filter_cons, List.foldl_cons]
        simp only [hd1] at this
        obtain ⟨e1, e2, e3, e4⟩ := this
        refine ⟨by rw [e1], e2, ?_, e4⟩
        rw [show a + (len + 1) = a + 1 + len by omega]; exact e3
      · have hmode : (if draws = true then drawMode m (laneOf n a) v else (modeOf m m, v)) =
            (loopMode m n active draws v0 a, v) := by
          unfold loopMode drawMode
          by_cases h1 : draws = true
          · have h2 : m ≠ 4#3 := fun h => hd ⟨h1, h⟩
            simp [h1, h2]
          · simp [h1]
        have := ih (a + 1) v (fl ||| (f a (loopMode m n active draws v0 a)).2) (by omega) hs (by
            intro l hl; rw [hg l hl]; simp [hd])
        simp only [hact, if_true, hmode, List.map_cons, List.filter_cons, List.foldl_cons]
        obtain ⟨e1, e2, e3, e4⟩ := this
        refine ⟨by rw [e1], e2, ?_, e4⟩
        rw [show a + (len + 1) = a + 1 + len by omega]; exact e3
    · have := ih (a + 1) v fl (by omega) hs (by
            intro l hl; rw [hg l hl, drawsIn_succ]; simp [hact])
      simp only [hact, List.map_cons, List.filter_cons]
      obtain ⟨e1, e2, e3, e4⟩ := this
      refine ⟨by simp [e1], e2, ?_, by simpa using e4⟩
      rw [show a + (len + 1) = a + 1 + len by omega]; exact e3

/-- An element of a packed row. -/
theorem elemAt_packRow (w : Nat) (xs : List Nat) (k : Nat) (hk : k < xs.length) (hw : w * xs.length ≤ 1024) :
    elemAt (packRow w xs) w k = xs[k] % 2 ^ w := by
  refine Nat.eq_of_testBit_eq fun i => ?_
  rw [elemAt, packRow, ← BitVec.getLsbD, BitVec.getLsbD_extractLsb', BitVec.getLsbD_ofNat, Nat.testBit_mod_two_pow]
  by_cases hi : i < w
  · have hw0 : 0 < w := by omega
    have hlt : w * k + i < 1024 := by
      have : w * (k + 1) ≤ w * xs.length := Nat.mul_le_mul_left _ hk
      rw [Nat.mul_succ] at this; omega
    rw [testBit_packNat hw0, Nat.mul_add_div hw0, Nat.div_eq_of_lt hi, Nat.mul_add_mod, Nat.mod_eq_of_lt hi]
    simp [hi, hlt, hk]
  · simp [hi]

/-- A row holds 1024 bits. -/
theorem accW_accN (acct : BitVec 2) : accW acct * accN acct = 1024 := by
  unfold accN accW; split <;> rfl

/-- Every element lies in a lane. -/
theorem laneOf_lt (acct : BitVec 2) (e : Nat) (h : e < accN acct) : laneOf (accN acct) e < 32 := by
  revert h; unfold laneOf accN accW; split
  · simp
  · simp; omega

/-- A row of the exposed tile after a write to one. -/
theorem Vec.row_setRow (v : Vec) (r q : BitVec 6) (x : BitVec 1024) :
    (v.setRow r x).row q = if q = r then x else v.row q := by
  unfold Vec.setRow Vec.row Vec.setTile Vec.tile
  by_cases e : q = r
  · subst e; cases h : v.exposed <;> simp [Bank.get_set_same]
  · have ne := fun (m : Bank (BitVec 6) (BitVec 1024)) => Bank.get_set_ne m 0#1024 r q x e
    cases h : v.exposed <;> simp [e, ne]

/-- With no matrix command still writing, an element reads as its row holds it, whichever read it is (R261). -/
theorem VIn.el_now (v : VIn) (h : v.c.mtx.before = []) (d : BitVec 6) (k e q : Nat) :
    ((v.for e).at q).el d k = v.el d k := by
  simp [VIn.el, VIn.row, VIn.for, VIn.at, VIn.w, h]

/-- With no matrix command still writing, a row takes what is written to it (R261). -/
theorem Core.rowPut_now (c : Core) (h : c.mtx.before = []) (tick : Nat) (r : BitVec 6) (on : Nat → Bool) (x : BitVec 1024) :
    c.rowPut tick r on x = { c with vec := c.vec.setRow r x } := by
  simp [Core.rowPut, h]

/-- What an element-wise instruction does (R135, R162, R163, R166). -/
theorem vElem_lanes (d : BitVec 6) (p : BitVec 4) (n : BitVec 1) (x : VExt) (codes : List (BitVec 4)) (conv : Bool)
    (draws : VIn → Bool) (f : VIn → Nat → Mode → VRes) (k : CoreId) (cap : Cap) (r : Word) (s : State)
    (v : VIn) (hv : v = { c := s.core k, cap := cap, x := x, tick := s.tick }) (hb : (s.core k).mtx.before = [])
    (hok : v.ok codes = true) :
    ∃ u, v.Lanes d p n conv (draws v) (fun e m => f (v.for e) e m) u ∧ vElem d p n x codes conv draws f k cap r s =
      .done (s.setCore k ({ s.core k with vec := u }.raise (v.flags d p n conv (draws v) (fun e m => f (v.for e) e m)))) := by
  subst hv
  generalize hi : ({ c := s.core k, cap := cap, x := x, tick := s.tick } : VIn) = v at *
  have hb' : v.c.mtx.before = [] := by rw [← hi]; exact hb
  have key := vLoop_spec (vMode x cap) v.n (v.active p n) (draws v) (v.el d)
    (fun e m => deliverRes v.w v.ef x conv m (v.el d e) (f (v.for e) e m))
    (s.core k).vec (fun e h => laneOf_lt _ e h) v.n 0 (s.core k).vec 0#6 (by omega)
    ⟨rfl, rfl, rfl, rfl⟩ (by intro l hl; simp [drawsIn, gensAfter])
  rw [← List.range_eq_range'] at key
  generalize hl : vLoop _ _ _ _ _ _ _ _ _ = out at key
  obtain ⟨k1, ⟨k2, k3, k4, k5⟩, k6, k7⟩ := key
  have hc : v.c = s.core k := by rw [← hi]
  have hcap : v.cap = cap := by rw [← hi]
  have hx : v.x = x := by rw [← hi]
  refine ⟨out.2.1.setRow (vrow cap.vrb d) (packRow v.w out.1), ?_, ?_⟩
  · have hlen : out.1.length = v.n := by rw [k1]; simp
    have hww : v.w * v.n = 1024 := accW_accN _
    have hel : ∀ e, e < v.n → elemAt ((out.2.1.setRow (vrow cap.vrb d) (packRow v.w out.1)).row (vrow v.cap.vrb d)) v.w e =
        (if v.active p n e then (deliverRes v.w v.ef x conv (v.modeAt p n (draws v) e) (v.el d e)
          (f (v.for e) e (v.modeAt p n (draws v) e))).1 else v.el d e) % 2 ^ v.w := by
      intro e he
      rw [hcap, Vec.row_setRow, if_pos rfl, elemAt_packRow _ _ _ (by omega) (by rw [hlen, hww])]
      simp only [k1, List.getElem_map, List.getElem_range]
      congr 1
      rw [← hc]
      unfold VIn.modeAt loopMode VIn.drawsBefore drawsIn
      rw [hx, hcap]
    refine ⟨fun e he ha => ?_, fun e he ha => ?_, fun r hr => ?_, ?_, ?_, ?_, ?_⟩
    · rw [hel e he, ha, hx]; rfl
    · rw [hel e he, ha]
      simp only [Bool.false_eq_true, if_false]
      apply Nat.mod_eq_of_lt
      unfold VIn.el elemAt
      exact BitVec.isLt _
    · rw [Vec.row_setRow, if_neg (by rw [← hcap]; exact hr), hc]
      simp [Vec.row, Vec.tile, k2, k3, k4]
    · simp [Vec.setRow, Vec.setTile, Vec.tile, hc, k4, k2, k3]
      split <;> simp_all
    · simp [Vec.setRow, Vec.setTile, hc]
      split <;> simp_all
    · simp [Vec.setRow, Vec.setTile, hc]
      split <;> simp_all
    · intro l hl
      have : (out.2.1.setRow (vrow cap.vrb d) (packRow v.w out.1)).gen l = out.2.1.gen l := by
        simp [Vec.setRow, Vec.setTile, Vec.gen]; split <;> rfl
      rw [this, k6 l hl, hc, hx, hcap]
      simp only [VIn.drawsBefore, drawsIn, Nat.zero_add]
  · unfold vElem
    simp only [hi, hok, Bool.not_true, Bool.false_eq_true, if_false, v.el_now hb']
    simp only [Core.rowPut, hb, hl]
    congr 4
    rw [k7]
    unfold VIn.flags VIn.modeAt loopMode VIn.drawsBefore drawsIn
    rw [hx, hcap, hc]

/-- An element-wise instruction that can go, with operands its element format takes, runs over its lanes and retires. -/
theorem runE_lanes (i : Instr) (x : VExt) (d : BitVec 6) (p : BitVec 4) (n : BitVec 1) (codes : List (BitVec 4))
    (conv : Bool) (draws : VIn → Bool) (dr : Bool) (f : VIn → Nat → Mode → VRes) (s : State)
    (h : s.engineGoes .v i.tok?) (hd : draws (s.vin i x) = dr) (hok : (s.vin i x).ok codes = true)
    (he : exec i s = runE .v i (capOf i (s.core s.exe)) (vElem d p n x codes conv draws f) s) :
    s.lanes i x d p n conv dr f := by
  obtain ⟨u, hu, e⟩ :=
    vElem_lanes d p n x codes conv draws f s.exe (capOf i (s.core s.exe)) 0#64 s (s.vin i x) rfl h.2.2.2.2.2.1 hok
  subst hd
  exact ⟨u, hu, by rw [he]; exact runE_done _ _ _ _ _ _ h e⟩

/-- The same instruction with operands its element format does not take traps `ILLENC` (R163). -/
theorem runE_lanes_trap (i : Instr) (x : VExt) (d : BitVec 6) (p : BitVec 4) (n : BitVec 1) (codes : List (BitVec 4))
    (conv : Bool) (draws : VIn → Bool) (f : VIn → Nat → Mode → VRes) (s : State)
    (h : s.engineGoes .v i.tok?) (hok : (s.vin i x).ok codes = false)
    (he : exec i s = runE .v i (capOf i (s.core s.exe)) (vElem d p n x codes conv draws f) s) :
    exec i s = .next (s.engineTraps .v i { code := 0x01#8 }) := by
  rw [he]
  exact runE_trap _ _ _ _ _ _ _ h (by
    simp only [vElem]
    rw [show VIn.ok { c := s.core s.exe, cap := capOf i (s.core s.exe), x := x, tick := s.tick } codes = false from hok]; rfl)

end Sys2Proof.Machine
end

