-- ==== Sys2Proof/Tests/Slice0.lean ====
section
/-! SUPPORT. Small checks: what is ill-formed is refused, words of the spec's encodings decode, single effects; and for
every statement of Certificates/Slice0/Obligations.lean with hypotheses, states and operands that meet them. -/

namespace Sys2Proof.Tests

-- One proof after another, in one thread: each `decide +kernel` waits for the checks before it.
set_option Elab.async false

open Sys2Proof Sys2Proof.Machine

/-! ## Small states -/

/-- The reset state with core 0 changed. -/
def core0 (f : Core → Core) : State := State.reset.modCore 0#11 f
/-- The reset state with scalar registers of core 0 set. -/
def regs (rs : List (BitVec 5 × Word)) : State := core0 (fun c => { c with ctl := { c.ctl with s := rs } })
/-- The same at task level. -/
def task (rs : List (BitVec 5 × Word)) : State := core0 (fun c => { c with ctl := { c.ctl with s := rs, cst := 0#64 } })
/-- Core 0 runs, with a bundle of these slots, behind its instructions or before them. -/
def front (w : List (BitVec 4 × BitVec 32)) (slot : Nat) (pend : Transfer) : Front :=
  { run := true, bundle := some (bundleOf w), slot := slot, pend := pend }
/-- Core 0 in a seat, with a bundle; its turn is first on the agenda. -/
def inSeat (st : SeatState) (w : List (BitVec 4 × BitVec 32)) (slot : Nat) (pend : Transfer) : State :=
  { core0 (fun c => { c with front := front w slot pend, seat := { st := st } }) with agenda := [.control 0#11] }
/-- The word of `addi s4, s4, -1`. -/
def addiWord : List (BitVec 4 × BitVec 32) := [(1#4, 0x30213FFF#32)]

/-! ## Ill-formed terms -/

theorem test_illformed_shift : (Instr.slli 1#5 2#5 64#14 none).wf = false := by decide
theorem test_illformed_rm : (Instr.fadd 1#5 2#5 3#5 4#3 0#1 none).wf = false := by decide
theorem test_wellformed_rm : (Instr.fadd 1#5 2#5 3#5 7#3 0#1 none).wf = true := by decide
theorem test_illformed_aop : (Instr.amo 1#5 2#5 3#5 10#4 1#1 none).wf = false := by decide
/-- An extension slot with only its defaults. -/
def plain : VExt := { c := 0#6, rm := 7#3, sat := false, nw := 0#4, dpos := 0#3, sa := 0#4, sb := 0#4, scf := 0#4, sfmt := 0#3 }
theorem test_wellformed_ext : (Instr.vAdd 1#6 2#6 3#6 0#4 0#1 (some plain) none).wf = true := by decide
theorem test_illformed_nw : (Instr.vAdd 1#6 2#6 3#6 0#4 0#1 (some { plain with nw := 14#4 }) none).wf = false := by decide
theorem test_illformed_subfield : (Instr.vAdd 1#6 2#6 3#6 0#4 0#1 (some { plain with sa := 7#4 }) none).wf = false := by decide
theorem test_illformed_c : (Instr.vAdd 1#6 2#6 3#6 0#4 0#1 (some { plain with c := 1#6 }) none).wf = false := by decide
theorem test_illformed_post : (Instr.nop (some ⟨10#5, 0#5, 0#5, 0#5, false, false⟩)).wf = false := by decide
theorem test_illformed_wait : (Instr.nop (some ⟨0#5, 10#5, 0#5, 0#5, false, false⟩)).wf = false := by decide
theorem test_illformed_ts : (Instr.nop (some ⟨0#5, 0#5, 0#5, 0#5, true, false⟩)).wf = false := by decide
theorem test_illformed_kat : (Instr.mKat 3#4 2#4 none).wf = false := by decide
theorem test_illformed_length :
    (Instr.li 1#5 (.long 0#32 1#32) (some ⟨0#5, 0#5, 0#5, 0#5, false, false⟩)).wf = false := by decide

/-! ## Words written out from the spec's encodings -/

/-- The spec's words of control instructions (R51 to R53, and chapters 17 and 18). -/
theorem test_words_control :
    decodeBundle (bundleOf [(1#4, 0x30213FFF#32)]) =
      .ok [⟨1, 1, .c, .addi 4#5 4#5 0x3FFF#14 none⟩] ∧
    decodeBundle (bundleOf [(1#4, 0x4010C860#32)]) =
      .ok [⟨1, 1, .c, .fadd 2#5 3#5 4#5 1#3 1#1 none⟩] ∧
    decodeBundle (bundleOf [(1#4, 0x43298FC8#32)]) =
      .ok [⟨1, 1, .c, .ffma 5#5 6#5 7#5 7#3 0#1 8#5 none⟩] ∧
    decodeBundle (bundleOf [(1#4, 0x88483000#32)]) =
      .ok [⟨1, 1, .c, .mfs 9#5 6#8 none⟩] ∧
    decodeBundle (bundleOf [(1#4, 0x13088001#32)]) =
      .ok [⟨1, 1, .c, .clz 1#5 2#5 1#2 none⟩] ∧
    decodeBundle (bundleOf [(1#4, 0x3C540000#32), (6#4, 0x00000000#32), (6#4, 0x00000001#32)]) =
      .ok [⟨1, 3, .c, .li 10#5 (.long 0#32 1#32) none⟩] ∧
    decodeBundle (bundleOf [(1#4, 0x4B49C1C0#32)]) =
      .ok [⟨1, 1, .c, .fcvt 9#5 7#5 0#5 7#3 0#1 none⟩] ∧
    decodeBundle (bundleOf [(1#4, 0x094A0400#32)]) =
      .ok [⟨1, 1, .c, .remN 9#5 8#5 2#5 none⟩] := by decide

/-- The spec's words of branch instructions (R51, R52). -/
theorem test_words_branch :
    decodeBundle (bundleOf [(1#4, 0x52088DFB#32)]) =
      .ok [⟨1, 1, .c, .bltI 1#5 2#5 3#4 (.short 0x1FB#9) none⟩] ∧
    decodeBundle (bundleOf [(1#4, 0x12210A60#32), (1#4, 0x0E294C00#32), (1#4, 0x57180000#32)]) =
      .ok [⟨1, 1, .c, .fsh 4#5 4#5 5#5 6#5 none⟩,
        ⟨2, 1, .c, .sll 5#5 5#5 6#5 none⟩,
        ⟨3, 1, .c, .loop 3#5 0#4 (.short 0#9) none⟩] := by decide

/-- The spec's words of object instructions (chapters 18 and 19). -/
theorem test_words_object :
    decodeBundle (bundleOf [(1#4, 0x7005A866#32)]) =
      .ok [⟨1, 1, .c, .bind 22#5 20#5 3#4 6#5 none⟩] ∧
    decodeBundle (bundleOf [(1#4, 0x73058000#32)]) =
      .ok [⟨1, 1, .c, .acqS 22#5 none⟩] ∧
    decodeBundle (bundleOf [(1#4, 0x74058000#32)]) =
      .ok [⟨1, 1, .c, .rel 22#5 none⟩] ∧
    decodeBundle (bundleOf [(1#4, 0x760000A0#32)]) =
      .ok [⟨1, 1, .c, .bar 5#4 0#4 none⟩] ∧
    decodeBundle (bundleOf [(1#4, 0x80021200#32), (1#4, 0x81600000#32)]) =
      .ok [⟨1, 1, .c, .ringInit 0#5 8#5 9#5 none⟩,
        ⟨2, 1, .c, .ringAcq 12#5 0#5 none⟩] := by decide

/-- The spec's words of vector instructions (R54 to R57, and chapters 12, 17 and 18). -/
theorem test_words_vector :
    decodeBundle (bundleOf [(2#4, 0x04A29A81#32), (6#4, 0xAF800000#32), (8#4, 0x32800000#32), (1#4, 0x0118C800#32)]) =
      .ok [⟨1, 3, .v, .vFma 40#6 41#6 42#6 0#4 0#1 { plain with c := 43#6 } (some ⟨6#5, 10#5, 0#5, 0#5, false, false⟩)⟩,
        ⟨4, 1, .c, .add 3#5 3#5 4#5 none⟩] ∧
    decodeBundle (bundleOf [(2#4, 0x41041140#32)]) =
      .ok [⟨1, 1, .v, .vCex 1#6 1#6 5#6 0#4 0#1 none none⟩] ∧
    decodeBundle (bundleOf [(2#4, 0x4E51F440#32)]) =
      .ok [⟨1, 1, .v, .vSct 20#6 31#6 17#5 0#4 0#1 none none⟩] ∧
    decodeBundle (bundleOf [(2#4, 0x2634C1C1#32), (6#4, 0x03840000#32)]) =
      .ok [⟨1, 2, .v, .vRshr 13#6 12#6 7#6 0#4 0#1 (some { plain with nw := 1#4 }) none⟩] ∧
    decodeBundle (bundleOf [(2#4, 0x4C3EC001#32), (6#4, 0x47800000#32), (8#4, 0x38000000#32)]) =
      .ok [⟨1, 3, .v, .vStm 15#6 22#5 0#7 0#4 0#1 { plain with c := 17#6 } (some ⟨7#5, 0#5, 0#5, 0#5, false, false⟩)⟩] ∧
    decodeBundle (bundleOf [(2#4, 0x50245000#32)]) =
      .ok [⟨1, 1, .v, .pAnd 2#4 4#4 5#4 none⟩] := by decide

/-- The spec's words of matrix instructions (R58, chapter 15). -/
theorem test_words_matrix :
    decodeBundle (bundleOf [(3#4, 0x0112800E#32)]) =
      .ok [⟨1, 1, .m, .mMma 1#4 2#4 32#6 0#6 7#3 none⟩] ∧
    decodeBundle (bundleOf [(3#4, 0x03340100#32)]) =
      .ok [⟨1, 1, .m, .mMmaK4 3#4 4#4 0#6 16#6 none⟩] ∧
    decodeBundle (bundleOf [(3#4, 0x08504F81#32)]) =
      .ok [⟨1, 1, .m, .mDrainAmax 5#4 9#5 7#3 1#1 0#6 1#1 none⟩] ∧
    decodeBundle (bundleOf [(3#4, 0x09320000#32), (8#4, 0x00000400#32)]) =
      .ok [⟨1, 2, .m, .mKat 3#4 2#4 (some ⟨0#5, 0#5, 0#5, 0#5, false, true⟩)⟩] ∧
    decodeBundle (bundleOf [(3#4, 0x0A000000#32), (6#4, 0x12345678#32), (8#4, 0x48000400#32)]) =
      .ok [⟨1, 3, .m, .mChk 0x12345678#32 (some ⟨9#5, 0#5, 0#5, 0#5, false, true⟩)⟩] ∧
    decodeBundle (bundleOf [(3#4, 0x0C740000#32), (3#4, 0x01000000#32)]) =
      .ok [⟨1, 1, .m, .mGang 7#4 1#2⟩,
        ⟨2, 1, .m, .mMma 0#4 0#4 0#6 0#6 0#3 none⟩] ∧
    decodeBundle (bundleOf [(3#4, 0x0D000002#32)]) =
      .ok [⟨1, 1, .m, .mAcct 2#2 none⟩] ∧
    decodeBundle (bundleOf [(3#4, 0x0B608000#32)]) =
      .ok [⟨1, 1, .m, .mEpiLd 6#4 none⟩] := by decide

/-- The spec's words of drill instructions (R59, chapter 16). -/
theorem test_words_drill :
    decodeBundle (bundleOf [(4#4, 0x01321200#32)]) =
      .ok [⟨1, 1, .d, .dCopy 6#5 8#5 9#5 none⟩] ∧
    decodeBundle (bundleOf [(4#4, 0x01021334#32)]) =
      .ok [⟨1, 1, .d, .dCopyRg 8#5 9#5 3#4 1#2 none⟩] ∧
    decodeBundle (bundleOf [(4#4, 0x02088600#32)]) =
      .ok [⟨1, 1, .d, .dBcast 1#5 2#5 3#5 none⟩] ∧
    decodeBundle (bundleOf [(4#4, 0x04A54100#32)]) =
      .ok [⟨1, 1, .d, .dSpill 20#5 21#5 1#1 0#6 none⟩] ∧
    decodeBundle (bundleOf [(4#4, 0x07214D40#32)]) =
      .ok [⟨1, 1, .d, .dAtomNr 4#5 5#5 6#5 10#4 0#1 none⟩] ∧
    decodeBundle (bundleOf [(4#4, 0x080000A0#32)]) =
      .ok [⟨1, 1, .d, .dAfence 5#4 none⟩] ∧
    decodeBundle (bundleOf [(4#4, 0x09180038#32)]) =
      .ok [⟨1, 1, .d, .dQpost 3#5 7#6 none⟩] ∧
    decodeBundle (bundleOf [(4#4, 0x0A500038#32)]) =
      .ok [⟨1, 1, .d, .dQget 10#5 7#6 none⟩] ∧
    decodeBundle (bundleOf [(4#4, 0x0B1B1A00#32)]) =
      .ok [⟨1, 1, .d, .dAppend 3#5 12#5 13#5 none⟩] := by decide

/-- The spec's words of furrow instructions (R60, chapter 16). -/
theorem test_words_furrow :
    decodeBundle (bundleOf [(5#4, 0x012110C0#32)]) =
      .ok [⟨1, 1, .f, .fFur 1#3 1#5 2#5 3#5 none⟩] ∧
    decodeBundle (bundleOf [(5#4, 0x024110C0#32)]) =
      .ok [⟨1, 1, .f, .fSys 2#3 1#5 2#5 3#5 none⟩] ∧
    decodeBundle (bundleOf [(5#4, 0x04042981#32)]) =
      .ok [⟨1, 1, .f, .fRing 4#5 5#5 6#5 1#1 none⟩] ∧
    decodeBundle (bundleOf [(5#4, 0x050110CE#32)]) =
      .ok [⟨1, 1, .f, .fGbcast 1#5 2#5 3#5 14#4 none⟩] := by decide

/-- The bundles that R36, R38, R45, R58, R70 and R88 refuse, each at its slot. -/
theorem test_refused_bundles :
    decodeBundle 0x11#256 = .illenc 0 ∧ decodeBundle (bundleOf [(6#4, 0#32)]) = .illenc 1 ∧
    decodeBundle (bundleOf [(2#4, 0x01000000#32), (6#4, 0#32)]) = .illenc 2 ∧
    decodeBundle (bundleOf [(2#4, 0x01000000#32), (8#4, 0x50000000#32)]) = .illenc 2 ∧
    decodeBundle (bundleOf [(4#4, 0x01321200#32), (0#4, 0#32), (8#4, 0#32)]) = .illenc 3 ∧
    decodeBundle (bundleOf [(1#4, 0x3C540000#32), (6#4, 0#32), (6#4, 1#32), (8#4, 0#32)]) = .illenc 1 ∧
    decodeBundle (bundleOf [(3#4, 0x0C740000#32)]) = .illenc 1 ∧ decodeBundle 0#256 = .ok [] := by decide

/-- A bundle lies at its address byte by byte, first slot lowest (chapter 2, the worked bundle). -/
theorem test_bundle_header :
    (bundleOf [(2#4, 0x04A29A81#32), (6#4, 0xAF800000#32), (8#4, 0x32800000#32), (1#4, 0x0118C800#32)]).extractLsb' 0 32 =
      0x00018620#32 := by decide

/-! ## Single effects -/

/-- The register a scalar instruction leaves in s1 of core 0. -/
def after (i : Instr) (s : State) : Option Word :=
  match exec i s with
  | .next t => some (t.reg 0#11 1#5)
  | _ => none

/-- A step or an instruction answers a next state. -/
def isNext (o : Host.Outcome State Fault Refusal) : Bool :=
  match o with
  | .next _ => true
  | _ => false

/-- R64: -7 by 2 is -3 with remainder -1; by zero all ones. -/
theorem test_division :
    after (.divI 1#5 2#5 3#5 none) (regs [(2#5, -7#64), (3#5, 2#64)]) = some (-3#64) ∧
    after (.remI 1#5 2#5 3#5 none) (regs [(2#5, -7#64), (3#5, 2#64)]) = some (-1#64) ∧
    after (.divN 1#5 2#5 3#5 none) (regs [(2#5, 9#64)]) = some (BitVec.allOnes 64) := by decide

/-- R66: fsh of 1:0 by 1 takes the low word's top bit in; by 64 it is the low word. -/
theorem test_funnel :
    after (.fsh 1#5 2#5 3#5 4#5 none) (regs [(2#5, 1#64), (3#5, 0x8000000000000000#64), (4#5, 1#64)]) = some 3#64 ∧
    after (.fsh 1#5 2#5 3#5 4#5 none) (regs [(2#5, 1#64), (3#5, 5#64), (4#5, 64#64)]) = some 5#64 := by decide

/-- Chapter 3, "worked case": in BF16 1 + 2^-8 is a tie, to even 1.0 and upwards 0x3F81. -/
theorem test_bf16_sum :
    after (.fadd 1#5 3#5 4#5 0#3 1#1 none) (regs [(3#5, 0x3F80#64), (4#5, 0x3B80#64)]) = some 0x3F80#64 ∧
    after (.fadd 1#5 3#5 4#5 2#3 1#1 none) (regs [(3#5, 0x3F80#64), (4#5, 0x3B80#64)]) = some 0x3F81#64 := by decide

/-- R11: a write to s0 is discarded. -/
theorem test_zero_register :
    (match exec (.addi 0#5 2#5 5#14 none) State.reset with
     | .next t => decide (t.reg 0#11 0#5 = 0#64)
     | _ => false) = true := by decide

/-- R87, R390: `sys 5` saves the next slot, its cause 0x20 and its immediate, and goes to `xvec` at supervisor level. -/
theorem test_sys :
    (match exec (.sys 5#14 none) { (inSeat .seated [(1#4, 0x8B000005#32)] 1 .none).modCore 0#11 (fun c =>
        { c with ctl := { c.ctl with cst := 0x2000#64, xvec := 0x40#51 }, front := { c.front with next := 2 } }) with agenda := [] } with
     | .next t => decide ((t.core 0#11).ctl.xcause = 0x20#64 ∧ (t.core 0#11).ctl.xaddr = 5#64 ∧
         (t.core 0#11).ctl.xpc = 9#54 ∧ (t.core 0#11).ctl.cst = 0x4800#64 ∧ (t.core 0#11).front.pc = 0x40#51 ∧
         (t.core 0#11).seat.st = .folded)
     | _ => false) = true := by decide

/-- An opcode-table word placed at reset is decoded and runs as the first step. -/
theorem test_first_step :
    decodeTableWord 32 0x30213FFF = some (.addi 4#5 4#5 0x3FFF#14 none) ∧
    (match step (State.reset.withFetchWord 32 0x30213FFF) with
     | .next t => decide (t.reg 0#11 4#5 = BitVec.allOnes 64)
     | _ => false) = true := by decide

/-! ## Witnesses: states and operands that meet the statements' hypotheses -/

/-- What the core, its tokens and its queues hold lets an instruction go, or the next item be taken. -/
theorem canGo {s : State} {t : Option Tok} (h : (s.core s.exe).front.done = false ∧ (s.core s.exe).front.started = false ∧
    (s.core s.exe).tok.ready t = true ∧ (s.core s.exe).tok.gangFault t = none ∧ ((s.core s.exe).tok.pop t).room t = true) :
    s.goes t := h
theorem engineCanGo {s : State} {e : Engine} {t : Option Tok} (h : (s.core s.exe).queue e = [] ∧
    (s.core s.exe).tok.ready t = true ∧ (s.core s.exe).tok.gangFault t = none ∧ ((s.core s.exe).tok.pop t).room t = true ∧
    (∀ l ∈ s.late, l.core ≠ s.exe) ∧ (s.core s.exe).mtx.before = [] ∧ (s.core s.exe).midMul = false ∧
    (s.table (tableOf s.exe)).stop = false ∧ (e = .d → s.anySent s.exe = false)) : s.engineGoes e t := h
theorem onward {s : State} {k : CoreId} (h : (s.core k).front.run = true ∧ (s.core k).front.pfx = none ∧
    (s.table (tableOf k)).stop = false ∧ (s.core k).midway = false ∧ (s.core k).marked = false ∧ takeIntr k s = none) :
    s.goesOn k := h

/-- `goes` without and with a token word whose token is there. -/
theorem witness_goes : State.reset.goes none ∧
    (core0 (fun c => { c with tok := { counts := [(5#5, 1#4)] } })).goes (some ⟨1#5, 5#5, 0#5, 0#5, false, false⟩) :=
  ⟨canGo (by decide), canGo (by decide)⟩

/-- `engineGoes` likewise. -/
theorem witness_engineGoes : State.reset.engineGoes .v none ∧
    (core0 (fun c => { c with tok := { counts := [(1#5, 1#4)] } })).engineGoes .v (some ⟨5#5, 1#5, 0#5, 0#5, false, false⟩) :=
  ⟨engineCanGo (by decide), engineCanGo (by decide)⟩

theorem witness_IntegerResults : (regs [(1#5, 5#64)]).goes none := canGo (by decide)

theorem witness_DivisionResults :
    (regs [(1#5, 7#64)]).goes none ∧ (regs [(1#5, 7#64)]).val 2#5 = 0#64 ∧ (regs [(1#5, 7#64)]).val 1#5 ≠ 0#64 ∧
    (regs [(1#5, 0x8000000000000000#64), (2#5, BitVec.allOnes 64)]).val 1#5 = 0x8000000000000000#64 ∧
    (regs [(1#5, 0x8000000000000000#64), (2#5, BitVec.allOnes 64)]).val 2#5 = 0xFFFFFFFFFFFFFFFF#64 ∧
    ¬((regs [(1#5, 0x8000000000000000#64), (2#5, 1#64)]).val 1#5 = 0x8000000000000000#64 ∧
      (regs [(1#5, 0x8000000000000000#64), (2#5, 1#64)]).val 2#5 = 0xFFFFFFFFFFFFFFFF#64) :=
  ⟨canGo (by decide), by decide⟩

theorem witness_ShiftResults :
    (regs [(1#5, 64#64), (2#5, 65#64), (3#5, 63#64)]).goes none ∧
    (((regs [(1#5, 64#64), (2#5, 65#64), (3#5, 63#64)]).val 1#5).extractLsb' 0 6).toNat = 0 ∧
    (((regs [(1#5, 64#64), (2#5, 65#64), (3#5, 63#64)]).val 1#5).extractLsb' 0 7).toNat = 64 ∧
    (((regs [(1#5, 64#64), (2#5, 65#64), (3#5, 63#64)]).val 2#5).extractLsb' 0 7).toNat = 65 ∧
    ((regs [(1#5, 64#64), (2#5, 65#64), (3#5, 63#64)]).val 3#5).getLsbD 6 = false ∧
    (((regs [(1#5, 64#64), (2#5, 65#64), (3#5, 63#64)]).val 4#5).extractLsb' 0 7).toNat = 0 :=
  ⟨canGo (by decide), by decide⟩

theorem witness_ScalarValues :
    (regs [(1#5, 0x81#64)]).goes none ∧ ((regs [(1#5, 0x100#64)]).val 1#5).toNat % 2 ^ 8 = 0 ∧
    (let x := ((regs [(1#5, 0x81#64)]).val 1#5).toNat % 2 ^ 8
     7 < 8 ∧ x.testBit 7 = true ∧ (∀ j, 7 < j → j < 8 → x.testBit j = false) ∧ x.testBit 0 = true ∧
       (∀ j, j < 0 → x.testBit j = false)) ∧
    (63#14).toNat < 64 :=
  ⟨canGo (by decide), by decide, ⟨by decide, by decide, fun _ _ _ => by omega, by decide, fun _ _ => by omega⟩, by decide⟩

theorem witness_FloatArithmetic : (regs [(1#5, 0x3F800000#64)]).goes none := canGo (by decide)

theorem witness_FloatComparison :
    (regs [(1#5, 0x7FC00000#64), (2#5, 0xFF800000#64)]).goes none ∧
    (fpRead 0#1 ((regs [(1#5, 0x7FC00000#64), (2#5, 0xFF800000#64)]).val 1#5)).isNan = true ∧
    (fpRead 0#1 ((regs [(1#5, 0x7FC00000#64), (2#5, 0xFF800000#64)]).val 3#5)).isNan = false ∧
    fpRead 0#1 ((regs [(1#5, 0x7FC00000#64), (2#5, 0xFF800000#64)]).val 2#5) = .inf true ∧
    ((fpRead 0#1 0x3FC00000#64).toIntegral .rne = some (2, true)) ∧
    ((fpRead 0#1 0x4F000000#64).toIntegral .rne = some (2 ^ 31, false)) ∧
    ((fpRead 0#1 0xBF800000#64).toIntegral .rne = some (-1, false)) :=
  ⟨canGo (by decide), by decide⟩

theorem witness_ControlTransfers :
    (regs [(1#5, 0x7FFFFFFFFFFFF#64), (2#5, 0x8000000000000#64)]).goes none ∧
    ((regs [(1#5, 0x7FFFFFFFFFFFF#64), (2#5, 0x8000000000000#64)]).val 1#5).toNat < 2 ^ 51 ∧
    2 ^ 51 ≤ ((regs [(1#5, 0x7FFFFFFFFFFFF#64), (2#5, 0x8000000000000#64)]).val 2#5).toNat :=
  ⟨canGo (by decide), by decide⟩

/-- An access to the first register of die 0, at task level. -/
theorem witness_SupervisorOnly :
    (task [(1#5, 0x1000#64), (2#5, 0xF000000000000#64)]).goes none ∧
    ((task [(1#5, 0x1000#64), (2#5, 0xF000000000000#64)]).core 0#11).ctl.cst.getLsbD 11 = false ∧
    ((task [(1#5, 0x1000#64), (2#5, 0xF000000000000#64)]).val 1#5).extractLsb' 12 4 ≠ (0#64).extractLsb' 12 4 ∧
    ((task [(1#5, 0x1000#64), (2#5, 0xF000000000000#64)]).val 2#5 + (0#14).signExtend 64).toNat % 8 = 0 ∧
    (task []).placeOf 0#11 0#16 false false .read 0xF000000000000 = .ok (.phys 0xF000000000000 2#3) ∧
    (task []).placeOf 0#11 0#16 false false .write 0xF000000000000 = .ok (.phys 0xF000000000000 2#3) ∧
    (task []).targetOf 0#11 (.phys 0xF000000000000 2#3) = .die 0#3 0 ∧
    (task []).targetOf 0#11 (.phys 0xFFFFFFFFF0000 2#3) = .config 0 :=
  ⟨canGo (by decide), by decide⟩

theorem witness_SystemRegisters :
    (regs [(1#5, 0x14#64), (2#5, 0x10#64)]).goes none ∧ (task [(1#5, 0x14#64)]).goes none ∧
    ((regs []).core 0#11).ctl.cst.getLsbD 11 = true ∧ (0#64).extractLsb' 12 4 = ((task []).core 0#11).ctl.cst.extractLsb' 12 4 ∧
    (0x14#64).extractLsb' 16 5 = 0#5 ∧ 13 < (14#8).toNat ∧ 0x88#8 ∈ ([0x88#8, 0x89#8] : List (BitVec 8)) ∧
    bundleSlot (bundleOf [(1#4, 0x88#8 ++ 1#5 ++ 14#8 ++ 0#11)]) 1 = (0x88#8 ++ 1#5 ++ 14#8 ++ 0#11 : BitVec 32) ∧ 5 ≤ ((0x14#64).extractLsb' 2 3).toNat ∧
    ((0x10#64).extractLsb' 2 3).toNat < 5 ∧ (13#8).toNat ≤ 13 ∧
    (12#8 : BitVec 8) ∉ ([1#8, 2#8, 3#8, 4#8, 5#8, 13#8] : List (BitVec 8)) ∧ (12#8).toNat ≤ 13 :=
  ⟨canGo (by decide), canGo (by decide), by decide⟩

/-- Both clauses: a seated and a folded core that trap, a core at depth 255 and one at its handler's first slot. -/
theorem witness_TrapEntry :
    (∀ st ∈ [SeatState.seated, SeatState.folded], ((inSeat st [] 1 .none).core 0#11).seat.depth ≠ 255#8 ∧
      ((inSeat st [] 1 .none).core 0#11).front.vec = false ∧ ((inSeat st [] 1 .none).core 0#11).seat.st = st) ∧
    ((core0 (fun c => { c with seat := { st := .folded, depth := 255#8 } })).core 0#11).seat.depth = 255#8 ∧
    ((core0 (fun c => { c with front := { c.front with vec := true } })).core 0#11).front.vec = true ∧ 7 < 8 := by decide

/-- The two clauses about V: an entry that has finished behind a full POST queue, and one that has not. -/
theorem witness_TrapEntry_queue :
    let q : QEntry := { ins := .vNop (some ⟨1#5, 0#5, 0#5, 0#5, false, false⟩), slots := 2, finished := true }
    (∀ x ∈ [{ q with finished := false }], x.finished = false ∨ x.flev ≠ 0#8) ∧
    (∃ x ∈ [q], ¬(x.finished = false ∨ x.flev ≠ 0#8)) := by decide

theorem witness_SoftwareTraps :
    (inSeat .seated [(1#4, 0x8B000005#32)] 1 .none).goes none ∧
    ((inSeat .seated [(1#4, 0x8B000005#32)] 1 .none).core 0#11).front.bundle = some (bundleOf [(1#4, 0x8B000005#32)]) ∧
    decodeBundle (bundleOf [(1#4, 0x8B000005#32)]) = .ok [⟨1, 1, .c, .sys 5#14 none⟩] ∧
    ((inSeat .seated [(1#4, 0x8B000005#32)] 1 .none).core 0#11).front.pend = .none ∧
    ((inSeat .seated [(1#4, 0x8B000005#32)] 1 .none).core 0#11).front.pfx = none :=
  ⟨canGo (by decide), by decide⟩

/-- With no core at a join the seats have nothing to do at once. -/
theorem settled : ∀ p ∈ [Transfer.none, .goto 5#51 1#4 true, .fold, .halt, .eret], ∀ st ∈ [SeatState.folded, .seated],
    (inSeat st addiWord 2 p).settleSeats = inSeat st addiWord 2 p ∧
    (inSeat st addiWord 1 p).settleSeats = inSeat st addiWord 1 p := by decide

/-- A table that has nothing open has nothing to do at once. -/
theorem settled_table {s : State} {tb : TableId} (h : s.tables.map (fun e => e.1) = [tb]) (hq : s.seatsOpen tb = false) :
    s.settleSeats = s := by simp [State.settleSeats, h, hq]

/-- Core 0 behind the last instruction of its bundle. -/
theorem atEnd (st : SeatState) (p : Transfer) :
    State.standsAtEnd { inSeat st addiWord 2 p with agenda := [] } 0#11 := by
  exact ⟨onward ⟨rfl, rfl, rfl, rfl, rfl, rfl⟩, bundleOf addiWord, [⟨1, 1, .c, .addi 4#5 4#5 0x3FFF#14 none⟩], rfl, by decide, rfl⟩

theorem witness_EretReturns :
    State.reset.goes none ∧ ((State.reset.core 0#11).ctl.cst.getLsbD 11 = true ∧
      ((State.reset.core 0#11).ctl.xcause.extractLsb' 16 2).toNat = 0 ∧
      ((0x20100#64).extractLsb' 16 2).toNat ≠ 3 ∧ ((0x20100#64).extractLsb' 8 3).toNat = 1 ∧
      ((0x30000#64).extractLsb' 16 2).toNat = 3 ∧ ((0x10700#64).extractLsb' 8 3).toNat = 7) ∧
    (inSeat .folded addiWord 2 .eret).settleSeats = inSeat .folded addiWord 2 .eret ∧
    (inSeat .folded addiWord 2 .eret).agenda = [.control 0#11] ∧
    State.standsAtEnd { inSeat .folded addiWord 2 .eret with agenda := [] } 0#11 ∧
    (((inSeat .folded addiWord 2 .eret).core 0#11).front.pend = .eret ∧
      ((inSeat .folded addiWord 2 .eret).core 0#11).seat.st = .folded) ∧
    (∀ e : Engine, ((inSeat .folded addiWord 2 .eret).core 0#11).queue e = []) :=
  ⟨canGo (by decide), by decide, (settled _ (by decide) _ (by decide)).1, rfl, atEnd _ _, by decide, fun e => by cases e <;> rfl⟩

/-- Core 0 at the end of a handler's bundle with `eret` noted, a vector instruction in its queue; DISP 2. -/
def returning (q : QEntry) : State := (inSeat .folded addiWord 2 .eret).modCore 0#11 (fun c =>
  { c with vq := [q], seat := { c.seat with depth := 1#8 }, ctl := { c.ctl with xcause := 0x20100#64 } })

/-- Its clauses about the queues: an entry that is not frozen, and one that is, faulted, with and without room to post. -/
theorem witness_EretReturns_queues :
    let q : QEntry := { ins := .vNop (some ⟨1#5, 0#5, 0#5, 0#5, false, false⟩), slots := 2, flev := 1#8, started := true
                        faulted := some { code := 0x01#8 } }
    (∀ x ∈ [q, { q with flev := 0#8, faulted := none, started := false }], (returning x).settleSeats = returning x ∧
      State.standsAtEnd { returning x with agenda := [] } 0#11) ∧
    (let c := (returning q).core 0#11
     c.front.pend = .eret ∧ c.seat.st = .folded ∧ c.queue .v = [q] ∧ (∀ e ∈ [Engine.m, .d, .f, .c], c.queue e = []) ∧ q.fault = none ∧
       c.seat.depth ≠ 0#8 ∧ q.flev = c.seat.depth ∧ q.faulted.isSome = true ∧ c.ctl.xcause.extractLsb' 8 3 = Engine.v.num ∧
       (c.ctl.xcause.extractLsb' 16 2).toNat = 2 ∧ c.tok.room q.ins.tok? = true ∧
       (Toks.room { counts := [(1#5, 15#4)] } q.ins.tok?) = false) ∧
    (∃ x ∈ ((returning { q with flev := 0#8 }).core 0#11).queue .v, x.flev = 0#8) := by
  refine ⟨fun x hx => ⟨?_, onward ?_, bundleOf addiWord, [⟨1, 1, .c, .addi 4#5 4#5 0x3FFF#14 none⟩], rfl, ?_, rfl⟩, ?_, ?_⟩
  · revert x; decide +kernel
  · revert x; decide +kernel
  · revert x; decide +kernel
  all_goals decide +kernel

/-- Its clauses about what the trap had frozen of the control unit: at the resume slot, behind it, and nowhere. -/
theorem witness_EretReturns_mark :
    let e : CEntry := { pc := 0#51, slot := 2, started := true, done := false, flev := 0#8, pend := .goto 9#51 1#4 true, pendAt := 1, at_ := 3 }
    let mark (l : List CEntry) : Option CEntry := l.find? (fun e => decide (e.flev = 0#8 ∧ e.pc = (2#54).extractLsb' 3 51))
    mark [e] = some e ∧ e.slot = ((2#54).extractLsb' 0 3).toNat ∧ ({ e with slot := 1 } : CEntry).slot ≠ ((2#54).extractLsb' 0 3).toNat ∧
    mark [{ e with flev := 1#8 }] = none := by decide

theorem witness_ScalarFrame : scalarDest (.add 1#5 2#5 3#5 none) = some (1#5, false) ∧
    scalarDest (.fadd 1#5 2#5 3#5 0#3 0#1 none) = some (1#5, true) ∧ (regs [(2#5, 5#64)]).goes (Instr.add 1#5 2#5 3#5 none).tok? :=
  ⟨rfl, rfl, rfl, rfl, rfl, rfl, rfl⟩

theorem witness_RoundTrip :
    (Instr.add 1#5 2#5 3#5 none).engine? = some .c ∧ (Instr.add 1#5 2#5 3#5 none).wf = true ∧
    (Instr.add 1#5 2#5 3#5 none).isGang = false ∧ 7#4 ≠ 0#4 ∧ (Instr.mMma 0#4 0#4 0#6 0#6 0#3 none).wf = true ∧
    (Instr.mMma 0#4 0#4 0#6 0#6 0#3 none).isGangable = true := by decide

theorem witness_DecodedBundles : ∃ items, decodeBundle (bundleOf addiWord) = .ok items ∧ items ≠ [] :=
  ⟨_, rfl, by decide⟩

theorem witness_ShiftImmediates : (63#14).toNat ≤ 63 ∧ 63 < (64#14).toNat ∧
    bundleSlot (bundleOf [(1#4, 0x34#8 ++ 1#5 ++ 2#5 ++ 64#14)]) 1 = (0x34#8 ++ 1#5 ++ 2#5 ++ 64#14 : BitVec 32) := by decide

/-- Core 0 at the first instruction of its bundle. -/
theorem atFirst (a : List Turn) :
    State.standsAt { inSeat .folded addiWord 1 .none with agenda := a } 0#11 ⟨1, 1, .c, .addi 4#5 4#5 0x3FFF#14 none⟩ :=
  ⟨onward ⟨rfl, rfl, rfl, rfl, rfl, rfl⟩, rfl, bundleOf addiWord, [⟨1, 1, .c, .addi 4#5 4#5 0x3FFF#14 none⟩], rfl, by decide, rfl⟩

theorem witness_StepRunsDecoded :
    ((inSeat .folded addiWord 1 .none).settleSeats = inSeat .folded addiWord 1 .none ∧
      (inSeat .folded addiWord 1 .none).agenda = [.control 0#11] ∧
      State.standsAt { inSeat .folded addiWord 1 .none with agenda := [] } 0#11 ⟨1, 1, .c, .addi 4#5 4#5 0x3FFF#14 none⟩) ∧
    ({ inSeat .folded addiWord 1 .none with agenda := [] } : State).background 0#11 = none ∧
    (Instr.nodePlace).engine? = none :=
  ⟨⟨(settled _ (by decide) _ (by decide)).2, rfl, atFirst []⟩, by decide, rfl⟩

/-- A core that fetches its bundle in the same step. -/
theorem witness_StepRunsDecoded_fetch :
    let u := State.reset.withFetchWord 32 0x30213FFF
    ({ u with agenda := [.control 0#11] } : State).settleSeats = { u with agenda := [.control 0#11] } ∧
    (u.core 0#11).front.run = true ∧ (u.core 0#11).front.pfx = none ∧ (u.table (tableOf 0#11)).stop = false ∧
    (u.core 0#11).runningM = none ∧ (u.core 0#11).pendingFault = none ∧ takeIntr 0#11 u = none ∧
    (u.core 0#11).front.bundle = none ∧ ((takeBundle 0#11 u).core 0#11).front.bundle = some (wordBundle 0x30213FFF) ∧
    decodeBundle (wordBundle 0x30213FFF) = .ok [⟨1, 1, .c, .addi 4#5 4#5 0x3FFF#14 none⟩] ∧
    ((takeBundle 0#11 u).core 0#11).front.slot ≤ 1 ∧
    ((takeBundle 0#11 u).core 0#11).front.controlRoom ⟨1, 1, .c, .addi 4#5 4#5 0x3FFF#14 none⟩ = true := by decide

theorem witness_IllegalBundles :
    let s := inSeat .folded [(6#4, 0#32)] 1 .none
    s.settleSeats = s ∧ s.agenda = [.control 0#11] ∧ State.goesOn { s with agenda := [] } 0#11 ∧
    (s.core 0#11).front.bundle = some (bundleOf [(6#4, 0#32)]) ∧ decodeBundle (bundleOf [(6#4, 0#32)]) = .illenc 1 :=
  ⟨by decide, rfl, onward (by decide), rfl, by decide⟩

/-- A seated core, and what its table knows of the stream: the successor of its bundle, and whether it is the head. -/
def stream (f : Nat) (succ : Option Pc) (p : Transfer) : State :=
  (inSeat .seated addiWord 2 p).modTable 0#7 (fun t => { t with f := f, succ := succ, buf := [(4#51, 0#256)] })

theorem witness_BundleEnds :
    (∀ f p, (stream 0 f p).settleSeats = stream 0 f p) ∧
    (State.standsAtEnd { inSeat .folded addiWord 2 .none with agenda := [] } 0#11 ∧
      (∀ p ∈ [Transfer.none, .goto 5#51 1#4 true, .fold], ((inSeat .folded addiWord 2 p).core 0#11).seat.st = .folded ∧
        (inSeat .folded addiWord 2 p).head (tableOf 0#11) ≠ some 0#11 ∧
        ((inSeat .folded addiWord 2 p).core 0#11).front.pend = p)) ∧
    (State.standsAtEnd { inSeat .seated addiWord 2 .halt with agenda := [] } 0#11 ∧
      ((inSeat .seated addiWord 2 .halt).core 0#11).front.pend = .halt) ∧
    (let s := stream 0 none (.goto 5#51 1#4 true)
     (s.core 0#11).seat.st = .seated ∧ s.head (tableOf 0#11) = some 0#11 ∧ (s.core 0#11).seat.n = (s.table (tableOf 0#11)).f ∧
       (s.table (tableOf 0#11)).succ = none) ∧
    (let s := stream 0 (some 5#51) (.goto 6#51 1#4 true)
     (s.core 0#11).front.pend = .goto 6#51 1#4 true ∧ (s.table (tableOf 0#11)).succ ≠ none ∧
       (s.table (tableOf 0#11)).successor (s.core 0#11).seat.n = some 5#51 ∧ 5#51 ≠ 6#51) ∧
    (let s := stream 0 (some 5#51) (.goto 5#51 1#4 false)
     (s.core 0#11).front.pend = .goto 5#51 1#4 false ∧ (s.table (tableOf 0#11)).successor (s.core 0#11).seat.n = some 5#51) ∧
    (let s := (stream 0 none (.goto 5#51 1#4 true)).modCore 0#11 (fun c => { c with seat := { c.seat with n := 1 } })
     ¬(s.head (tableOf 0#11) = some 0#11 ∧ (s.core 0#11).seat.n = (s.table (tableOf 0#11)).f ∧
       (s.table (tableOf 0#11)).succ = none) ∧ (s.table (tableOf 0#11)).successor (s.core 0#11).seat.n = none) :=
  ⟨fun _ _ => settled_table (tb := 0#7) rfl rfl, ⟨atEnd _ _, by decide⟩, ⟨atEnd _ _, rfl⟩, by decide⟩

theorem witness_ResetValues : State.reset.CoreReset 0#11 → (State.reset.core 0#11).front.pc = 0#51 := fun h => h.pc

theorem witness_MemOkStep : State.reset.memOk = true ∧ isNext (step State.reset) = true := by decide

/-- Core 0 holds tokens of the queues. -/
def toks (q : List (BitVec 5 × BitVec 4)) : State := core0 (fun c => { c with tok := { counts := q } })

theorem witness_TokensMove :
    (let i : Instr := .nop (some ⟨1#5, 5#5, 0#5, 0#5, false, false⟩)
     i.engine? = some .c ∧ (State.reset.core 0#11).front.done = false ∧ (State.reset.core 0#11).front.started = false ∧
       (State.reset.core 0#11).tok.ready i.tok? = false) ∧
    (let t : Tok := ⟨1#5, 5#5, 5#5, 0#5, false, false⟩
     let k : Toks := { counts := [(5#5, 2#4)] }
     k.ready (some t) = true ∧ gangQueue? 5#5 = none ∧ 5#5 ≠ 0#5 ∧ (k.pop (some t)).room (some t) = true) ∧
    (let t : Option Tok := some ⟨1#5, 5#5, 0#5, 0#5, false, false⟩
     let c := (toks [(5#5, 1#4), (1#5, 15#4)]).core 0#11
     c.front.done = false ∧ c.front.started = false ∧ c.tok.ready t = true ∧ c.tok.gangFault t = none ∧
       (c.tok.pop t).room t = false) ∧
    (let c := (core0 (fun c => { c with front := { c.front with done := true } })).core 0#11
     (Instr.nop (some ⟨1#5, 5#5, 0#5, 0#5, false, false⟩)).isTrapSys = false ∧ c.front.done = true ∧
       c.tok.room (some ⟨1#5, 5#5, 0#5, 0#5, false, false⟩) = true) ∧
    State.reset.goes none ∧ (∀ e ∈ [Engine.v, .m, .d, .f], State.reset.engineGoes e none) := by
  refine ⟨?_, ?_, ?_, ?_, canGo (by decide), fun e h => engineCanGo ?_⟩
  case refine_5 => revert e; decide
  all_goals decide

/-- Core 0 in a seat with join entries; core 1 seated or not. -/
def joins (st : SeatState) (js : List JoinEntry) (other : SeatState) : State :=
  (core0 (fun c => { c with seat := { st := st, stack := js }, front := front addiWord 1 .none })).modCore 1#11
    (fun c => { c with seat := { st := other } })

theorem witness_FoldAndSeat :
    (joins .folded [.id 3#4] .out).goes none ∧
    (let s := joins .folded [.id 3#4] .out
     (s.core 0#11).seat.st = .folded ∧ ¬((s.core 0#11).seat.stack.getLast? = some (.id 4#4) ∨
       (s.core 0#11).seat.stack.getLast? = some .any)) ∧
    (let s := joins .folded [.any] .seated
     (s.core 0#11).seat.stack.getLast? = some .any ∧ s.seated (tableOf 0#11) ≠ []) ∧
    (let s := (joins .seated [.id 4#4] .out).modTable 0#7 (fun t => { t with f := 1, buf := [(4#51, 0#256), (3#51, 0#256)] })
     (s.core 0#11).seat.st = .seated ∧ ((s.table (tableOf 0#11)).successor (s.core 0#11).seat.n).isSome = true) ∧
    (let s := joins .seated [.id 4#4] .waiting
     (s.core 0#11).seat.st = .seated ∧ s.head (tableOf 0#11) = some 0#11 ∧ (s.core 0#11).seat.n = (s.table (tableOf 0#11)).f ∧
       (s.table (tableOf 0#11)).succ = none ∧ s.noPending (tableOf 0#11) 4#4 = true ∧
       ((s.modCore 0#11 (fun c => { c with front := front [(1#4, 0x59001000#32)] 1 .none })).core 0#11).front.item.map (fun it => it.ins) =
         some (.join 4#4 none) ∧
       (∃ k' ∈ s.waiting (tableOf 0#11), (s.core k').front.pc = s.here ∧
         ((s.modCore k' (fun c => { c with seat := { c.seat with stack := [.any] } })).core k').seat.accepts 4#4 = true)) :=
  ⟨canGo (by decide), by decide, by decide, by decide, by decide +kernel⟩

theorem witness_MisalignedTraps :
    let s := regs [(1#5, 0x100000000000000#64), (2#5, 0xFFFFFFFFFFFFFF#64), (3#5, 0xFFFFFFFFFFFFFC#64)]
    s.goes none ∧ 2 ^ 56 ≤ (s.val 1#5).toNat ∧ (s.val 2#5).toNat < 2 ^ 56 ∧ (s.val 2#5).toNat % 2 ≠ 0 ∧
    (s.val 2#5).toNat % 4 ≠ 0 ∧ (s.val 3#5).toNat < 2 ^ 56 ∧ (s.val 3#5).toNat % 8 ≠ 0 ∧ (s.val 2#5).toNat % 8 ≠ 0 :=
  ⟨canGo (by decide), by decide⟩

/-- Every stack of both tiers trained, and the dies' bits set. -/
def tiers (s : State) : State :=
  { s with
    hbm := (List.range 16).map (fun n => (BitVec.ofNat 4 n, { trained := true }))
    dies := (List.range 8).map (fun d => (BitVec.ofNat 3 d, { dready := 0xFFFFFF#24 })) }

theorem witness_tiers : (tiers State.reset).tierUsable false = true ∧ (tiers State.reset).tierUsable true = true ∧
    (tiers State.reset).extBlocked false 0 8 2#3 true = false ∧
    (∀ h ∈ unitsOf 0 8 2#3, ((tiers State.reset).stack (tierStack false h.s)).lost h.pc h.r = false) := by decide

/-- The tables of address space 0 at the start of the near tier: one leaf page of 4 KiB at virtual address 0, its physical
address the same tier's first; die 0's row `0#3` goes by them. -/
def paged (s : State) : State :=
  let pte (a : Nat) (w : Nat) (s : State) : State := s.extWrite false a 2#3 (natToBytes 8 w)
  ((pte 0 0x1000000002001 (pte 0x1000 0x100000000001F (pte 0x2000 0x1000000003001 (pte 0x3000 0x1000000004001
    (pte 0x4000 0x1000000005001 (pte 0x5000 0x1000000001001 (tiers s))))))).modDie 0#3 (fun x =>
      { x with asdt := 0x1000000000000#64 })).freshSpaces 0#3 true

/-- Core 0 translates, and every stack is in self-refresh. -/
def asleep : State :=
  let s := paged (core0 (fun c => { c with ctl := { c.ctl with cst := 0x8800#64 } }))
  { s with hbm := s.hbm.map (fun e => (e.1, { e.2 with selfRefresh := true })) }

/-- The ways a scalar access waits: its translation is held back, its stack is, a packet of the core to one of its bytes
stands before it, or the core has 256 packets outstanding. -/
theorem witness_LoadResults_waits :
    (asleep.core 0#11).front.started = false ∧ (asleep.core 0#11).tok.ready none = true ∧ asleep.placeOf 0#11 0#16 true true .read 0 = .ok .held ∧ asleep.placeOf 0#11 0#16 true true .write 0 = .ok .held ∧
    asleep.extBlocked false 0 8 2#3 false = true ∧ asleep.extBlocked false 0 8 2#3 true = true ∧
    (let s : State := { tiers State.reset with hbm := [(0#4, { queue := [{ pkt := .write 0#11 0 0x1000000000000#52 2#3 [some 1#8] }] })] }
     s.pieceBehind 0#11 (s.pieceAt 0 8 (.phys 0x1000000000000 2#3)) = true ∧
       s.pieceBehind 0#11 (s.pieceAt 0 8 (.phys 0x1000000000008 2#3)) = false) ∧
    256 ≤ ({ State.reset with hbm := [(0#4, { queue := List.replicate 256 { pkt := .read 0#11 0 0x1000000000000#52 2#3 8 } })] } : State).packetsOut 0#11 ∧
    (tiers State.reset).packetsOut 0#11 < 256 ∧ State.reset.hostApart 0 = false ∧
    State.reset.targetOf 0#11 (.phys 0xFFFFFFFFF0000 2#3) = .config 0 ∧ State.reset.host.bad.get none 0 = none :=
  by decide +kernel

/-- A place for each target of a scalar access: tower, tier, host, ROM, die, aperture, nothing. -/
theorem witness_LoadResults :
    let s := tiers (regs [])
    s.goes none ∧ s.nothingAhead ∧ 0xFFFFFFFE000008 % 8 = 0 ∧
    s.placeOf 0#11 0#16 false true .read 0xFFFFFFFE000008 = .ok (.window 8) ∧ s.targetOf 0#11 (.window 8) = .tower 0#11 8 ∧
    ((s.core 0#11).tower.scrub 8 8).2 = (0, 0) ∧ (s.core 0#11).tower.poisoned 0 = false ∧
    ({ (s.core 0#11).tower with poison := [0] } : Tower).poisoned 0 = true ∧
    s.targetOf 0#11 (.phys 0x1000000000000 2#3) = .ext false 0 2#3 ∧ s.extBlocked false 0 8 2#3 false = false ∧
    s.unitPoison false (place 0 2#3) = false ∧
    s.targetOf 0#11 (.phys 0x4000000000000 2#3) = .host 0 ∧ s.host.bad.get none 0 = none ∧
    s.targetOf 0#11 (.phys 0xFFFF8 2#3) = .rom 0xFFFF8 ∧ s.targetOf 0#11 (.phys 0xF000000000008 2#3) = .die 0#3 8 ∧
    ((s.core 0#11).ctl.sup = true) ∧ s.targetOf 0#11 (.phys 0xE000000000000 2#3) = .aperture 0#11 0 ∧
    s.targetOf 0#11 (.phys 0x100000 2#3) = .nothing :=
  ⟨canGo (by decide), (by decide : ∀ e ∈ (tiers (regs [])).early, e.core ≠ 0#11), by decide⟩

/-- A word of the window that was read ahead, for a load without WAIT tokens. -/
theorem witness_LoadResults_ahead :
    let s := regs []
    let p := s.pieceAt 0xFFFFFFFE000008 8 (.window 8)
    let x : Early := { core := 0#11, ps := [p], bytes := List.replicate 8 1#8 }
    let s' : State := { s with early := [x] }
    s'.goes none ∧ s'.early = x :: [] ∧ x.core = s'.exe ∧ s'.placeOf 0#11 0#16 false true .read 0xFFFFFFFE000008 = .ok (.window 8) ∧
    x.ps = [s'.pieceAt 0xFFFFFFFE000008 8 (.window 8)] ∧ s'.inMemory 0#11 [p] = true ∧
    (∀ t ∈ [none, some (⟨0#5, 0#5, 0#5, 0#5, false, false⟩ : Tok)], ∀ k, t = some k → k.waits = []) :=
  ⟨canGo (by decide), by decide, by decide, by decide, by decide, by decide, by
    intro t h k e; subst e; simp only [List.mem_cons, List.not_mem_nil, or_false, reduceCtorEq, false_or, Option.some.injEq] at h
    subst h; decide⟩

/-- A store to the last word of the window. -/
theorem witness_StoreCompletes :
    let s := regs [(1#5, 0xFFFFFFFFFFFFF8#64), (2#5, 5#64)]
    s.goes none ∧ 0x1FFFFF8 < 2 ^ 25 ∧ (s.val 1#5 + (0#14).signExtend 64).toNat = 0xFFFFFFFE000000 + 0x1FFFFF8 ∧ 0x1FFFFF8 % 8 = 0 ∧
    (s.core 0#11).tower.stuck = [] :=
  ⟨canGo (by decide), by decide⟩

theorem witness_StoreResults :
    let s := tiers (regs [(1#5, 5#64)])
    s.goes none ∧ s.placeOf 0#11 0#16 false true .write 0xFFFFFFFFFFFFF8 = .ok (.window 0x1FFFFF8) ∧
    s.targetOf 0#11 (.window 0x1FFFFF8) = .tower 0#11 0x1FFFFF8 ∧ 0x1FFFFF8 + (natToBytes 8 5).length ≤ 2 ^ 25 ∧
    s.placeOf 0#11 0#16 false true .write 0x1000000000000 = .ok (.phys 0x1000000000000 2#3) ∧
    s.extBlocked false 0 8 2#3 true = false ∧ 0 + (natToBytes 8 5).length ≤ tierSize :=
  ⟨canGo (by decide), by decide⟩

theorem witness_stacks_whole : ∀ n, (State.reset.stack n).failed = [] ∧ (State.reset.stack n).bad = [] := fun _ => ⟨rfl, rfl⟩

theorem witness_AtomicResults :
    let s := regs [(1#5, 0xFFFFFFFFFFFFF8#64), (2#5, 3#64)]
    s.goes none ∧ (s.val 1#5).toNat = 0xFFFFFFFE000000 + 0x1FFFFF8 ∧ 0x1FFFFF8 < 2 ^ 25 ∧ 0x1FFFFF8 % 8 = 0 ∧
    ((s.core 0#11).tower.scrub 0x1FFFFF8 8).2 = (0, 0) ∧ (s.core 0#11).tower.poisoned (0x1FFFFF8 / 32 * 32) = false ∧
    (0, (0 + 3) % 2 ^ 64) ∈ [(0, (0 + 3) % 2 ^ 64), (1, 0 &&& 3)] ∧ (10#4 : BitVec 4) = 10#4 ∧
    ((s.core 0#11).tower.setPoison 0x1FFFFE0 true).poisoned (0x1FFFFF8 / 32 * 32) = true ∧
    ∀ e ∈ s.early, e.core ≠ s.exe :=
  ⟨canGo (by decide), by decide⟩

/-- An atomic to a tier, clean and poisoned, and its refused regions. -/
theorem witness_AtomicResults_regions :
    let s := tiers (regs [])
    s.placeOf 0#11 0#16 false true .write 0x1000000000000 = .ok (.phys 0x1000000000000 2#3) ∧
    s.targetOf 0#11 (.phys 0x1000000000000 2#3) = .ext false 0 2#3 ∧ s.extBlocked false 0 8 2#3 true = false ∧
    s.extBlocked false 0 8 2#3 false = false ∧ s.packetsOut 0#11 < 256 ∧
    s.pieceBehind 0#11 (s.pieceAt 0 8 (.phys 0x1000000000000 2#3)) = false ∧ s.unitPoison false (place 0 2#3) = false ∧
    (s.putUnitPoison false (place 0 2#3) true).unitPoison false (place 0 2#3) = true ∧
    (∀ a ∈ [0x4000000000000, 0xFFFF8, 0xFFFFFFFFF0000, 0xE000000000000, 0xF000000000008, 0x100000],
      s.placeOf 0#11 0#16 false true .write a = .ok (.phys a 2#3)) := by decide +kernel

/-- An object of core 0 at the window's start, free or held, with a queue before it. -/
def object (h : Hold) (q : List (CoreId × Bool)) : State :=
  { regs [(1#5, 0xFFFFFFFE000000#64), (2#5, 0x1000#64), (3#5, 64#64)] with
      objects := [(apertureAddr 0#11 0, q)] }.modCore 0#11 (fun c =>
    { c with binds := [(0#4, some { obj := 0xFFFFFFFE000000#56, base := 0x1000#56, len := 64#64, scope := 1#4, hold := h })] })

/-- The pieces of its word. -/
def objectPieces : List Piece := [{ a := 0xFFFFFFFE000000, len := 8, at_ := .window 0 }]

theorem witness_ObjectHolds :
    (∃ u, (object .none []).consume 0#11 objectPieces = .ok (List.replicate 8 0#8) u) ∧
    (∃ u, ((object .none []).setObjQueue (objHome 0#11 objectPieces) [(0#11, true)]).consume 0#11 objectPieces =
      .ok (List.replicate 8 0#8) u) ∧
    (object .none []).goes none ∧
    (∀ al ∈ [0, 8], (object .none []).objCheck 0#11 al 0xFFFFFFFE000000 = .ok objectPieces) ∧
    (let s := object .none []
     (s.val 4#5 = 0#64) ∧ s.val 3#5 ≠ 0#64 ∧ (s.val 2#5).toNat + (s.val 3#5).toNat ≤ 2 ^ 56 ∧
       ((s.core 0#11).bindOf 0xFFFFFFFE000000).isSome = true ∧ ((s.core 0#11).bindOf 0xFFFFFFFE000008) = none ∧
       (s.core 0#11).bindFree = some 1#4 ∧ s.objQueue (objHome 0#11 objectPieces) = [] ∧
       objectPieces.any (s.pieceBlocked 0#11 true) = false) ∧
    bytesToNat (List.replicate 8 0#8) % 2 ^ 16 = 0 ∧ (bytesToNat (List.replicate 8 0#8)).testBit 31 = false ∧
    (bytesToNat [0#8, 0#8, 0#8, 0x80#8, 0#8, 0#8, 0#8, 0#8]).testBit 31 = true ∧
    bytesToNat [0#8, 0#8, 0xFF#8, 0x7F#8, 0#8, 0#8, 0#8, 0#8] / 2 ^ 16 % 2 ^ 15 = 32767 ∧
    (let s := object .none [(1#11, true)]
     s.objQueue (objHome 0#11 objectPieces) ≠ [] ∧
       (s.objQueue (objHome 0#11 objectPieces)).any (fun x => decide (x.1 = 0#11)) = false) ∧
    (∀ h ∈ [Hold.shared, .exclusive], h ≠ .none) :=
  ⟨⟨_, rfl⟩, ⟨_, rfl⟩, canGo (by decide), by decide⟩

/-- What makes an object's instruction trap: its address, an unbound object, a word with a reserved bit, a poisoned word. -/
theorem witness_ObjectHolds_traps :
    (∀ al ∈ [0, 8], ∃ tr, State.reset.objCheck 0#11 al 1 = .error tr) ∧
    State.reset.objCheck 0#11 0 0xFFFFFFFE000000 = .ok objectPieces ∧ (State.reset.core 0#11).bindOf 0xFFFFFFFE000000 = none ∧
    ((object .none []).core 0#11).bindOf 0xFFFFFFFE000000 ≠ none ∧ ((object .shared []).core 0#11).bindOf 0xFFFFFFFE000000 ≠ none ∧
    (∀ h ∈ [Hold.none, .shared],
      (match ((object h []).modCore 0#11 (fun c => c.towerWrite 0 [1#8])).consume 0#11 objectPieces with
       | .ok bs _ => decide (bytesToNat bs % 2 ^ 16 ≠ 0)
       | _ => false) = true ∧
      (match ((object h []).modCore 0#11 (fun c => { c with tower := { c.tower with poison := [0] } })).consume 0#11 objectPieces with
       | .trap _ _ => true
       | _ => false) = true) ∧
    bytesToNat (List.replicate 8 0#8) / 2 ^ 16 % 2 ^ 15 = 0 := by
  refine ⟨?_, ?_, ?_, ?_, ?_, ?_, ?_⟩
  case refine_1 => intro al h; rcases List.mem_cons.mp h with rfl | h
                   · exact ⟨_, rfl⟩
                   · rw [List.mem_singleton.mp h]; exact ⟨_, rfl⟩
  all_goals decide +kernel

/-- What lets an acquirer go and what holds it: its home, its fence; the objects of the window have their home. -/
theorem witness_ObjectHolds_held :
    homeHeld objectPieces = false ∧ homeHeld [{ a := 0, len := 8, at_ := .held }] = true ∧
    (object .none []).fenceWaits 0#11 1#4 = false ∧
    ({ object .none [] with hbm := [(0#4, { queue := [{ pkt := .read 0#11 0 0x1000000000000#52 2#3 8 }] })] } : State).fenceWaits 0#11 1#4 = true ∧
    objectPieces.any ((object .none []).pieceBlocked 0#11 true) = false ∧
    ([{ a := 0, len := 8, at_ := .held }] : List Piece).any ((object .none []).pieceBlocked 0#11 true) = true := by decide

/-- A quad of seated cores, the first of which executes. -/
def quad (arrived : List CoreId) : State :=
  (List.range 4).foldl (fun s n => s.modCore (BitVec.ofNat 11 n) (fun c => { c with
    seat := { st := .seated }
    arrived := if arrived.contains (BitVec.ofNat 11 n) then [(2#3, 0#4)] else [] })) State.reset

theorem witness_FencesAndBarriers :
    State.reset.goes none ∧ State.reset.outstanding 0#11 = false ∧ (∀ n, (State.reset.stack n).selfRefresh = false) ∧
    (asleep.stack 8#4).selfRefresh = true ∧ (8#4).extractLsb' 0 3 = (0#3 : BitVec 3) ∧
    (inSeat .folded [] 1 .none).goes none ∧ ((inSeat .folded [] 1 .none).core 0#11).seat.st = .folded ∧
    (inSeat .seated [] 1 .none).head (tableOf 0#11) = some 0#11 ∧ (quad []).head (tableOf 1#11) ≠ some 1#11 ∧
    (∀ x ∈ (quad []).launch.suspended, x.table ≠ tableOf 0#11) ∧
    ({ State.reset with hbm := [(0#4, { queue := [{ pkt := .read 0#11 0 0x1000000000000#52 2#3 8 }] })] } : State).outstanding 0#11 = true ∧
    (let s := quad [1#11, 2#11, 3#11]
     (s.core 0#11).arrived.contains (2#3, 0#4) = false ∧ (s.core 0#11).seat.st ≠ .out ∧
       (s.core 0#11).released.contains (2#3, 0#4) = false ∧
       ∀ m ∈ quadCores (tableOf 0#11) (quadOf 0#11), m ≠ 0#11 → (s.core m).seat.st = .out ∨ (s.core m).arrived.contains (2#3, 0#4) = true) ∧
    (let s := quad []
     (1#11) ∈ quadCores (tableOf 0#11) (quadOf 0#11) ∧ (s.core 1#11).seat.st ≠ .out ∧
       (s.core 1#11).arrived.contains (2#3, 0#4) = false) := by
  refine ⟨canGo (by decide), by decide, fun _ => rfl, ?_, by decide, canGo (by decide), ?_⟩ <;> decide +kernel

/-- Levels 3, 4, 5 and 7 of a barrier: core 0 seated alone, beside a core that lacks, and one released or arrived before. -/
theorem witness_FencesAndBarriers_levels :
    let s := core0 (fun c => { c with seat := { st := .seated } })
    (∀ sc ∈ [3#4, 4#4, 5#4, 7#4], s.fenceWaits 0#11 sc = false ∧
      (let lvl : BitVec 3 := sc.truncate 3
       let p := s.parties 0#11 lvl
       let z := s.modCore 1#11 (fun c => { c with seat := { st := .seated } })
       0#11 ∈ p.cores ∧ (s.core 0#11).seat.st ≠ .out ∧ (s.core 0#11).arrived.contains (lvl, 0#4) = false ∧
       (s.core 0#11).released.contains (lvl, 0#4) = false ∧ s.isPod 0#11 lvl = false ∧ s.launch.suspended = [] ∧
       1#11 ∈ p.cores ∧ (z.parties 0#11 lvl).here z 1#11 = true ∧ (z.core 1#11).seat.st ≠ .out ∧
       (z.core 1#11).arrived.contains (lvl, 0#4) = false)) ∧
    (∀ m : CoreId, m ≠ 0#11 → (s.core m).seat.st = .out) ∧
    (let z := (quad []).modCore 0#11 (fun c => { c with released := [(2#3, 0#4)] })
     (z.core 0#11).released.contains (2#3, 0#4) = true) ∧
    (let z := quad [0#11]
     (z.core 0#11).released.contains (2#3, 0#4) = false ∧ (z.core 0#11).arrived.contains (2#3, 0#4) = true ∧
       (z.parties 0#11 2#3).full z (2#3, 0#4) = false) := by
  refine ⟨?_, ?_, ?_, ?_⟩ <;> decide +kernel

/-- A ring of two slots of 64 bytes at the window's start, whose slots are as listed. -/
def ring (sl : Bank (BitVec 6) (BitVec 6)) (filled free : Nat) : Ring :=
  { desc := 0x8000000000000000#64 ||| (BitVec.ofNat 64 filled <<< 51) ||| (BitVec.ofNat 64 free <<< 44) ||| (1#64 <<< 26) |||
      (1#64 <<< 20)
    slots := sl }

theorem witness_RingResults :
    (let s := regs [(1#5, 0xFFFFFFFE000000#64), (2#5, 0x400002#64), (3#5, 0xFFFFFFFE000020#64), (4#5, 0x10000003#64),
       (5#5, 0xFFFFFFFFFFFFC0#64)]
     0xFFFFFFFE000000 ≤ (s.val 1#5).toNat ∧ (s.val 1#5).toNat < 2 ^ 56 ∧ ((s.val 1#5).toNat - 0xFFFFFFFE000000) % 64 = 0 ∧
       ((s.val 3#5).toNat - 0xFFFFFFFE000000) % 64 ≠ 0 ∧ (s.val 6#5).toNat < 0xFFFFFFFE000000 ∧
       (s.val 2#5).extractLsb' 7 9 = 0#9 ∧ (s.val 2#5).extractLsb' 29 35 = 0#35 ∧ ((s.val 2#5).extractLsb' 0 7).toNat = 2 ∧
       ((s.val 2#5).extractLsb' 16 13).toNat = 64 ∧ ((s.val 6#5).extractLsb' 0 7).toNat < 1 ∧
       ((s.val 4#5).extractLsb' 16 13).toNat = 4096 ∧ 2 ^ 25 < ((s.val 5#5).toNat - 0xFFFFFFFE000000) + 2 * 64) ∧
    (∀ sl ∈ [[], [(0#6, 0x10#6)], [(0#6, 0x32#6)]], (ring sl 1 1).val = true ∧ (ring sl 1 1).count = 2 ∧ (ring sl 1 1).size = 64) ∧
    (ring [] 0 2).isFull 0 = false ∧ (ring [(0#6, 0x10#6)] 1 1).isFull 0 = true ∧
    (ring [(0#6, 0x30#6)] 0 1).oldestDraining (memberOf 0#11 ++ 0#2) = some 0 ∧ (ring [] 0 2).oldestDraining (memberOf 0#11 ++ 0#2) = none ∧
    (({} : Ring).val = false) ∧ State.reset.goes none :=
  ⟨by decide, by decide, by decide, by decide, by decide, by decide, by decide, canGo (by decide)⟩

theorem witness_TagTable :
    let s := regs [(1#5, 0xFFFFFFFFFFFC07#64), (2#5, 0x8000000#64), (3#5, 0x10000000#64), (4#5, 0x200#64), (5#5, 0x7FF#64),
      (6#5, 0x800#64)]
    s.goes none ∧ (s.val 2#5).extractLsb' 28 36 = 0#36 ∧ ((s.val 2#5).extractLsb' 10 16).toNat % 2 ^ 7 = 0 ∧
    (s.val 3#5).extractLsb' 28 36 ≠ 0#36 ∧ ((s.val 1#5).extractLsb' 9 47).toNat % 2 ^ 7 ≠ 0 ∧
    ((s.val 4#5).extractLsb' 9 47).toNat % 2 ^ 0 = 0 ∧ (s.val 4#5).extractLsb' 3 6 = 0#6 ∧
    (s.val 5#5).extractLsb' 11 53 = 0#53 ∧ (s.val 5#5).getLsbD 10 = true ∧ (s.val 6#5).extractLsb' 11 53 ≠ 0#53 ∧
    (s.val 4#5).toNat < 2 ^ 56 ∧ tagV (tagMake true true 0 0 1) = true ∧ tagSz (tagMake true true 0 0 1) = 0 ∧
    (s.val 4#5).toNat / 512 / 2 ^ 0 = tagBlock (tagMake true true 0 0 1) / 2 ^ 0 ∧ tagV 0#128 = false :=
  ⟨canGo (by decide), by decide⟩

theorem witness_TowerControl :
    linesApart (State.reset.core 0#11).tower ∧
    (let s := regs [(1#5, 0xFFFFFFFFFFFFFF#64), (2#5, 0xFFFFFFFFFFFFC0#64), (3#5, 0x1FFFFFFFFFFFFFF#64)]
     s.goes none ∧ 0x1FFFFFF < 2 ^ 25 ∧ (s.val 1#5).toNat = 0xFFFFFFFE000000 + 0x1FFFFFF ∧
       (s.core 0#11).tower.subPinned 0#5 65535#16 = false ∧
       ({ (s.core 0#11).tower with lines := [(1#5, some { row := 65535#16, keep := false, data := [], poison := [] })] } :
         Tower).subPinned 0#5 65535#16 = true ∧
       (s.val 1#5).toNat < 2 ^ 56 ∧ ¬(s.val 3#5).toNat < 2 ^ 56 ∧ 0x1FFFFC0 % 64 = 0 ∧
       (s.val 2#5).toNat = 0xFFFFFFFE000000 + 0x1FFFFC0 ∧ ((s.core 0#11).tower.scrub 0x1FFFFC0 64).2 = (0, 0) ∧
       (s.core 0#11).tower.firstPoison 0x1FFFFC0 64 = none ∧ (s.core 0#11).ctl.cst.getLsbD 11 = true ∧
       (0, 0, 0, 56, false) ∈ [((0, 0, 0, 56, false) : Nat × Nat × Nat × Nat × Bool)]) ∧
    (0#512).extractLsb' 57 7 = 0#7 ∧ (0x200000000000000#512).extractLsb' 57 7 ≠ 0#7 :=
  ⟨fun k k' l l' h => by simp [Tower.line, Bank.get, State.core, State.reset] at h,
    ⟨canGo (by decide), by decide⟩, by decide +kernel, by decide +kernel⟩

/-- The completion of the row, shape, deferral and poison instructions: the window's last row, a whole range, a clean image. -/
theorem witness_TowerCompletes :
    (let s := regs [(1#5, 0xFFFFFFFFFFFE00#64), (2#5, 512#64), (3#5, 0x7FFFFFFFFFFF#64), (4#5, 0xFFFFFFFFFFFFC0#64)]
     s.goes none ∧ 0x1FFFE00 < 2 ^ 25 ∧ (s.val 1#5).toNat = 0xFFFFFFFE000000 + 0x1FFFE00 ∧
       (s.core 0#11).tower.subPinned 1#5 (BitVec.ofNat 16 (0x1FFFE00 / 512)) = false ∧ 0x1FFFE00 + (s.val 2#5).toNat ≤ 2 ^ 25 ∧
       s.val 2#5 ≠ 0#64 ∧ (13#5).toNat < 14 ∧ (s.val 3#5).toNat < 2 ^ (shField 13).2.2.1 ∧ (shField 13).2.2.2 = true ∧
       (s.val 3#5).toNat < 2 ^ 47 ∧ (s.val 4#5).toNat = 0xFFFFFFFE000000 + 0x1FFFFC0 ∧ 0x1FFFFC0 % 64 = 0 ∧
       ((s.core 0#11).tower.scrub 0x1FFFFC0 64).2 = (0, 0) ∧ (s.core 0#11).tower.firstPoison 0x1FFFFC0 64 = none ∧
       (s.core 0#11).ctl.cst.getLsbD 11 = true ∧ (s.core 0#11).tower.stuck = []) ∧
    shapeOk (BitVec.ofNat 512 (bytesToNat ((State.reset.core 0#11).tower.read 0x1FFFFC0 64))) = true :=
  ⟨⟨canGo (by decide), by decide⟩, by decide +kernel⟩

/-- A shape: base, format, extents minus 1, stride of dimension 1, place of its scales. -/
def shape (base fmt d0 d1 str scb : Nat) : BitVec 512 :=
  BitVec.ofNat 512 (base + (fmt + 2 * 32) * 2 ^ 64 + scb * 2 ^ 128 + (d0 + d1 * 2 ^ 16) * 2 ^ 192 + str * 2 ^ 256)

/-- Core 0 with shapes sh1 and sh2. -/
def shaped (cst : Word) (x y : BitVec 512) (rs : List (BitVec 5 × Word)) : State :=
  core0 (fun c => { c with ctl := { c.ctl with cst := cst, s := rs }, shapes := [(1#4, x), (2#4, y)] })

/-- A vector extension the element format takes, and one it does not (for VectorInteger too). -/
theorem witness_VectorFloat :
    State.reset.engineGoes .v none ∧ accW (State.reset.core 0#11).ctl.acct = 32 ∧
    (([plain.sa, plain.sb].all (partOk 32)) && dposOk 32 plain.nw plain.dpos) = true ∧
    (([0#4].all (partOk 32)) && dposOk 32 1#4 4#3) = false :=
  ⟨engineCanGo (by decide), by decide⟩

theorem witness_VectorInteger : accW (State.reset.core 0#11).ctl.acct = 32 ∧
    accW ((core0 (fun c => { c with ctl := { c.ctl with cst := 0x802#64 } })).core 0#11).ctl.acct ≠ 32 := by decide

theorem witness_VectorMoves :
    let v : VIn := State.reset.vin (.vNop none) vextDefault
    v.n = 32 ∧ v.w = 32 ∧ v.n ≤ (32#6).toNat ∧ (31#6).toNat < v.n ∧ v.active 0#4 0#1 31 = true ∧ v.active 0#4 1#1 31 = false ∧
    (30#6).toNat / 32 ≠ ((30#6).toNat + 2) / 32 ∧ (29#6).toNat / 32 = ((29#6).toNat + 2) / 32 ∧
    (State.reset.vin (.vNop none) { vextDefault with nw := 1#4, dpos := 4#3 }).w = 32 := by decide

theorem witness_Predicates : (State.reset.vin (.vNop none) vextDefault).ok [0#4, 0#4] = true ∧
    (State.reset.vin (.vNop none) { vextDefault with nw := 1#4, dpos := 4#3 }).ok [0#4] = false ∧ 1#4 ≠ 0#4 := by decide

theorem witness_VectorReductions : (State.reset.vin (.vNop none) vextDefault).ok [0#4] = true ∧
    (State.reset.vin (.vNop none) { vextDefault with nw := 1#4, dpos := 4#3 }).ok [0#4] = false ∧
    vextDefault.sfmt.toNat < 2 ∧ vextDefault.sat = false ∧ ¬(ppred 0#3 1#4 = 0#4 ∧ 1#1 = 1#1) ∧ (ppred 0#3 0#4 = 0#4 ∧ 1#1 = 1#1) := by decide

theorem witness_VectorMemory :
    (let s := regs [(1#5, 0xFFFFFFFE000000#64), (2#5, 0xFFFFFFFE000040#64)]
     let v : VIn := s.vin (.vLd 0#6 1#5 0#7 0#4 0#1 none none) vextDefault
     s.engineGoes .v none ∧ (List.range v.n).filter (v.active 0#4 1#1) = [] ∧ (List.range v.n).filter (v.active 0#4 0#1) ≠ [] ∧
       (s.val 2#5).toNat + 128 ≤ 2 ^ 56 ∧ (s.val 2#5).toNat % 128 ≠ 0 ∧ (s.val 1#5).toNat % 128 = 0 ∧
       s.checkRuns 0#11 v.cap .vld 0 [0xFFFFFFFE000000] (runsOf 0xFFFFFFFE000000 (fun j => v.active 0#4 0#1 (j / 4)) 128 0) =
         .ok [{ a := 0xFFFFFFFE000000, len := 128, at_ := .window 0 }] ∧
       s.splitRuns 0#11 v.cap .vst (runsOf 0xFFFFFFFE000000 (fun j => decide (j = 0)) 128 0) =
         .ok [{ a := 0xFFFFFFFE000000, len := 1, at_ := .window 0 }] ∧
       s.checkRuns 0#11 v.cap .vld 4 [0xFFFFFFFE000000] [(0xFFFFFFFE000000, 4)] = .ok [{ a := 0xFFFFFFFE000000, len := 4, at_ := .window 0 }] ∧
       ([2 ^ 56 - 1] : List Nat).find? (fun z => decide (2 ^ 56 ≤ z)) = none ∧ ([2 ^ 56 - 1] : List Nat).find? (fun z => decide (z % 4 ≠ 0)) = some (2 ^ 56 - 1) ∧
       s.checkRuns 0#11 v.cap .vst 0 [0xFFFFFFFE000000] (runsOf 0xFFFFFFFE000000 (fun j => v.active 0#4 0#1 (j / 4)) 128 0) =
         .ok [{ a := 0xFFFFFFFE000000, len := 128, at_ := .window 0 }]) ∧
    (match State.reset.consume 0#11 [{ a := 0xFFFFFFFE000000, len := 128, at_ := .window 0 }] with
     | .ok bs u => decide (bs.length = 128 ∧ (u.core 0#11).vec = (State.reset.core 0#11).vec ∧ (u.core 0#11).mtx = (State.reset.core 0#11).mtx)
     | _ => false) = true ∧
    (match State.reset.deliver 0#11 [{ a := 0xFFFFFFFE000000, len := 128, at_ := .window 0 }] (List.replicate 128 0#8) with
     | .ok _ _ => true
     | _ => false) = true ∧
    runsOf 0 (fun _ => false) 128 0 = [] ∧ runsOf 0 (fun j => decide (j = 0)) 128 0 ≠ [] :=
  ⟨⟨engineCanGo (by decide), by decide +kernel⟩, by decide +kernel⟩

theorem witness_MatrixProducts :
    (let s := shaped 0x800#64 (shape 0xFFFFFFFE000000 1 0 0 16 0) (shape 0xFFFFFFFE000200 1 0 0 16 0) []
     let c := s.core 0#11
     s.engineGoes .m none ∧ c.front.pfx = none ∧
       mulCheck .flt 0 0 true c (c.shapes.get 0#512 1#4) (c.shapes.get 0#512 2#4) = none ∧
       (mulCheck .flt 63 31 true c (c.shapes.get 0#512 1#4) (c.shapes.get 0#512 2#4)) = none ∧
       (mulCheck .int 0 0 true c (c.shapes.get 0#512 1#4) (c.shapes.get 0#512 2#4)).isSome = true ∧
       ∀ x ∈ opSpans c.tower (c.shapes.get 0#512 1#4), (c.tower.scrub x.1 x.2).2 = (0, 0) ∧ c.tower.firstPoison x.1 x.2 = none) :=
  ⟨engineCanGo (by decide), rfl, by decide +kernel, by decide +kernel, by decide +kernel, by decide +kernel⟩

theorem witness_MatrixProducts_int :
    let s := shaped 0x801#64 (shape 0xFFFFFFFE000000 8 0 0 16 0) (shape 0xFFFFFFFE000200 9 0 0 16 0) []
    mulCheck .int 0 0 true (s.core 0#11) (shape 0xFFFFFFFE000000 8 0 0 16 0) (shape 0xFFFFFFFE000200 9 0 0 16 0) = none := by decide +kernel

theorem witness_MatrixProducts_k4 :
    let a := shape 0xFFFFFFFE000000 7 31 0 16 0xFFFFFFFE001000
    let b := shape 0xFFFFFFFE000200 7 31 0 16 0xFFFFFFFE001000
    let s := shaped 0x800#64 a b []
    mulCheck .k4 0 0 true (s.core 0#11) a b = none ∧ mulCheck .scacc 0 0 true (s.core 0#11) a b = none := by decide +kernel

theorem witness_MatrixState :
    State.reset.engineGoes .m none ∧ (katSig (State.reset.core 0#11).mtx.check = katSig []) ∧
    (1#4).getLsbD ((0#11).toNat % 4) = true ∧ (2#4).getLsbD ((0#11).toNat % 4) = false ∧
    queueUsed (State.reset.core 0#11).mq + gangSlots (State.reset.core 0#11).front ≤ 16 ∧
    (let c := (core0 (fun c => { c with mq := List.replicate 8 { ins := .mZero none, slots := 2 }, front := front addiWord 1 .none })).core 0#11
     16 < queueUsed c.mq + gangSlots c.front) ∧
    ((core0 (fun c => { c with front := { c.front with pfx := some (1#4, 0#2) } })).core 0#11).front.pfx = some (1#4, 0#2) ∧
    katSig (State.reset.core 0#11).mtx.check ≠ katSig (State.reset.core 0#11).mtx.check + 1#32 :=
  ⟨engineCanGo (by decide), rfl, by decide, by decide, by decide, by decide, by decide, fun h => by
    have := congrArg (fun x => x - katSig (State.reset.core 0#11).mtx.check) h; simp at this⟩

/-- A destination of FP32 that the checks take, an image of an epilogue program in the window, and their opposites. -/
theorem witness_MatrixDrains :
    (let s := shaped 0x800#64 (shape 0xFFFFFFFE000000 0 0 0 16 0) (shape 0x100000000000003 0 0 0 16 0) [(1#5, 0xFFFFFFFE000200#64)]
     let c := s.core 0#11
     s.engineGoes .m none ∧ drainCheck 63 0 none c (c.shapes.get 0#512 1#4) = none ∧
       drainTy (shFmt (c.shapes.get 0#512 1#4)) = some (.flt .fp32) ∧
       (drainCheck 64 0 none c (c.shapes.get 0#512 1#4)).isSome = true ∧
       drainCheck 0 0 (some (s.val 1#5)) c (c.shapes.get 0#512 1#4) = none ∧
       (drainCheck 0 0 (some 2#64) c (c.shapes.get 0#512 1#4)).isSome = true ∧ opPlace c.tower false (c.shapes.get 0#512 1#4) = none ∧
       (match amaxPlace c.tower (c.shapes.get 0#512 1#4) (.error { code := 0x05#8 }) with | .error _ => true | _ => false) = true ∧ c.tower.stuck = [] ∧
       (s.val 1#5).toNat = 0xFFFFFFFE000000 + 512 ∧ (c.tower.scrub 512 4).2 = (0, 0) ∧ c.tower.poisoned (512 / 32 * 32) = false ∧
       shLn (c.shapes.get 0#512 2#4) = true ∧ shLn (c.shapes.get 0#512 1#4) = false ∧
       shBase (c.shapes.get 0#512 1#4) % 64 = 0 ∧ 0xFFFFFFFE000000 ≤ shBase (c.shapes.get 0#512 1#4) ∧
       shBase (c.shapes.get 0#512 1#4) + 768 ≤ 2 ^ 56 ∧ (c.tower.scrub 0 768).2 = (0, 0) ∧ c.tower.firstPoison 0 768 = none) ∧
    epiOk 0#32 = true ∧ epiOk 0xFFFFFFFF#32 = false ∧ shBase (shape 0xFFFFFFFE000020 0 0 0 16 0) % 64 ≠ 0 :=
  ⟨⟨engineCanGo (by decide), by decide +kernel⟩, by decide +kernel⟩

theorem witness_DrillTransfers :
    let s := regs [(1#5, 0xFFFFFFFE000000#64), (2#5, 0xFFFFFFFE000040#64), (3#5, 64#64), (4#5, 0x100000000#64)]
    let cap := capOf (.dCopy 1#5 2#5 3#5 none) (s.core 0#11)
    s.engineGoes .d none ∧ 2 ^ 32 ≤ (s.val 4#5).toNat ∧ (s.val 3#5).toNat < 2 ^ 32 ∧
    s.reach 0#11 cap .drd 2 0xFFFFFFFE000040 64 = ([{ a := 0xFFFFFFFE000040, len := 64, at_ := .window 64 }], none) ∧
    s.reach 0#11 cap .dwr 2 0xFFFFFFFE000000 64 = ([{ a := 0xFFFFFFFE000000, len := 64, at_ := .window 0 }], none) ∧
    (s.reach 0#11 cap .dwr 2 0xFFFFFFFFFFFFC0 128).2.isSome = true ∧
    (s.reach 0#11 cap .drd 2 0x100000 64) = ([], some { code := 0x04#8, addr := 0x100000#64 }) ∧
    s.pieceBlocked 0#11 true { a := 0xFFFFFFFE000000, len := 64, at_ := .window 0 } = false ∧
    ((s.core 0#11).tower.scrub 64 64).2 = (0, 0) ∧ (0 + 64 ≤ 64) ∧ 0xFFFFFFFE000040 < 0xFFFFFFFE000020 + 64 ∧
    (65 ≤ 65) ∧ 64 < (63#6).toNat + 2 ∧ ¬(65 ≤ 64 ∨ 64 < (0#6).toNat + 64) ∧ (s.val 2#5).toNat % 128 ≠ 0 ∧
    (s.val 1#5).toNat % 128 = 0 :=
  ⟨engineCanGo (by decide), by decide⟩

theorem witness_DrillDeliveries :
    (let s := tiers (regs [(1#5, 0x0001000000000000#64), (2#5, 0x1000000000000#64), (3#5, 256#64), (4#5, 0x100000100#64),
       (5#5, 0x2000000#64), (6#5, 0x0001000001FFFF00#64), (7#5, 512#64), (8#5, 128#64)])
     let s' := s.modCore 0#11 (fun c => { c with ctl := { c.ctl with s := [(1#5, 0x0000000100000000#64), (6#5, 0x0000000101FFFF00#64)] } })
     s.engineGoes .d none ∧ (s.val 3#5).toNat < 2 ^ 32 ∧ ¬(s.val 4#5).toNat < 2 ^ 32 ∧ (s'.val 1#5).toNat / 2 ^ 48 = 0 ∧
       (s'.val 1#5).toNat / 2 ^ 25 % 2 ^ 7 = 0 ∧ (s.val 5#5).toNat / 2 ^ 25 % 2 ^ 7 ≠ 0 ∧
       (s'.val 6#5).toNat % 2 ^ 25 + 256 = 2 ^ 25 ∧ 2 ^ 25 < (s'.val 6#5).toNat % 2 ^ 25 + 512 ∧ (s.val 8#5).toNat % 256 ≠ 0 ∧
       bcastCores 0#11 (s'.val 1#5) = [meshCore 0#3 0 0] ∧
       (∀ c ∈ bcastCores 0#11 (s'.val 1#5), tableOf c ∈ s.plotOf (tableOf 0#11)) ∧
       ¬(∀ c ∈ bcastCores 0#11 0x800000000000#64, tableOf c ∈ s.plotOf (tableOf 0#11)) ∧
       s.reach 0#11 (capOf (.dCopy 1#5 2#5 3#5 none) (s.core 0#11)) .drd 2 0x1000000000000 256 =
         ([{ a := 0x1000000000000, len := 256, at_ := .phys 0x1000000000000 2#3 }], none) ∧
       s.targetOf 0#11 (.phys 0x1000000000000 2#3) = .ext false 0 2#3 ∧
       s.pieceBlocked 0#11 false { a := 0x1000000000000, len := 256, at_ := .phys 0x1000000000000 2#3 } = false ∧
       (s.reach 0#11 (capOf (.dCopy 1#5 2#5 3#5 none) (s.core 0#11)) .drd 2 0x100000 256).2 =
         some { code := 0x04#8, addr := 0x100000#64 }) ∧
    (tsetBok 0 0x8000000#64 = true ∧ bit 0x8000000#64 27 = true ∧ tsetAok 0 0x200#64 = true ∧ tsetAok 7 0x207#64 = false ∧
      tsetBok 0 0x10000000#64 = false) ∧
    (let r := ring [] 0 2
     r.val = true ∧ 64 ≤ r.size ∧ r.size < 65 ∧ r.isEmpty r.head = true ∧ r.filled < 64 ∧ (ring [(0#6, 0x10#6)] 1 1).isEmpty 0 = false) :=
  ⟨⟨engineCanGo (by decide), by decide⟩, by decide⟩

theorem witness_DrillAtomics :
    (let s := regs [(1#5, 0xFFFFFFFE000100#64), (2#5, 0xFFFFFFFFFFFFE0#64), (3#5, 1#64), (4#5, 65537#64), (5#5, 16#64)]
     s.engineGoes .d none ∧ 2 ^ 16 < (s.val 4#5).toNat ∧ (s.val 3#5).toNat = 1 ∧ (s.val 5#5).toNat % 32 ≠ 0 ∧
       (s.val 2#5).toNat % 32 = 0 ∧ 0xFFFFFFFE000000 ≤ (s.val 2#5).toNat ∧ (s.val 2#5).toNat + 32 * 1 ≤ 2 ^ 56 ∧
       2 ^ 56 < (s.val 2#5).toNat + 32 * 2 ∧ ((s.core 0#11).tower.scrub 0x1FFFFE0 32).2 = (0, 0) ∧
       (s.core 0#11).tower.poisoned 0x1FFFFE0 = false ∧
       ((s.val 1#5).toNat + bytesToNat ((s.core 0#11).tower.read 0x1FFFFE0 8)) % 2 ^ 64 = 0xFFFFFFFE000000 + 0x100 ∧
       0x100 % 8 = 0 ∧ ((s.core 0#11).tower.scrub 0x100 8).2 = (0, 0)) ∧
    (match atomLoop 0#11 {} 0#4 0#1 false 1 0 State.reset with
     | .fault _ _ _ => true
     | _ => false) = true ∧
    (match atomLoop 0#11 { x := 0xFFFFFFFE000100#64, y := 0xFFFFFFFE000000#64 } 0#4 0#1 false 1 0 State.reset with
     | .done _ => true
     | _ => false) = true ∧
    (tiers State.reset).check 0#11 0#16 false true .datom 4 0x1000000000000 4 =
      .ok [{ a := 0x1000000000000, len := 4, at_ := .phys 0x1000000000000 2#3 }] ∧
    (let p : Piece := { a := 0x1000000000000, len := 4, at_ := .phys 0x1000000000000 2#3 }
     (tiers State.reset).pieceStalled 0#11 true p = false ∧ (tiers State.reset).pieceFull 0#11 p = false) ∧
    (scopeStacks 0#11 8#4).any (fun n => (asleep.stack n).selfRefresh) = true ∧
    (scopeStacks 0#11 8#4).any (fun n => ((tiers State.reset).stack n).selfRefresh) = false ∧
    (performStacks 0#11 allStacks State.reset).isSome = true ∧ (∀ q ∈ State.reset.hbm, q.2.deltas = [] ∧ q.2.sent = []) ∧
    (let d : Delta := { pc := 0, r := 1, y := 0, bytes := [1#8], poison := [], src := 0#11, tag := 3 }
     let q : Sent := { pkt := .atomic 0#11 3 0x1000000000000#52 2#3 0#4 1#1 5#64 0#64 true, named := 0#56, order := 0 }
     d.reply = true ∧ d.src = 0#11 ∧ (performStacks 0#11 allStacks
       ((tiers State.reset).modStack 0#4 (fun y => { y with selfRefresh := true, sent := [q] }))) = none) :=
  ⟨⟨engineCanGo (by decide), by decide⟩, by decide +kernel⟩

/-- A core whose window holds a header at 0 (block at 0x10000, one position), its page list behind it. -/
def attends : State :=
  tiers (core0 (fun c => { (c.towerWrite 0 (natToBytes 72 (0xFFFFFFFE000040 + 1 * 2 ^ 64 + 32 * 2 ^ 160 + 0x10000 * 2 ^ 512))) with
    ctl := { c.ctl with cst := 0x8800#64, s := [(1#5, 0xFFFFFFFE000000#64), (2#5, 0xFFFFFFFE001000#64)] }
    tlb := [{ asid := 0#16, first := 0x10000, last := 0x1FFFF, pageLast := 0x1FFFF, pa := 0x1000000000000, il := 7#3, t := true, x := true, w := true, range := false }]
    rings := [(0#4, { desc := 0x8000000004200000#64 })] }))

theorem witness_AttentionResults :
    (let h := readHeader (attends.core 0#11).tower 0xFFFFFFFE000000
     h.ok = true ∧ h.pb = 1 ∧ h.dk = 1 ∧ h.ks = 32 ∧ h.vs = 32 ∧ 64 + 4 * h.dv ≤ ((attends.core 0#11).ring h.rid).size ∧
       ((attends.core 0#11).ring h.rid).val = true ∧ (attends.core 0#11).queries.get none 3#6 = none ∧
       blockOk h 0x10000 { pa := 0x1000000000000, il7 := true, pageEnd := 0x1FFFF } = true ∧
       blockOk h 0x10000 { pa := 0x1000000000000, il7 := false, pageEnd := 0x1FFFF } = false) ∧
    (match pageEntry 0#11 (capOf (.dAppend 1#5 2#5 0#5 none) (attends.core 0#11)) (readHeader (attends.core 0#11).tower 0xFFFFFFFE000000) 0 attends with
     | .ok va u =>
       match blockAt 0#11 (capOf (.dAppend 1#5 2#5 0#5 none) (attends.core 0#11)) .dwr va u with
       | .ok b _ => decide (va = 0x10000 ∧ b.pa = 0x1000000000000 ∧ b.il7 = true ∧ b.pageEnd = 0x1FFFF)
       | _ => false
     | _ => false) = true ∧
    (match queryBlocks 0#11 (capOf (.dAppend 1#5 2#5 0#5 none) (attends.core 0#11)) (readHeader (attends.core 0#11).tower 0xFFFFFFFE000000) [0] attends with
     | .ok bs _ => decide (bs.map (fun b => (b.1, b.2.pa, b.2.il7, b.2.pageEnd)) = [(0x10000, 0x1000000000000, true, 0x1FFFF)])
     | _ => false) = true ∧
    (match blockAt 0#11 (capOf (.dAppend 1#5 2#5 0#5 none) (attends.core 0#11)) .dwr 0x8000000000000000 attends with
     | .trap _ _ => true
     | _ => false) = true ∧
    (core0 (fun c => { c with queries := [(3#6, some { rid := 0#4, open_ := 0 })] })).engineGoes .d none :=
  ⟨by decide +kernel, by decide +kernel, by decide +kernel, by decide +kernel, engineCanGo (by decide)⟩

theorem witness_FurrowTransfers :
    (let s := regs [(1#5, 0xFFFFFFFE000000#64), (2#5, 0xFFFFFFFFFFFFFF#64), (3#5, 1#64), (4#5, 0x2000000#64)]
     s.engineGoes .f none ∧ 2 ^ 25 ≤ (s.val 4#5).toNat ∧ (s.val 3#5).toNat < 2 ^ 25 ∧ (s.val 2#5).toNat + 1 ≤ 2 ^ 56 ∧
       meshNeighbour 0#11 0#3 = none ∧ meshNeighbour 0#11 1#3 ≠ none ∧
       s.inPlot 0#11 1#11 = true ∧ s.inPlot 0#11 16#11 = false ∧ 1#2 ≠ memberOf 0#11 ∧ quadMember 0#11 1#2 = 1#11 ∧
       ((s.core 0#11).tower.scrub 0 1).2 = (0, 0) ∧ (s.val 5#5).toNat = 0 ∧ (s.val 5#5).toNat < 0xFFFFFFFE000000) ∧
    (regs []).reach 0#11 {} .head 2 0xE000002000000 1 = ([{ a := 0xE000002000000, len := 1, at_ := .phys 0xE000002000000 2#3 }], none) ∧
    (regs []).targetOf 0#11 (.phys 0xE000002000000 2#3) = .aperture 1#11 0 ∧
    ((regs []).reach 0#11 {} .head 2 0x100000 1).1 = [] ∧ ((regs []).reach 0#11 {} .head 2 0x100000 1).2.isSome = true ∧
    (let r := ring [] 0 2
     let o := ring [(0#6, 0x10#6)] 1 1
     r.val = true ∧ o.val = true ∧ r.isEmpty r.head = true ∧ o.isFull o.tail = true ∧ o.isEmpty o.head = false ∧
       r.isFull r.tail = false ∧ o.free < 64 ∧ o.slotOff o.tail + o.size ≤ 2 ^ 25 ∧ r.slotOff r.head + r.size ≤ 2 ^ 25 ∧
       64 ≤ r.size ∧ ¬65 ≤ r.size) ∧ 16 / 16 ≠ 0 ∧ 64 / 64 ≠ 0 :=
  ⟨⟨engineCanGo (by decide), by decide⟩, by decide⟩

/-! ## Witnesses for the events -/

/-- Core 0 stands at `acq.x s1` (`join 4`, `fence.core`) of its bundle. -/
def standing (w : BitVec 32) (s : State) : State := s.modCore 0#11 (fun c => { c with front := front [(1#4, w)] 1 .none })

/-- A task of graph 1 on table 0, at bundle 0. -/
def aTask : Task :=
  { gid := 1#8, instance_ := 1#32, node := 0#12, rank := 0, plot := [0#7], entry := 0#51, nbnd := 1, patch := [], params := []
    foot := [], cls := 0#2, started := 0, ready := 0 }

theorem witness_SeatEvents :
    (let s := stream 0 (some 5#51) .none
     s.head 0#7 = some 0#11 ∧ (s.table 0#7).succ = some 5#51 ∧ (s.table 0#7).stop = false ∧ (s.table 0#7).f - s.minNext 0#7 < 64 ∧
       (match s.fetch 0#11 5#51 with | .ok _ _ => true | _ => false) = true ∧
       (match s.fetch 0#11 0x8000#51 with | .trap _ _ => true | _ => false) = true) ∧
    (let s := core0 (fun c => { c with front := { run := true }, seat := { st := .folded } })
     (s.table 0#7).stop = false ∧ s.served 0#7 = some 0#11 ∧ (s.core 0#11).midway = false ∧
       ((s.modCore 0#11 (fun c => { c with vq := [{ ins := .vNop none, slots := 1, started := true }] })).core 0#11).midway = true ∧
       (match (s.modTable 0#7 (fun t => { t with port := seatOf 0#11 })).fetch 0#11 0#51 with | .ok _ _ => true | _ => false) = true) ∧
    (let s := core0 (fun c => { c with front := front [(2#4, 0#32)] 1 .none })
     s.itemAt 0#11 = some ⟨1, 1, .v, .vNop none⟩ ∧ (Instr.vNop none).isGang = false ∧ (s.core 0#11).front.pfx = none ∧ (atBoundary 0#11 s).isNone = true ∧ s.faultWaits 0#11 = false ∧ queueUsed ((standAt 0#11 ⟨1, 1, .v, .vNop none⟩ s).core 0#11).vq + 1 ≤ Engine.v.depth) ∧
    (let s := (joins .seated [.id 4#4] .waiting).modTable 0#7 (fun t => { t with join := some (0#51, 4#4) })
     let s := s.modCore 0#11 (fun c => { c with front := { front [(1#4, 0x59001000#32)] 1 .none with started := true } })
     (s.table 0#7).join = some (0#51, 4#4) ∧ s.head 0#7 = some 0#11 ∧ (s.core 0#11).front.joined = true ∧ (s.table 0#7).stop = false ∧
       (s.core 0#11).front.pc = 0#51 ∧ (s.core 0#11).seat.n = (s.table 0#7).f ∧
       (s.table 0#7).succ = none ∧ s.noPending 0#7 4#4 = true ∧
       (s.modCore 2#11 (fun c => { c with seat := { st := .folded, stack := [.id 4#4] } })).noPending 0#7 4#4 = false) ∧
    (let s := standing 0x59001000#32 (joins .waiting [.id 4#4] .out)
     s.vacant 0#7 = true ∧ (s.table 0#7).stop = false ∧ (s.waiting 0#7).head? = some 0#11 ∧
       (s.core 0#11).front.item = some ⟨1, 1, .c, .join 4#4 none⟩) ∧
    (let s := standing 0x72004000#32 (object .none [(0#11, true)])
     s.objQueue (objHome 0#11 objectPieces) = [(0#11, true)] ∧ s.itemAt 0#11 = some ⟨1, 1, .c, .acqX 1#5 none⟩ ∧
       (atBoundary 0#11 s).isNone = true ∧ s.faultWaits 0#11 = false ∧ homeHeld objectPieces = false ∧ s.fenceWaits 0#11 1#4 = false ∧ objectPieces.any (s.pieceBlocked 0#11 true) = false ∧
       ((standAt 0#11 ⟨1, 1, .c, .acqX 1#5 none⟩ s).core 0#11).front.started = false ∧
       ((standAt 0#11 ⟨1, 1, .c, .acqX 1#5 none⟩ s).core 0#11).front.done = false) ∧
    (standing 0x75000000#32 State.reset).itemAt 0#11 = some ⟨1, 1, .c, .fence 0#4 none⟩ ∧
    (let s := quad [0#11, 1#11, 2#11, 3#11]
     (s.parties 0#11 2#3).full s (2#3, 0#4) = true ∧ s.isPod 0#11 2#3 = false) ∧
    (let s := quad []
     (s.parties 0#11 2#3).full s (2#3, 0#4) = false ∧ 0#11 ∈ (s.parties 0#11 2#3).cores ∧ (s.parties 0#11 2#3).here s 0#11 = true ∧
       (s.core 0#11).seat.st ≠ .out ∧ (2#3, 0#4) ∉ (s.core 0#11).arrived) ∧
    (let s := standing 0x75000000#32 State.reset
     (atBoundary 0#11 s).isNone = true ∧ s.faultWaits 0#11 = false ∧ s.fenceWaits 0#11 0#4 = false ∧
       (standing 0x75000000#32 asleep).fenceWaits 0#11 8#4 = true) ∧
    (let s := State.reset.modTable 0#7 (fun x => { x with task := some aTask })
     let s := { s with fabric := { mask := [(0#2, 2#64)], members := [(1#6, 0x10001#64)] } }
     let a : State := { s with fabric := { s.fabric with arrivals := [((1#6, 0#4), 1)], announced := [0#4] } }
     s.isPod 0#11 7#3 = true ∧ s.podMembers = [1#6] ∧ s.fabric.arrivals.get 0 (1#6, 0#4) = 0 ∧ s.podParties.full s (7#3, 0#4) = true ∧
       a.podParties.full a (7#3, 0#4) = true ∧ 0 < a.fabric.arrivals.get 0 (1#6, 0#4) ∧ 0#4 ∈ a.fabric.announced ∧ 0#4 ∉ s.fabric.announced ∧
       (let z := a.modCore 0#11 (fun c => { c with seat := { st := .seated }, arrived := [(7#3, 0#4)] })
        z.podParties.full z (7#3, 0#4) = true ∧ 0#11 ∈ z.podParties.cores ∧ z.podParties.arrivals z (7#3, 0#4) 0#11 ≠ []) ∧
       (s.modCore 0#11 (fun c => { c with seat := { st := .seated } })).podParties.full
         (s.modCore 0#11 (fun c => { c with seat := { st := .seated } })) (7#3, 0#4) = false) := by
  refine ⟨?_, ?_, ?_, ?_, ?_, ?_, ?_, ?_, ?_, ?_, ?_⟩ <;> decide +kernel

/-- An entry of the vector queue, and of the gang of core 0 alone. -/
def entry (i : Instr) : QEntry := { ins := i, slots := i.slots }

theorem witness_EngineEvents :
    (let s := core0 (fun c => { c with vq := [entry (.vNop none)] })
     (s.core 0#11).queue .v = [entry (.vNop none)] ∧ (entry (.vNop none)).flev = 0#8 ∧ (entry (.vNop none)).fault = none ∧
       (s.table (tableOf 0#11)).stop = false ∧ (entry (.vNop none)).started = false ∧ (entry (.vNop none)).unformed = false ∧
       (s.core 0#11).tok.gangFault none = none ∧ (s.core 0#11).tok.ready none = true ∧
       (s.core 0#11).tok.ready (some ⟨0#5, 1#5, 0#5, 0#5, false, false⟩) = false ∧
       (match (entry (.vNop none)).run 0#11 .whole s with | .done u => decide ((u.core 0#11).queue .v = [entry (.vNop none)]) | _ => false) = true ∧
       (entry (.vNop none)).ganged = false ∧ (entry (.vNop none)).landed = false ∧ (∀ l ∈ s.late, l.core ≠ 0#11) ∧
       s.tileBusy 0#11 .v (entry (.vNop none)) = false ∧ (s.core 0#11).pendingFault = none ∧ s.atJoin 0#11 = false ∧
       (s.core 0#11).inLoad = false ∧ (s.core 0#11).inBar = false ∧ (∀ e ∈ [Engine.m, .d, .f, .c], (s.core 0#11).queue e = []) ∧
       s.sentMeets 0#11 (entry (.dCopy 1#5 2#5 3#5 none)) = false) ∧
    (let q : QEntry := entry (.mMma 1#4 2#4 0#6 0#6 0#3 none)
     (mCheck 0#11 q State.reset).isSome = true ∧ mCheck 0#11 (entry (.mSwap none)) State.reset = none ∧ q.started = false) ∧
    (let q : QEntry := { entry (.dCopyRg 1#5 2#5 0#4 0#2 none) with started := true }
     q.finished = false ∧ (RingRes.of q.resume).di = none ∧ (RingRes.of q.resume).sj = none ∧ { q with finished := true }.finished = true) ∧
    (let i : Instr := .vNop (some ⟨0#5, 1#5, 0#5, 0#5, false, false⟩)
     let s := core0 (fun c => { c with vq := [entry i], front := { run := false } })
     s.tokenDeadlocked 0#11 = true ∧ (s.core 0#11).deadCk + 63 < 64 ∧ 64 ≤ (s.core 0#11).deadCk + 64 ∧
       State.reset.tokenDeadlocked 0#11 = false) ∧
    (let q : QEntry := { entry (.vNop none) with fault := some { code := 0x01#8 } }
     let w : QEntry := { ins := .vNop none, slots := 1, started := true }
     (core0 (fun c => { c with vq := [q] })).held 0#11 = false ∧ (core0 (fun c => { c with vq := [w], mq := [q] })).held 0#11 = true ∧
     ((core0 (fun c => { c with vq := [q] })).core 0#11).pendingFault = some (.v, 0, q, { code := 0x01#8 })) ∧
    (let c := (core0 (fun c => { c with irq := [7#64], front := { run := true }, ctl := { c.ctl with cst := 0x2800#64 } })).core 0#11
     c.irq = 7#64 :: [] ∧ c.midway = false ∧ c.marked = false ∧ c.front.run = true ∧ c.ctl.ie = true ∧ c.front.pfx = none ∧ c.inBar = false ∧ c.inLoad = false) ∧
    (let tag (b : Nat) : BitVec 128 := tagMake true true 1 0 b
     let s (b : Nat) : State := (tiers State.reset).modCore 0#11 (fun c => { c with tags := [(5#10, tag b)] })
     let place (b : Nat) : Except TrapInfo (List Piece) :=
       (s b).check 0#11 0#16 false true .drd 0 (512 * tagBlock (tag b) + (512 - 512 * tagLine (tag b))) 32
     let hit (b : Nat) (f : State → State) : Got (List (BitVec 8)) :=
       match place b with | .ok ps => (f (s b)).consume 0#11 ps | .error t => .trap t (s b)
     (State.reset.core 0#11).tagFind (fun e => tagClean e && tagCovers e 512) = none ∧
       (∀ b ∈ [0x800, 2 ^ 39], ((s b).core 0#11).tagFind (fun e => tagClean e && tagCovers e 512) = some (5#10, tag b)) ∧
       (match place 0x800 with | .error _ => true | _ => false) = true ∧ (match place (2 ^ 39) with | .ok _ => true | _ => false) = true ∧
       (match hit (2 ^ 39) id with | .ok _ _ => true | _ => false) = true ∧
       (match hit (2 ^ 39) (fun s => s.putUnitPoison false (Sys2Proof.Machine.place 0 2#3) true) with | .trap _ _ => true | _ => false) = true ∧
       (match hit (2 ^ 39) (fun s => s.modStack 0#4 (fun y => { y with selfRefresh := true })) with | .wait => true | _ => false) = true) ∧
    (let e : QEntry := { entry (.mMma 1#4 2#4 0#6 0#6 0#3 none) with gang := some { mask := 3#4, gq := 0#2, index := none } }
     let c := (core0 (fun c => { c with mq := [e] })).core 0#11
     c.nextM = some (e, 0) ∧ c.gangEntry { mask := 3#4, gq := 0#2, index := none } = some (e, 0) ∧ e.started = false ∧ e.landed = false ∧
       (core0 (fun c => { c with mq := [e] })).held 0#11 = false ∧ c.pendingFault = none ∧
       (mulCheck .flt 0 0 true c e.cap.sha e.cap.shb).isSome = true ∧ (3#4).getLsbD 0 = true ∧ c.tok.ready none = true ∧
       (match (core0 (fun c => { c with mq := [e] })).gangPart 0#11 { mask := 3#4, gq := 0#2, index := none } 1#11 with
       | .absent => true
       | _ => false) = true ∧
       gangLeader 0#11 3#4 = 0#11 ∧ gangLeader 1#11 3#4 ≠ 1#11 ∧ mDesc e.ins = some (.flt, 0, 0, 0#3)) ∧
    (let s := State.reset.modTable 0#7 (fun t => { t with gangs := [{ quad := 0#2, gq := 0#2, mask := 1#4, members := [0#2] }] })
     (s.table 0#7).gangs = [] ++ { quad := 0#2, gq := 0#2, mask := 1#4, members := [0#2] } :: [] ∧ ([0#2] : List (BitVec 2)).Nodup ∧
       ((s.core 0#11).tok.gq.get [] 0#2).length < 15 ∧ (s.core 0#11).gangRuns 0#2 = false ∧
       (∀ g ∈ (s.table 0#7).gangs, g.quad ≠ 1#2) ∧
       15 ≤ (((core0 (fun c => { c with tok := { gq := [(0#2, List.replicate 15 0#4)] } })).core 0#11).tok.gq.get [] 0#2).length) := by
  refine ⟨?_, ?_, ?_, ?_, ?_, ?_, ?_, ?_, ?_⟩ <;> decide +kernel

/-- A running multiply whose operands' first sectors are poisoned, alone and with another core's B; the window is anchored or
not. -/
theorem witness_EngineEvents_refetch :
    let e : QEntry := { entry (.mMma 1#4 2#4 0#6 0#6 0#3 none) with
      started := true, cap := { sha := shape 0xFFFFFFFE000000 1 0 0 16 0, shb := shape 0xFFFFFFFE000000 1 0 0 16 0 } }
    let g : QEntry := { e with gang := some { mask := 3#4, gq := 0#2, index := none }, ganged := true }
    let s := core0 (fun c => { c with mq := [e], tower := { c.tower with poison := [0] }, mtx := { c.mtx with window := .anchored } })
    let bad (k : CoreId) (e : QEntry) (s : State) : Option (CoreId × Nat) :=
      match runSlice k e ((List.range (Pace.whole.upto 0 (allChunks e).length)).drop 0) s with
      | .bad o off _ => some (o, off)
      | _ => none
    (s.core 0#11).runningM = some 0 ∧ (s.core 0#11).mq[0]? = some e ∧ (s.core 0#11).tower.poisoned (0#25).toNat = true ∧
    (∃ r ∈ Core.ownRuns 0#11 (s.core 0#11) e, r.1 / 32 ≤ 0 / 32 ∧ 0 / 32 * 32 < r.1 + r.2) ∧
    (∀ r ∈ Core.ownRuns 0#11 (s.core 0#11) e, 4096 / 32 < r.1 / 32 ∨ r.1 + r.2 ≤ 4096 / 32 * 32) ∧
    (State.reset.core 0#11).runningM = none ∧ bad 0#11 e s = some (0#11, 0) ∧ bad 1#11 g s = some (0#11, 0) ∧
    (s.core 0#11).mtx.window = .anchored ∧ (State.reset.core 0#11).mtx.window ≠ .anchored ∧ 0 / 32 ∉ ([] : List Nat) ∧
    (match refetch 0#11 0#16 false 0 s with | .impossible => true | _ => false) = true := by
  refine ⟨?_, ?_, ?_, ?_, ?_, ?_, ?_, ?_, ?_, ?_, ?_, ?_⟩ <;> decide +kernel

theorem witness_TowerEvents :
    (let t := (State.reset.core 0#11).tower
     t.pinnedIn 0#10 = none ∧ t.age.get 0 0#10 = 0 ∧ t.freed.get 0 0#10 = 0 ∧ t.hot = false ∧ 4000 ≤ 4050 ∧ 4050 ≤ min 8000 (max 4050 (0 + 50)) ∧ Marks.has t.defer (0#10).toNat = false ∧
       ({ t with defer := [0] } : Tower).defer = [0] ∧ ({ t with hot := true } : Tower).hot = true ∧
       (({ t with lines := [(1#5, some { row := 0#16, keep := false, data := [], poison := [] })] } : Tower).pinnedIn 0#10).isSome = true) ∧
    (0xFFFF#56).toNat < windowBase ∧ windowBase ≤ (0xFFFFFFFE000000#56).toNat ∧ State.reset.translate 0#3 0#16 true .read 0 = .xlate ∧ asleep.translate 0#3 0#16 true .read 0 = .wait ∧
    (State.reset.die 0#3).busy = none ∧ (0x8000000000000000#64).getLsbD 63 = true ∧
    (let s := State.reset.modDie 0#3 (fun x => { x with busy := some { asid := 0#16, all := true, first := 0, last := 4095 } })
     (s.die 0#3).busy.isSome = true ∧ s.inFlight 0#3 = false) ∧
    ({ State.reset with hbm := [(0#4, { queue := [{ pkt := .read 0#11 0 0x1000000000000#52 2#3 8 }] })] } : State).inFlight 0#3 = true := by
  refine ⟨?_, ?_, ?_, ?_, ?_, ?_, ?_, ?_, ?_⟩ <;> decide +kernel

theorem witness_TowerEvents_walk :
    (match (paged State.reset).translate 0#3 0#16 true .read 0 with
     | .ok e => decide (e.pa = 0x1000000000000 ∧ e.last = 4095 ∧ e.denies true .read = false ∧ ({ e with w := false } : TlbEntry).denies true .write = true)
     | _ => false) = true ∧ 0 < 8 := by
  decide +kernel

/-- A stack alone changed. -/
def stack0 (f : Stack → Stack) : State := (tiers State.reset).modStack 0#4 f

theorem witness_StackEvents :
    (69631#17).toNat < 69632 ∧ 69632 ≤ (69632#17).toNat ∧ (State.reset.die 0#3).recovery = false ∧
    ((State.reset.modDie 0#3 (fun x => { x with recovery := true })).die 0#3).recovery = true ∧
    Marks.has ({} : Stack).actBad 0 = false ∧ Marks.has ({ actBad := [0] } : Stack).actBad 0 = true ∧
    (({} : Stack).act.get 0 0 < Config.actSaturation ∨ Config.actSaturation ≤ ({} : Stack).act.get 0 0) ∧
    (let x : Stack := { failed := [.layer 2#4] }
     x.spare = none ∧ x.migration = none ∧ FailMark.layer 2#4 ∈ x.failed ∧ FailMark.layer 3#4 ∉ x.failed ∧
       ({ x with spare := some 2#4 } : Stack).spare.isSome = true ∧ ({ x with migration := some ⟨2#4, 0⟩ } : Stack).migration.isSome = true) ∧
    (let s := stack0 (fun y => { y with migration := some ⟨2#4, 4095⟩ })
     (s.stack 0#4).migration = some ⟨2#4, 4095⟩ ∧ 4095 < 4096 ∧
       (∀ n ∈ (List.range 8).map (fun i => tierStack false i), (s.stack n).selfRefresh = false ∧ (s.stack n).deltas = [])) ∧
    (∃ n ∈ (List.range 8).map (fun i => tierStack false i), ((stack0 (fun y => { y with selfRefresh := true })).stack n).selfRefresh = true) ∧
    (let q : Queued := { pkt := .read 0#11 0 0x1000000000000#52 2#3 32 }
     let s := stack0 (fun y => { y with queue := [q], selfRefresh := true })
     (s.stack 0#4).queue = [q] ∧ (s.stack 0#4).hold = false ∧
       (performPacket q (s.modStack 0#4 (fun y => { y with selfRefresh := false, hold := false }))).isSome = true) ∧
    (State.reset.die 0#3).verified = false ∧ ((State.reset.modDie 0#3 (fun x => { x with verified := true })).die 0#3).verified = true ∧
    ((tiers State.reset).stack (1#1 ++ 0#3)).trained = true ∧ (State.reset.stack (0#1 ++ 0#3)).trained = false := by
  refine ⟨by decide, by decide, by decide, by decide, by decide, by decide, Nat.lt_or_ge _ _, ?_, ?_, ?_, ?_, ?_, ?_, ?_, ?_⟩ <;> decide +kernel

/-- A return-free atomic of core 0 that was sent. -/
def strays : Packet := .atomic 0#11 3 0x1000000000000#52 2#3 0#4 1#1 5#64 0#64 true

theorem witness_PacketEvents :
    (let s := tiers State.reset
     let a : BitVec 52 := 0x1000000000000#52
     s.packetsOut 0#11 < 256 ∧ (s.stack (tierStack false (place 0 2#3).s)).queue = [] ∧
       (s.stack 0#4).lost (place 0 2#3).pc (place 0 2#3).r = false ∧ s.extBlocked false 0 32 2#3 false = false ∧
       s.packetPlace (.read 0#11 3 a 2#3 32) = some (false, 0) ∧ s.packetPlace (.read 0#11 3 8#52 2#3 32) = none ∧
       s.packetPlace (.write 0#11 3 a 2#3 [some 1#8, none]) = some (false, 0) ∧ (s.stack 0#4).selfRefresh = false ∧
       s.packetPlace (.append 0#11 3 a 2#3 [1#8]) = some (false, 0) ∧ s.packetPlace strays = some (false, 0) ∧
       s.packetPlace (.atomic 0#11 3 a 2#3 11#4 1#1 5#64 0#64 false) = some (false, 0) ∧ s.extPoison false 0 8 2#3 = none ∧
       (∀ m ∈ s.hbm, ∀ z ∈ m.2.sent, packetsMeet z.pkt strays = false)) ∧
    (let s := stack0 (fun y => { y with selfRefresh := true })
     (s.stack 0#4).selfRefresh = true ∧ s.extBlocked false 0 32 2#3 false = true ∧
       s.packetPlace (.read 0#11 3 0x1000000000000#52 2#3 32) = some (false, 0)) ∧
    (let z : Sent := { pkt := strays, named := 0#56, order := 0 }
     let s := stack0 (fun y => { y with sent := [z] })
     (s.stack 0#4).sent.find? (fun z => packetsMeet z.pkt strays) = some z ∧ z.pkt = strays ∧
       (performSent z (s.modStack 0#4 (fun y => { y with sent := y.sent.erase z }))).isSome = true) ∧
    (let d : Delta := { pc := 0, r := 1, y := 255, bytes := [1#8], poison := List.replicate 8 true, src := 0#11, tag := 3 }
     let s := stack0 (fun y => { y with deltas := [d] })
     (s.stack 0#4).deltas[0]? = some d ∧ (s.stack 0#4).selfRefresh = false ∧ (s.stack 0#4).failedAt d.pc d.r = false ∧
       d.y + d.bytes.length ≤ 256 ∧ d.poison.length ≤ 8 ∧ d.reply = true ∧
       (({ s.stack 0#4 with selfRefresh := true } : Stack)).selfRefresh = true) ∧
    (let s := core0 (fun c => { c with replies := [{ tag := 1 }, { tag := 2 }] })
     (s.core 0#11).replies = [({ tag := 1 } : Reply)] ++ { tag := 2 } :: [] ∧ ∀ x ∈ [({ tag := 1 } : Reply)], x.tag ≠ 2) := by
  refine ⟨?_, ?_, ?_, ?_, ?_⟩ <;> decide +kernel

/-- A query of one E4M3 position whose rows stand at the start of the near tier, and its scan. -/
def aQuery : QueryPacket :=
  { core := 0#11, id := 3#6, pc := 0, bf16 := false, scale := 0x3F800000#32, q := List.replicate 32 0#16, dv := 32
    rows := [(0, 0x1000000000000#52, 0x1000000000100#52)] }
def aScan : Scan :=
  { unit := 0#12, qp := aQuery, left := aQuery.rows, m := 0xFF800000#32, s := 0#32, acc := List.replicate 32 0#32, nkey := 0#32 }
/-- The stack that scans it, its query outstanding. -/
def scanning (x : Scan) (f : Stack → Stack) : State :=
  (stack0 (fun y => { f y with scans := [x] })).modCore 0#11 (fun c => { c with queries := [(3#6, some { rid := 0#4, open_ := 1 })] })
def aTriple : Triple :=
  { id := 3#6, m := 0#32, s := 0#32, nkey := 0#32, emask := 0#4, epos := [], unit := 0#12, frow := 0#52, acc := [], last := true }

theorem witness_AttentionEvents :
    (let s := stack0 (fun y => { y with queryq := [aQuery] })
     (s.stack 0#4).queryq[0]? = some aQuery ∧ (s.stack 0#4).selfRefresh = false ∧
       ({ s.stack 0#4 with selfRefresh := true } : Stack).selfRefresh = true) ∧
    (let s := scanning aScan id
     (s.stack ((0#12).extractLsb' 8 4)).scans.zipIdx.find? (fun e => decide (e.1.unit = 0#12)) = some (aScan, 0) ∧ aScan.qp.ctx = none ∧ aScan.qp.reply = true ∧ (∀ l ∈ s.late, l.core ≠ 0#11) ∧
       ((s.core 0#11).queries.get none 3#6).isSome = true ∧ (s.stack 0#4).selfRefresh = false ∧
       rowHeld (s.stack 0#4) 0x1000000000000 32 = false ∧ rowHeld (s.stack 0#4) 0x1000000000100 32 = false ∧
       rowFails (s.stack 0#4) 0x1000000000000 32 = none ∧ rowFails (s.stack 0#4) 0x1000000000100 32 = none) ∧
    (let todo (x : Scan) (j : Nat) : Prop := j < 1 + 1 ∧ ∀ g ∈ x.got, g.1 ≠ j
     todo aScan 0 ∧ todo aScan 1 ∧ (let y : Scan := { aScan with got := [(1, List.replicate 32 0#8)] }
       todo y 0 ∧ ¬todo y 1)) ∧
    ({ aScan with left := [] } : Scan).left = [] ∧ ((scanning aScan (fun y => { y with selfRefresh := true })).stack 0#4).selfRefresh = true ∧
    rowFails ((scanning aScan (fun y => { y with failed := [.whole] })).stack 0#4) 0x1000000000000 32 = some 0x1000000000000 ∧
    aScan.epos.length ≠ 4 ∧ ({ aScan with epos := [1#32, 2#32, 3#32, 4#32] } : Scan).epos.length = 4 ∧
    (let s := (scanning aScan id).modCore 0#11 (fun c => { c with inbox := [aTriple], rings := [(0#4, ring [] 0 2)] })
     (s.core 0#11).inbox = aTriple :: [] ∧ (∀ u ∈ s.launch.suspended, ∀ e ∈ u.cores, e.1 ≠ 0#11) ∧
       (s.core 0#11).queries.get none aTriple.id = some { rid := 0#4, open_ := 1 } ∧ ((s.core 0#11).ring 0#4).val = true ∧
       ((({} : Core)).queries.get none aTriple.id = none) ∧
       (match ((s.core 0#11).ring 0#4).acquireFill (memberOf 0#11 ++ 2#2) with
        | some (i, r1) => (r1.releaseFill (memberOf 0#11 ++ 2#2) i).isSome
        | none => false) = true) ∧
    (ring [(0#6, 0x12#6)] 1 1).isEmpty (ring [(0#6, 0x12#6)] 1 1).head = false := by
  refine ⟨?_, ?_, ?_, ?_, ?_, ?_, ?_, ?_, ?_⟩ <;> decide +kernel

/-- A node of one table without edges, a graph of it, and an instance of that graph. -/
def aNode : Node :=
  { asid := 0#16, xe := false, pl := false, rm := 0#3, cls := 1#2, plot := 1, npred := 0, succs := [], entry := 0#51, nbnd := 1
    pbytes := 0, patch := [], foot := [], poff := 0 }
def aGraph (p : List Trigger) (i : Option Inst) : Graph :=
  { nodes := [aNode], caddr := 0x4000000000000#52, vec := some 7#11, pending := p, inst := i }
def anInst (n : List NodeState) : Inst := { num := 1#32, gen := 0#6, params := [[]], nodes := n, preds := [0] }
def aTrigger : Trigger := { gen := none, patches := [], list := 0x4000000000000, words := [0#64] }
/-- The launch unit of a die that is ready, with a graph 1. -/
def graph (g : Graph) : State := { tiers State.reset with launch := { graphs := [(1#8, some g)] } }
/-- A description of a graph of one node in scheduler memory, whose header stands in host memory. -/
def described : State :=
  { tiers State.reset with
    launch := { mem := Memory.writeNat (Memory.writeNat [] 0 32 (0x47520008 + 2 ^ 64 + 64 * 2 ^ 128)) 64 8 0x4000000000000 }
    host := { cells := Memory.writeNat [] 0 24 (0x14B480008 + 2 ^ 128) } }

theorem witness_LaunchRegisters :
    State.reset.luReady = false ∧ State.reset.pkg.posted = [] ∧ (graph (aGraph [] none)).luReady = true ∧
    ((graph (aGraph [] none)).pkg.posted = [] ∧ (graph (aGraph [] none)).launch.lgop = none ∧
      ({ posted := [launchWrite 0x028#20 1#64] } : Package).posted ≠ [] ∧ ({ lgop := some 1#64 } : Launch).lgop.isSome = true) ∧
    (let z (s : State) : State := s.modStack 0#4 (fun y => { y with selfRefresh := true })
     (match (z (graph (aGraph [] none))).patchList (aGraph [] none) 0x1000000000000 with | .wait => true | _ => false) = true ∧
       (match (z { described with
          launch := { mem := Memory.writeNat (Memory.writeNat [] 0 32 (0x47520008 + 2 ^ 64 + 64 * 2 ^ 128)) 64 8 0x1000000000000 } }).buildGraph 0 with
        | .wait => true
        | _ => false) = true) ∧
    (let s := graph (aGraph [aTrigger] (some (anInst [.running])))
     (s.launch.graphs.get none 1#8 = some (aGraph [aTrigger] (some (anInst [.running])))) ∧ s.launch.graphs.get none 2#8 = none ∧
       (match s.patchList (aGraph [] none) 8 with | .refused r => decide (r = 2) | _ => false) = true ∧
       (match s.patchList (aGraph [] none) 0x4000000000000 with | .ok t => decide (t = aTrigger) | _ => false) = true ∧
       (aGraph [aTrigger] none).pending.length < 4 ∧ 4 ≤ (aGraph (List.replicate 4 aTrigger) none).pending.length ∧
       (aGraph [] none).inst = none ∧ (aGraph [] none).pending = []) ∧
    field 0x1FFFFFF00000001#64 57 7 = 0#64 ∧ field 0x200000000000001#64 57 7 ≠ 0#64 ∧
    field 0x40000001#64 30 34 ≠ 0#64 ∧ field 0x20000001#64 30 34 = 0#64 ∧ 2 ≤ (field 0x20000001#64 28 2).toNat ∧
    (field 0x10000001#64 28 2).toNat = 1 ∧
    (match described.buildGraph 8 with | .fails r n => decide (r = 1 ∧ n = 0) | _ => false) = true ∧
    (match ({ described with host := {} } : State).buildGraph 0 with | .fails r n => decide (r = 2 ∧ n = 0) | _ => false) = true ∧
    (match described.buildGraph 0 with
     | .ok g => decide (g.nodes = [aNode]) || decide (g.nodes.length = 1 ∧ described.launch.nodeCount + g.nodes.length ≤ 65536)
     | _ => false) = true ∧
    (({} : Launch).lerr.getLsbD 63 = false ∧ (({} : Launch).error 1 1 0 1).lerr.getLsbD 63 = true) := by
  refine ⟨?_, ?_, ?_, ?_, ?_, ?_, ?_, ?_, ?_, ?_, ?_, ?_, ?_, ?_, ?_, ?_⟩ <;> decide +kernel

/-- With 65536 nodes registered, one more passes the limit. -/
theorem witness_LaunchRegisters_full :
    65536 < (graph { aGraph [] none with nodes := List.replicate 65536 aNode }).launch.nodeCount + 1 := by
  have h (n : Nat) : (graph { aGraph [] none with nodes := List.replicate n aNode }).launch.nodeCount =
      0 + (List.replicate n aNode).length := rfl
  rw [h, List.length_replicate]; decide

/-- Table 0 runs the task of graph 1; the pool has room for its context. -/
def runningTask (stop : Bool) : State :=
  let s := (graph (aGraph [] (some (anInst [.running])))).modTable 0#7 (fun t => { t with task := some aTask, stop := stop })
  { s with launch := { s.launch with lspbase := 0x1000000000000#64, lspsize := 0x10000000#64 } }

/-- A context of that task, saved from table 0 at the start of the near tier. -/
def aContext : Suspended := { table := 0#7, task := aTask, order := 3, base := 0x1000000000000, size := 0x880000 }
def suspendedTask (u : Suspended) : State :=
  let s := graph (aGraph [] (some (anInst [.running])))
  { s with launch := { s.launch with suspended := [u] } }

theorem witness_LaunchEvents :
    ((State.reset.table 0#7).task = none ∧ ((runningTask false).table 0#7).task = some aTask ∧
      (runningTask true).fabric.quiescing = false ∧ ((runningTask true).table 0#7).stop = true ∧ (runningTask true).drained 0#7 = true ∧
      (∃ v, drainFronts 0#7 (runningTask true) = some v ∧ v.fabric.quiescing = false ∧ v.drained 0#7 = true ∧
        v.launch.alloc 0x880000 = (runningTask true).launch.alloc 0x880000) ∧
      drainFronts 0#7 ((asleep.modTable 0#7 (fun t => { t with task := some aTask, stop := true })).modCore 0#11
        (fun c => { c with front := { run := true, pc := 0x8000#51, slot := 3 } })) = none) ∧
    ((runningTask true).saveSize 0#7 ((runningTask true).incomingFoot 0#7) = 0x880000) ∧
    (graph (aGraph [] none)).launch.alloc 0x880000 = none ∧
    (match (runningTask true).launch.alloc 0x880000 with | some (b, _) => decide (b = 0x1000000000000) | none => false) = true ∧
    (let s := suspendedTask aContext
     s.fabric.quiesced = false ∧ s.fabric.quiescing = false ∧ s.launch.suspended[0]? = some aContext ∧
       (match s.launch.first with | some (.task t) => decide (t = aTask) | _ => false) = true ∧ sameTask aContext.task aTask = true ∧
       s.contextsOf aTask = [aContext] ∧ (∀ x ∈ s.launch.suspended, x.table = aContext.table → x = aContext) ∧
       aContext.failed = false ∧ s.tableFree aContext.table = true ∧ s.contextOk aContext = false) ∧
    (let g := aGraph [aTrigger] none
     (graph g).launch.graphs.get none 1#8 = some g ∧ g.inst = none ∧ g.pending = aTrigger :: [] ∧
       (({ aTrigger with list := 0 } : Trigger).list = 0 ∧ aTrigger.list ≠ 0) ∧
       (aGraph [] none).pending = [] ∧ (aGraph [] (some (anInst [.ready]))).inst.isSome = true) ∧
    (let g := aGraph [] (some (anInst [.ready]))
     let it : ReadyItem := { gid := 1#8, node := 0#12, cls := 1#2, order := 0 }
     let s := { graph g with launch := { (graph g).launch with ready := [it] } }
     s.fabric.quiesced = false ∧ s.fabric.quiescing = false ∧ s.launch.claimOf it = none ∧
       (match s.launch.first with | some (.node i) => decide (i = it) | _ => false) = true ∧
       s.launch.lookup 1#8 0#12 = some (g, anInst [.ready], aNode) ∧ s.chooseTables aNode.plot = some [0#7] ∧ s.launch.suspended = [] ∧
       (let z : State := { s with dies := [] }
        z.chooseTables aNode.plot = none ∧ z.openTables.length + (z.victims it.cls).length < aNode.plot) ∧
       (let z : State := { s with launch := { s.launch with claims := [(1#8, 0#12, [0#7])] } }
        z.launch.claimOf it = some [0#7] ∧ z.tableOpen 0#7 = true ∧
          ((z.modTable 0#7 (fun t => { t with stop := true })).table 0#7).stop = true)) ∧
    (let it : ReadyItem := { gid := 1#8, node := 0#12, cls := 0#2, order := 0 }
     let s := ({ runningTask false with dies := [(0#3, { dready := 0x210001#24 })] } : State).modTable 0#7 (fun t =>
       { t with task := some { aTask with cls := 2#2 } })
     let s := { s with launch := { s.launch with ready := [it] } }
     let z : State := { s with launch := { s.launch with lspsize := 0#64 } }
     let takes (s : State) : List TableId := (s.victims it.cls).take (aNode.plot - s.openTables.length)
     (match s.launch.first with | some (.node i) => decide (i = it) | _ => false) = true ∧ s.chooseTables aNode.plot = none ∧
       aNode.plot ≤ s.openTables.length + (takes s).length ∧
       s.launch.fitsAll (s.owedAreas ++ (takes s).map (fun tb => s.saveSize tb aNode.foot)) = true ∧ z.chooseTables aNode.plot = none ∧
       z.launch.fitsAll (z.owedAreas ++ (takes z).map (fun tb => z.saveSize tb aNode.foot)) = false) ∧
    ((∀ m i, State.reset.fabric.arrivals.get 0 (m, i) = 0) ∧ State.reset.fabric.announced = []) ∧
    (let i := anInst [.running]
     let s := runningTask false
     s.launch.lookup 1#8 0#12 = some (aGraph [] (some i), i, aNode) ∧ i.aborted = false ∧ s.tablesOf 1#8 i.num (some 0#12) = [0#7] ∧
       s.fabric.quiescing = false ∧ s.launch.suspended = [] ∧ s.launch.records = [] ∧ i.nodes[(0#12).toNat]? = some .running ∧ (∀ tb ∈ s.tablesOf 1#8 i.num (some 0#12), s.tableEnded tb = true) ∧
       (∀ (m : Nat) x, m ≠ (0#12).toNat → i.nodes[m]? = some x → x = .done) ∧
       (∃ (m : Nat) (x : NodeState), m ≠ (0#12).toNat ∧ (anInst [.running, .waiting]).nodes[m]? = some x ∧ x ≠ .done) ∧
       (∃ tb ∈ s.tablesOf 1#8 i.num (some 0#12),
         (s.modCore 0#11 (fun c => { c with front := { run := true } })).tableEnded tb = false) ∧
       ({ s with launch := { s.launch with graphs := s.launch.graphs.set 1#8 (some (aGraph [] none)) } }.unitWrite
         (aGraph [] none).caddr.toNat (natToBytes 8 (1 + 2 ^ 16))).isSome = true ∧
       ({ s with launch := { s.launch with records := [(0x4000000000000#52, 1, none)] } } : State).launch.records ≠ [] ∧
       (s.modStack 0#4 (fun y => { y with selfRefresh := true })).unitWrite 0x1000000000000 (natToBytes 8 (1 + 2 ^ 16)) = none) := by
  refine ⟨⟨?_, ?_, ?_, ?_, ?_, ⟨_, rfl, ?_, ?_, ?_⟩, ?_⟩, ?_, ?_, ?_, ?_, ?_, ?_, ?_, ⟨fun _ _ => rfl, rfl⟩, ?_, ?_, ?_, ?_, ?_, ?_, ?_, ?_, ?_,
    ⟨1, .waiting, ?_, rfl, ?_⟩, ⟨0#7, ?_, ?_⟩, ?_, ?_, ?_⟩
  case refine_25 =>
    intro m x h hx
    match m, h with
    | 0, h => exact absurd rfl h
    | m + 1, _ => cases hx
  all_goals decide +kernel

/-- Where no stack is in self-refresh, migrates or has lost a unit, a save area of any size is ready. -/
theorem areaReady_of_quiet {s : State} (h : ∀ n, (s.stack n).selfRefresh = false ∧ (s.stack n).migration = none ∧
    (s.stack n).bad = [] ∧ (s.stack n).failed = []) (ht : s.tierUsable false = true) (n : Nat) :
    s.areaReady 0x1000000000000 n = true := by
  have e : s.areaReady 0x1000000000000 n = (s.tierUsable false && !s.extBlocked false 0 n 2#3 true) := rfl
  rw [e, ht]
  simp [State.extBlocked, (h _).1, (h _).2.1, (h _).2.2.1, (h _).2.2.2, Stack.lost, Stack.failedAt, Marks.has]

/-- There a context's area is read as it stands. -/
theorem touch_of_quiet {s : State} (h : ∀ n, (s.stack n).bad = [] ∧ (s.stack n).failed = []) (u : Suspended) : u.touch s = s := by
  have unit (far : Bool) (x : Home) : s.repairUnit far x = s := by
    simp [State.repairUnit, Stack.lost, Stack.failedAt, (h _).1, (h _).2, Marks.has]
  have units (far : Bool) (l : List Home) : l.foldl (fun s h => s.repairUnit far h) s = s := by
    induction l with
    | nil => rfl
    | cons a l ih => rw [List.foldl_cons, unit, ih]
  have area (pa n : Nat) : s.physTouch pa n = s := by
    rw [State.physTouch]; split
    · exact units _ _
    · rfl
  have areas (l : List (Nat × Nat)) : l.foldl (fun s b => s.physTouch b.1 b.2) s = s := by
    induction l with
    | nil => rfl
    | cons a l ih => rw [List.foldl_cons, area, ih]
  exact areas _

theorem witness_LaunchEvents_area : aContext.touch (suspendedTask aContext) = suspendedTask aContext ∧
    (runningTask true).areaReady 0x1000000000000 0x880000 = true ∧
    (suspendedTask aContext).areaReady aContext.base aContext.size = true :=
  ⟨touch_of_quiet (by decide +kernel) _, areaReady_of_quiet (by decide +kernel) (by decide +kernel) _,
    areaReady_of_quiet (by decide +kernel) (by decide +kernel) _⟩

/-- A context whose area holds a dealer record and zeros, at the start of the near tier. -/
def savedTask : State :=
  (suspendedTask aContext).modStack 0#4 (fun x => { x with cells := [(256, 0x08#8), (258, 0x58#8), (259, 0x43#8), (260, 0x01#8)] })

theorem place2 (t : Nat) : place t 2#3 =
    { s := t / 4096 % 8, pc := (t / 32768 * 4096 + t % 4096) / 256 % 64
      r := 8 * (((t / 32768 * 4096 + t % 4096) / 16384 * 256 + (t / 32768 * 4096 + t % 4096) % 256) / 256 / 7) +
        ((t / 32768 * 4096 + t % 4096) / 16384 * 256 + (t / 32768 * 4096 + t % 4096) % 256) / 256 % 7 +
        (if t / 4096 % 8 ≤ ((t / 32768 * 4096 + t % 4096) / 16384 * 256 + (t / 32768 * 4096 + t % 4096) % 256) / 256 % 7 then 1 else 0)
      y := ((t / 32768 * 4096 + t % 4096) / 16384 * 256 + (t / 32768 * 4096 + t % 4096) % 256) % 256 } := rfl

/-- Of stack 0's cells 256 to 263 only the tier's first eight bytes are placed there. -/
theorem far_cells' (t b o j : Nat) (hb : b = t / 32768 * 4096 + t % 4096) (ho : o = b / 16384 * 256 + b % 256) (h : 8 ≤ t)
    (hs : t / 4096 % 8 = 0) (hj : j < 8) :
    256 + j ≠ (b / 256 % 64 * 4194304 + (8 * (o / 256 / 7) + o / 256 % 7 + 1)) * 256 + o % 256 := by
  intro he
  have h1 : b / 256 % 64 = 0 ∧ o / 256 / 7 = 0 ∧ o / 256 % 7 = 0 ∧ o % 256 < 8 := by
    have := Nat.mod_lt o (show 0 < 256 by decide)
    generalize b / 256 % 64 = pc at he ⊢
    generalize o / 256 / 7 = q at he ⊢
    generalize o / 256 % 7 = i at he ⊢
    omega
  have h2 : o < 8 := by omega
  have h3 : b / 16384 = 0 ∧ b % 256 < 8 := by omega
  have h4 : b < 8 := by omega
  omega
theorem far_cells (t : Nat) (h : 8 ≤ t) (hs : t / 4096 % 8 = 0) (j : Nat) (hj : j < 8) :
    256 + j ≠ cellOf (place t 2#3).pc (place t 2#3).r (place t 2#3).y := by
  have := far_cells' t _ _ j rfl rfl h hs hj
  rw [place2]; simpa only [cellOf, hs, Nat.zero_le, if_true, Nat.reducePow] using this

theorem savedTask_stack : ∀ n : StackId, (savedTask.stack n).bad = [] ∧ (savedTask.stack n).failed = [] ∧
      (savedTask.stack n).cells = if n = 0#4 then [(256, 0x08#8), (258, 0x58#8), (259, 0x43#8), (260, 0x01#8)] else [] := by
    decide +kernel

theorem savedTask_byte (t : Nat) (h : 8 ≤ t) : savedTask.unitByte false (place t 2#3) = 0#8 := by
  simp only [State.unitByte, Stack.lost, Stack.failedAt, (savedTask_stack _).1, (savedTask_stack _).2.1, Marks.has, List.any_nil,
    Stack.raw, (savedTask_stack _).2.2, Bool.or_false, Bool.false_eq_true, if_false]
  split
  · next h0 =>
    have hs0 : t / 4096 % 8 = 0 := by
      have := congrArg BitVec.toNat h0
      simp only [tierStack, BitVec.toNat_ofNat, Bool.false_eq_true, if_false, place2] at this
      omega
    have f := far_cells t h hs0
    simp only [Memory.get]
    rw [if_neg (f 0 (by decide)), if_neg (f 2 (by decide)), if_neg (f 3 (by decide)), if_neg (f 4 (by decide))]
  · rfl

/-- Past the first word, the near tier's first 16 MiB read as zero. -/
theorem savedTask_read (pa n : Nat) (h : 0x1000000000008 ≤ pa) (h2 : pa + n ≤ 0x1000000000000 + 2 ^ 24) :
    savedTask.physRead pa n = List.replicate n 0#8 := by
  have hr : tierOf pa = some (false, pa - 0x1000000000000) := by
    have : 2 ^ 25 ≤ tierSize := by decide
    simp only [tierOf, regionOf]; rw [if_neg (by omega), if_pos (by omega)]
  simp only [State.physRead, hr, State.extRead]
  rw [List.eq_replicate_iff]; simp only [List.length_map, List.length_range, true_and]
  intro b hb'; obtain ⟨i, hi, rfl⟩ := List.mem_map.mp hb'; exact savedTask_byte _ (by omega)

theorem savedTask_nat (pa n : Nat) (h : 0x1000000000008 ≤ pa) (h2 : pa + n ≤ 0x1000000000000 + 2 ^ 24) :
    savedTask.physNat pa n = 0 := by
  rw [State.physNat, savedTask_read pa n h h2]; clear h2
  have e : ∀ n, packNat 8 (List.replicate n 0) = 0 := fun n => by
    induction n with
    | zero => rfl
    | succ n ih => rw [List.replicate_succ]; simpa [packNat] using ih
  simp [bytesToNat, e]

theorem savedTask_zero (pa : Nat) (h : 0x1000000000008 ≤ pa) (h2 : pa + 0x80000 ≤ 0x1000000000000 + 2 ^ 24) (o m : Nat) (h3 : m ≤ 0x80000)
    (hm : o ≤ m) : savedTask.zeroAt pa o m = true := by
  rw [State.zeroAt, savedTask_read _ _ (by omega) (by omega)]; simp

theorem savedTask_recs (pa : Nat) (h : 0x1000000000008 ≤ pa) (h2 : pa + 0x80000 ≤ 0x1000000000000 + 2 ^ 24) :
    savedTask.blockRecs pa = [[], [], [], [], []] := by
  have : List.range 5 = [0, 1, 2, 3, 4] := rfl
  simp (disch := omega) only [State.blockRecs, this, savedTask_nat, List.map, Nat.zero_min, List.range_zero]

theorem savedTask_lines (pa : Nat) (h : 0x1000000000008 ≤ pa) (h2 : pa + 0x80000 ≤ 0x1000000000000 + 2 ^ 24) : savedTask.blockLines pa = [] := by
  rw [State.blockLines, List.filterMap_eq_nil_iff]
  intro k hk; have := List.mem_range.mp hk
  rw [savedTask_nat _ _ (by omega) (by omega)]; rfl

theorem savedTask_windows (pa : Nat) (h : 0x1000000000008 ≤ pa) (h2 : pa + 0x80000 ≤ 0x1000000000000 + 2 ^ 24) :
    savedTask.windowRecs pa = [] := by
  have e : (savedTask.readRec (pa + 0x16000)).1.code = 0#4 := by
    simp (disch := omega) only [State.readRec, savedTask_nat]; rfl
  have r : List.range 48 = 0 :: (List.range 47).map (· + 1) := by decide
  rw [State.windowRecs, r, List.map_cons, List.takeWhile_cons]; simp [e]

theorem savedTask_block (pa : Nat) (h : 0x1000000000008 ≤ pa) (h2 : pa + 0x80000 ≤ 0x1000000000000 + 2 ^ 24) :
    savedTask.blockOk pa = true := by
  have n0 : (field (BitVec.ofNat 64 (savedTask.physNat (pa + 0x2300) 8)) 2 6).toNat = 0 := by
    rw [savedTask_nat _ _ (by omega) (by omega)]; rfl
  simp only [State.blockOk, State.blockRest, savedTask_recs pa h h2, savedTask_lines pa h h2, n0, savedTask_windows pa h h2,
    Bool.and_eq_true, List.all_eq_true]
  have sums : ((List.range 64).map (fun i => savedTask.physNat (pa + 0xF08 + 16 * i) 2)).foldl (fun a b => a + b) 0 = 0 := by
    have e : (List.range 64).map (fun i => savedTask.physNat (pa + 0xF08 + 16 * i) 2) = (List.range 64).map (fun _ => 0) :=
      List.map_congr_left (fun i hi => by have := List.mem_range.mp hi; exact savedTask_nat _ _ (by omega) (by omega))
    rw [e]; decide
  rw [sums]
  repeat' apply And.intro
  all_goals first
    | (simp (disch := omega) only [savedTask_nat]; decide)
    | (intro x hx; have hr := List.mem_range.mp hx; simp (disch := omega) only [savedTask_nat]; decide +kernel)
    | (intro x hx
       have : x.1 ≤ x.2 ∧ x.2 ≤ 0x80000 := by
         clear h h2 n0; revert x; decide
       with_reducible exact savedTask_zero pa h h2 _ _ this.2 this.1)
    | (with_reducible exact savedTask_zero pa h h2 _ _ (by decide) (by decide))
    | (simp [groupRecs]; done)
    | rfl
    | (intro x hx; exact absurd (show x ∈ ([] : List (List Rec)) from hx) (List.not_mem_nil))

/-- A context that holds nothing wrong: its task resumes. -/
theorem witness_LaunchEvents_resume : aContext.touch savedTask = savedTask ∧ savedTask.contextOk aContext = true ∧ savedTask.contextsOf aTask = [aContext] ∧
    savedTask.areaReady aContext.base aContext.size = true ∧ savedTask.tableFree aContext.table = true ∧ savedTask.launch.suspended[0]? = some aContext ∧
    (match savedTask.launch.first with | some (.task t) => decide (t = aTask) | _ => false) = true := by
  have t := touch_of_quiet (s := savedTask) (by decide +kernel) aContext
  have r := areaReady_of_quiet (s := savedTask) (by decide +kernel) (by decide +kernel) aContext.size
  refine ⟨t, ?_, ?_, r, ?_⟩
  case refine_2 => decide +kernel
  case refine_3 => decide +kernel
  have d : savedTask.dealerOk 0x1000000000000 = true ∧ (savedTask.allRuns 0x1000000000000).isSome = true := by decide +kernel
  have e : aContext.base = 0x1000000000000 := rfl
  simp only [State.contextOk, e, d, Bool.true_and, List.all_eq_true]
  intro seat hs; have := List.mem_range.mp hs
  have : blockBase 0x1000000000000 seat = 0x1000000000000 + 0x80000 * (seat + 1) := rfl
  exact savedTask_block _ (by omega) (by omega)

/-- Die 3 with its firmware running. -/
def booted (f : Die → Die) : State := State.reset.modDie 0#3 (fun x => f { x with verified := true })

theorem witness_PackageEvents :
    (∀ (r : List (Nat × BitVec 8)) (i : SignedImage),
      let ok : Bool := Config.rsaVerifies r (Config.digest i.bytes) i.rsa && Config.slhVerifies r (Config.digest i.bytes) i.slh
      ok = false ∨ ok = true) ∧
    ((State.reset.die 0#3).verified = false ∧ (State.reset.die 0#3).recovery = false ∧ ((booted id).die 0#3).verified = true ∧
      ((State.reset.modDie 0#3 (fun x => { x with recovery := true })).die 0#3).recovery = true) ∧
    (let s := booted id
     (s.die 0#3).dready.getLsbD 0 = false ∧ (s.table 0#7).task = none ∧ Marks.has (s.die 0#3).booting 0 = false ∧
       Marks.has (s.die 0#3).spent 0 = false ∧ ∀ n ∈ (s.die 0#3).faulty, n / 16 ≠ 0) ∧
    (((tiers State.reset).die 0#3).dready.getLsbD 16 = true ∧ ((runningTask false).table 0#7).task.isSome = true ∧
      Marks.has ((booted (fun x => { x with booting := [0], spent := [0] })).die 0#3).booting 0 = true ∧
      Marks.has ((booted (fun x => { x with booting := [0], spent := [0] })).die 0#3).spent 0 = true ∧
      ∃ n ∈ ((booted (fun x => { x with faulty := [3] })).die 0#3).faulty, n / 16 = 0) ∧
    (let s := booted (fun x => { x with booting := [0] })
     Marks.has (s.die 0#3).booting 0 = true ∧ s.tableEnded 0#7 = true ∧
       (∀ k ∈ (List.range 16).map (BitVec.ofNat 11), tableOf k = 0#7 ∧ ((s.core k).tower.scrub 0 8).2 = (0, 0)) ∧
       (s.modCore 0#11 (fun c => { c with front := { run := true } })).tableEnded 0#7 = false ∧
       bytesToNat ((s.core 0#11).tower.read 0 8) % 4 = 0 ∧
       bytesToNat ((s.modCore 0#11 (fun c => c.towerWrite 0 [1#8])).core 0#11 |>.tower.read 0 8) % 4 ≠ 0) ∧
    (let s := booted (fun x => { x with faulty := [3] })
     Marks.has (s.die 0#3).faulty (0 * 16 + 3) = true ∧ ((s.die 0#3).seatmap.get 0#8 0#4).getLsbD 7 = false ∧
       Marks.has (State.reset.die 0#3).faulty (0 * 16 + 3) = false ∧
       (((State.reset.modDie 0#3 (fun x => { x with seatmap := [(0#4, 0x83#8)] })).die 0#3).seatmap.get 0#8 0#4).getLsbD 7 = true) ∧
    ((State.reset.die 0#3).dready.getLsbD (18#5).toNat = false ∧ ((tiers State.reset).die 0#3).dready.getLsbD (18#5).toNat = true) ∧
    (18 ≤ (18#5).toNat ∧ (18#5).toNat ≤ 20 ∧ (20#5).toNat ≤ 20 ∧ (17#5).toNat < 18 ∧ 20 < (21#5).toNat ∧
      (0#5).toNat = 3 * (0#3).toNat + ((18#5).toNat - 18) ∧ (23#5).toNat = 3 * (7#3).toNat + ((20#5).toNat - 18)) ∧
    (State.reset.die 0#3).events = [] ∧
    ((State.reset.modDie 0#3 (fun x => { x with events := [{ source := 5, detail := 18 }] })).die 0#3).events = { source := 5, detail := 18 } :: [] ∧
    (State.reset.pkg.plim.toNat < 3201 ∧ 10 < State.reset.pkg.clock ∧ ({ clock := 10 } : Package).clock ≤ 10) ∧
    (3039 ≤ State.reset.pkg.plim.toNat ∧ 100 * 3039 < 95 * State.reset.pkg.plim.toNat ∧ 20 ≤ State.reset.pkg.clock ∧
      ({ clock := 19 } : Package).clock < 20) ∧
    (3040 ≤ State.reset.pkg.plim.toNat ∧ 95 * State.reset.pkg.plim.toNat ≤ 100 * 3040) := by
  refine ⟨fun r i => by cases Config.rsaVerifies r (Config.digest i.bytes) i.rsa <;>
    cases Config.slhVerifies r (Config.digest i.bytes) i.slh <;> simp, ?_, ?_, ?_, ?_, ?_, ?_, ?_, ?_, ?_, ?_, ?_, ?_⟩ <;> decide +kernel

theorem witness_HostEvents :
    (let s := tiers State.reset
     s.pkg.posted = [] ∧ s.hostTarget 0x1000000000000 8 = some (.ext false 0 2#3) ∧ s.extBlocked false 0 8 2#3 false = false ∧
       (∀ h ∈ unitsOf 0 8 2#3, (s.stack (tierStack false h.s)).lost h.pc h.r = false) ∧ s.extBlocked false 0 8 2#3 true = false ∧
       s.hostTarget 0xE000000000000 8 = some (.aperture 0#11 0) ∧ ((s.core 0#11).tower.scrub 0 8).2 = (0, 0) ∧
       s.hostTarget 0xF000000000008 8 = some (.die 0#3 8) ∧ s.hostTarget 0xF000000000008 4 = none ∧
       s.hostTarget (s.pkg.hwbase.toNat + (0x100000#36).toNat) 8 = none ∧
       s.hostTarget (0x0001000000000000#64).toNat ([1#8, 2#8] : List (BitVec 8)).length = some (.ext false 0 2#3) ∧ s.luReady = true) ∧
    (let s := (tiers State.reset).modStack 0#4 (fun y => { y with selfRefresh := true })
     let s := { s with pkg := { s.pkg with hwbase := 0x1000000000000#64 } }
     s.pkg.posted = [] ∧ s.hostTarget (s.pkg.hwbase.toNat + (0#36).toNat) 8 = some (.ext false 0 2#3) ∧
       s.extBlocked false 0 8 2#3 false = true ∧ s.extBlocked false 0 8 2#3 true = true ∧
       ({ posted := [.bar2 0#23 (.read 8)] } : Package).posted ≠ []) ∧
    ((0x8#20).toNat % 8 = 0 ∧ (0x4#20).toNat % 8 ≠ 0 ∧ 4 ≠ 8 ∧ (0x7FFFF8#23).toNat + 8 ≤ 2 ^ 23) ∧
    (let best (a b c d : Bool) : Option (Nat × Nat) := ([(a && c, 7, 16), (b && c, 6, 16), (a && d, 7, 8), (b && d, 6, 8)].find?
        (fun x => x.1)).map (fun x => x.2)
     (best true true true true).isSome = true ∧ best false false true true = none) ∧
    State.reset.luReady = false ∧ (List.replicate 32 1#8).length = 32 ∧ HostAnswer.abort ∈ [HostAnswer.unsupported, .abort, .poisoned] := by
  refine ⟨?_, ?_, ?_, ?_, ?_, ?_, ?_⟩ <;> decide +kernel

/-- A packet of core 0's die to device 1, waiting for its acknowledgement. -/
def packet (write : Bool) : FabricPacket :=
  { src := 0#14, dst := 1#14, cls := 0#2, key := 5#16, addr := 0x1000000000000#52, lane := 0#4, seq := 0, write := write, len := 8
    bytes := if write then List.replicate 8 1#8 else [], poison := [], die := 0#3, desc := 0 }
/-- A fabric with port 2 up, a route to device 1 over it, key 5 accepted, members 1 and 2, and this pair. -/
def fabric (p : Pair) : Fabric :=
  { routes := [(1#14, 0x501000004#64)], keys := [(0#4, 0x10005#64)], up := 4#24, fmdata := 0x10005#64
    members := [(1#6, 0x10001#64), (2#6, 0x10002#64)], pairs := [((1#14, 0#4), p)] }
def onFabric (p : Pair) : State := { tiers State.reset with fabric := fabric p }

theorem witness_FabricManagement :
    ({ fabric { port := 0#5 } with quiescing := true } : Fabric).quiescing = true ∧ (fabric { port := 0#5 }).quiescing = false ∧
    field 0x10#64 4 12 ≠ 0#64 ∧ field 0x40000000#64 30 34 ≠ 0#64 ∧
    (field 0x100F2#64 4 12 ≠ 0#64 ∧ field 0x100002#64 4 12 = 0#64 ∧ field 0x100002#64 30 34 = 0#64 ∧ (field 0x100002#64 0 4).toNat = 2 ∧
      (field 0x100002#64 16 14).toNat = 16 ∧ (field 0xF0003#64 16 14).toNat = 15) ∧
    (field 0x1000000000000#64 48 16 ≠ 0#64 ∧ field 0x10005#64 48 16 = 0#64 ∧ field 0x10005#64 25 7 = 0#64 ∧ field 0x10005#64 17 47 = 0#64 ∧
      field 0x20005#64 17 47 ≠ 0#64 ∧ field 0x10005#64 14 50 ≠ 0#64 ∧ field 5#64 14 50 = 0#64 ∧ field 0x10005#64 14 2 = 0#64) ∧
    ((∀ e ∈ State.reset.dies, e.2.descs = []) ∧
      ∃ e ∈ (State.reset.modDie 0#3 (fun x => { x with descs := [{ num := 0, home := 0, write := true, cls := 0#2, dst := 1#14, raddr := 0#52, laddr := 0#52, len := 8 }] })).dies,
        e.2.descs ≠ []) ∧
    ((∀ tb, ((onFabric { port := 2#5 }).table tb).task = none) ∧
      (∀ e ∈ (onFabric { port := 2#5 }).fabric.pairs, e.2.inflight = [] ∧ e.2.retry = [])) ∧
    (let s := (State.reset.modTable 0#7 (fun t => { t with task := some aTask })).modCore 0#11 (fun c => { c with replies := [{ tag := 0 }] })
     (s.table 0#7).task.isSome = true ∧ ∀ tb, (s.table tb).task.isSome = true → s.drained tb = false) ∧
    (let s := runningTask true
     let z : State := { s with launch := { s.launch with lspsize := 0#64 } }
     (s.table 0#7).task.isSome = true ∧ z.drained 0#7 = true ∧ z.launch.alloc (z.saveSize 0#7 []) = none) ∧
    (24 ≤ (24#5).toNat ∧ (2#5).toNat < 24) ∧
    (let f := fabric { port := 2#5, retry := [packet true] }
     (f.pair 1#14 0#4).retry ≠ [] ∧ (f.routes.get 0#64 1#14).getLsbD 24 = true ∧
       ((f.routes.get 0#64 1#14).truncate 24 : BitVec 24).getLsbD (2#5).toNat = true ∧ f.up.getLsbD (2#5).toNat = true ∧
       f.up.getLsbD (3#5).toNat = false ∧ (f.pair 1#14 0#4).retry = [packet true] ∧
       ((f.routes.get 0#64 1#14).truncate 24 : BitVec 24) &&& f.up ≠ 0#24 ∧ (f.routes.get 0#64 2#14).getLsbD 24 = false ∧
       ({ f with up := 0#24 } : Fabric).up = 0#24) ∧
    (let s := onFabric { port := 2#5 }
     s.podParties.cores.all (fun c => (s.podParties.arrivals s (7#3, 3#4) c).isEmpty) = true ∧ s.podMembers = [1#6, 2#6] ∧ 1#6 ∈ s.podMembers ∧ 3#6 ∉ s.podMembers ∧ s.podParties.full s (7#3, 3#4) = true ∧
       (∃ n ∈ s.podMembers, s.fabric.arrivals.get 0 (n, 3#4) = 0) ∧
       (∀ n ∈ s.podMembers, 0 < ({ s.fabric with arrivals := [((1#6, 3#4), 1), ((2#6, 3#4), 1)] } : Fabric).arrivals.get 0 (n, 3#4)) ∧
       (let t := (s.modTable 0#7 (fun t => { t with task := some aTask })).modCore 0#11 (fun c => { c with seat := { st := .seated } })
        let t : State := { t with fabric := { t.fabric with mask := [(0#2, 2#64)] } }
        t.podParties.full t (7#3, 3#4) = false ∧
          (let u := t.modCore 0#11 (fun c => { c with arrived := [(7#3, 3#4)] })
           u.podParties.full u (7#3, 3#4) = true ∧ 0#11 ∈ u.podParties.cores ∧ u.podParties.arrivals u (7#3, 3#4) 0#11 ≠ []))) := by
  refine ⟨?_, ?_, ?_, ?_, ?_, ?_, ?_, ?_, ?_, ?_, ?_, ?_, ?_⟩ <;> decide +kernel

/-- A descriptor of eight bytes from the near tier to device 1. -/
def desc (write : Bool) : FabDesc :=
  { num := 0, home := 0x1000000000000, write := write, cls := 0#2, dst := 1#14, raddr := 0x1000000000000#52, laddr := 0x1000000001000#52, len := 8 }
def sending (p : Pair) (x : FabDesc) : State := (onFabric p).modDie 0#3 (fun y => { y with descs := [x] })

theorem witness_FabricTransfers :
    (let w : List Word := [0x10000#64, 0x1000000000000#64, 0x1000000001000#64, 8#64]
     let s := onFabric { port := 2#5 }
     let s := (s.extWrite false 0 2#3 (w.flatMap (fun v => natToBytes 8 v.toNat))).modDie 0#3 (fun x =>
       { x with fqbase := 0x1000000000000#64, fqtail := 1#7 })
     let x := s.die 0#3
     x.fqhead ≠ x.fqtail ∧ s.fabric.quiesced = false ∧ s.fabric.quiescing = false ∧
       tierOf (x.fqbase.toNat + 32 * x.fqhead.toNat) = some (false, 0) ∧ s.tierUsable false = true ∧ s.extBlocked false 0 32 2#3 false = false ∧
       (∀ h ∈ unitsOf 0 32 2#3, (s.stack (tierStack false h.s)).lost h.pc h.r = false) ∧
       wordsOf 4 (s.physRead 0x1000000000000 32) = w ∧ s.fabRegion 0x1000000001000 8 = true) ∧
    (State.reset.die 0#3).fqhead = (State.reset.die 0#3).fqtail ∧
    (2 ≤ (field 2#64 0 2).toNat ∧ field 0x10000#64 4 12 = 0#64) ∧
    (let x := { desc true with sent := 8 }
     let s := sending { port := 2#5 } x
     (s.die 0#3).descs[0]? = some x ∧ x.open_ = 0 ∧ x.sent = x.len ∧ (desc true).sent ≠ (desc true).len ∧ (desc true).status = 1#8 ∧
       (s.unitWrite (x.home + 28) [1#8]).isSome = true) ∧
    (let s := sending { port := 2#5 } (desc true)
     let f := s.fabric
     (s.die 0#3).descs[0]? = some (desc true) ∧ (desc true).status = 1#8 ∧ (desc true).sent < (desc true).len ∧
       (f.pair 1#14 (hashLane (desc true).raddr)).retry = [] ∧ (f.pair 1#14 (hashLane (desc true).raddr)).inflight = [] ∧
       ((f.routes.get 0#64 1#14).truncate 24 : BitVec 24).getLsbD (2#5).toNat = true ∧ f.up.getLsbD (2#5).toNat = true ∧
       ((f.routes.get 0#64 1#14).truncate 24 : BitVec 24).getLsbD (3#5).toNat = false ∧
       s.fabRegion 0x1000000001000 8 = true ∧ s.fabHeld 0x1000000001000 8 false = false ∧ s.fabRegion 0x100000 8 = false ∧
       f.quiescing = false ∧ f.quiesced = false ∧ (∀ y ∈ (s.die 0#3).descs.take 0, y.owes 1#14 0#4 = false) ∧
       (let z := s.modDie 0#3 (fun x => { x with descs := [desc true, desc false] })
        (z.die 0#3).descs[1]? = some (desc false) ∧ ∃ y ∈ (z.die 0#3).descs.take 1, y.owes 1#14 (hashLane (desc true).raddr) = true)) ∧
    (let p := { packet true with src := 1#14, dst := 0#14 }
     let s := onFabric { port := 2#5 }
     p.dst = s.fabric.id ∧ (∀ q ∈ s.fabric.performed, q.1 ≠ p.src) ∧ s.fabric.inbound = [] ∧ p.len = p.bytes.length ∧ s.fabRegion p.addr.toNat 8 = true ∧
       (∃ i, (s.fabric.keys.get 0#64 i).getLsbD 16 = true ∧ (s.fabric.keys.get 0#64 i).truncate 16 = p.key) ∧
       (¬∃ i, (s.fabric.keys.get 0#64 i).getLsbD 16 = true ∧ (s.fabric.keys.get 0#64 i).truncate 16 = 6#16) ∧
       s.fabHeld p.addr.toNat 8 true = false ∧ (packet true).dst ≠ s.fabric.id ∧
       (p.src, p.dst, p.lane, p.seq) ∈ [(1#14, 0#14, 0#4, 0)] ∧
       (s.modStack 0#4 (fun y => { y with selfRefresh := true })).fabHeld p.addr.toNat 8 true = true ∧
       (∀ q ∈ [(p, true)], p.src = q.1.src ∧ p.dst = q.1.dst ∧ p.lane = q.1.lane ∧ ({ p with seq := 1 } : FabricPacket).seq ≠ q.1.seq) ∧
       ∃ q ∈ [(p, true)], p.seq = q.1.seq) ∧
    (∀ w ∈ [true, false],
     let s := sending { port := 2#5, inflight := [packet w] } { desc w with sent := 8, open_ := 1 }
     let p := s.fabric.pair 1#14 0#4
     s.fabric.quiescing = false ∧ (p.inflight ++ p.retry).find? (fun x => decide (x.seq = (packet w).seq)) = some (packet w) ∧
       (s.die (packet w).die).descs.find? (fun y => decide (y.num = (packet w).desc)) = some { desc w with sent := 8, open_ := 1 } ∧
       (packet w).write = w ∧ s.fabRegion 0x1000000001000 8 = true ∧ s.fabHeld 0x1000000001000 8 true = false ∧
       s.fabRegion 0xFFFFC 8 = false) := by
  refine ⟨?_, ?_, ?_, ?_, ?_, ?_, ?_⟩ <;> decide +kernel

end Sys2Proof.Tests
end

/-! The host link, host accesses, host memory and register writes (R8, R420, R437 to R440, R451, R452): one rule for each
operation, and the statement of the host's events put together from them. -/

namespace Sys2Proof.Machine

/-! ## Words and dies -/

/-- The kept bits of a word are those under a mask. -/
theorem keepBits_eq_and (w : Word) (lo len : Nat) :
    keepBits w lo len = w &&& (BitVec.ofNat 64 (2 ^ len - 1) <<< lo) := by
  refine BitVec.eq_of_getLsbD_eq fun i hi => ?_
  by_cases h : i < lo
  · simp [keepBits, field, h]
  · have e : lo + (i - lo) = i := by omega
    simp [keepBits, field, h, hi, e]

/-- Of two changes of a die the second acts on what the first left. -/
theorem State.modDie_modDie (s : State) (d : DieId) (f g : Die → Die) :
    (s.modDie d f).modDie d g = s.modDie d (fun x => g (f x)) := by
  show (s.modDie d f).setDie d (g ((s.modDie d f).die d)) = _
  rw [State.die_modDie]
  simp [State.modDie, State.setDie, Bank.set_set]

/-- A ready bit that is set clears with its event; one that is clear changes nothing. -/
theorem clearReady_eq (d : DieId) (i : Nat) (s : State) :
    clearReady d i s = if (s.die d).dready.getLsbD i then
      s.modDie d (fun x => { x with dready := x.dready &&& ~~~(1#24 <<< i), events := x.events ++ [{ source := 5, detail := i }] })
    else s := by
  unfold clearReady State.event
  rw [State.modDie_modDie]
  rfl

/-! ## The host link (R437) -/

/-- The link trains at the first of the four pairs, best first, that both ends can. -/
theorem linkOf_eq_find : ∀ gen7 gen6 x16 x8 : Bool, linkOf gen7 gen6 x16 x8 =
    ([(gen7 && x16, 7, 16), (gen6 && x16, 6, 16), (gen7 && x8, 7, 8), (gen6 && x8, 6, 8)].find? (fun c => c.1)).map (fun c => c.2) := by
  decide

/-- The package with the link as it trained. -/
def State.setLink (s : State) (l : Option HostLink) : State := { s with pkg := { s.pkg with link := l } }

/-- A link that trains at b sets HOST (R437, R441). -/
theorem exec_hostLinkTraining_trained (host : HostKind) (gen7 gen6 x16 x8 : Bool) (b : Nat × Nat) (s : State)
    (h : linkOf gen7 gen6 x16 x8 = some b) :
    exec (.hostLinkTraining ⟨host, gen7⟩ gen6 x16 x8) s =
      .next ((s.setLink (some { gen := b.1, width := b.2, host := host })).modDie 0#3
        (fun x => { x with dready := x.dready ||| 0x800000#24 })) := by
  rw [exec_hostLinkTraining]
  simp only [execHostLinkTraining, h, Option.map_some, Option.isSome_some, if_true]
  rfl

/-- A link that cannot train is lost, and HOST clears as any ready bit does (R437, R441). -/
theorem exec_hostLinkTraining_lost (host : HostKind) (gen7 gen6 x16 x8 : Bool) (s : State)
    (h : linkOf gen7 gen6 x16 x8 = none) :
    exec (.hostLinkTraining ⟨host, gen7⟩ gen6 x16 x8) s = .next (clearReady 0#3 23 (s.setLink none)) := by
  rw [exec_hostLinkTraining]
  simp only [execHostLinkTraining, h, Option.map_none, Option.isSome_none, Bool.false_eq_true, if_false]
  rfl

/-! ## Requests of the host in their order (R430, R439) -/

/-- The request joins those that wait. -/
def State.postpone (s : State) (r : HostReq) : State := { s with pkg := { s.pkg with posted := s.pkg.posted ++ [r] } }

/-- A request never passes those that wait. -/
theorem hostPost_behind (r : HostReq) (s : State) (h : s.pkg.posted ≠ []) : hostPost r s = s.postpone r := by
  simp [hostPost, State.postpone, h]

/-- A request that a stack holds back begins the queue. -/
theorem hostPost_held (r : HostReq) (s : State) (h : s.pkg.posted = []) (hd : hostDo r s = none) :
    hostPost r s = s.postpone r := by
  simp [hostPost, State.postpone, h, hd]

/-- A request with none before it that can be performed is performed. -/
theorem hostPost_done (r : HostReq) (s u : State) (h : s.pkg.posted = []) (hd : hostDo r s = some u) : hostPost r s = u := by
  simp [hostPost, h, hd]

/-- A BAR4 access that nothing stands before and nothing holds back is performed at once. -/
theorem exec_hostBar4Access_done (off : BitVec 36) (acc : HostAccess) (s u : State) (h : s.pkg.posted = [])
    (ha : hostAccess off acc s = some u) : exec (.hostBar4Access off acc) s = .next u :=
  congrArg Host.Outcome.next (hostPost_done (.bar4 off acc) s u h ha)

/-- A BAR4 access that a stack holds back joins the queue. -/
theorem exec_hostBar4Access_held (off : BitVec 36) (acc : HostAccess) (s : State) (h : s.pkg.posted = [])
    (ha : hostAccess off acc s = none) : exec (.hostBar4Access off acc) s = .next (s.postpone (.bar4 off acc)) :=
  congrArg Host.Outcome.next (hostPost_held (.bar4 off acc) s h ha)

/-! ## Reads that find nothing to mend (R205, R232) -/

/-- A unit that is not lost needs no repair. -/
theorem State.repairUnit_of_intact (s : State) (far : Bool) (x : Home)
    (h : (s.stack (tierStack far x.s)).lost x.pc x.r = false) : s.repairUnit far x = s := by
  simp only [State.repairUnit, h, Bool.false_eq_true, if_false]

/-- A read that meets no lost unit changes nothing. -/
theorem State.extTouch_of_intact (s : State) (far : Bool) (t n : Nat) (il : BitVec 3)
    (h : ∀ x ∈ unitsOf t n il, (s.stack (tierStack far x.s)).lost x.pc x.r = false) : s.extTouch far t n il = s := by
  unfold State.extTouch
  generalize unitsOf t n il = units at h
  induction units with
  | nil => rfl
  | cons x rest ih =>
    rw [List.foldl_cons, State.repairUnit_of_intact s far x (h x (by simp))]
    exact ih fun y hy => h y (by simp [hy])

/-- A read that meets no wrong check bits changes nothing. -/
theorem State.scrubTower_of_clean (s : State) (k : CoreId) (o n : Nat) (h : ((s.core k).tower.scrub o n).2 = (0, 0)) :
    s.scrubTower k o n = s := by
  simp [State.scrubTower, h]

/-! ## What an access through BAR4 does, by what it reaches (R439) -/

section
variable (off : BitVec 36) (n : Nat) (bs : List (BitVec 8)) (far : Bool) (t : Nat) (il : BitVec 3) (k : CoreId) (d : DieId)
  (o : Nat) (s : State)

theorem hostAccess_read_nowhere (h : s.hostTarget (s.pkg.hwbase.toNat + off.toNat) n = none) :
    hostAccess off (.read n) s = some (s.answerHost none) := by
  simp only [hostAccess, h]

theorem hostAccess_write_nowhere (h : s.hostTarget (s.pkg.hwbase.toNat + off.toNat) bs.length = none) :
    hostAccess off (.write bs) s = some (s.answerHost none) := by
  simp only [hostAccess, h]

theorem hostAccess_read_ext (h : s.hostTarget (s.pkg.hwbase.toNat + off.toNat) n = some (.ext far t il)) :
    hostAccess off (.read n) s = if s.extBlocked far t n il false then none
      else some ((s.extTouch far t n il).answerHost (some ((s.extTouch far t n il).extRead far t n il))) := by
  simp only [hostAccess, h]

theorem hostAccess_write_ext (h : s.hostTarget (s.pkg.hwbase.toNat + off.toNat) bs.length = some (.ext far t il)) :
    hostAccess off (.write bs) s = if s.extBlocked far t bs.length il true then none
      else some ((s.extWrite far t il bs).answerHost (some [])) := by
  simp only [hostAccess, h]

theorem hostAccess_read_aperture (h : s.hostTarget (s.pkg.hwbase.toNat + off.toNat) n = some (.aperture k o)) :
    hostAccess off (.read n) s =
      some ((s.scrubTower k o n).answerHost (some (((s.scrubTower k o n).core k).tower.read o n))) := by
  simp only [hostAccess, h]

theorem hostAccess_write_aperture (h : s.hostTarget (s.pkg.hwbase.toNat + off.toNat) bs.length = some (.aperture k o)) :
    hostAccess off (.write bs) s = some ((s.modCore k (fun c => c.towerWrite o bs)).answerHost (some [])) := by
  simp only [hostAccess, h]

theorem hostAccess_read_die (h : s.hostTarget (s.pkg.hwbase.toNat + off.toNat) n = some (.die d o)) :
    hostAccess off (.read n) s = some (s.answerHost (some (natToBytes 8 (s.dieRead d o).toNat))) := by
  simp only [hostAccess, h]

theorem hostAccess_write_die (h : s.hostTarget (s.pkg.hwbase.toNat + off.toNat) bs.length = some (.die d o)) :
    hostAccess off (.write bs) s =
      some ((s.dieWrite d o (BitVec.ofNat 64 (bytesToNat bs))).answerHost (some [])) := by
  simp only [hostAccess, h]

end

/-! ## Accesses through BAR0 and BAR2 (R420, R439, R451) -/

/-- A read of BAR0 that is not an aligned one of eight bytes gives zeros. -/
theorem hostBar0_read_misfit (off n : Nat) (s : State) (h : n ≠ 8 ∨ off % 8 ≠ 0) :
    hostBar0 off (.read n) s = some (s.answerHost (some (List.replicate n 0#8))) := by
  have h' : ¬(n = 8 ∧ off % 8 = 0) := by omega
  simp only [hostBar0, if_neg h']

/-- A write of BAR0 that is not an aligned one of eight bytes is ignored. -/
theorem hostBar0_write_misfit (off : Nat) (bs : List (BitVec 8)) (s : State) (h : bs.length ≠ 8 ∨ off % 8 ≠ 0) :
    hostBar0 off (.write bs) s = some s := by
  have h' : ¬(bs.length = 8 ∧ off % 8 = 0) := by omega
  simp only [hostBar0, if_neg h']

/-- An aligned read of eight bytes of BAR0 gives the register. -/
theorem hostBar0_read_register (off : Nat) (s : State) (h : off % 8 = 0) :
    hostBar0 off (.read 8) s = some (s.answerHost (some (natToBytes 8 (s.bar0Read off).toNat))) := by
  simp only [hostBar0, h, and_self, if_true]

/-- A read inside BAR2 gives the bytes of scheduler memory. -/
theorem hostBar2_read_inside (off n : Nat) (s : State) (h : off + n ≤ 2 ^ 23) :
    hostBar2 off (.read n) s = s.answerHost (some (Memory.read s.launch.mem off n)) := by
  have h' : n ≤ schedSize - off := by unfold schedSize; omega
  simp only [hostBar2, Nat.min_eq_left h']

/-- A write inside BAR2 stores all its bytes in scheduler memory. -/
theorem hostBar2_write_inside (off : Nat) (bs : List (BitVec 8)) (s : State) (h : off + bs.length ≤ 2 ^ 23) :
    hostBar2 off (.write bs) s = { s with launch := { s.launch with mem := Memory.write s.launch.mem off bs } } := by
  have h' : bs.length ≤ schedSize - off := by unfold schedSize; omega
  simp only [hostBar2, List.take_of_length_le h']

/-! ## Host memory (R438) -/

/-- A sector answered with data holds these bytes, and no failing completion is marked for it any more. -/
theorem exec_hostMemoryRequest_data (off : BitVec 50) (bs : List (BitVec 8)) (s : State) (hb : bs.length = 32) :
    exec (.hostMemoryRequest off (.data bs)) s = .next { s with host := { s.host with
      cells := Memory.write s.host.cells (32 * (off.toNat / 32)) bs, bad := s.host.bad.erase (off.toNat / 32) } } := by
  rw [exec_hostMemoryRequest]
  simp only [execHostMemoryRequest, List.take_of_length_le (Nat.le_of_eq hb)]

/-- A sector whose requests fail is marked with the completion they get. -/
theorem exec_hostMemoryRequest_bad (off : BitVec 50) (ans : HostAnswer) (s : State)
    (ha : ans ∈ [HostAnswer.unsupported, .abort, .poisoned]) :
    exec (.hostMemoryRequest off ans) s =
      .next { s with host := { s.host with bad := s.host.bad.set (off.toNat / 32) (some ans) } } := by
  rw [exec_hostMemoryRequest]
  simp only [List.mem_cons, List.not_mem_nil, or_false] at ha
  obtain rfl | rfl | rfl := ha <;> rfl

/-! ## Register writes (R8) -/

section
variable (v : Word) (s : State)

theorem writeReg_tiva (d : DieId) : writeReg (.tiva d) v s = s.modDie d (fun x => { x with tiva := v &&& 0x00FFFFFFFFFFF000#64 }) := by
  simp [writeReg, State.dieWrite, keepBits_eq_and]

theorem writeReg_tilen (d : DieId) : writeReg (.tilen d) v s = s.modDie d (fun x => { x with tilen := v &&& 0xFFFFFFFF#64 }) := by
  simp [writeReg, State.dieWrite, keepBits_eq_and]

theorem writeReg_asdt (d : DieId) : writeReg (.asdt d) v s = s.modDie d (fun x => { x with asdt := v &&& 0x000FFFFFFFFFF000#64 }) := by
  simp [writeReg, State.dieWrite, keepBits_eq_and]

theorem writeReg_fqbase (d : DieId) :
    writeReg (.fqbase d) v s = s.modDie d (fun x => { x with fqbase := v &&& 0x000FFFFFFFFFF000#64 }) := by
  simp [writeReg, State.dieWrite, keepBits_eq_and]

theorem writeReg_hwbase :
    writeReg .hwbase v s = { s with pkg := { s.pkg with hwbase := v &&& 0x000FFFF000000000#64 } } := by
  simp [writeReg, keepBits_eq_and]

/-- LSPBASE is written once the launch unit is ready (log entry 39). -/
theorem writeReg_lspbase : writeReg .lspbase v s =
    if s.luReady then { s with launch := { s.launch with lspbase := v &&& 0x000FFFFFFFFF0000#64 } } else s := by
  simp [writeReg, keepBits_eq_and]

/-- LSPSIZE is written once the launch unit is ready (log entry 39). -/
theorem writeReg_lspsize : writeReg .lspsize v s =
    if s.luReady then { s with launch := { s.launch with lspsize := v &&& 0x0000FFFFFFFF0000#64 } } else s := by
  simp [writeReg, keepBits_eq_and]

/-- A register without writable bits ignores a write. -/
theorem writeReg_readOnly (d : DieId) (g : BitVec 6) : ∀ r ∈ [DevReg.tistat d, .pkgid d, .dready d, .seatmap0 d, .seatmap1 d,
    .fqhead d, .lgstat, .gencnt g, .fmstat, .fmid], writeReg r v s = s := by
  simp [writeReg]

end

/-! ## The statement -/

/-- Settles O58: the link by `linkOf_eq_find`, each access by what it reaches once its turn has come, each register by
the mask of its writable fields. -/
theorem hostEvents : Obligations.HostEvents := by
  unfold Obligations.HostEvents
  refine ⟨?link, ?queue, ?bar4, ?bar02, ?memory, ?registers⟩
  case link =>
    intro gen7 gen6 x16 x8 host s
    rw [← linkOf_eq_find]
    refine ⟨fun h => ?_, fun h => ?_⟩
    · obtain ⟨b, hb⟩ := Option.isSome_iff_exists.mp h
      rw [exec_hostLinkTraining_trained host gen7 gen6 x16 x8 b s hb, hb]
      rfl
    · rw [exec_hostLinkTraining_lost host gen7 gen6 x16 x8 s h, clearReady_eq, h]
      rfl
  case queue =>
    intro off acc s
    refine ⟨fun h => congrArg Host.Outcome.next (hostPost_behind (.bar4 off acc) s h), fun h far t il => ⟨?_, ?_⟩⟩
    · rintro n rfl ht hb
      exact exec_hostBar4Access_held off _ s h (by rw [hostAccess_read_ext off n far t il s ht, if_pos hb])
    · rintro bs rfl ht hb
      exact exec_hostBar4Access_held off _ s h (by rw [hostAccess_write_ext off bs far t il s ht, if_pos hb])
  case bar4 =>
    intro off len bs s h pa n answers
    refine ⟨fun ht => ?_, fun ht => ?_, fun far t il ht hb hl => ?_, fun far t il ht hb => ?_, fun k o ht hc => ?_,
      fun k o ht => ?_, fun d o ht => ?_, fun d o ht => ?_⟩ <;> refine exec_hostBar4Access_done off _ s _ h ?_
    · exact hostAccess_read_nowhere off len s ht
    · exact hostAccess_write_nowhere off bs s ht
    · rw [hostAccess_read_ext off len far t il s ht, State.extTouch_of_intact s far t len il hl, hb]
      rfl
    · rw [hostAccess_write_ext off bs far t il s ht, hb]
      rfl
    · rw [hostAccess_read_aperture off len k o s ht, State.scrubTower_of_clean s k o len hc]
      rfl
    · exact hostAccess_write_aperture off bs k o s ht
    · exact hostAccess_read_die off len d o s ht
    · exact hostAccess_write_die off bs d o s ht
  case bar02 =>
    intro off off2 n bs s h answers
    refine ⟨fun hn => ?_, fun hn => ?_, fun ho => ?_, fun hn => ?_, fun hn => ?_⟩ <;> refine hostPost_done _ s _ h ?_
    · exact hostBar0_read_misfit off.toNat n s hn
    · exact hostBar0_write_misfit off.toNat bs s hn
    · exact hostBar0_read_register off.toNat s ho
    · exact congrArg some (hostBar2_read_inside off2.toNat n s hn)
    · exact congrArg some (hostBar2_write_inside off2.toNat bs s hn)
  case memory =>
    intro off s sec
    refine ⟨fun bs hb => ⟨_, exec_hostMemoryRequest_data off bs s hb, Bank.get_erase_same _ _ _, ?_, ?_, ?_⟩,
      fun ans ha => ⟨_, exec_hostMemoryRequest_bad off ans s ha, Bank.get_set_same _ _ _ _, rfl, ?_⟩⟩
    · have hr := Memory.read_write s.host.cells (32 * sec) bs
      rwa [hb] at hr
    · exact fun a ha => Memory.get_write_outside _ _ _ _ (by rwa [hb])
    · exact fun sec' hne => Bank.get_erase_ne _ _ _ _ hne
    · exact fun sec' hne => Bank.get_set_ne _ _ _ _ _ hne
  case registers =>
    intro d g v s put
    have put_of {r : DevReg} {u : State} (h : writeReg r v s = u) : put r u := congrArg Host.Outcome.next h
    refine ⟨put_of (writeReg_tiva v s d), put_of (writeReg_tilen v s d), put_of (writeReg_asdt v s d),
      put_of (writeReg_fqbase v s d), put_of (writeReg_hwbase v s), put_of rfl, fun hl => ⟨put_of ?_, put_of ?_⟩,
      fun hl => ⟨put_of ?_, put_of ?_⟩, fun r hr => put_of (writeReg_readOnly v s d g r hr)⟩
    · rw [writeReg_lspbase, if_pos hl]
    · rw [writeReg_lspsize, if_pos hl]
    · rw [writeReg_lspbase, hl]
      rfl
    · rw [writeReg_lspsize, hl]
      rfl

end Sys2Proof.Machine

/-! Encodings read back from a bundle (R35 to R38, R43, R58): the slots that a bundle holds, what the decoder reads where an
instruction's encoding stands, and the walk over a bundle laid out from slot 1. -/

namespace Sys2Proof.Laws.Encoding

/-- The decoder reads back the slots of every instruction. -/
theorem statement_of_instr (i : Instr) : Statement i := by
  cases i <;> simp only [nop, add, sub, mul, mulhI, mulhN, divI, divN, remI, remN, and, or, xor, andn, sll, srl, sra, rol, fsh,
    clz, ctz, ffs, popc, bswap, minI, minN, maxI, maxN, seq, sne, sltI, sltN, sleI, sleN, sel, addi, andi, ori, xori, slli, srli,
    srai, roli, seqi, sltiI, sltiN, muli, li, lip, fadd, fsub, fmul, ffma, fdiv, fsqrt, fmin, fmax, feq, flt, fle, fcvt, fneg,
    fabs, beq, bne, bltI, bltN, bgeI, bgeN, brx, loop, fold, join, seat, jmp, call, ret, ldI8, ldN8, ldI16, ldN16, ldI32, ldN32,
    ldI64, stI8, stI16, stI32, stI64, amo, bind, unbind, acqX, acqS, rel, fence, bar, iflush, tlook, tset, tclr, rowpin, rowwb,
    rowrel, ringInit, ringAcq, ringRel, shld, shset, shget, mfs, mts, trap, sys, eret, halt, refdefer, poison, vNop, vAdd, vSub,
    vMul, vFma, vMin, vMax, vAbs, vNeg, vDiv, vSqrt, vRcp, vRsqrt, vExp2, vLog2, vTanh, vIadd, vIsub, vImul, vImin, vNmin, vImax,
    vNmax, vIabs, vAnd, vOr, vXor, vNot, vShl, vShr, vSar, vFsh, vClz, vPopc, vFfs, vShli, vShri, vSari, vRshr, vFeq, vFlt, vFle,
    vIeq, vIlt, vNlt, vSel, vCvtIf, vCvtFi, vCvtFf, vQnt, vDp4, vRadd, vRmax, vRmin, vScan, vPerm, vBcast, vIns, vExt, vLse, vCex,
    vSeed, vLd, vSt, vLdu, vStu, vStm, vGth, vSct, pAnd, pOr, pXor, pAndn, pNot, pCnt, mNop, mMma, mMmaI, mMmaK4, mScacc, mZero,
    mSwap, mDrain, mDrainAmax, mKat, mChk, mEpi, mEpiLd, mGang, mAcct, dNop, dCopy, dCopyRg, dBcast, dStore, dSpill, dFill, dAtom,
    dAtomNr, dAfence, dQpost, dQget, dAppend, dPref, dTfill, fNop, fFur, fFurQm, fSys, fHead, fRing, fGbcast, dealerFetch,
    privateFetch, instructionHandOver, joinComplete, vacancyRule, instructionStart, instructionRetire, tokdead, tokdeadEvent,
    gangStart, gangCompletion, trapEntry, interruptRequest, intr, automaticRefetch, subarrayRefresh, forcedRefresh,
    towerOverTemperature, acquireFill, acquireDrain, drillLineBeat, readPacket, writePacket, atomicPacket, appendPacket,
    parityDelta, packetReply, spareLayerMigration, migrationRowCopy, precharge, criticalTemperatureRise, criticalTemperatureFall,
    thermalHold, translationWalk, tictlGo, shootdownComplete, objectGrant, fenceComplete, barrierComplete, attentionPosition,
    queryPacket, tripleWrite, preemptionRequest, preemptionDrainComplete, taskResume, ltrig, lgregRegister, lgregUnregister,
    labort, lerrClear, instanceStart, nodePlace, nodeComplete, powerOnReset, coreReset, firmwareVerify, spdmMeasurement,
    spareCoreTakeover, hostLinkTraining, readyBitClear, ipost, eventForward, plim, powerCapInterval, hostBar4Access,
    hostMemoryRequest, fmWriteRoute, fmReadRoute, fmWriteKey, fmReadKey, fmSetId, fmWritePodMember, fmWriteGraphMask, fmQuiesce,
    fmResume, fmlinkClear, fqtail, descriptorStart, descriptorComplete, fabricPacketSend, fabricPacketArrival, portLinkUp,
    portFailure, packetResend, laneTimeout, podBarrierArrival, registerWrite, towerTemperatureFall, stackTraining, markedFailed,
    endToEndAcknowledgement, hostDoorbell]

/-- A token word is read back (R43). -/
theorem tok_ofWord_toWord (t : Tok) : Tok.ofWord t.toWord = some t := by
  obtain ⟨post, w0, w1, w2, ts, ka⟩ := t
  have h : ∀ b : Bool, bit1 (ofBool1 b) = b := by decide
  refine (if_pos (lo it)).trans (congrArg some ?_)
  congr 1
  · exact up (up (up (up (up (up it)))))
  · exact up (up (up (up (up (lo it)))))
  · exact up (up (up (up (lo it))))
  · exact up (up (up (lo it)))
  · exact (congrArg bit1 (up (up (lo it)))).trans (h ts)
  · exact (congrArg bit1 (up (lo it))).trans (h ka)

end Sys2Proof.Laws.Encoding

namespace Sys2Proof

open Laws.Encoding

/-- These slots with their routing codes stand in a bundle from slot k on. -/
def Holds (b : BitVec 256) (k : Nat) (l : List (BitVec 4 × BitVec 32)) : Prop :=
  ∀ j x, l[j]? = some x → bundleCode b (k + j) = x.1 ∧ bundleSlot b (k + j) = x.2

/-- A bundle is empty from slot k on (R38). -/
def EmptyFrom (b : BitVec 256) (k : Nat) : Prop := ∀ j, k ≤ j → j ≤ 7 → bundleCode b j = 0#4 ∧ bundleSlot b j = 0#32

section
variable {b : BitVec 256} {k fuel : Nat} {e : Engine} {i : Instr} {l : List (BitVec 4 × BitVec 32)}

theorem Holds.right {l' : List (BitVec 4 × BitVec 32)} (h : Holds b k (l ++ l')) : Holds b (k + l.length) l' := fun j x hj => by
  rw [Nat.add_assoc]
  exact h (l.length + j) x (by simpa [List.getElem?_append_right] using hj)

theorem Holds.left {l' : List (BitVec 4 × BitVec 32)} (h : Holds b k (l ++ l')) : Holds b k l := fun j x hj =>
  h j x ((List.getElem?_append_left (List.getElem?_eq_some_iff.mp hj).1).trans hj)

theorem Holds.head {x : BitVec 4 × BitVec 32} (h : Holds b k (x :: l)) : bundleCode b k = x.1 ∧ bundleSlot b k = x.2 :=
  h 0 x rfl

/-- A bundle laid out from slot 1 holds its slots there (R35). -/
theorem holds_bundleOf (h : l.length ≤ 7) : Holds (bundleOf l) 1 l := fun j x hj => by
  have hlt := (List.getElem?_eq_some_iff.mp hj).1
  have e : l.getD (1 + j - 1) (0#4, 0#32) = x := by rw [Nat.add_sub_cancel_left, List.getD, hj]; rfl
  rw [bundleCode_bundleOf l (1 + j) (by omega) (by omega), bundleSlot_bundleOf l (1 + j) (by omega) (by omega), e]
  exact ⟨rfl, rfl⟩

/-- Past its slots, a bundle laid out from slot 1 is empty (R35). -/
theorem emptyFrom_bundleOf (l : List (BitVec 4 × BitVec 32)) : EmptyFrom (bundleOf l) (1 + l.length) := fun j h1 h2 => by
  have e : l.getD (j - 1) (0#4, 0#32) = (0#4, 0#32) := by
    rw [List.getD, List.getElem?_eq_none (by omega)]; rfl
  rw [bundleCode_bundleOf l j (by omega) h2, bundleSlot_bundleOf l j (by omega) h2, e]
  exact ⟨rfl, rfl⟩

theorem EmptyFrom.tokenAt (h : EmptyFrom b k) : tokenAt b k = none := by
  refine if_neg fun ⟨h7, hc⟩ => ?_
  rw [(h k (Nat.le_refl k) h7).1] at hc
  exact absurd hc (by decide)

/-- The slots of an instruction's encoding (R38). -/
theorem encode_eq (he : i.engine? = some e) :
    encode i = (e.code, encodeFirst i) :: ((encodeImms i).map (fun w => (i.immCode, w)) ++ (i.tok?.map (fun t => (8#4, t.toWord))).toList) := by
  rw [encode, he]
  cases i.tok? <;> rfl

theorem length_encode (he : i.engine? = some e) : (encode i).length = i.slots := by
  rw [encode_eq he, Instr.slots]
  cases i.tok? <;> simp <;> omega

/-- The first slot of an instruction's encoding, with its engine's routing code (R37). -/
theorem Holds.first (hh : Holds b k (encode i)) (he : i.engine? = some e) :
    bundleCode b k = e.code ∧ bundleSlot b k = encodeFirst i := by
  rw [encode_eq he] at hh
  exact hh.head

/-- The immediate slots of an instruction's encoding, each with its routing code. -/
theorem Holds.imm (hh : Holds b k (encode i)) (he : i.engine? = some e) {j : Nat} (hj : j < (encodeImms i).length) :
    bundleCode b (k + (j + 1)) = i.immCode ∧ bundleSlot b (k + (j + 1)) = immAt i j := by
  refine hh (j + 1) (i.immCode, immAt i j) ?_
  rw [encode_eq he, List.getElem?_cons_succ, List.getElem?_append_left (by simpa using hj)]
  simp [immAt, hj]

/-- The word that the decoder takes for an immediate slot is that slot, or zero past the last. -/
theorem Holds.immAt_eq (hh : Holds b k (encode i)) (he : i.engine? = some e) (j : Nat) :
    (if j + 1 ≤ (encodeImms i).length then bundleSlot b (k + (j + 1)) else 0#32) = immAt i j := by
  split
  case isTrue h => exact (hh.imm he h).2
  case isFalse h => simp [immAt, List.getElem?_eq_none (Nat.le_of_not_lt h)]

/-- The token word of an instruction's encoding is read back; without one, whatever stands behind decides (R43). -/
theorem Holds.tokenAt (hh : Holds b k (encode i)) (he : i.engine? = some e) (hk : k + i.slots ≤ 8)
    (hend : i.tok? = none → tokenAt b (k + i.slots) = none) :
    tokenAt b (k + (encodeImms i).length + 1) = i.tok?.map some := by
  cases ht : i.tok? with
  | none => simpa [Instr.slots, ht, Nat.add_assoc, Nat.add_comm, Nat.add_left_comm] using hend ht
  | some t =>
    have h := hh ((encodeImms i).length + 1) (8#4, t.toWord) (by rw [encode_eq he, ht]; simp)
    have h7 : k + (encodeImms i).length + 1 ≤ 7 := by simp [Instr.slots, ht] at hk; omega
    rw [← Nat.add_assoc] at h
    simp [Sys2Proof.tokenAt, h.1, h.2, h7, tok_ofWord_toWord]

/-- Where an instruction's encoding stands, with a slot that is no token word behind it when it carries none, the decoder reads
the instruction with its slots (R38, R51 to R60). -/
theorem decodeAt_of_holds (he : i.engine? = some e) (hwf : i.wf = true) (hg : i.isGang = false) (hk : k + i.slots ≤ 8)
    (hh : Holds b k (encode i)) (hend : i.tok? = none → tokenAt b (k + i.slots) = none) :
    decodeAt b k e = .ok ⟨k, i.slots, e, i⟩ := by
  obtain ⟨⟨i0, hb0, hf0, hn0, hc0, hkat0, hg0⟩, ⟨i1, hb1, hx1⟩, hb2⟩ := statement_of_instr i e he
  simp only [Instr.wf, he, Bool.and_eq_true, decide_eq_true_eq] at hwf
  obtain ⟨⟨⟨hf, hx⟩, ht⟩, h3⟩ := hwf
  have hw : bundleSlot b k = encodeFirst i := (hh.first he).2
  have hc : ∀ j, ¬(j + 1 ≤ (encodeImms i).length ∧ (7 < k + (j + 1) ∨ bundleCode b (k + (j + 1)) ≠ i.immCode)) := by
    rintro j ⟨hj, h | h⟩
    · simp only [Instr.slots] at hk; omega
    · exact h (hh.imm he hj).1
  have h0 := hh.immAt_eq he 0
  have h1 := hh.immAt_eq he 1
  simp only [decodeAt, hw, hb0, hf0, hf, hn0, hc0, hkat0, hg0, hg, hb1, hx1, hx, if_neg (hc 0), if_neg (hc 1), h0, h1,
    hh.tokenAt he hk hend, Bool.not_true, Bool.false_eq_true, if_false, Bool.false_and]
  cases htok : i.tok? with
  | none =>
    have hkat : i.isKat = false := by simpa [Instr.tokOk, he, htok] using ht
    have hi : i1 = i := Option.some.inj (hb1.symm.trans (htok ▸ hb2))
    simp [hkat, hi, Instr.slots, htok]
  | some t =>
    have hok : t.ok e i.isKat = true := by simpa [Instr.tokOk, he, htok] using ht
    have hn : i.slots = 2 + (encodeImms i).length := by simp only [Instr.slots, htok, Option.isSome_some, if_true]; omega
    have hle : ¬3 < 1 + (encodeImms i).length + 1 := by omega
    rw [htok] at hb2
    simp only [Option.map_some, hok, hb2, hle, hn, Bool.not_true, Bool.false_eq_true, if_false]

/-- An `m.gang` with no token word behind it decodes when a command that it may precede follows, and is refused at its own slot
otherwise (R58). -/
theorem decodeAt_mGang {mask : BitVec 4} {gq : BitVec 2} (hm : mask ≠ 0#4) (hh : Holds b k (encode (.mGang mask gq)))
    (ht : tokenAt b (k + 1) = none) :
    decodeAt b k .m = if gangFollowed b k then .ok ⟨k, 1, .m, .mGang mask gq⟩ else .error k := by
  have hb : build .m (encodeFirst (.mGang mask gq)) 0#32 0#32 none = some (.mGang mask gq) :=
    (statement_of_instr (.mGang mask gq) .m rfl).2.2
  cases hf : gangFollowed b k <;>
    simp [decodeAt, (hh.first rfl).2, hb, Instr.fieldsOk, hm, encodeImms, Instr.extOk, Instr.ext?, ht, Instr.isKat, Instr.isGang, hf]

/-- Over an empty rest of a bundle the walk reads nothing (R38). -/
theorem decodeFrom_emptyFrom : ∀ {fuel k : Nat}, EmptyFrom b k → decodeFrom b fuel k = .ok []
  | 0, _, _ => rfl
  | fuel + 1, k, h => by
    rw [decodeFrom]
    split
    case isTrue => rfl
    case isFalse h7 =>
      obtain ⟨hc, hs⟩ := h k (Nat.le_refl k) (Nat.le_of_not_lt h7)
      simp [hc, hs, decodeFrom_emptyFrom (fuel := fuel) fun j hj => h j (Nat.le_of_succ_le hj)]

/-- The walk takes the item that begins at its slot, and goes on behind it (R38). -/
theorem decodeFrom_item {it : Item} {rest : List Item} (h7 : k ≤ 7) (hc : bundleCode b k = e.code) (hi : decodeAt b k e = .ok it)
    (hr : decodeFrom b fuel (k + it.len) = .ok rest) : decodeFrom b (fuel + 1) k = .ok (it :: rest) := by
  have hne : e.code ≠ 0#4 := by cases e <;> decide
  have hcode : engineOfCode e.code = some e := by cases e <;> rfl
  simp [decodeFrom, Nat.not_lt.mpr h7, hc, hne, hcode, hi, hr]

/-- The walk stops where an item does not decode (R38). -/
theorem decodeFrom_refused {j : Nat} (h7 : k ≤ 7) (hc : bundleCode b k = e.code) (hi : decodeAt b k e = .error j) :
    decodeFrom b (fuel + 1) k = .illenc j := by
  have hne : e.code ≠ 0#4 := by cases e <;> decide
  have hcode : engineOfCode e.code = some e := by cases e <;> rfl
  simp [decodeFrom, Nat.not_lt.mpr h7, hc, hne, hcode, hi]

/-- A bundle laid out from slot 1 decodes to what the walk reads, when at most one of its instructions is a transfer, `trap` or
`sys` (R29, R36, R88). -/
theorem decodeBundle_bundleOf {items : List Item} (hd : decodeFrom (bundleOf l) 8 1 = .ok items)
    (ht : (transferSlots items).length ≤ 1) : decodeBundle (bundleOf l) = .ok items := by
  have hh := header_bundleOf l
  simp only [decodeBundle, hh, ne_eq, not_true_eq_false, if_false, hd]
  match transferSlots items, ht with
  | [], _ => rfl
  | [_], _ => rfl

/-- A bundle laid out from slot 1 is refused where the walk stops (R36, R38). -/
theorem decodeBundle_bundleOf_refused {j : Nat} (hd : decodeFrom (bundleOf l) 8 1 = .illenc j) :
    decodeBundle (bundleOf l) = .illenc j := by
  simp [decodeBundle, header_bundleOf l, hd]

end

/-- A well-formed instruction spans at most three slots (R38). -/
theorem slots_le_of_wf {i : Instr} {e : Engine} (he : i.engine? = some e) (hwf : i.wf = true) : i.slots ≤ 3 := by
  simp only [Instr.wf, he, Bool.and_eq_true, decide_eq_true_eq] at hwf
  exact hwf.2

/-- A well-formed instruction that is no `m.gang`, laid out from slot 1, decodes to itself (R35 to R38). -/
theorem decodeBundle_encode {i : Instr} {e : Engine} (he : i.engine? = some e) (hwf : i.wf = true) (hg : i.isGang = false) :
    decodeBundle (bundleOf (encode i)) = .ok [⟨1, i.slots, e, i⟩] := by
  have h3 := slots_le_of_wf he hwf
  have hlen := length_encode he
  have hh : Holds (bundleOf (encode i)) 1 (encode i) := holds_bundleOf (by omega)
  have hend : EmptyFrom (bundleOf (encode i)) (1 + i.slots) := hlen ▸ emptyFrom_bundleOf (encode i)
  have hi := decodeAt_of_holds he hwf hg (by omega) hh fun _ => hend.tokenAt
  have hc : bundleCode (bundleOf (encode i)) 1 = e.code := (hh.first he).1
  refine decodeBundle_bundleOf (decodeFrom_item (fuel := 7) (by decide) hc hi (decodeFrom_emptyFrom hend)) ?_
  rw [transferSlots, List.length_map]
  exact List.length_filter_le _ _

/-- The commands that `m.gang` may precede are matrix instructions with the opcodes that `gangFollowed` looks for (R58). -/
theorem opcode_of_isGangable {i : Instr} (h : i.isGangable = true) :
    i.engine? = some .m ∧ i.isGang = false ∧ (encodeFirst i).extractLsb' 24 8 ∈ [0x01#8, 0x02#8, 0x03#8] := by
  cases i <;> simp only [Instr.isGangable, Bool.false_eq_true] at h
  case mMma a b r c m t =>
    have ho : (encodeFirst (.mMma a b r c m t)).extractLsb' 24 8 = 0x01#8 := up (up (up (up (up (up it)))))
    exact ⟨rfl, rfl, by simp [ho]⟩
  case mMmaI a b r c t =>
    have ho : (encodeFirst (.mMmaI a b r c t)).extractLsb' 24 8 = 0x02#8 := up (up (up (up (up it))))
    exact ⟨rfl, rfl, by simp [ho]⟩
  case mMmaK4 a b r c t =>
    have ho : (encodeFirst (.mMmaK4 a b r c t)).extractLsb' 24 8 = 0x03#8 := up (up (up (up (up it))))
    exact ⟨rfl, rfl, by simp [ho]⟩

section
variable {mask : BitVec 4} {gq : BitVec 2} (hm : mask ≠ 0#4)
include hm

/-- A well-formed `m.gang` and a well-formed command that it may precede decode to the two of them (R58). -/
theorem decodeBundle_encode_gang {i : Instr} (hwf : i.wf = true) (hi : i.isGangable = true) :
    decodeBundle (bundleOf (encode (.mGang mask gq) ++ encode i)) = .ok [⟨1, 1, .m, .mGang mask gq⟩, ⟨2, i.slots, .m, i⟩] := by
  obtain ⟨he, hg, hop⟩ := opcode_of_isGangable hi
  have h3 := slots_le_of_wf he hwf
  have hlen : (encode (.mGang mask gq) ++ encode i).length = 1 + i.slots := by
    rw [List.length_append, length_encode he, length_encode (i := .mGang mask gq) rfl]; rfl
  have hh := holds_bundleOf (l := encode (.mGang mask gq) ++ encode i) (by omega)
  have hend : EmptyFrom (bundleOf (encode (.mGang mask gq) ++ encode i)) (2 + i.slots) := by
    have h := emptyFrom_bundleOf (encode (.mGang mask gq) ++ encode i)
    rwa [hlen, ← Nat.add_assoc] at h
  have h2 : Holds _ 2 (encode i) := hh.right
  obtain ⟨hc2, hs2⟩ := h2.first he
  have ht : tokenAt (bundleOf (encode (.mGang mask gq) ++ encode i)) (1 + 1) = none := by
    simp [tokenAt, hc2, Engine.code]
  have hf : gangFollowed (bundleOf (encode (.mGang mask gq) ++ encode i)) 1 = true := by
    simp only [gangFollowed, hc2, hs2, hop]; rfl
  have hd1 := (decodeAt_mGang hm hh.left ht).trans (if_pos hf)
  have hd2 := decodeAt_of_holds he hwf hg (by omega) h2 fun _ => hend.tokenAt
  refine decodeBundle_bundleOf (decodeFrom_item (fuel := 7) (by decide) (hh.left.first rfl).1 hd1
    (decodeFrom_item (fuel := 6) (show 2 ≤ 7 by decide) hc2 hd2 (decodeFrom_emptyFrom hend))) ?_
  rw [transferSlots, List.length_map, List.filter_cons_of_neg (by simp [Instr.isTransfer, Instr.isTrapSys])]
  exact List.length_filter_le _ _

/-- An `m.gang` alone is refused at its slot (R58). -/
theorem decodeBundle_encode_gang_alone : decodeBundle (bundleOf (encode (.mGang mask gq))) = .illenc 1 := by
  have hh : Holds (bundleOf (encode (.mGang mask gq))) 1 (encode (.mGang mask gq)) := holds_bundleOf (show 1 ≤ 7 by decide)
  have hend : EmptyFrom (bundleOf (encode (.mGang mask gq))) 2 := emptyFrom_bundleOf (encode (.mGang mask gq))
  have hf : gangFollowed (bundleOf (encode (.mGang mask gq))) 1 = false := by
    simp [gangFollowed, (hend 2 (by decide) (by decide)).1]
  refine decodeBundle_bundleOf_refused (decodeFrom_refused (fuel := 7) (by decide) (hh.first rfl).1 ?_)
  rw [decodeAt_mGang hm hh hend.tokenAt, hf]
  rfl

end

/-- Settles O14: each instruction by `decodeBundle_encode`, `m.gang` with its command and alone. -/
theorem roundTrip : Obligations.RoundTrip := by
  unfold Obligations.RoundTrip
  exact ⟨fun i e he hwf hg => decodeBundle_encode he hwf hg,
    fun mask gq i hm => ⟨decodeBundle_encode_gang hm, decodeBundle_encode_gang_alone hm⟩⟩

/-- An instruction's worked encoding decodes to it, when it is the instruction's encoding and the instruction is well formed. -/
theorem decodeBundle_of_eq_encode {l : List (BitVec 4 × BitVec 32)} {i : Instr} {e : Engine} {n : Nat} (hl : l = encode i)
    (hn : i.slots = n) (he : i.engine? = some e) (hwf : i.wf = true) (hg : i.isGang = false) :
    decodeBundle (bundleOf l) = .ok [⟨1, n, e, i⟩] := by
  rw [hl, decodeBundle_encode he hwf hg, hn]

/-- Settles O15: each of the words is the encoding of its instruction, which `decodeBundle_encode` reads back. -/
theorem decodeWords : Obligations.DecodeWords := by
  unfold Obligations.DecodeWords
  refine ⟨?_, ?_, ?_, ?_, ?_, ?_, ?_, ?_⟩ <;> exact decodeBundle_of_eq_encode (by decide) (by decide) rfl (by decide) rfl

end Sys2Proof

/-! The control unit's turn (R28, R38, R39, R388, R389, R394): what stands before the bundle at hand, and the trap of a bundle that
does not decode. -/

namespace Sys2Proof.Machine

/-! ## What stands before the bundle at hand -/

/-- A matrix command that has started and not finished is at work. -/
theorem Core.midMul_of_runningM (c : Core) (h : c.runningM ≠ none) : c.midMul = true := by
  obtain ⟨n, hn⟩ := Option.ne_none_iff_exists'.mp h
  simp only [Core.runningM, Option.map_eq_some_iff, Option.filter_eq_some_iff] at hn
  obtain ⟨p, ⟨hp, hq⟩, -⟩ := hn
  have hf := List.find?_some hp
  have hmem : p.1 ∈ c.mq := List.fst_mem_of_mem_zipIdx (List.mem_of_find?_eq_some hp)
  refine List.any_eq_true.mpr ⟨p.1, hmem, ?_⟩
  simp only [Bool.and_eq_true, Bool.not_eq_true', decide_eq_true_eq] at hf hq
  simp [QEntry.atWork, hf, hq]

/-- Nothing that runs to its end comes first when no vector or matrix instruction is at work (R388). -/
theorem matrixFirst_of_not_midway (k : CoreId) (s : State) (h : (s.core k).midway = false) : matrixFirst k s = none := by
  have hm : (s.core k).midMul = false := (Bool.or_eq_false_iff.mp h).1
  have hr : (s.core k).runningM = none := by
    by_contra hr
    exact absurd (Core.midMul_of_runningM _ hr) (by simp [hm])
  simp [matrixFirst, hr]

/-- Without a marked fault none is pending (R388). -/
theorem Core.pendingFault_of_not_marked (c : Core) (h : c.marked = false) : c.pendingFault = none := by
  refine List.findSome?_eq_none_iff.mpr fun e he => List.findSome?_eq_none_iff.mpr fun p hp => ?_
  have hq : (decide (p.1.flev = 0#8) && p.1.fault.isSome) = false :=
    Bool.eq_false_iff.mpr (List.any_eq_false.mp (Bool.eq_false_iff.mpr (List.any_eq_false.mp h e he)) p.1 (List.fst_mem_of_mem_zipIdx hp))
  by_cases hl : p.1.flev = 0#8
  · have hn : p.1.fault = none := by simpa [hl] using hq
    simp [hn]
  · simp [hl]

/-- Without a marked fault and without an interrupt nothing is taken at a boundary (R389, R394). -/
theorem atBoundary_of_not_marked (k : CoreId) (s : State) (hm : (s.core k).marked = false) (hi : takeIntr k s = none) :
    atBoundary k s = none := by
  have hp : takePending k s = none := by
    rw [takePending, Core.pendingFault_of_not_marked _ hm]
    split <;> rfl
  rw [atBoundary, hp]
  exact hi

/-- A trap is taken at once when no vector or matrix instruction is at work (R388). -/
theorem guardTrap_of_not_midway (k : CoreId) (s : State) (r : Host.Outcome State Fault Refusal)
    (h : (s.core k).midway = false) : guardTrap k s r = r := by
  cases r <;> simp [guardTrap, h]

/-- A control unit that goes on does what its bundle says (R28). -/
theorem controlTurn_of_goesOn (k : CoreId) (s : State) (b : BitVec 256) (h : s.goesOn k)
    (hb : (s.core k).front.bundle = some b) : controlTurn k s = (bundlePrep k b s).go := by
  obtain ⟨hrun, hpfx, hstop, hmid, hmark, hintr⟩ := h
  have hw : s.faultWaits k = false := by simp [State.faultWaits, hmark]
  rw [controlTurn, guardTrap_of_not_midway k s _ hmid]
  simp [controlPrep, hrun, hpfx, hstop, matrixFirst_of_not_midway k s hmid, atBoundary_of_not_marked k s hmark hintr, hw, hb]

/-- A step takes the first turn of the agenda, once the seats have done what they do at once (R146, R147). -/
theorem step_of_agenda (s : State) (t : Turn) (rest : List Turn) (h : s.settleSeats.agenda = t :: rest) :
    step s = takeTurn t { s.settleSeats with agenda := rest } := by
  rw [step, move, h]

/-- Settles O19: the turn goes to the bundle (`controlTurn_of_goesOn`), whose decoding fails. -/
theorem illegalBundles : Obligations.IllegalBundles := by
  unfold Obligations.IllegalBundles
  intro s k rest b j ha u hgo hb hd
  rw [step_of_agenda s _ rest ha]
  show controlTurn k u = _
  rw [controlTurn_of_goesOn k u b hgo hb, bundlePrep, hd]
  rfl

end Sys2Proof.Machine

/-! Tokens at the control unit and the engines' `nop`s (R61, R301, R303): every control instruction runs by `runC`, which waits,
pops and posts for it; what a queue holds after pops and a push. -/

namespace Sys2Proof.Machine

/-! ## Every control instruction runs by `runC` -/

/-- A body's outcome is an effect that is itself a trap, which only `trap` and `sys` have (R87). -/
def Eff.isAfter : Eff → Bool
  | .after _ _ => true
  | _ => false

/-- A body never ends in a trap that resumes after it. -/
structure Plain (body : CoreId → State → Eff) : Prop where
  never : ∀ k s, (body k s).isAfter = false

theorem joinSeated_isAfter (k : CoreId) (j : BitVec 4) (first : Bool) (s : State) : (joinSeated k j first s).isAfter = false := by
  unfold joinSeated
  extract_lets
  split <;> rfl

theorem objGrant_isAfter (k : CoreId) (x : Bool) (va : Word) (i : BitVec 4) (b : Binding) (home : Nat) (ps : List Piece)
    (s : State) : (objGrant k x va i b home ps s).isAfter = false := by
  simp only [objGrant]
  repeat' split
  all_goals rfl

section
variable (a b c d : BitVec 5) (j sc id : BitVec 4)

@[simp] theorem jumpReg_plain : Plain (jumpReg a j) := by
  refine ⟨fun k s => ?_⟩
  simp only [jumpReg]
  repeat' split
  all_goals rfl
@[simp] theorem loadBody_plain (i : BitVec 14) (n : Nat) (f : Nat → Word) (t : Option Tok) : Plain (loadBody d a i n f t) := by
  refine ⟨fun k s => ?_⟩
  simp only [loadBody]
  repeat' split
  all_goals rfl
@[simp] theorem storeBody_plain (i : BitVec 14) (n : Nat) : Plain (storeBody d a i n) := by
  refine ⟨fun k s => ?_⟩
  simp only [storeBody]
  repeat' split
  all_goals rfl
@[simp] theorem amoBody_plain (o : BitVec 4) (z : BitVec 1) : Plain (amoBody d a b o z) := by
  refine ⟨fun k s => ?_⟩
  simp only [amoBody]
  repeat' split
  all_goals rfl
@[simp] theorem tlookBody_plain : Plain (tlookBody d a) := ⟨fun _ _ => rfl⟩
@[simp] theorem tsetBody_plain : Plain (tsetBody a b) := by
  refine ⟨fun k s => ?_⟩
  simp only [tsetBody]
  repeat' split
  all_goals rfl
@[simp] theorem tclrBody_plain : Plain (tclrBody a) := by
  refine ⟨fun k s => ?_⟩
  simp only [tclrBody]
  repeat' split
  all_goals rfl
@[simp] theorem rowpinBody_plain (keep : BitVec 1) : Plain (rowpinBody d a keep) := by
  refine ⟨fun k s => ?_⟩
  simp only [rowpinBody]
  repeat' split
  all_goals rfl
@[simp] theorem rowBody_plain (f : Tower → Tower) : Plain (rowBody f) := ⟨fun _ _ => rfl⟩
@[simp] theorem ringInitBody_plain : Plain (ringInitBody d a b) := by
  refine ⟨fun k s => ?_⟩
  simp only [ringInitBody]
  repeat' split
  all_goals rfl
@[simp] theorem ringAcqBody_plain : Plain (ringAcqBody d a) := by
  refine ⟨fun k s => ?_⟩
  simp only [ringAcqBody]
  repeat' split
  all_goals rfl
@[simp] theorem ringRelBody_plain : Plain (ringRelBody a) := by
  refine ⟨fun k s => ?_⟩
  simp only [ringRelBody]
  repeat' split
  all_goals rfl
@[simp] theorem shldBody_plain : Plain (shldBody d a) := by
  refine ⟨fun k s => ?_⟩
  simp only [shldBody]
  repeat' split
  all_goals rfl
@[simp] theorem shsetBody_plain : Plain (shsetBody d a b) := by
  refine ⟨fun k s => ?_⟩
  simp only [shsetBody]
  repeat' split
  all_goals rfl
@[simp] theorem shgetBody_plain : Plain (shgetBody d a b) := ⟨fun _ _ => rfl⟩
@[simp] theorem refdeferBody_plain : Plain (refdeferBody a b) := by
  refine ⟨fun k s => ?_⟩
  simp only [refdeferBody]
  repeat' split
  all_goals rfl
@[simp] theorem poisonBody_plain : Plain (poisonBody a) := by
  refine ⟨fun k s => ?_⟩
  simp only [poisonBody]
  repeat' split
  all_goals rfl
@[simp] theorem mfsBody_plain (n : BitVec 8) : Plain (mfsBody d n) := by
  refine ⟨fun k s => ?_⟩
  simp only [mfsBody]
  repeat' split
  all_goals rfl
@[simp] theorem mtsBody_plain (n : BitVec 8) : Plain (mtsBody d n) := by
  refine ⟨fun k s => ?_⟩
  simp only [mtsBody]
  repeat' split
  all_goals rfl
@[simp] theorem eretBody_plain : Plain eretBody := by
  refine ⟨fun k s => ?_⟩
  simp only [eretBody]
  repeat' split
  all_goals rfl
@[simp] theorem foldBody_plain : Plain (foldBody j) := ⟨fun _ _ => rfl⟩
@[simp] theorem joinBody_plain : Plain (joinBody j) := by
  refine ⟨fun k s => ?_⟩
  simp only [joinBody]
  repeat' split
  any_goals exact joinSeated_isAfter ..
  all_goals rfl
@[simp] theorem seatBody_plain : Plain (seatBody d) := ⟨fun _ _ => rfl⟩
@[simp] theorem bindBody_plain : Plain (bindBody a b sc c) := by
  refine ⟨fun k s => ?_⟩
  simp only [bindBody]
  repeat' split
  all_goals rfl
@[simp] theorem unbindBody_plain : Plain (unbindBody a) := by
  refine ⟨fun k s => ?_⟩
  simp only [unbindBody]
  repeat' split
  all_goals rfl
@[simp] theorem acqBody_plain (x : Bool) : Plain (acqBody x a) := by
  refine ⟨fun k s => ?_⟩
  simp only [acqBody]
  repeat' split
  any_goals exact objGrant_isAfter ..
  all_goals rfl
@[simp] theorem relBody_plain : Plain (relBody a) := by
  refine ⟨fun k s => ?_⟩
  simp only [relBody]
  repeat' split
  all_goals rfl
@[simp] theorem fenceBody_plain : Plain (fenceBody sc) := by
  refine ⟨fun k s => ?_⟩
  simp only [fenceBody]
  repeat' split
  all_goals rfl
@[simp] theorem barBody_plain : Plain (barBody sc id) := by
  refine ⟨fun k s => ?_⟩
  simp only [barBody]
  repeat' split
  all_goals rfl
@[simp] theorem iflushBody_plain : Plain (iflushBody a b) := by
  refine ⟨fun k s => ?_⟩
  simp only [iflushBody]
  repeat' split
  all_goals rfl
@[simp] theorem ctlBody_plain (f : Ctl → Ctl) : Plain (ctlBody f) := ⟨fun _ _ => rfl⟩
@[simp] theorem plain_done (f : CoreId → State → State) : Plain (fun k s => .done (f k s)) := ⟨fun _ _ => rfl⟩

end

/-- Every control instruction but `trap` and `sys` is run by `runC` with its own token word and a plain body (R301). -/
theorem exec_eq_runC_plain (i : Instr) (s : State) (h : i.engine? = some .c) (ht : i.isTrapSys = false) :
    ∃ body, Plain body ∧ exec i s = runC i.tok? body s := by
  cases i <;> cases h
  case trap | sys => cases ht
  all_goals
    unfold exec
    simp only [execNop, execAdd, execSub, execMul, execMulhI, execMulhN, execDivI, execDivN, execRemI, execRemN, execAnd, execOr, execXor,
    execAndn, execSll, execSrl, execSra, execRol, execFsh, execClz, execCtz, execFfs, execPopc, execBswap, execMinI, execMinN,
    execMaxI, execMaxN, execSeq, execSne, execSltI, execSltN, execSleI, execSleN, execSel, execAddi, execAndi, execOri,
    execXori, execSlli, execSrli, execSrai, execRoli, execSeqi, execSltiI, execSltiN, execMuli, execLi, execLip, execFadd,
    execFsub, execFmul, execFfma, execFdiv, execFsqrt, execFmin, execFmax, execFeq, execFlt, execFle, execFcvt, execFneg,
    execFabs, execBeq, execBne, execBltI, execBltN, execBgeI, execBgeN, execBrx, execLoop, execFold, execJoin, execSeat,
    execJmp, execCall, execRet, execLdI8, execLdN8, execLdI16, execLdN16, execLdI32, execLdN32, execLdI64, execStI8, execStI16,
    execStI32, execStI64, execAmo, execBind, execUnbind, execAcqX, execAcqS, execRel, execFence, execBar, execIflush, execTlook,
    execTset, execTclr, execRowpin, execRowwb, execRowrel, execRingInit, execRingAcq, execRingRel, execShld, execShset,
    execShget, execMfs, execMts, execEret, execHalt, execRefdefer, execPoison, runCtl, runCF]
    refine ⟨_, ?_, rfl⟩
    simp

/-- Every control instruction is run by `runC` with its own token word (R301). -/
theorem exec_eq_runC (i : Instr) (s : State) (h : i.engine? = some .c) : ∃ body, exec i s = runC i.tok? body s := by
  cases ht : i.isTrapSys with
  | false =>
    obtain ⟨body, -, hb⟩ := exec_eq_runC_plain i s h ht
    exact ⟨body, hb⟩
  | true =>
    cases i <;> simp only [Instr.isTrapSys, Bool.false_eq_true] at ht
    case trap imm t => exact ⟨_, exec_trap imm t s⟩
    case sys imm t => exact ⟨_, exec_sys imm t s⟩

/-! ## Waiting at the slot for tokens and for room (R301, R303) -/

/-- An instruction that has taken effect makes its push once there is room, and the control unit goes on (R303). -/
theorem runC_pushes (t : Option Tok) (body : CoreId → State → Eff) (s : State) (hp : Plain body)
    (h1 : (s.core s.exe).front.done = true) (h2 : (s.core s.exe).tok.room t = true) : runC t body s = .next (pushC s.exe t s) := by
  have hb := hp.never s.exe s
  simp only [runC, h1, h2, if_true]
  cases he : body s.exe s with
  | after tr s' => rw [he] at hb; cases hb
  | _ => rfl

/-- An instruction whose effect is done finds its POST queue full: its tokens are popped and it waits to push (R303). -/
theorem runC_full (t : Option Tok) (body : CoreId → State → Eff) (s s' : State) (h1 : (s.core s.exe).front.done = false)
    (h2 : (s.core s.exe).front.started = false) (h3 : (s.core s.exe).tok.ready t = true)
    (h4 : (s.core s.exe).tok.gangFault t = none) (hb : body s.exe s = .done s') (h5 : ((s'.core s.exe).tok.pop t).room t = false) :
    runC t body s = .next ((performedBy s.exe t s').modCore s.exe (fun c =>
      { c with tok := c.tok.pop t, front := { c.front with started := true, done := true, vec := false } })) := by
  simp [runC, h1, h2, h3, h4, hb, finishC, State.modCore, h5]

/-! ## What a queue holds (R301, R302) -/

section
variable {q : BitVec 5} (hq : gangQueue? q = none)
include hq

theorem Toks.held_pair (tk : Toks) : tk.held q = (tk.counts.get 0#4 q).toNat := by
  simp [Toks.held, hq]

/-- A pop takes one token from its own queue and from no other. -/
theorem Toks.held_pop1 (tk : Toks) (p : BitVec 5) (h : p = q → 1 ≤ tk.held q) :
    (tk.pop1 p).held q = tk.held q - if p = q then 1 else 0 := by
  by_cases hpq : p = q
  · subst hpq
    have h1 := h rfl
    simp only [Toks.held_pair hq] at h1 ⊢
    simp only [Toks.pop1, hq, Bank.get_set_same, if_true]
    bv_omega
  · have hne : q ≠ p := fun e => hpq e.symm
    cases hg : gangQueue? p <;> simp [Toks.held_pair hq, Toks.pop1, hg, hpq, Bank.get_set_ne _ _ _ _ _ hne]

/-- Pops take as many tokens from a queue as name it. -/
theorem Toks.held_pops (l : List (BitVec 5)) (tk : Toks) (h : l.count q ≤ tk.held q) :
    (l.foldl Toks.pop1 tk).held q = tk.held q - l.count q := by
  induction l generalizing tk with
  | nil => rfl
  | cons p l ih =>
    have hc : (p :: l).count q = l.count q + if p = q then 1 else 0 := by simp [List.count_cons]
    have h1 := Toks.held_pop1 hq tk p (fun e => by rw [if_pos e] at hc; omega)
    rw [List.foldl_cons, ih (tk.pop1 p) (by omega), h1, hc]
    omega

/-- A push into a queue with room adds one token to its own queue and to no other. -/
theorem Toks.held_push1 (tk : Toks) (p : BitVec 5) (m : BitVec 4) (h : p = q → tk.held q < 15) :
    (tk.push1 p m).held q = tk.held q + if p = q then 1 else 0 := by
  by_cases hpq : p = q
  · subst hpq
    have h1 := h rfl
    simp only [Toks.held_pair hq] at h1 ⊢
    simp only [Toks.push1, hq, Bank.get_set_same, if_true]
    bv_omega
  · have hne : q ≠ p := fun e => hpq e.symm
    cases hg : gangQueue? p <;> simp [Toks.held_pair hq, Toks.push1, hg, hpq, Bank.get_set_ne _ _ _ _ _ hne]

/-- When an instruction runs, each pair queue loses its pops, and the POST queue gains one token (R301). -/
theorem Toks.held_push_pop (tk : Toks) (t : Tok) (h0 : q ≠ 0#5) (hr : tk.ready (some t) = true)
    (hroom : (tk.pop (some t)).room (some t) = true) :
    ((tk.pop (some t)).push (some t)).held q = tk.held q - t.waits.count q + (if t.post = q then 1 else 0) := by
  have hle : t.waits.count q ≤ tk.held q := by
    by_cases hm : q ∈ t.waits
    · exact of_decide_eq_true (List.all_eq_true.mp hr q hm)
    · simp [List.count_eq_zero_of_not_mem hm]
  have hpop : (tk.pop (some t)).held q = tk.held q - t.waits.count q := Toks.held_pops hq t.waits tk hle
  simp only [Toks.room, Bool.or_eq_true, decide_eq_true_eq] at hroom
  by_cases hp : t.post = 0#5
  · have hpq : t.post ≠ q := hp ▸ h0.symm
    simp [Toks.push, hp, hpop, h0.symm]
  · simp only [Toks.push, hp, if_false]
    rw [Toks.held_push1 hq _ _ _ (fun e => e ▸ hroom.resolve_left hp), hpop]

end

/-! ## The engines' `nop`s (R61, R309, R400) -/

/-- A matrix `nop` with TS set anchors an empty window, unless the core is in its handler (R61, R309, R400). -/
theorem mBegin_nop (k : CoreId) (cap : Cap) (t : Option Tok) (s : State) :
    mBegin k { ins := .mNop t, slots := (Instr.mNop t).slots, cap := cap } false false s = s.modCore k (fun c =>
      { c with mtx := if tokTs t = true ∧ c.seat.depth = 0#8 then
          { c.mtx with window := .anchored, cmds := [], faultAt := none } else c.mtx }) := by
  have hf : ∀ c : Core, (if c.seat.depth = 0#8 then
      { c with mtx := c.mtx.begin { ins := .mNop t, slots := (Instr.mNop t).slots, cap := cap } false false (tokTs t) } else c) =
      { c with mtx := if tokTs t = true ∧ c.seat.depth = 0#8 then
        { c.mtx with window := .anchored, cmds := [], faultAt := none } else c.mtx } := by
    intro c
    by_cases hd : c.seat.depth = 0#8 <;> by_cases ht : tokTs t = true <;> simp [hd, ht, Mtx.begin]
  exact congrArg (s.setCore k) (hf (s.core k))

/-- Settles O24: control instructions by `runC`, the counts by `Toks.held_push_pop`, the engines' `nop`s by `runE_done`. -/
theorem tokensMove : Obligations.TokensMove := by
  unfold Obligations.TokensMove
  refine ⟨⟨?waits, ?counts, ?goes, ?full, ?pushes⟩, fun t s => ⟨?v, ?d, ?f, ?m⟩⟩
  case waits =>
    intro i s hi h1 h2 h3
    obtain ⟨body, hb⟩ := exec_eq_runC i s hi
    rw [hb, runC_waits _ _ _ h1 h2 h3]
  case counts => exact fun tk t q hr hq h0 hroom => Toks.held_push_pop hq tk t h0 hr hroom
  case goes =>
    intro t s h
    rw [exec_nop]
    exact runCtl_goes t (fun c => c) s h
  case full =>
    intro t s h1 h2 h3 h4 h5
    rw [exec_nop]
    refine ⟨_, runC_full t (ctlBody fun c => c) s _ h1 h2 h3 h4 rfl (by simpa using h5), ?_, ?_, ?_⟩ <;> simp
  case pushes =>
    intro i s hi ht h1 h2
    obtain ⟨body, hp, hb⟩ := exec_eq_runC_plain i s hi ht
    rw [hb, runC_pushes _ _ _ hp h1 h2]
    rfl
  case v => exact fun h => runE_done .v (.vNop t) _ bodyVNop s s h rfl
  case d => exact fun h => runE_done .d (.dNop t) _ bodyDone s s h rfl
  case f => exact fun h => runE_done .f (.fNop t) _ bodyDone s s h rfl
  case m =>
    intro h ts
    have hr := runE_done .m (.mNop t) (capOf (.mNop t) (s.core s.exe)) (bodyMNop (.mNop t)) s _ h rfl
    rw [mBegin_nop] at hr
    exact hr

end Sys2Proof.Machine

/-! Tile management, known answers and gang prefixes of the matrix engine (R58, R153, R309, R330, R331, R334 to R336, R400). -/

namespace Sys2Proof.Machine

/-! ## The start of a command in the retained window (R309, R400) -/

/-- The window and its commands after a command that enters nothing: a handler leaves them alone, TS anchors an empty window, a
closing command ends the window (R309, R400). -/
def Core.windowAfter (c : Core) (closing ts : Bool) : WindowState × List QEntry :=
  if c.seat.depth ≠ 0#8 then (c.mtx.window, c.mtx.cmds)
  else if ts then (.anchored, []) else if closing then (.none, []) else (c.mtx.window, c.mtx.cmds)

/-- The queue entry of an instruction that a core hands over (R46). -/
def Core.entry (c : Core) (i : Instr) : QEntry := { ins := i, slots := i.slots, cap := capOf i c }

/-- The core when a command that enters nothing starts. -/
def Core.begun (c : Core) (e : QEntry) (closing : Bool) : Core :=
  if c.seat.depth = 0#8 then { c with mtx := c.mtx.begin e closing false (tokTs e.ins.tok?) } else c

theorem mBegin_eq (k : CoreId) (e : QEntry) (closing : Bool) (s : State) :
    mBegin k e closing false s = s.modCore k (fun c => c.begun e closing) := rfl

section
variable (c : Core) (e : QEntry) (closing ts : Bool)

/-- After a closing command the window is anchored or gone, and empty (R309). -/
theorem Core.windowAfter_closing : c.windowAfter true ts =
    if c.seat.depth ≠ 0#8 then (c.mtx.window, c.mtx.cmds) else (if ts then .anchored else .none, []) := by
  cases ts <;> rfl

/-- After any other command the window is as it was, unless TS anchors it (R309). -/
theorem Core.windowAfter_keeping : c.windowAfter false ts =
    if ts = true ∧ c.seat.depth = 0#8 then (.anchored, []) else (c.mtx.window, c.mtx.cmds) := by
  by_cases hd : c.seat.depth = 0#8 <;> cases ts <;> simp [Core.windowAfter, hd]

/-- The start of a command changes the window, its commands and the mark of its faulting command alone. -/
theorem Core.begun_eq : ∃ f, c.begun e closing = { c with mtx := { c.mtx with
    window := (c.windowAfter closing (tokTs e.ins.tok?)).1, cmds := (c.windowAfter closing (tokTs e.ins.tok?)).2, faultAt := f } } := by
  unfold Core.begun Core.windowAfter Mtx.begin
  by_cases hd : c.seat.depth = 0#8
  · cases tokTs e.ins.tok? <;> cases closing <;> exact ⟨_, by simp only [hd, ne_eq, not_true_eq_false, if_true, if_false, Bool.false_and, Bool.false_eq_true]; rfl⟩
  · exact ⟨_, by simp only [hd, ne_eq, not_false_eq_true, if_true, if_false]; rfl⟩

theorem Core.begun_window :
    ((c.begun e closing).mtx.window, (c.begun e closing).mtx.cmds) = c.windowAfter closing (tokTs e.ins.tok?) := by
  obtain ⟨f, hf⟩ := c.begun_eq e closing
  rw [hf]
/-- A closing command leaves the window anchored or gone, and empty (R309). -/
theorem Core.begun_closes (t : Option Tok) (ht : e.ins.tok? = t) : ((c.begun e true).mtx.window, (c.begun e true).mtx.cmds) =
    if c.seat.depth ≠ 0#8 then (c.mtx.window, c.mtx.cmds) else (if tokTs t then .anchored else .none, []) := by
  rw [Core.begun_window, ht, Core.windowAfter_closing]
/-- Any other command leaves the window as it was, unless TS anchors it (R309). -/
theorem Core.begun_anchors (t : Option Tok) (ht : e.ins.tok? = t) : ((c.begun e false).mtx.window, (c.begun e false).mtx.cmds) =
    if tokTs t = true ∧ c.seat.depth = 0#8 then (.anchored, []) else (c.mtx.window, c.mtx.cmds) := by
  rw [Core.begun_window, ht, Core.windowAfter_keeping]
@[simp] theorem Core.begun_ctl : (c.begun e closing).ctl = c.ctl := by unfold Core.begun; split <;> rfl
@[simp] theorem Core.begun_vec : (c.begun e closing).vec = c.vec := by unfold Core.begun; split <;> rfl
@[simp] theorem Core.begun_tower : (c.begun e closing).tower = c.tower := by unfold Core.begun; split <;> rfl
@[simp] theorem Core.begun_plane0 : (c.begun e closing).mtx.plane0 = c.mtx.plane0 := by
  obtain ⟨f, hf⟩ := c.begun_eq e closing
  rw [hf]
@[simp] theorem Core.begun_plane1 : (c.begun e closing).mtx.plane1 = c.mtx.plane1 := by
  obtain ⟨f, hf⟩ := c.begun_eq e closing
  rw [hf]
@[simp] theorem Core.begun_check : (c.begun e closing).mtx.check = c.mtx.check := by
  obtain ⟨f, hf⟩ := c.begun_eq e closing
  rw [hf]

end

/-- The executing core when a matrix command that enters nothing has started and then changed it by f. -/
theorem mBegin_modCore (k : CoreId) (e : QEntry) (closing : Bool) (f : Core → Core) (s : State) :
    (mBegin k e closing false s).modCore k f = s.setCore k (f ((s.core k).begun e closing)) := by
  rw [mBegin_eq, State.modCore_modCore]
  rfl

/-! ## Known answers (R335, R336) -/

/-- A sparse map that lists the values of f at some numbers reads back f there. -/
theorem Bank.get_map_pair {α : Type} (d : α) (f : Nat → α) (l : List Nat) (x : Nat) :
    Bank.get (l.map (fun i => (i, f i))) d x = if x ∈ l then f x else d := by
  induction l with
  | nil => rfl
  | cons y l ih =>
    rw [List.map_cons, Bank.get, ih]
    by_cases hy : y = x
    · simp [hy]
    · simp [hy, Ne.symm hy]

/-- The sum of a known answer's terms (R335). -/
theorem katSum_eq_sum (id m n : Nat) : katSum id m n = ((List.range 32).map (fun k =>
    ((((m + 3 * k + id) % 7 : Nat) : Int) - 3) * ((((2 * k + n + 5 * id) % 5 : Nat) : Int) - 2))).sum := by
  rw [List.sum_eq_foldl, List.foldl_map]
  rfl

/-- The check tile holds each element of the product at its place, row by row (R335). -/
theorem katTile_get (id fmt m n : Nat) (hm : m < 64) (hn : n < 32) : (katTile id fmt).get 0#32 (m * 32 + n) =
    if fmt = 4 then BitVec.ofInt 32 (katSum id m n) else BitVec.ofNat 32 (Fmt.fp32.round .rne (Val.ofInt (katSum id m n))).1 := by
  have hd : (m * 32 + n) / 32 = m := by omega
  have hr : (m * 32 + n) % 32 = n := by omega
  rw [katTile, Bank.get_map_pair, if_pos (List.mem_range.mpr (by omega)), hd, hr]

/-- The core after `m.kat` has formed a check tile. -/
def Core.checkFormed (c : Core) (e : QEntry) (tile : Bank Nat (BitVec 32)) (int : Bool) : Core :=
  { c.begun e false with mtx := { (c.begun e false).mtx with check := tile, checkInt := int } }

section
variable (c : Core) (e : QEntry) (tile : Bank Nat (BitVec 32)) (int : Bool)

theorem Core.checkFormed_anchors (t : Option Tok) (ht : e.ins.tok? = t) :
    ((c.checkFormed e tile int).mtx.window, (c.checkFormed e tile int).mtx.cmds) =
      if tokTs t = true ∧ c.seat.depth = 0#8 then (.anchored, []) else (c.mtx.window, c.mtx.cmds) :=
  c.begun_anchors e t ht
@[simp] theorem Core.checkFormed_ctl : (c.checkFormed e tile int).ctl = c.ctl := c.begun_ctl e false
@[simp] theorem Core.checkFormed_vec : (c.checkFormed e tile int).vec = c.vec := c.begun_vec e false
@[simp] theorem Core.checkFormed_tower : (c.checkFormed e tile int).tower = c.tower := c.begun_tower e false
@[simp] theorem Core.checkFormed_plane0 : (c.checkFormed e tile int).mtx.plane0 = c.mtx.plane0 := c.begun_plane0 e false
@[simp] theorem Core.checkFormed_plane1 : (c.checkFormed e tile int).mtx.plane1 = c.mtx.plane1 := c.begun_plane1 e false
@[simp] theorem Core.checkFormed_check : (c.checkFormed e tile int).mtx.check = tile := rfl
@[simp] theorem Core.checkFormed_checkInt : (c.checkFormed e tile int).mtx.checkInt = int := rfl

end

theorem bodyMKat_eq (id fmt : BitVec 4) (i : Instr) (k : CoreId) (cap : Cap) (r : Word) (s : State) : bodyMKat id fmt i k cap r s =
    .done (s.setCore k ((s.core k).checkFormed { ins := i, slots := i.slots, cap := cap } (katTile id.toNat fmt.toNat)
      (decide (fmt = 4#4)))) :=
  congrArg Eff.done (mBegin_modCore ..)

/-! ## An engine instruction that faults after it has started (R345, R388) -/

/-- An engine instruction that can go and faults after it has started stands faulted in its queue, and the core traps. -/
theorem runE_fault (e : Engine) (i : Instr) (body : Body) (s s' : State) (tr : TrapInfo) (r : Nat)
    (h : s.engineGoes e i.tok?) (hb : body s.exe (capOf i (s.core s.exe)) 0#64 s = .fault tr (BitVec.ofNat 64 r) s') :
    runE e i (capOf i (s.core s.exe)) body s = .next (s.engineFaults s' e i tr r) := by
  rw [runE, if_pos (engineGoes_now h)]
  simp only [hb]
  rfl

/-! ## The fields of `cst` (R17) -/

/-- Writing `cst.ACCT` replaces the two low bits. -/
theorem setField_acct (w : Word) (ty : BitVec 2) : setField w 0 2 (ty.zeroExtend 64) = w.extractLsb' 2 62 ++ ty := by
  have hm : ∀ i < 64, (BitVec.ofNat 64 (2 ^ 2 - 1) <<< 0).getLsbD i = decide (i < 2) := by decide
  refine BitVec.eq_of_getLsbD_eq fun i hi => ?_
  simp only [setField, BitVec.getLsbD_or, BitVec.getLsbD_and, BitVec.getLsbD_not, hm i hi, hi, BitVec.getLsbD_append]
  by_cases h2 : i < 2
  · simp [h2, hi]
  · have e : 2 + (i - 2) = i := by omega
    have h62 : i - 2 < 62 := by omega
    simp [h2, e, h62]

/-- Setting the known-answer mark sets bit 18. -/
theorem setBit_katmis (w : Word) : setBit w 18 true = w ||| 0x40000#64 := by
  show (w &&& ~~~0x40000#64) ||| 0x40000#64 = w ||| 0x40000#64
  refine BitVec.eq_of_getLsbD_eq fun i hi => ?_
  cases hm : (0x40000#64).getLsbD i <;> simp only [BitVec.getLsbD_or, BitVec.getLsbD_and, BitVec.getLsbD_not, hm, hi] <;> simp

/-! ## Comparing a known answer (R315, R336) -/

section
variable (sig : BitVec 32) (i : Instr) (k : CoreId) (cap : Cap) (s : State)

/-- The core when a command that enters nothing has started and written the scalar side. -/
def Core.begunCtl (c : Core) (e : QEntry) (x : Ctl) : Core := { c.begun e false with ctl := x }

theorem Core.begunCtl_anchors (c : Core) (e : QEntry) (x : Ctl) (t : Option Tok) (ht : e.ins.tok? = t) :
    ((c.begunCtl e x).mtx.window, (c.begunCtl e x).mtx.cmds) =
      if tokTs t = true ∧ c.seat.depth = 0#8 then (.anchored, []) else (c.mtx.window, c.mtx.cmds) :=
  c.begun_anchors e t ht
@[simp] theorem Core.begunCtl_ctl (c : Core) (e : QEntry) (x : Ctl) : (c.begunCtl e x).ctl = x := rfl
@[simp] theorem Core.begunCtl_vec (c : Core) (e : QEntry) (x : Ctl) : (c.begunCtl e x).vec = c.vec := c.begun_vec e false

/-- The core after `m.chk` has found a difference: the window as the command's start left it, and the mark in `cst`. -/
def Core.mismatched (c : Core) (e : QEntry) : Core := c.begunCtl e { c.ctl with cst := c.ctl.cst ||| 0x40000#64 }

theorem Core.mismatched_anchors (c : Core) (e : QEntry) (t : Option Tok) (ht : e.ins.tok? = t) :
    ((c.mismatched e).mtx.window, (c.mismatched e).mtx.cmds) =
      if tokTs t = true ∧ c.seat.depth = 0#8 then (.anchored, []) else (c.mtx.window, c.mtx.cmds) := by
  rw [Core.mismatched, Core.begunCtl_anchors c e _ t ht]

theorem bodyMChk_same (h : katSig (s.core k).mtx.check = sig) : bodyMChk sig i k cap 0#64 s =
    .done (s.setCore k ((s.core k).begun { ins := i, slots := i.slots, cap := cap } false)) := by
  simp only [bodyMChk, if_neg (show ¬(0#64 = 1#64) by decide), mBegin_eq, State.core_modCore, Core.begun_check, h, if_true]
  rfl

theorem bodyMChk_differs (h : katSig (s.core k).mtx.check ≠ sig) : bodyMChk sig i k cap 0#64 s =
    (let d := (s.core k).mismatched { ins := i, slots := i.slots, cap := cap }
     .fault { code := 0x12#8, addr := sig ++ katSig (s.core k).mtx.check, wl := !decide (d.mtx.window = .anchored) } 1#64
       (s.setCore k d)) := by
  simp only [bodyMChk, if_neg (show ¬(0#64 = 1#64) by decide), mBegin_eq, State.core_modCore, Core.begun_check, h, if_false,
    State.modCore_modCore, Core.begun_ctl, setBit_katmis]
  rfl

/-- A check tile that folds to the signature retires the command (R336). -/
theorem exec_mChk_same (t : Option Tok) (h : s.engineGoes .m t) (hs : katSig (s.core s.exe).mtx.check = sig) :
    exec (.mChk sig t) s = .next ((s.setCore s.exe ((s.core s.exe).begun ((s.core s.exe).entry (.mChk sig t)) false)).engineWent
      s.exe (.mChk sig t)) := by
  have hb := bodyMChk_same sig (.mChk sig t) s.exe (capOf (.mChk sig t) (s.core s.exe)) s hs
  rw [exec_mChk, execMChk, runE_done .m (.mChk sig t) (capOf (.mChk sig t) (s.core s.exe)) _ s _ h hb]
  rfl

end

/-! ## Behind `m.gang` (R58, R153) -/

/-- A core's place in its quad (R23). -/
theorem memberOf_toNat (k : CoreId) : (memberOf k).toNat = k.toNat % 4 := by
  simp [memberOf]

section
variable (mask : BitVec 4) (gq : BitVec 2) (s : State)

/-- A core that the mask does not name, or whose queue has room, notes its mask (R58). -/
theorem exec_mGang_notes (h : mask.getLsbD (s.exe.toNat % 4) = false ∨
    queueUsed (s.core s.exe).mq + gangSlots (s.core s.exe).front ≤ 16) :
    exec (.mGang mask gq) s =
      .next (s.modCore s.exe (fun c => { c with front := { c.front.advance with pfx := some (mask, gq) } })) := by
  have hc : (mask.getLsbD (memberOf s.exe).toNat && decide (16 < queueUsed (s.core s.exe).mq + gangSlots (s.core s.exe).front)) = false := by
    rw [memberOf_toNat, Bool.and_eq_false_iff, decide_eq_false_iff_not, Nat.not_lt]
    exact h
  rw [exec_mGang, execMGang, gangPrefix, hc]
  rfl

/-- A member that the mask names waits at `m.gang` while its queue has no room for the command (R46, R153). -/
theorem exec_mGang_waits (h1 : mask.getLsbD (s.exe.toNat % 4) = true)
    (h2 : 16 < queueUsed (s.core s.exe).mq + gangSlots (s.core s.exe).front) : exec (.mGang mask gq) s = .next s := by
  rw [exec_mGang, execMGang, gangPrefix, memberOf_toNat, h1, decide_eq_true h2]
  rfl

/-- The stream index and slot from which a seated core routes a command; none for a private fetch (R153). -/
def Core.routedFrom (c : Core) : Option (Nat × Nat) :=
  if c.seat.st = .seated then some (c.seat.n - 1, c.front.slot) else none

/-- The core has left a ganged command, and its `m.gang` is spent. -/
def State.away (s : State) (k : CoreId) : State :=
  leaveSlot k (s.modCore k (fun c => { c with front := { c.front with pfx := none } }))

/-- A core that the mask does not name discards the ganged command (R58). -/
theorem runMul_discards (i : Instr) (hp : (s.core s.exe).front.pfx = some (mask, gq)) (h : mask.getLsbD (s.exe.toNat % 4) = false) :
    runMul i s = .next (s.away s.exe) := by
  simp only [runMul, hp, memberOf_toNat, h, Bool.false_eq_true, if_false]
  rfl

/-- A member that the mask names queues the ganged command with the place it was routed from (R58, R153). -/
theorem runMul_queues (i : Instr) (hp : (s.core s.exe).front.pfx = some (mask, gq)) (h : mask.getLsbD (s.exe.toNat % 4) = true) :
    runMul i s = .next ((s.modCore s.exe (fun c => { c with mq := c.mq ++ [{
      ins := i, slots := i.slots + 1, cap := capOf i (s.core s.exe)
      gang := some { mask := mask, gq := gq, index := (s.core s.exe).routedFrom } }] })).away s.exe) := by
  simp only [runMul, hp, memberOf_toNat, h, if_true]
  rfl

end

/-! ## The statement -/

/-- Settles O42: each command starts as `mBegin_modCore` says and retires by `runE_done`, a mismatch by `runE_fault`. -/
theorem matrixState : Obligations.MatrixState := by
  unfold Obligations.MatrixState
  intro a b row col rm ty gq id fmt mask sig t s k C ends closes anchors
  refine ⟨fun h => ⟨?swap, ?acct, ?kat, ?same, ?differs⟩, exec_mGang_notes mask gq s, exec_mGang_waits mask gq s, ?ganged⟩
  case swap =>
    refine ⟨_, runE_done .m (.mSwap t) _ (bodyMSwap (.mSwap t)) s _ h (congrArg Eff.done (mBegin_modCore ..)), ?_, ?_, ?_, ?_⟩
    · exact Core.begun_closes _ _ t rfl
    · exact congrArg (fun v : Vec => { v with exposed := !v.exposed }) (Core.begun_vec ..)
    · exact Core.begun_ctl ..
    · exact Core.begun_tower ..
  case acct =>
    refine ⟨_, runE_done .m (.mAcct ty t) _ (bodyMAcct ty (.mAcct ty t)) s _ h (congrArg Eff.done (mBegin_modCore ..)), ?_, ?_, ?_, ?_,
      ?_, ?_⟩
    · exact Core.begun_closes _ _ t rfl
    · simp only [setField_acct]
      exact Laws.Encoding.lo Laws.Encoding.it
    · simp only [setField_acct, Core.begun_ctl]
      exact Laws.Encoding.up Laws.Encoding.it
    · simp only [Core.begun_ctl]
      rfl
    · exact Core.begun_vec ..
    · exact Core.begun_tower ..
  case kat =>
    refine ⟨C.checkFormed (C.entry (.mKat id fmt t)) (katTile id.toNat fmt.toNat) (decide (fmt = 4#4)),
      runE_done .m (.mKat id fmt t) _ (bodyMKat id fmt (.mKat id fmt t)) s _ h (bodyMKat_eq ..), Core.checkFormed_anchors _ _ _ _ t rfl,
      Core.checkFormed_ctl .., Core.checkFormed_vec .., Core.checkFormed_tower .., Core.checkFormed_plane0 ..,
      Core.checkFormed_plane1 .., Core.checkFormed_checkInt .., fun m n hm hn => ?_⟩
    have hf : fmt.toNat = 4 ↔ fmt = 4#4 := by bv_omega
    intro q
    rw [Core.checkFormed_check, katTile_get id.toNat fmt.toNat m n hm hn]
    simp only [hf, katSum_eq_sum]
    rfl
  case same =>
    intro hs
    let e := C.entry (.mChk sig t)
    exact ⟨C.begun e false, exec_mChk_same sig s t h hs, C.begun_anchors e t rfl, C.begun_ctl e false, C.begun_vec e false, C.begun_tower e false⟩
  case differs =>
    intro hs
    let e := C.entry (.mChk sig t)
    exact ⟨C.mismatched e, C.mismatched_anchors e t rfl, Core.begunCtl_ctl .., Core.begunCtl_vec ..,
      runE_fault .m (.mChk sig t) (bodyMChk sig (.mChk sig t)) s _ _ 1 h (bodyMChk_differs sig _ k _ s hs)⟩
  case ganged =>
    intro hp i hi away
    have he : exec i s = runMul i s := by
      simp only [List.mem_cons, List.not_mem_nil, or_false] at hi
      obtain rfl | rfl | rfl := hi <;> rfl
    rw [he]
    exact ⟨runMul_discards mask gq s i hp, runMul_queues mask gq s i hp⟩

end Sys2Proof.Machine

/-! Furrow transfers: a transfer through an aperture that waits behind a packet of its own core (R225, R258, R362). No packet that
the device sends names an aperture; but the statement speaks of every state, and leaves the wait out. -/

namespace Sys2Proof.Machine

/-- An engine instruction that can go, and whose effect must wait, is handed over to its queue. -/
theorem runE_wait (e : Engine) (i : Instr) (cap : Cap) (body : Body) (s s' : State) (h : s.engineGoes e i.tok?)
    (hb : body s.exe cap 0#64 s = .wait s') : runE e i cap body s = .next (handOver s.exe e { ins := i, slots := i.slots, cap := cap } s) := by
  rw [runE, if_pos (engineGoes_now h)]
  simp only [hb]

/-- Core 0 is to copy the first byte of its window through its own aperture, and a packet of its own to that aperture byte stands
unperformed in the queue of a base die. -/
def behindOwnPacket : State :=
  { State.reset.modCore 0#11 (fun c => { c with ctl := { c.ctl with
      s := [(1#5, 0xE000000000000#64), (2#5, 0xFFFFFFFE000000#64), (3#5, 1#64)] } }) with
    hbm := [(0#4, { queue := [{ pkt := .read 0#11 0 0xE000000000000#52 2#3 1 }] })] }

namespace behindOwnPacket

/-- The copy. -/
def copy : Instr := .fHead 1#5 2#5 3#5 none

/-- What its engine captures. -/
def cap : Cap := capOf copy (behindOwnPacket.core 0#11)

/-- Where its source lies. -/
def source : Piece := { a := 0xFFFFFFFE000000, len := 1, at_ := .window 0 }

/-- Where its destination lies. -/
def destination : Piece := { a := 0xE000000000000, len := 1, at_ := .phys 0xE000000000000 2#3 }

/-- Nothing of the control unit's or the queue's keeps the copy from starting and retiring at once. -/
theorem engineGoes : behindOwnPacket.engineGoes .f none := by
  refine ⟨rfl, by decide, by decide, by decide, fun _ h => absurd h List.not_mem_nil, rfl, rfl, rfl, by decide⟩

/-- No check refuses the destination. -/
theorem reach_eq : behindOwnPacket.reach 0#11 cap .head (1 / 4096 + 2) 0xE000000000000 1 = ([destination], none) := by
  decide +kernel

/-- It is the issuer's own aperture, and so of its plot. -/
theorem headPieces_eq : headPieces behindOwnPacket 0#11 cap.x [destination] none = ([destination], none) := by
  decide +kernel

/-- The destination comes behind the packet. -/
theorem pieceBlocked_destination : behindOwnPacket.pieceBlocked 0#11 true destination = true := by
  decide +kernel

/-- The transfer waits. -/
theorem bodyFHead_waits : bodyFHead 0#11 cap 0#64 behindOwnPacket = .wait behindOwnPacket := by
  have hx : cap.x.toNat + (0#64).toNat = 0xE000000000000 := by decide
  have hz : cap.z.toNat - (0#64).toNat = 1 := by decide
  have hl : furrowLong cap.z = false := by decide
  simp only [bodyFHead, hx, hz, hl, reach_eq, headPieces_eq, List.any_cons, pieceBlocked_destination, Bool.true_or, if_true,
    Bool.false_eq_true, if_false]

/-- The copy stands in its queue. -/
theorem exec_copy : exec copy behindOwnPacket =
    .next (handOver 0#11 .f { ins := copy, slots := copy.slots, cap := cap } behindOwnPacket) :=
  runE_wait .f copy cap bodyFHead behindOwnPacket behindOwnPacket engineGoes bodyFHead_waits

/-- What the destination reaches. -/
theorem targetOf_destination : behindOwnPacket.targetOf 0#11 destination.at_ = .aperture 0#11 0 ∧ behindOwnPacket.inPlot 0#11 0#11 = true := by
  decide +kernel

/-- Had the copy been done, its queue would be empty. -/
theorem fq_done : (((behindOwnPacket.moved 0#11 [source] [destination] 1).engineWent 0#11 copy).core 0#11).fq.isEmpty = true := by
  decide +kernel

/-- Handed over, the copy stands in it. -/
theorem fq_handed : ((handOver 0#11 .f { ins := copy, slots := copy.slots, cap := cap } behindOwnPacket).core 0#11).fq.isEmpty =
    false := by
  decide +kernel

end behindOwnPacket

open behindOwnPacket in
/-- Refutes O48: a transfer through an aperture in the plot waits behind a packet of its own core to a common byte, and so it is
not always done at once. -/
theorem not_furrowTransfers : ¬ Obligations.FurrowTransfers := by
  unfold Obligations.FurrowTransfers
  intro holds
  obtain ⟨-, -, -, -, -, -, ⟨-, moves, -⟩, -⟩ := holds 1#5 2#5 3#5 0#3 0#2 0#4 0#1 none behindOwnPacket behindOwnPacket.engineGoes
  have far : ∀ p ∈ (behindOwnPacket.reach 0#11 cap .head (1 / 4096 + 2) 0xE000000000000 1).1,
      ∃ c o, behindOwnPacket.targetOf 0#11 p.at_ = .aperture c o ∧ behindOwnPacket.inPlot 0#11 c = true := by
    rw [reach_eq]
    exact fun p hp => List.mem_singleton.mp hp ▸ ⟨0#11, 0, targetOf_destination⟩
  have done : exec copy behindOwnPacket = .next ((behindOwnPacket.moved 0#11 [source]
      (behindOwnPacket.reach 0#11 cap .head (1 / 4096 + 2) 0xE000000000000 1).1 1).engineWent 0#11 copy) :=
    moves (by decide) (by decide) far (congrArg (fun r => piecesLen r.1) reach_eq) (by decide)
  rw [exec_copy, reach_eq, Host.Outcome.next.injEq] at done
  have empty := fq_done
  rw [← done, fq_handed] at empty
  exact absurd empty (by decide)

end Sys2Proof.Machine

/-! Events of the seats and the objects: an object's queue that names one core twice (R254, R301, R303). No acquire makes such a
queue, for a core joins it once (`acqBody`); but the statement speaks of every state. -/

namespace Sys2Proof.Machine

/-- A control instruction that has retired carries no mark of a push to come. -/
@[simp] theorem State.went_done (s : State) (k : CoreId) (t : Option Tok) : ((s.went k t).core k).front.done = false := by
  simp [State.went, Front.advance]

/-- A token word that posts into queue 1. -/
def postOne : Tok := { post := 1#5, wait0 := 0#5, wait1 := 0#5, wait2 := 0#5, ts := false, ka := false }

/-- Core 0 stands at a shared acquire of the object at its window's start, which posts into queue 1; that queue has room for one
more token, and the object's queue names the core twice. -/
def queuedTwice : State :=
  { State.reset.modCore 0#11 (fun c => { c with
      ctl := { c.ctl with s := [(1#5, 0xFFFFFFFE000000#64)] }
      tok := { counts := [(1#5, 14#4)] }
      binds := [(0#4, some { obj := 0xFFFFFFFE000000#56, base := 0x1000#56, len := 64#64, scope := 1#4, hold := .none })]
      front := { run := true, bundle := some (bundleOf (encode (.acqS 1#5 (some postOne)))), slot := 1 } }) with
    objects := [(apertureAddr 0#11 0, [(0#11, false), (0#11, false)])] }

namespace queuedTwice

/-- The instruction at which it stands. -/
def item : Item := { slot := 1, len := 2, eng := .c, ins := .acqS 1#5 (some postOne) }

/-- The core stands there and executes. -/
def here : State := standAt 0#11 item queuedTwice

/-- The pieces of the object's word. -/
def word : List Piece := [{ a := 0xFFFFFFFE000000, len := 8, at_ := .window 0 }]

/-- Its binding. -/
def binding : Binding := { obj := 0xFFFFFFFE000000#56, base := 0x1000#56, len := 64#64, scope := 1#4, hold := .none }

theorem objQueue_eq : queuedTwice.objQueue (apertureAddr 0#11 0) = [(0#11, false), (0#11, false)] := by decide +kernel

theorem itemAt_eq : queuedTwice.itemAt 0#11 = some item := by decide +kernel

theorem atBoundary_eq : atBoundary 0#11 queuedTwice = none := Option.isNone_iff_eq_none.mp (by decide +kernel)

theorem goes_here : here.goes (some postOne) := by
  refine ⟨?_, ?_, ?_, ?_, ?_⟩ <;> decide +kernel

theorem objCheck_eq : here.objCheck 0#11 0 (here.val 1#5).toNat = .ok word := by rfl

theorem consume_eq : here.consume 0#11 word = .ok (List.replicate 8 0#8) here := by rfl

/-- Core 0 has taken its effect and waits to push its token. -/
def waitsToPush : Host.Outcome State Fault Refusal → Bool
  | .next u => (u.core 0#11).front.done
  | _ => false

/-- Its second entry is granted behind its first and takes the room that was left in queue 1, so the acquire waits to push. -/
theorem waitsToPush_grant : waitsToPush (execObjectGrant (apertureAddr 0#11 0) queuedTwice) = true := by decide +kernel

end queuedTwice

open queuedTwice in
/-- Refutes O49: when an object's queue names a core twice, the grant of a shared hold does not leave its acquire retired. -/
theorem not_seatEvents : ¬ Obligations.SeatEvents := by
  unfold Obligations.SeatEvents
  intro holds
  obtain ⟨⟨-, -, -, -, -, grant, -⟩, -⟩ := holds
  obtain ⟨-, shared, -⟩ := grant (apertureAddr 0#11 0) 0#11 false [(0#11, false)] item 1#5 (some postOne) word 0#4 binding
    (List.replicate 8 0#8) queuedTwice here objQueue_eq itemAt_eq atBoundary_eq (by decide +kernel) goes_here objCheck_eq (by decide)
    (by decide) (by decide +kernel) rfl (by decide +kernel) (by decide +kernel) consume_eq
  obtain ⟨retired, -⟩ := shared rfl (by decide) (by decide) (by decide)
  have waits := waitsToPush_grant
  rw [show execObjectGrant (apertureAddr 0#11 0) queuedTwice = _ from retired] at waits
  simp only [waitsToPush, State.went_done] at waits
  exact absurd waits (by decide)

end Sys2Proof.Machine

/-! Integer, shift, comparison and literal instructions of the control unit (R63 to R69, R71, R72): the value that each writes, in the
words of the spec, and the statements put together from them. -/

namespace Sys2Proof.Machine

/-! ## Operand forms (R51, R52, R69) -/

section
variable {d a b : BitVec 5} {imm : BitVec 14} {t : Option Tok} {s : State} (h : s.goes t)
include h

/-- An instruction of two registers retires having written its value. -/
theorem runCtl_binC {f : Word → Word → Word} {v : Word} (hv : f (s.val a) (s.val b) = v) :
    runCtl t (binC d a b f) s = .next (s.puts d v t) :=
  hv ▸ runCtl_puts t d (fun c => f (c.reg a) (c.reg b)) s h

/-- An instruction of one register retires having written its value. -/
theorem runCtl_unC {f : Word → Word} {v : Word} (hv : f (s.val a) = v) :
    runCtl t (unC d a f) s = .next (s.puts d v t) :=
  hv ▸ runCtl_puts t d (fun c => f (c.reg a)) s h

/-- An instruction of a register and an immediate retires having written its value. -/
theorem runCtl_immC {f : Word → Word → Word} {v : Word} (hv : f (s.val a) (imm.signExtend 64) = v) :
    runCtl t (immC d a imm f) s = .next (s.puts d v t) :=
  hv ▸ runCtl_puts t d (fun c => f (c.reg a) (imm.signExtend 64)) s h

/-- An instruction of two registers that may raise flags retires having written its value and raised them. -/
theorem runCtl_binFlC {f : Word → Word → Word × Fl} {r : Word × Fl} (hr : f (s.val a) (s.val b) = r) :
    runCtl t (binFlC d a b f) s = .next (s.putsFl d r t) :=
  hr ▸ runCtl_putsFl t d (fun c => f (c.reg a) (c.reg b)) s h

/-- The same, when it raises none. -/
theorem runCtl_binFlC_none {f : Word → Word → Word × Fl} {v : Word} (hr : f (s.val a) (s.val b) = (v, 0#6)) :
    runCtl t (binFlC d a b f) s = .next (s.puts d v t) :=
  (runCtl_binFlC h hr).trans (congrArg Host.Outcome.next (State.putsFl_none s d v t))

end

/-! ## Products (R63) -/

/-- The upper half of a signed number of 128 bits is its quotient by 2^64. -/
theorem extractLsb'_ofInt_high (x : Int) : (BitVec.ofInt 128 x).extractLsb' 64 64 = BitVec.ofInt 64 (x / 2 ^ 64) := by
  refine BitVec.eq_of_toNat_eq ?_
  simp only [BitVec.extractLsb'_toNat, BitVec.toNat_ofInt, Nat.shiftRight_eq_div_pow]
  omega

/-- The upper half of the signed product. -/
theorem mulhI_eq (a b : Word) : mulhI a b = (a.signExtend 128 * b.signExtend 128).extractLsb' 64 64 := by
  have hp : a.signExtend 128 * b.signExtend 128 = BitVec.ofInt 128 (a.toInt * b.toInt) := by
    rw [BitVec.ofInt_mul]; rfl
  rw [hp, extractLsb'_ofInt_high]
  rfl

/-- The upper half of the unsigned product. -/
theorem mulhN_eq (a b : Word) : mulhN a b = (a.zeroExtend 128 * b.zeroExtend 128).extractLsb' 64 64 := by
  have hp : a.zeroExtend 128 * b.zeroExtend 128 = BitVec.ofInt 128 ((a.toNat * b.toNat : Nat) : Int) := by
    rw [Nat.cast_mul, BitVec.ofInt_mul, BitVec.ofInt_natCast, BitVec.ofInt_natCast, BitVec.ofNat_toNat, BitVec.ofNat_toNat]
  rw [hp, extractLsb'_ofInt_high]
  rfl

/-- Settles O1: each instruction writes the value of its function, the upper halves by `mulhI_eq` and `mulhN_eq`. -/
theorem integerResults : Obligations.IntegerResults := by
  unfold Obligations.IntegerResults
  intro d a b t s
  refine ⟨⟨rfl, rfl, rfl, rfl, rfl, rfl, rfl, rfl, rfl⟩, fun h => ?_⟩
  exact ⟨runCtl_binC h rfl, runCtl_binC h rfl, runCtl_binC h (BitVec.eq_of_toNat_eq (by simp)), runCtl_binC h (mulhI_eq ..),
    runCtl_binC h (mulhN_eq ..), runCtl_binC h rfl, runCtl_binC h rfl, runCtl_binC h rfl, runCtl_binC h rfl⟩

/-! ## Division (R64) -/

section
variable {a b : Word}

theorem divN_of_ne (hb : b ≠ 0#64) : divN a b = (BitVec.ofNat 64 (a.toNat / b.toNat), 0#6) := by
  rw [← BitVec.toNat_udiv, BitVec.ofNat_toNat, BitVec.setWidth_eq]
  exact if_neg hb

theorem remN_of_ne (hb : b ≠ 0#64) : remN a b = (BitVec.ofNat 64 (a.toNat % b.toNat), 0#6) := by
  rw [← BitVec.toNat_umod, BitVec.ofNat_toNat, BitVec.setWidth_eq]
  exact if_neg hb

/-- A quotient that can be expressed is the truncated one. -/
theorem divI_of_fits (hb : b ≠ 0#64) (hf : ¬(a = 0x8000000000000000#64 ∧ b = 0xFFFFFFFFFFFFFFFF#64)) :
    ∃ q : Word, divI a b = (q, 0#6) ∧ q.toInt = Int.tdiv a.toInt b.toInt := by
  have hq : (a.sdiv b).toInt = Int.tdiv a.toInt b.toInt :=
    BitVec.toInt_sdiv_of_ne_or_ne a b (Classical.not_and_iff_not_or_not.mp hf)
  refine ⟨a.sdiv b, (if_neg hb).trans ((if_neg hf).trans ?_), hq⟩
  rw [← hq, BitVec.ofInt_toInt]

/-- Its remainder is the one of truncation. -/
theorem remI_of_fits (hb : b ≠ 0#64) (hf : ¬(a = 0x8000000000000000#64 ∧ b = 0xFFFFFFFFFFFFFFFF#64)) :
    ∃ r : Word, remI a b = (r, 0#6) ∧ r.toInt = Int.tmod a.toInt b.toInt := by
  have hr : (a.srem b).toInt = Int.tmod a.toInt b.toInt := BitVec.toInt_srem a b
  refine ⟨a.srem b, (if_neg hb).trans ((if_neg hf).trans ?_), hr⟩
  rw [← hr, BitVec.ofInt_toInt]

end

/-- A remainder of truncation that is not zero has the dividend's sign. -/
theorem tmod_sign (x y : Int) : Int.tmod x y = 0 ∨ (Int.tmod x y < 0 ↔ x < 0) := by
  rcases lt_or_ge x 0 with hx | hx
  · have h := Int.tmod_nonneg y (Int.neg_nonneg_of_nonpos (Int.le_of_lt hx))
    rw [Int.neg_tmod] at h
    omega
  · have h := Int.tmod_nonneg y hx
    omega

/-- Settles O2: the cases of a zero divisor and of overflow as the model names them, the others by `divI_of_fits` and
`remI_of_fits`. -/
theorem divisionResults : Obligations.DivisionResults := by
  unfold Obligations.DivisionResults
  intro d a b t s
  refine ⟨⟨rfl, rfl, rfl, rfl⟩, fun h => ⟨fun hb => ?zero, fun hb => ?unsigned, fun ha hb => ?overflow, fun hb hf => ?fits⟩⟩
  case zero =>
    exact ⟨runCtl_binFlC h (if_pos hb), runCtl_binFlC h (if_pos hb), runCtl_binFlC h (if_pos hb), runCtl_binFlC h (if_pos hb)⟩
  case unsigned => exact ⟨runCtl_binFlC_none h (divN_of_ne hb), runCtl_binFlC_none h (remN_of_ne hb)⟩
  case overflow =>
    have hb0 : s.val b ≠ 0#64 := hb ▸ (by decide)
    exact ⟨runCtl_binFlC_none h ((if_neg hb0).trans (if_pos ⟨ha, hb⟩)), runCtl_binFlC_none h ((if_neg hb0).trans (if_pos ⟨ha, hb⟩))⟩
  case fits =>
    obtain ⟨q, hd, hq⟩ := divI_of_fits hb hf
    obtain ⟨r, hm, hr⟩ := remI_of_fits hb hf
    refine ⟨q, r, runCtl_binFlC_none h hd, runCtl_binFlC_none h hm, hq, ?_, hr ▸ tmod_sign _ _⟩
    rw [hq, hr, Int.mul_tdiv_add_tmod]

/-! ## Shifts (R65, R66) -/

theorem shCount_eq (b : Word) : shCount b = (b.extractLsb' 0 6).toNat := by
  simp [shCount, BitVec.extractLsb'_toNat]

/-- A rotation is the two shifts, for a count of zero too. -/
theorem rolW_eq (a b : Word) : rolW a b = (a <<< shCount b) ||| (a >>> (64 - shCount b)) := by
  unfold rolW
  split
  case isTrue h0 =>
    have hz : a >>> 64 = 0#64 := BitVec.ushiftRight_eq_zero (Nat.le_refl 64)
    simp [h0, hz]
  case isFalse => rfl

theorem rolW_zero {a b : Word} (h : shCount b = 0) : rolW a b = a := if_pos h

/-- The funnel shift by a count. -/
def funnel (a b : Word) (n : Nat) : Word := ((a ++ b : BitVec 128) <<< n).extractLsb' 64 64

theorem fshW_eq (a b c : Word) : fshW a b c = funnel a b (c.extractLsb' 0 7).toNat := by
  simp [fshW, funnel, BitVec.extractLsb'_toNat]

/-- A bit of the upper half of a:b shifted left: one of a's, or one of b's from its top down. -/
theorem getLsbD_funnel (a b : Word) (n i : Nat) (hi : i < 64) : (funnel a b n).getLsbD i =
    if n ≤ i then a.getLsbD (i - n) else if n ≤ 64 + i then b.getLsbD (64 + i - n) else false := by
  have h128 : 64 + i < 128 := by omega
  simp only [funnel, BitVec.getLsbD_extractLsb', BitVec.getLsbD_shiftLeft, BitVec.getLsbD_append, hi, h128, decide_true, Bool.true_and]
  by_cases h1 : n ≤ i
  · have h2 : ¬64 + i < n := by omega
    have h3 : ¬64 + i - n < 64 := by omega
    have h4 : 64 + i - n - 64 = i - n := by omega
    simp [h1, h2, h3, h4]
  · by_cases h2 : n ≤ 64 + i
    · have h3 : ¬64 + i < n := by omega
      have h4 : 64 + i - n < 64 := by omega
      simp [h1, h2, h3, h4]
    · have h3 : 64 + i < n := by omega
      simp [h1, h2, h3]

section
variable (a b : Word) {n : Nat}

/-- Below a whole word the funnel shift fills a from the top of b. -/
theorem funnel_lt (hn : n < 64) : funnel a b n = (a <<< n) ||| (b >>> (64 - n)) := by
  refine BitVec.eq_of_getLsbD_eq fun i hi => ?_
  rw [getLsbD_funnel a b n i hi, BitVec.getLsbD_or, BitVec.getLsbD_shiftLeft, BitVec.getLsbD_ushiftRight]
  by_cases h : n ≤ i
  · have hl : ¬i < n := by omega
    have hb : b.getLsbD (64 - n + i) = false := BitVec.getLsbD_of_ge _ _ (by omega)
    simp [h, hl, hi, hb]
  · have hl : i < n := by omega
    have h2 : n ≤ 64 + i := by omega
    have h3 : 64 + i - n = 64 - n + i := by omega
    simp [h, hl, h2, h3]

/-- From a whole word on it is b shifted by the rest. -/
theorem funnel_ge (h64 : 64 ≤ n) : funnel a b n = b <<< (n - 64) := by
  refine BitVec.eq_of_getLsbD_eq fun i hi => ?_
  rw [getLsbD_funnel a b n i hi, BitVec.getLsbD_shiftLeft, if_neg (by omega)]
  by_cases h : n ≤ 64 + i
  · have hl : ¬i < n - 64 := by omega
    have he : 64 + i - n = i - (n - 64) := by omega
    simp [h, hl, hi, he]
  · have hl : i < n - 64 := by omega
    simp [h, hl]

end

/-- A rotation is the funnel shift of a:a, when bit 6 of the count's register is clear. -/
theorem rolW_eq_fshW (a b : Word) (h : b.getLsbD 6 = false) : rolW a b = fshW a a b := by
  have hc : (b.extractLsb' 0 7).toNat = shCount b := by
    have h6 : b.toNat / 64 % 2 = 0 := by
      simpa [BitVec.getLsbD, Nat.testBit_eq_decide_div_mod_eq] using h
    simp only [BitVec.extractLsb'_toNat, shCount, Nat.shiftRight_zero]
    omega
  have hlt : shCount b < 64 := Nat.mod_lt _ (by decide)
  rw [rolW_eq, fshW_eq, hc, funnel_lt a a hlt]

/-- `fsh` retires having written the funnel shift. -/
theorem exec_fsh_goes {d a b c : BitVec 5} {t : Option Tok} {s : State} {v : Word} (h : s.goes t)
    (hv : fshW (s.val a) (s.val b) (s.val c) = v) : exec (.fsh d a b c t) s = .next (s.puts d v t) :=
  hv ▸ runCtl_puts t d (fun x => fshW (x.reg a) (x.reg b) (x.reg c)) s h

/-- Settles O3: the counts by `shCount_eq`, the funnel shift by `funnel_lt` and `funnel_ge`. -/
theorem shiftResults : Obligations.ShiftResults := by
  unfold Obligations.ShiftResults
  refine ⟨fun d a b t s => ⟨⟨rfl, rfl, rfl, rfl⟩, ?_⟩, fun d a b c t s => ⟨rfl, ?_⟩⟩
  · intro h n
    have hn : shCount (s.val b) = n := shCount_eq _
    exact ⟨runCtl_binC h (congrArg (s.val a <<< ·) hn), runCtl_binC h (congrArg (s.val a >>> ·) hn),
      runCtl_binC h (congrArg (s.val a).sshiftRight hn), runCtl_binC h (hn ▸ rolW_eq _ _),
      fun h0 => runCtl_binC h (rolW_zero (hn.trans h0))⟩
  · intro h n
    have hf : fshW (s.val a) (s.val b) (s.val c) = funnel (s.val a) (s.val b) n := fshW_eq _ _ _
    refine ⟨exec_fsh_goes h hf, fun h0 => exec_fsh_goes h ?_, fun h64 => exec_fsh_goes h ?_, fun h64 => exec_fsh_goes h ?_,
      fun h6 => ?_⟩
    · rw [hf, h0, funnel_lt _ _ (by decide), BitVec.ushiftRight_eq_zero (Nat.le_refl 64)]
      simp
    · rw [hf, h64, funnel_ge _ _ (by decide)]
      exact BitVec.shiftLeft_zero _
    · rw [hf, funnel_ge _ _ (Nat.le_of_lt h64)]
    · exact (runCtl_binC h (rolW_eq_fshW _ _ h6)).trans (exec_fsh_goes h rfl).symm

/-! ## Bit counts (R67) -/

/-- A number below 2^w has no bit from w up, so the positions of its set bits end at the highest. -/
theorem setBitsDown_of_highest {w x i : Nat} (hi : i < w) (hx : x.testBit i = true) (ha : ∀ j, i < j → j < w → x.testBit j = false) :
    (setBitsDown w x).head? = some i := by
  obtain ⟨n, rfl⟩ : ∃ n, w = i + 1 + n := ⟨w - (i + 1), by omega⟩
  have hz : (List.map (fun j => i + 1 + j) (List.range n)).filter (fun j => x.testBit j) = [] := by
    simp only [List.filter_eq_nil_iff, List.mem_map, List.mem_range]
    rintro _ ⟨j, hj, rfl⟩
    simp [ha (i + 1 + j) (by omega) (by omega)]
  rw [setBitsDown, List.range_add, List.filter_append, hz, List.append_nil, List.range_succ, List.filter_append]
  simp [hx]

theorem ffsN_of_highest {w x i : Nat} (h : (setBitsDown w x).head? = some i) : ffsN w x = i := by
  rw [ffsN, List.headD_eq_head?_getD, h]
  rfl

theorem clzN_of_highest {w x i : Nat} (h : (setBitsDown w x).head? = some i) : clzN w x = w - 1 - i := by
  rw [clzN, h]

theorem ctzN_of_lowest {w x i : Nat} (hi : i < w) (hx : x.testBit i = true) (hb : ∀ j, j < i → x.testBit j = false) :
    ctzN w x = i := by
  have hf : (List.range w).find? (fun j => x.testBit j) = some i :=
    List.find?_range_eq_some.mpr ⟨hx, List.mem_range.mpr hi, fun j hj => by simp [hb j hj]⟩
  rw [ctzN, List.head?_filter, hf]
  rfl

/-- Zero has no set bit. -/
theorem counts_zero (w : Nat) : clzN w 0 = w ∧ ctzN w 0 = w ∧ ffsN w 0 = w := by
  simp [clzN, ctzN, ffsN, setBitsDown]

theorem popcN_eq_card (w x : Nat) : popcN w x = ((Finset.range w).filter (fun i => x.testBit i = true)).card := by
  rw [popcN, Finset.card_def, Finset.filter_val, Finset.range_val, Multiset.range, Multiset.filter_coe, Multiset.coe_card]
  simp

/-! ## Byte order (R67) -/

/-- Byte i of a number made of bytes. -/
theorem bytesToNat_byte (bs : List (BitVec 8)) (i : Nat) : bytesToNat bs / 256 ^ i % 256 = (bs.getD i 0#8).toNat := by
  have hp : (256 : Nat) ^ i = 2 ^ (8 * i) := by rw [pow_mul]; norm_num
  refine Nat.eq_of_testBit_eq fun j => ?_
  rw [hp, show 256 = 2 ^ 8 from rfl, Nat.testBit_mod_two_pow, Nat.testBit_div_two_pow, bytesToNat, testBit_packNat (by decide)]
  by_cases hj : j < 8
  · have h1 : (j + 8 * i) / 8 = i := by omega
    have h2 : (j + 8 * i) % 8 = j := by omega
    cases hb : bs[i]? <;> simp [h1, h2, hj, hb]
  · have hlt : (bs.getD i 0#8).toNat < 2 ^ j :=
      Nat.lt_of_lt_of_le (BitVec.isLt _) (Nat.pow_le_pow_right (by decide) (by omega))
    simp only [hj, decide_false, Bool.false_and, Nat.testBit_lt_two_pow hlt]

theorem bytesToNat_lt (bs : List (BitVec 8)) : bytesToNat bs < 2 ^ (8 * bs.length) := by
  refine Nat.lt_pow_two_of_testBit _ fun j hj => ?_
  rw [bytesToNat, testBit_packNat (by decide)]
  have hl : bs.length ≤ j / 8 := by omega
  simp [hl]

theorem natToBytes_byte {n i : Nat} (v : Nat) (hi : i < n) : ((natToBytes n v).getD i 0#8).toNat = v / 256 ^ i % 256 := by
  have hp : (256 : Nat) ^ i = 2 ^ (8 * i) := by rw [pow_mul]; norm_num
  simp [natToBytes, hi, hp, Nat.shiftRight_eq_div_pow]

/-- A byte swap takes each byte from its mirrored place. -/
theorem bswapN_byte {w i : Nat} (x : Nat) (hi : i < w / 8) : bswapN w x / 256 ^ i % 256 = x / 256 ^ (w / 8 - 1 - i) % 256 := by
  have hg : (natToBytes (w / 8) x).reverse.getD i 0#8 = (natToBytes (w / 8) x).getD (w / 8 - 1 - i) 0#8 := by
    rw [List.getD, List.getD, List.getElem?_reverse (by simpa using hi), length_natToBytes]
  rw [bswapN, bytesToNat_byte, hg, natToBytes_byte x (by omega)]

theorem bswapN_lt (w x : Nat) : bswapN w x < 2 ^ w := by
  have h := bytesToNat_lt (natToBytes (w / 8) x).reverse
  rw [List.length_reverse, length_natToBytes] at h
  exact Nat.lt_of_lt_of_le h (Nat.pow_le_pow_right (by decide) (Nat.mul_div_le w 8))

theorem wdBits_eq (wd : BitVec 2) : wdBits wd = 8 <<< wd.toNat := (Nat.shiftLeft_eq 8 wd.toNat).symm

/-- A bit-count instruction retires having written its count of the operand's low bits. -/
theorem runCtl_countW {d a : BitVec 5} {wd : BitVec 2} {t : Option Tok} {s : State} (h : s.goes t) {f : Nat → Nat → Nat} {v : Nat}
    (hv : f (8 <<< wd.toNat) ((s.val a).toNat % 2 ^ (8 <<< wd.toNat)) = v) :
    runCtl t (unC d a (countW wd f)) s = .next (s.puts d (BitVec.ofNat 64 v) t) :=
  runCtl_unC h (by rw [countW, wdBits_eq, hv])

/-! ## Comparison, selection, immediates (R68, R69) -/

section
variable (x y : Word)

theorem flagWord_beq : flagWord (x == y) = if x = y then 1#64 else 0#64 := by simp [flagWord]

theorem flagWord_bne : flagWord (x != y) = if x = y then 0#64 else 1#64 := by by_cases h : x = y <;> simp [flagWord, h]

theorem flagWord_slt : flagWord (x.slt y) = if x.toInt < y.toInt then 1#64 else 0#64 := by simp [flagWord, BitVec.slt]

theorem flagWord_ult : flagWord (x.ult y) = if x.toNat < y.toNat then 1#64 else 0#64 := by simp [flagWord, BitVec.ult]

theorem flagWord_sle : flagWord (x.sle y) = if x.toInt ≤ y.toInt then 1#64 else 0#64 := by simp [flagWord, BitVec.sle]

theorem flagWord_ule : flagWord (x.ule y) = if x.toNat ≤ y.toNat then 1#64 else 0#64 := by simp [flagWord, BitVec.ule]

theorem minI_eq : (if x.sle y then x else y) = if x.toInt ≤ y.toInt then x else y := by simp [BitVec.sle]

theorem minN_eq : (if x.ule y then x else y) = if x.toNat ≤ y.toNat then x else y := by simp [BitVec.ule]

theorem maxI_eq : (if y.sle x then x else y) = if x.toInt ≤ y.toInt then y else x := by
  simp only [BitVec.sle, decide_eq_true_eq]
  rcases Int.lt_trichotomy x.toInt y.toInt with hlt | he | hgt
  · rw [if_neg (by omega), if_pos (by omega)]
  · rw [BitVec.eq_of_toInt_eq he, if_pos (Int.le_refl _)]
  · rw [if_pos (by omega), if_neg (by omega)]

theorem maxN_eq : (if y.ule x then x else y) = if x.toNat ≤ y.toNat then y else x := by
  simp only [BitVec.ule, decide_eq_true_eq]
  rcases Nat.lt_trichotomy x.toNat y.toNat with hlt | he | hgt
  · rw [if_neg (by omega), if_pos (by omega)]
  · rw [BitVec.eq_of_toNat_eq he, if_pos (Nat.le_refl _)]
  · rw [if_pos (by omega), if_neg (by omega)]

theorem mul_eq_ofInt : x * y = BitVec.ofInt 64 (x.toInt * y.toInt) := by
  rw [BitVec.ofInt_mul, BitVec.ofInt_toInt, BitVec.ofInt_toInt]

end

/-- The count of a shift by an immediate from 0 to 63 is the immediate (R70). -/
theorem shCount_imm {imm : BitVec 14} (h : imm.toNat < 64) : shCount (imm.signExtend 64) = imm.toNat := by
  have hm : imm.msb = false := by rw [BitVec.msb_eq_false_iff_two_mul_lt]; omega
  rw [shCount, BitVec.signExtend_eq_setWidth_of_msb_false hm, BitVec.toNat_setWidth]
  omega

/-- A selection retires having written one of two registers. -/
theorem exec_sel_goes {d a b c : BitVec 5} {t : Option Tok} {s : State} (h : s.goes t) :
    exec (.sel d a b c t) s = .next (s.puts d (if s.val c = 0#64 then s.val b else s.val a) t) := by
  rw [← ite_not]
  exact runCtl_puts t d (fun x => if x.reg c ≠ 0#64 then x.reg a else x.reg b) s h

/-- A literal retires having written its value (R71, R72). -/
theorem runCtl_literal {d : BitVec 5} {t : Option Tok} {s : State} (h : s.goes t) (x : Lit) :
    runCtl t (fun c => c.setReg d (Lit.value x)) s = .next (s.puts d (Lit.value x) t) :=
  runCtl_puts t d (fun _ => (Lit.value x)) s h

/-- Settles O4: the counts by the highest and the lowest set bit, the byte swap by `bswapN_byte`, each of the others by the
equation of its function. -/
theorem scalarValues : Obligations.ScalarValues := by
  unfold Obligations.ScalarValues
  refine ⟨fun d a wd t s h => ?counts, fun d a b c t s h => ?compare, fun d a imm lo hi t s h => ?immediate⟩
  case counts =>
    intro w x
    refine ⟨fun hx => ?zero, fun i l hi hxi ha hxl hb => ?bits, runCtl_countW h (popcN_eq_card w x),
      bswapN w x, bswapN_lt w x, runCtl_countW h rfl, fun i hi => bswapN_byte x hi⟩
    case zero =>
      obtain ⟨hclz, hctz, hffs⟩ := counts_zero w
      exact ⟨runCtl_countW h (by rw [← hclz, ← hx]), runCtl_countW h (by rw [← hctz, ← hx]), runCtl_countW h (by rw [← hffs, ← hx])⟩
    case bits =>
      have hhigh := setBitsDown_of_highest hi hxi ha
      have hl : l ≤ i := by
        by_contra hlt
        exact absurd hxi (by rw [hb i (by omega)]; decide)
      exact ⟨runCtl_countW h (ffsN_of_highest hhigh), runCtl_countW h (clzN_of_highest hhigh),
        runCtl_countW h (ctzN_of_lowest (Nat.lt_of_le_of_lt hl hi) hxl hb)⟩
  case compare =>
    exact ⟨runCtl_binC h (minI_eq ..), runCtl_binC h (minN_eq ..), runCtl_binC h (maxI_eq ..), runCtl_binC h (maxN_eq ..),
      runCtl_binC h (flagWord_beq ..), runCtl_binC h (flagWord_bne ..), runCtl_binC h (flagWord_slt ..),
      runCtl_binC h (flagWord_ult ..), runCtl_binC h (flagWord_sle ..), runCtl_binC h (flagWord_ule ..), exec_sel_goes h⟩
  case immediate =>
    intro i n
    refine ⟨runCtl_immC h rfl, runCtl_immC h rfl, runCtl_immC h rfl, runCtl_immC h rfl, runCtl_immC h (flagWord_beq ..),
      runCtl_immC h (flagWord_slt ..), runCtl_immC h (flagWord_ult ..), runCtl_immC h (mul_eq_ofInt ..), fun hn => ?_,
      runCtl_literal h (.short lo), runCtl_literal h (.long lo hi), runCtl_literal h (.short lo), runCtl_literal h (.long lo hi)⟩
    have hc : shCount i = n := shCount_imm hn
    exact ⟨runCtl_immC h (congrArg (s.val a <<< ·) hc), runCtl_immC h (congrArg (s.val a >>> ·) hc),
      runCtl_immC h (congrArg (s.val a).sshiftRight hc), runCtl_immC h (hc ▸ rolW_eq _ _)⟩

end Sys2Proof.Machine

/-! Scalar floating point (R73 to R77): arithmetic that rounds once, comparisons, sign operations and conversions. -/

namespace Sys2Proof.Machine

/-! ## Arithmetic (R73, R76) -/

section
variable {d a b : BitVec 5} {ty : BitVec 1} {t : Option Tok} {s : State} (h : s.goes t)
include h

/-- Arithmetic of two operands retires having written and raised its result, rounded once. -/
theorem runCtl_fpBinC (r : BitVec 3) (f : Mode → Val → Val → Val × Fl) : runCtl t (fpBinC d a b r ty f) s =
    .next (s.putsFl d (fpWrite ty (modeOf r (s.core s.exe).ctl.rm)
      (f (modeOf r (s.core s.exe).ctl.rm) (fpRead ty (s.val a)) (fpRead ty (s.val b)))) t) :=
  runCtl_putsFl t d (fun c => fpWrite ty (modeOf r c.rm) (f (modeOf r c.rm) (fpRead ty (c.reg a)) (fpRead ty (c.reg b)))) s h

/-- The fused product and sum retires having written and raised its result, rounded once. -/
theorem exec_ffma_goes (r : BitVec 3) (c : BitVec 5) : exec (.ffma d a b r ty c t) s =
    .next (s.putsFl d (fpWrite ty (modeOf r (s.core s.exe).ctl.rm)
      (Val.fma (modeOf r (s.core s.exe).ctl.rm) (fpRead ty (s.val a)) (fpRead ty (s.val b)) (fpRead ty (s.val c)))) t) :=
  runCtl_putsFl t d (fun x => fpWrite ty (modeOf r x.rm)
    (Val.fma (modeOf r x.rm) (fpRead ty (x.reg a)) (fpRead ty (x.reg b)) (fpRead ty (x.reg c)))) s h

end

/-- Settles O5: each instruction rounds the exact result of its operation once (`runCtl_fpBinC`, `exec_ffma_goes`). -/
theorem floatArithmetic : Obligations.FloatArithmetic := by
  unfold Obligations.FloatArithmetic
  intro d a b c r ty t s h
  exact ⟨runCtl_fpBinC h r Val.add, runCtl_fpBinC h r fpSub, runCtl_fpBinC h r (fun _ x y => Val.mul x y), exec_ffma_goes h r c,
    runCtl_fpBinC h r (fun _ x y => Val.div x y), runCtl_fpBinC h r (fun _ x _ => Val.sqrt x)⟩

/-! ## Comparisons and picks (R76) -/

/-- A value without flags of its own raises those of its rounding. -/
theorem fpWrite_none (ty : BitVec 1) (m : Mode) (v : Val) :
    fpWrite ty m (v, 0#6) = (BitVec.ofNat 64 ((fpFmt ty).round m v).1, ((fpFmt ty).round m v).2) :=
  congrArg (Prod.mk _) BitVec.zero_or

section
variable {d a b : BitVec 5} {ty : BitVec 1} {t : Option Tok} {s : State} (h : s.goes t)
include h

/-- Minimum and maximum retire having written the operand that they pick. -/
theorem runCtl_fpPickC (f : Val → Val → Val) : runCtl t (fpPickC d a b ty f) s =
    .next (s.putsFl d (BitVec.ofNat 64 ((fpFmt ty).round .rne (f (fpRead ty (s.val a)) (fpRead ty (s.val b)))).1,
      ((fpFmt ty).round .rne (f (fpRead ty (s.val a)) (fpRead ty (s.val b)))).2) t) := by
  rw [← fpWrite_none]
  exact runCtl_putsFl t d (fun c => fpWrite ty .rne (f (fpRead ty (c.reg a)) (fpRead ty (c.reg b)), 0#6)) s h

/-- A comparison retires having written its outcome, which a NaN makes 0; NV is raised for a NaN where it is ordered. -/
theorem runCtl_fpCmpC (ordered : Bool) (f : Int → Bool) {nan : Bool}
    (hn : ((fpRead ty (s.val a)).isNan || (fpRead ty (s.val b)).isNan) = nan) : runCtl t (fpCmpC d a b ty ordered f) s =
    .next (s.putsFl d (flagWord (!nan && f (Val.cmp (fpRead ty (s.val a)) (fpRead ty (s.val b)))), Fl.when (nan && ordered) Fl.nv) t) := by
  rw [← hn]
  exact runCtl_putsFl t d (fun c =>
    (flagWord (!((fpRead ty (c.reg a)).isNan || (fpRead ty (c.reg b)).isNan) && f (Val.cmp (fpRead ty (c.reg a)) (fpRead ty (c.reg b)))),
      Fl.when (((fpRead ty (c.reg a)).isNan || (fpRead ty (c.reg b)).isNan) && ordered) Fl.nv)) s h

/-- A comparison of a NaN writes 0, with NV where it is ordered. -/
theorem runCtl_fpCmpC_nan (ordered : Bool) (f : Int → Bool) (hn : ((fpRead ty (s.val a)).isNan || (fpRead ty (s.val b)).isNan) = true) :
    runCtl t (fpCmpC d a b ty ordered f) s = .next (s.putsFl d (0#64, Fl.when ordered Fl.nv) t) := by
  simpa [flagWord] using runCtl_fpCmpC (d := d) h ordered f hn

/-- Any other comparison writes its outcome and raises nothing. -/
theorem runCtl_fpCmpC_numbers (ordered : Bool) (p : Int → Prop) [DecidablePred p]
    (hn : ((fpRead ty (s.val a)).isNan || (fpRead ty (s.val b)).isNan) = false) :
    runCtl t (fpCmpC d a b ty ordered (fun o => decide (p o))) s =
      .next (s.puts d (if p (Val.cmp (fpRead ty (s.val a)) (fpRead ty (s.val b))) then 1#64 else 0#64) t) := by
  simpa [flagWord, Fl.when, State.putsFl_none] using runCtl_fpCmpC (d := d) h ordered (fun o => decide (p o)) hn

end

/-! ## The sign bit (R76) -/

/-- Adding the next power of two to a number below it is setting that bit. -/
theorem xor_two_pow_of_lt {b n : Nat} (h : b < 2 ^ n) : b ^^^ 2 ^ n = b + 2 ^ n := by
  have ho : 2 ^ n + b = 2 ^ n ||| b := by simpa using Nat.two_pow_add_eq_or_of_lt h 1
  rw [Nat.add_comm, ho]
  refine Nat.eq_of_testBit_eq fun j => ?_
  rw [Nat.testBit_xor, Nat.testBit_or, Nat.testBit_two_pow]
  by_cases hj : n = j
  · subst hj
    simp [Nat.testBit_lt_two_pow h]
  · simp [hj]

/-- The top bit of a number of n + 1 bits inverted. -/
theorem xor_top {b n : Nat} (h : b < 2 ^ (n + 1)) : b ^^^ 2 ^ n = if b < 2 ^ n then b + 2 ^ n else b - 2 ^ n := by
  split
  case isTrue hlt => exact xor_two_pow_of_lt hlt
  case isFalse hge =>
    obtain ⟨c, rfl⟩ := Nat.exists_eq_add_of_le' (Nat.le_of_not_lt hge)
    have hc : c < 2 ^ n := by rw [Nat.pow_succ] at h; omega
    rw [← xor_two_pow_of_lt hc, Nat.xor_assoc, Nat.xor_self, Nat.xor_zero, xor_two_pow_of_lt hc, Nat.add_sub_cancel]

/-- The low bits of a word. -/
theorem and_mask (x : Word) {n : Nat} (hn : n < 64) : x &&& BitVec.ofNat 64 (2 ^ n - 1) = BitVec.ofNat 64 (x.toNat % 2 ^ n) := by
  have hp : 2 ^ n ≤ 2 ^ 63 := Nat.pow_le_pow_right (by decide) (by omega)
  refine BitVec.eq_of_toNat_eq ?_
  rw [BitVec.toNat_and, BitVec.toNat_ofNat, BitVec.toNat_ofNat, Nat.mod_eq_of_lt (by omega : 2 ^ n - 1 < 2 ^ 64),
    Nat.and_two_pow_sub_one_eq_mod, Nat.mod_eq_of_lt (Nat.lt_of_le_of_lt (Nat.mod_le _ _) x.isLt)]

/-- The low bits of a word with the top one of them inverted. -/
theorem xor_sign (x : Word) {n : Nat} (hn : n + 1 < 64) :
    (x ^^^ BitVec.ofNat 64 (2 ^ n)) &&& BitVec.ofNat 64 (2 ^ (n + 1) - 1) =
      BitVec.ofNat 64 (if x.toNat % 2 ^ (n + 1) < 2 ^ n then x.toNat % 2 ^ (n + 1) + 2 ^ n else x.toNat % 2 ^ (n + 1) - 2 ^ n) := by
  have hp : 2 ^ n < 2 ^ (n + 1) := Nat.pow_lt_pow_right (by decide) (Nat.lt_succ_self n)
  have hq : 2 ^ (n + 1) < 2 ^ 64 := Nat.pow_lt_pow_right (by decide) hn
  rw [and_mask _ hn, BitVec.toNat_xor, BitVec.toNat_ofNat, Nat.mod_eq_of_lt (Nat.lt_trans hp hq), Nat.xor_mod_two_pow,
    Nat.mod_eq_of_lt hp, xor_top (Nat.mod_lt _ (Nat.two_pow_pos _))]

/-- The low bits of a word with the top one of them cleared. -/
theorem and_not_sign (x : Word) {n : Nat} {sign mask : Word} (hn : n < 64) (hm : ~~~sign &&& mask = BitVec.ofNat 64 (2 ^ n - 1)) :
    (x &&& ~~~sign) &&& mask = BitVec.ofNat 64 (x.toNat % 2 ^ (n + 1) % 2 ^ n) := by
  rw [BitVec.and_assoc, hm, and_mask x hn, Nat.mod_mod_of_dvd _ (Nat.pow_dvd_pow 2 (Nat.le_succ n))]

/-- A bit is 0 or 1. -/
theorem bit_cases : ∀ ty : BitVec 1, ty = 0#1 ∨ ty = 1#1 := by decide

section
variable (ty : BitVec 1) (x : Word)

/-- `fneg` inverts the sign bit and keeps the others. -/
theorem fpBits_neg : fpBits ty (x ^^^ fpSign ty) =
    (let width := if ty = 0#1 then 32 else 16
     let bits := x.toNat % 2 ^ width
     BitVec.ofNat 64 (if bits < 2 ^ (width - 1) then bits + 2 ^ (width - 1) else bits - 2 ^ (width - 1))) := by
  rcases bit_cases ty with rfl | rfl
  · exact xor_sign x (n := 31) (by decide)
  · exact xor_sign x (n := 15) (by decide)

/-- `fabs` clears the sign bit and keeps the others. -/
theorem fpBits_abs : fpBits ty (x &&& ~~~fpSign ty) =
    (let width := if ty = 0#1 then 32 else 16
     BitVec.ofNat 64 (x.toNat % 2 ^ width % 2 ^ (width - 1))) := by
  rcases bit_cases ty with rfl | rfl
  · exact and_not_sign x (n := 31) (by decide) (by decide)
  · exact and_not_sign x (n := 15) (by decide) (by decide)

end

/-! ## Conversion (R77) -/

/-- `fcvt` retires having written and raised its conversion. -/
theorem exec_fcvt_goes {d a k : BitVec 5} {r : BitVec 3} {ty : BitVec 1} {t : Option Tok} {s : State} (h : s.goes t) {q : Word × Fl}
    (hq : fcvtW k ty (modeOf r (s.core s.exe).ctl.rm) (s.val a) = q) : exec (.fcvt d a k r ty t) s = .next (s.putsFl d q t) :=
  hq ▸ runCtl_putsFl t d (fun c => fcvtW k ty (modeOf r c.rm) (c.reg a)) s h

section
variable (ty : BitVec 1) (m : Mode) (w : Word)

/-- Conversion from an integer rounds it once. -/
theorem fcvtFromInt_eq (n : Int) : fcvtFromInt ty m n =
    (BitVec.ofNat 64 ((fpFmt ty).round m (Val.ofInt n)).1, ((fpFmt ty).round m (Val.ofInt n)).2) :=
  fpWrite_none ty m (Val.ofInt n)

/-- The low half of a word. -/
theorem low_toNat : (w &&& 0xFFFFFFFF#64).toNat = (w.truncate 32).toNat := by
  rw [show w &&& 0xFFFFFFFF#64 = _ from and_mask w (n := 32) (by decide), BitVec.toNat_ofNat, BitVec.truncate_eq_setWidth, BitVec.toNat_setWidth]
  omega

/-- The low half of a word, signed. -/
theorem low_toInt : sextInt 32 (w &&& 0xFFFFFFFF#64).toNat = (w.truncate 32).toInt := by
  have hlt := (w.truncate 32).isLt
  rw [low_toNat, sextInt, BitVec.toInt_eq_toNat_cond]
  simp only [Nat.mod_eq_of_lt hlt]
  split <;> split <;> omega

/-- A conversion between the two formats rounds the operand, read in the other one, once. -/
theorem fcvtW_format : fcvtW 8#5 ty m w = (BitVec.ofNat 64 ((fpFmt ty).round m (fpRead (~~~ty) w)).1,
    ((fpFmt ty).round m (fpRead (~~~ty) w)).2) := by
  have hty : (if ty = 0#1 then 1#1 else 0#1) = ~~~ty := by
    rcases bit_cases ty with rfl | rfl <;> rfl
  rw [← hty]
  exact fpWrite_none ty m _

end

section
variable (m : Mode) (lo hi : Int)

theorem fcvtToInt_nan {v : Val} (h : v.isNan = true) : fcvtToInt m lo hi v = (0#64, Fl.nv) := by
  cases v with
  | nan => rfl
  | inf neg => cases h
  | fin neg n e st => cases h

theorem fcvtToInt_inf (neg : Bool) : fcvtToInt m lo hi (.inf neg) = (BitVec.ofInt 64 (if neg then lo else hi), Fl.nv) := rfl

/-- A value with an integral rounding gives it, or the bound that it lies beyond. -/
theorem fcvtToInt_integral {v : Val} {q : Int} {inexact : Bool} (h : v.toIntegral m = some (q, inexact)) :
    fcvtToInt m lo hi v = if q < lo then (BitVec.ofInt 64 lo, Fl.nv) else if hi < q then (BitVec.ofInt 64 hi, Fl.nv)
      else (BitVec.ofInt 64 q, if inexact then Fl.nx else 0#6) := by
  cases v with
  | nan => cases h
  | inf neg => cases h
  | fin neg n e st =>
    simp only [fcvtToInt, floatToInt, h]
    split
    · rfl
    · split <;> rfl

end

/-- The kinds of conversion to an integer, each with its bounds. -/
theorem fcvtW_toInt (ty : BitVec 1) (m : Mode) (w : Word) {k : BitVec 5} {lo hi : Int}
    (hk : (k, lo, hi) ∈ ([(2#5, -(2 ^ 63), 2 ^ 63 - 1), (3#5, 0, 2 ^ 64 - 1), (4#5, -(2 ^ 31), 2 ^ 31 - 1),
      (5#5, 0, 2 ^ 32 - 1)] : List (BitVec 5 × Int × Int))) : fcvtW k ty m w = fcvtToInt m lo hi (fpRead ty w) := by
  simp only [List.mem_cons, Prod.mk.injEq, List.not_mem_nil, or_false] at hk
  obtain ⟨rfl, rfl, rfl⟩ | ⟨rfl, rfl, rfl⟩ | ⟨rfl, rfl, rfl⟩ | ⟨rfl, rfl, rfl⟩ := hk <;> rfl

/-- Settles O6: the picks and comparisons by what they retire with, the sign operations on the bits, each conversion by its
kind. -/
theorem floatComparison : Obligations.FloatComparison := by
  unfold Obligations.FloatComparison
  refine ⟨fun d a b ty t s h => ?values, fun d a r ty t s h => ?conversions⟩
  case values =>
    intro x y width bits
    refine ⟨runCtl_fpPickC h Val.min, runCtl_fpPickC h Val.max, fun hn => ?nan, fun hn => ?ordered,
      runCtl_unC h (fpBits_neg ty (s.val a)), runCtl_unC h (fpBits_abs ty (s.val a))⟩
    case nan =>
      exact ⟨(runCtl_fpCmpC_nan h false _ hn).trans (congrArg Host.Outcome.next (State.putsFl_none s d _ t)),
        runCtl_fpCmpC_nan h true _ hn, runCtl_fpCmpC_nan h true _ hn⟩
    case ordered =>
      exact ⟨runCtl_fpCmpC_numbers h false (· = 0) hn, runCtl_fpCmpC_numbers h true (· < 0) hn,
        runCtl_fpCmpC_numbers h true (· ≤ 0) hn⟩
  case conversions =>
    intro m x given low
    refine ⟨?signed, ?unsigned, ?signed32, ?unsigned32, ?format, fun k lo hi hk => ?toInt⟩
    case signed => exact exec_fcvt_goes h (fcvtFromInt_eq ty m _)
    case unsigned => exact exec_fcvt_goes h (fcvtFromInt_eq ty m _)
    case signed32 => exact exec_fcvt_goes h (low_toInt (s.val a) ▸ fcvtFromInt_eq ty m _)
    case unsigned32 => exact exec_fcvt_goes h (low_toNat (s.val a) ▸ fcvtFromInt_eq ty m _)
    case format => exact exec_fcvt_goes h (fcvtW_format ty m _)
    case toInt =>
      have hw := fcvtW_toInt ty m (s.val a) hk
      exact ⟨fun hn => exec_fcvt_goes h (hw.trans (fcvtToInt_nan m lo hi hn)),
        fun neg hx => exec_fcvt_goes h (hw.trans (congrArg (fcvtToInt m lo hi) hx)),
        fun q inexact hq => exec_fcvt_goes h (hw.trans (fcvtToInt_integral m lo hi hq))⟩

end Sys2Proof.Machine

/-! Control transfers, software traps and the return from a trap (R78 to R81, R87, R89, R90, R393). -/

namespace Sys2Proof.Machine

/-! ## Bit fields and single bits of a word (R2) -/

/-- A bit field as a number. -/
theorem toNat_field (w : Word) (lo : Nat) {len : Nat} (h : len < 64) : (field w lo len).toNat = w.toNat / 2 ^ lo % 2 ^ len := by
  have hp : 2 ^ len - 1 < 2 ^ 64 := Nat.lt_of_le_of_lt (Nat.sub_le _ _) (Nat.pow_lt_pow_right (by decide) h)
  rw [field, BitVec.toNat_and, BitVec.toNat_ushiftRight, BitVec.toNat_ofNat, Nat.mod_eq_of_lt hp, Nat.and_two_pow_sub_one_eq_mod,
    Nat.shiftRight_eq_div_pow]

/-- It is the same number as the bits cut out. -/
theorem toNat_field_extract (w : Word) (lo : Nat) {len : Nat} (h : len < 64) :
    (field w lo len).toNat = (w.extractLsb' lo len).toNat := by
  rw [toNat_field w lo h, BitVec.extractLsb'_toNat, Nat.shiftRight_eq_div_pow]

/-- Writing one bit of a word leaves the others. -/
theorem getLsbD_setBit (w : Word) {i j : Nat} (b : Bool) (hi : i < 64) (hj : j < 64) :
    (setBit w i b).getLsbD j = if j = i then b else w.getLsbD j := by
  have hone : ∀ n, (1#64).getLsbD n = decide (n = 0) := fun n => by simp [BitVec.getLsbD_one]
  simp only [setBit, setField, BitVec.getLsbD_or, BitVec.getLsbD_and, BitVec.getLsbD_not, BitVec.getLsbD_shiftLeft, hj,
    show BitVec.ofNat 64 (2 ^ 1 - 1) = 1#64 from rfl, hone, decide_true, Bool.true_and]
  rcases Nat.lt_trichotomy j i with hlt | rfl | hgt
  · have hne : j ≠ i := by omega
    simp [hlt, hne]
  · cases b <;> simp
  · have hne : j ≠ i := by omega
    have hnl : ¬j < i := by omega
    have hs : j - i ≠ 0 := by omega
    simp [hne, hnl, hs]

/-! ## Branches, jumps and loops (R78 to R81) -/

section
variable {a b : BitVec 5} {j : BitVec 4} {off : BrOff} {t : Option Tok} {s : State} (h : s.goes t)
include h

/-- A branch retires having noted the bundle that its comparison chooses. -/
theorem runCF_branch {p : Word → Word → Bool} {taken : Bool} (hp : p (s.val a) (s.val b) = taken) :
    runCF t (branchCF a b j off p) s =
      .next (s.jumps (if taken then s.here + BrOff.value off else s.here + 1#51) j t taken) :=
  hp ▸ runCF_goes t (branchCF a b j off p) s h

/-- A jump retires having noted its target. -/
theorem runCF_jump (o : Pc) : runCF t (fun c f => (c, f.goto (f.pc + o) 0#4)) s = .next (s.jumps (s.here + o) 0#4 t) :=
  runCF_goes t _ s h

/-- `loop` retires having counted down, rotated and noted where its count leads. -/
theorem exec_loop_goes : exec (.loop a j off t) s = .next (s.did (fun c =>
    { c with ctl := { (c.ctl.setReg a (s.val a - 1#64)) with vrb := c.ctl.vrb - 1#5, prb := c.ctl.prb - 1#3 }
             front := c.front.goto (if s.val a - 1#64 = 0#64 then s.here + 1#51 else s.here + BrOff.value off) j
               (decide (s.val a - 1#64 ≠ 0#64)) }) t) := by
  rw [← ite_not]
  exact runCF_goes t (loopCF a j off) s h

/-- `call` retires having linked and noted its target. -/
theorem exec_call_goes (o : BitVec 24) : exec (.call o t) s = .next (s.did (fun c =>
    { c with ctl := c.ctl.setReg 31#5 ((s.here + 1#51).zeroExtend 64), front := c.front.goto (s.here + o.signExtend 51) 0#4 }) t) :=
  runCF_goes t (fun c f => (c.setReg 31#5 ((f.pc + 1#51).zeroExtend 64), f.goto (f.pc + o.signExtend 51) 0#4)) s h

/-- `halt` retires having noted itself. -/
theorem exec_halt_goes : exec (.halt t) s = .next (s.did (fun c => { c with front := { c.front with pend := .halt } }) t) :=
  runCF_goes t (fun c f => (c, { f with pend := .halt })) s h

/-- A register below 2^51 names a bundle, and the transfer to it retires (R80). -/
theorem runC_jumpReg_near (hv : (s.val a).toNat < 2 ^ 51) :
    runC t (jumpReg a j) s = .next (s.jumps ((s.val a).extractLsb' 0 51) j t) := by
  have hf : field (s.val a) 51 13 = 0#64 := BitVec.eq_of_toNat_eq (by
    rw [toNat_field _ _ (by decide), Nat.div_eq_of_lt hv]
    rfl)
  refine runC_done t _ s _ h ?_ (by simp)
  show (if field (s.val a) 51 13 ≠ 0#64 then _ else _) = _
  rw [if_neg (not_not.mpr hf), BitVec.truncate_eq_setWidth, BitVec.setWidth_eq_extractLsb' (by decide)]
  rfl

/-- A register with a bit above 50 set traps `XLATE` with its value (R80). -/
theorem runC_jumpReg_far (hv : 2 ^ 51 ≤ (s.val a).toNat) :
    runC t (jumpReg a j) s = .next (s.traps { code := 0x04#8, addr := s.val a }) := by
  have hf : field (s.val a) 51 13 ≠ 0#64 := fun hz => by
    have hn := congrArg BitVec.toNat hz
    have hlt := (s.val a).isLt
    rw [toNat_field _ _ (by decide), BitVec.toNat_ofNat] at hn
    omega
  exact runC_trap t _ s s _ h (if_pos hf)

end

/-- Settles O7: each transfer by what it notes (`runCF_branch`, `runCF_jump`, `exec_loop_goes`), a target register on either
side of 2^51. -/
theorem controlTransfers : Obligations.ControlTransfers := by
  unfold Obligations.ControlTransfers
  intro a b j off o t s h far branch count
  have hfar : far = s.here + BrOff.value off := by cases off <;> rfl
  have hbranch (p : Word → Word → Bool) (taken : Bool) (hp : p (s.val a) (s.val b) = taken) :
      runCF t (branchCF a b j off p) s = .next (branch taken) := by
    rw [runCF_branch h hp, ← hfar]
  refine ⟨?beq, ?bne, ?bltI, ?bltN, ?bgeI, ?bgeN, ?loop, runCF_jump h _, exec_call_goes h o,
    fun hv => ⟨runC_jumpReg_near h hv, runC_jumpReg_near h hv⟩, fun hv => ⟨runC_jumpReg_far h hv, runC_jumpReg_far h hv⟩,
    exec_halt_goes h⟩
  case beq => exact hbranch (fun x y => x == y) _ rfl
  case bne => exact hbranch (fun x y => x != y) _ decide_not.symm
  case bltI => exact hbranch (fun x y => x.slt y) _ rfl
  case bltN => exact hbranch (fun x y => x.ult y) _ rfl
  case bgeI => exact hbranch (fun x y => y.sle x) _ rfl
  case bgeN => exact hbranch (fun x y => y.ule x) _ rfl
  case loop => rw [exec_loop_goes h, hfar]

/-! ## Software traps (R87) -/

/-- The resume point after an instruction of a bundle that holds no transfer: the next instruction, or the next bundle. -/
theorem Front.after_of_decoded (f : Front) {b : BitVec 256} {items : List Item} (hb : f.bundle = some b)
    (hd : decodeBundle b = .ok items) (hp : f.pend = .none) (hx : f.pfx = none) :
    f.after = (match items.find? (fun it => decide (f.next ≤ it.slot)) with
      | some it => (f.pc, it.slot)
      | none => (f.pc + 1#51, 1)) := by
  simp only [Front.after, Front.resume, Front.place, hb, hd, hp, hx, Option.isSome_none, Bool.false_eq_true, if_false] <;> rfl

/-- An instruction that can go and whose effect is a trap retires, and then takes it behind itself (R87). -/
theorem runC_after (t : Option Tok) (tr : TrapInfo) (s : State) (h : s.goes t) : runC t (fun _ s => .after tr s) s =
    .next (takeTrap s.exe tr (s.core s.exe).front.after.1 (s.core s.exe).front.after.2 (s.went s.exe t)) := by
  rw [runC_goes t _ s h]
  obtain ⟨-, -, -, -, hroom⟩ := h
  simp only [finishC_room s.exe t s hroom, State.went_done, Bool.false_eq_true, if_false]

/-- Settles O11: both instructions by `runC_after`, their resume point by `Front.after_of_decoded`. -/
theorem softwareTraps : Obligations.SoftwareTraps := by
  unfold Obligations.SoftwareTraps
  intro imm t b items s h hb hd hp hx at_
  have ha : (s.core s.exe).front.after = at_ := Front.after_of_decoded _ hb hd hp hx
  rw [← ha]
  exact ⟨runC_after t _ s h, runC_after t _ s h⟩

end Sys2Proof.Machine

/-! The return from a trap (R89, R393): `eret` at its slot, the disposal of the faulting entry, and what the core is when it has come
back. -/

namespace Sys2Proof.Machine

/-! ## `eret` at its slot (R89, R393) -/

section
variable {t : Option Tok} {s : State} (h : s.goes t) (hsup : (s.core s.exe).ctl.cst.getLsbD 11 = true)
include h hsup

/-- The values of DISP and ENG that R393 allows end the bundle in the return. -/
theorem exec_eret_allowed (hv : ¬(field (s.core s.exe).ctl.xcause 16 2 = 3#64 ∨ field (s.core s.exe).ctl.xcause 16 2 ≠ 0#64 ∧
      (field (s.core s.exe).ctl.xcause 8 3 = 0#64 ∨ field (s.core s.exe).ctl.xcause 8 3 = 7#64))) :
    exec (.eret t) s = .next (s.did (fun c => { c with front := { c.front with pend := .eret } }) t) := by
  refine runC_done t eretBody s _ h ?_ (by simp)
  simp only [eretBody, Ctl.sup, bit, hsup, hv, Bool.not_true, Bool.false_eq_true, if_false]

/-- The others trap `ILLENC`. -/
theorem exec_eret_refused (hv : field (s.core s.exe).ctl.xcause 16 2 = 3#64 ∨ field (s.core s.exe).ctl.xcause 16 2 ≠ 0#64 ∧
      (field (s.core s.exe).ctl.xcause 8 3 = 0#64 ∨ field (s.core s.exe).ctl.xcause 8 3 = 7#64)) :
    exec (.eret t) s = .next (s.traps { code := 0x01#8 }) := by
  refine runC_trap t eretBody s s _ h ?_
  simp only [eretBody, Ctl.sup, bit, hsup, hv, Bool.not_true, Bool.false_eq_true, if_false, if_true]
  rfl

end

/-- A field holds a value when the bits cut out do. -/
theorem field_eq_iff (w : Word) (lo : Nat) {len : Nat} (h : len < 64) (n : Nat) (hn : n < 2 ^ 64) :
    field w lo len = BitVec.ofNat 64 n ↔ (w.extractLsb' lo len).toNat = n := by
  rw [← toNat_field_extract w lo h, ← BitVec.toNat_inj, BitVec.toNat_ofNat, Nat.mod_eq_of_lt hn]

/-! ## The queues of a core -/

theorem Core.queue_setQueue_same (c : Core) {e : Engine} (q : List QEntry) (he : e ∈ [Engine.v, .m, .d, .f]) :
    (c.setQueue e q).queue e = q := by
  cases e
  case c => exact absurd he (by decide)
  all_goals rfl

theorem Core.queue_setQueue_ne (c : Core) {e e' : Engine} (q : List QEntry) (h : e' ≠ e) : (c.setQueue e q).queue e' = c.queue e' := by
  cases e <;> cases e' <;> simp [Core.setQueue, Core.queue] at h ⊢

@[simp] theorem Core.setQueue_seat (c : Core) (e : Engine) (q : List QEntry) : (c.setQueue e q).seat = c.seat := by cases e <;> rfl
@[simp] theorem Core.setQueue_tok (c : Core) (e : Engine) (q : List QEntry) : (c.setQueue e q).tok = c.tok := by cases e <;> rfl

/-- An engine whose entries are all frozen is idle (R304). -/
theorem Core.engineIdle_iff (c : Core) (e : Engine) : c.engineIdle e = true ↔ ∀ q ∈ c.queue e, q.flev ≠ 0#8 := by
  simp [Core.engineIdle, liveEntries]

/-- A core whose entries carry no fault has none marked. -/
theorem Core.marked_eq_false (c : Core) (h : ∀ e : Engine, ∀ q ∈ c.queue e, q.fault = none) : c.marked = false := by
  refine List.any_eq_false.mpr fun e _ => ?_
  rw [Bool.not_eq_true, List.any_eq_false]
  intro q hq
  simp [h e q hq]

/-- Without a marked fault no trap is pending (R389). -/
theorem takePending_of_not_marked (k : CoreId) (s : State) (h : (s.core k).marked = false) : takePending k s = none := by
  rw [takePending, Core.pendingFault_of_not_marked _ h]
  split <;> rfl

/-- Empty queues stay so under a change that keeps an empty queue. -/
theorem Core.mapQueues_of_empty (c : Core) (f : List QEntry → List QEntry) (hf : f [] = []) (h : ∀ e : Engine, c.queue e = []) :
    c.mapQueues f = c := by
  obtain ⟨hv, hm, hd, hx⟩ : c.vq = [] ∧ c.mq = [] ∧ c.dq = [] ∧ c.fq = [] := ⟨h .v, h .m, h .d, h .f⟩
  cases c
  simp only at hv hm hd hx
  simp only [Core.mapQueues, hv, hm, hd, hx, hf]

/-! ## What the core is when it has come back (R89, R303, R393) -/

/-- The bundle that `xpc` names. -/
def Core.backAt (c : Core) : Pc := c.ctl.xpc.extractLsb' 3 51

/-- The slot that `xpc` names. -/
def Core.backSlot (c : Core) : Nat :=
  if (c.ctl.xpc.extractLsb' 0 3).toNat = 0 then 1 else (c.ctl.xpc.extractLsb' 0 3).toNat

/-- What the trap had frozen of the control unit there. -/
def Core.backMark (c : Core) : Option CEntry :=
  c.front.frozen.find? (fun e => decide (e.flev = c.seat.depth ∧ e.pc = c.backAt))

section
variable (c : Core)

/-- The model's slot of the return. -/
theorem Core.backSlot_eq : (if c.ctl.xpc.extractLsb' 0 3 = 0#3 then 1 else (c.ctl.xpc.extractLsb' 0 3).toNat) = c.backSlot := by
  rw [Core.backSlot]
  exact if_congr (BitVec.toNat_inj.symm.trans (by rfl)) rfl rfl

/-- Without a mark the control unit starts afresh at `xpc`. -/
theorem eretCore_front_none (h : c.backMark = none) : (eretCore c).front =
    { c.front.leave c.backAt c.backSlot with frozen := c.front.frozen.filter (fun e => decide (e.flev ≠ c.seat.depth)) } := by
  have hm : c.front.frozen.find? (fun e => decide (e.flev = c.seat.depth ∧ e.pc = c.ctl.xpc.extractLsb' 3 51)) = none := h
  simp only [eretCore, hm, Core.backSlot_eq]
  rfl

/-- With one it comes back to what it had there. -/
theorem eretCore_front_some {e : CEntry} (h : c.backMark = some e) : (eretCore c).front =
    { c.front.comeBack c.backAt c.backSlot e with frozen := c.front.frozen.filter (fun e => decide (e.flev ≠ c.seat.depth)) } := by
  have hm : c.front.frozen.find? (fun e => decide (e.flev = c.seat.depth ∧ e.pc = c.ctl.xpc.extractLsb' 3 51)) = some e := h
  simp only [eretCore, hm, Core.backSlot_eq]
  rfl

/-- Coming back to the slot of a mark restores it; behind that slot the transfer noted before the slot stands. -/
theorem Front.comeBack_same (f : Front) (pc : Pc) {slot : Nat} {e : CEntry} (h : e.slot = slot) : f.comeBack pc slot e =
    { (f.leave pc e.at_) with started := e.started, done := e.done, pend := e.pend, pendAt := e.pendAt } := if_pos h

theorem Front.comeBack_ne (f : Front) (pc : Pc) {slot : Nat} {e : CEntry} (h : e.slot ≠ slot) : f.comeBack pc slot e =
    { (f.leave pc slot) with pend := if e.pendAt < slot then e.pend else .none, pendAt := e.pendAt } := if_neg h

/-- Whatever it had there, the control unit is to fetch the bundle at `xpc`, and the level's marks are gone. -/
theorem eretCore_front : (eretCore c).front.pc = c.backAt ∧ (eretCore c).front.bundle = none ∧
    (eretCore c).front.run = c.front.run ∧
    (eretCore c).front.frozen = c.front.frozen.filter (fun e => decide (e.flev ≠ c.seat.depth)) := by
  cases h : c.backMark with
  | none =>
    rw [eretCore_front_none c h]
    exact ⟨rfl, rfl, rfl, rfl⟩
  | some e =>
    rw [eretCore_front_some c h, Front.comeBack]
    split <;> exact ⟨rfl, rfl, rfl, rfl⟩

/-- PL and IE take PPL and PIE (R89). -/
theorem getLsbD_eretCst (cst : Word) {i : Nat} (hi : i < 64) : (eretCst cst).getLsbD i =
    if i = 11 then cst.getLsbD 12 else if i = 13 then cst.getLsbD 14 else cst.getLsbD i := by
  rw [eretCst, getLsbD_setBit _ _ (by decide) hi, getLsbD_setBit _ _ (by decide) hi]
  by_cases h13 : i = 13
  · subst h13
    rfl
  · simp only [h13, if_false]
    rfl

/-- The depth falls by one, and not below zero. -/
theorem eretCore_depth : (eretCore c).seat.depth.toNat = c.seat.depth.toNat - 1 := by
  show (if c.seat.depth = 0#8 then 0#8 else c.seat.depth - 1#8).toNat = _
  split
  case isTrue h => rw [h]; rfl
  case isFalse h => bv_omega

/-- The tokens stay. -/
theorem eretCore_tok : (eretCore c).tok = c.tok := by
  show (if c.seat.depth = 0#8 then c else c.mapQueues (unfreeze c.seat.depth)).tok = _
  split <;> rfl

/-- The level's entries go on. -/
theorem eretCore_queue (h : c.seat.depth ≠ 0#8) (e : Engine) : (eretCore c).queue e = unfreeze c.seat.depth (c.queue e) := by
  have hq : (eretCore c).queue e = (if c.seat.depth = 0#8 then c else c.mapQueues (unfreeze c.seat.depth)).queue e := by
    cases e <;> rfl
  rw [hq, if_neg h]
  cases e <;> rfl

/-- The level's entries carry the faults that they carried. -/
theorem eretCore_no_fault (h : ∀ e : Engine, ∀ q ∈ c.queue e, q.fault = none) :
    ∀ e : Engine, ∀ q ∈ (eretCore c).queue e, q.fault = none := by
  intro e q hq
  by_cases hl : c.seat.depth = 0#8
  · have he : (eretCore c).queue e = (if c.seat.depth = 0#8 then c else c.mapQueues (unfreeze c.seat.depth)).queue e := by
      cases e <;> rfl
    rw [he, if_pos hl] at hq
    exact h e q hq
  · rw [eretCore_queue c hl, unfreeze, List.mem_map] at hq
    obtain ⟨x, hx, rfl⟩ := hq
    split
    · exact h e x hx
    · exact h e x hx

/-- Of a core with empty queues the return changes its scalar side, its control unit and its seat alone. -/
theorem eretCore_of_empty (h : ∀ e : Engine, c.queue e = []) :
    eretCore c = { c with ctl := (eretCore c).ctl, front := (eretCore c).front, seat := (eretCore c).seat } := by
  have hm : (if c.seat.depth = 0#8 then c else c.mapQueues (unfreeze c.seat.depth)) = c := by
    split
    · rfl
    · exact c.mapQueues_of_empty _ rfl h
  have key : eretCore c = { (if c.seat.depth = 0#8 then c else c.mapQueues (unfreeze c.seat.depth)) with
    ctl := (eretCore c).ctl, front := (eretCore c).front, seat := (eretCore c).seat } := rfl
  rw [hm] at key
  exact key

end

/-! ## The faulting entry (R393) -/

/-- What DISP makes of the entry of the engine that faulted; none while DISP 2 waits for room. -/
def Core.disposed (c : Core) : Option Core :=
  match engineOfNum (field c.ctl.xcause 8 3).toNat with
  | some e => dispose e (field c.ctl.xcause 16 2).toNat c
  | none => some c

section
variable {c : Core}

/-- Without entries there is nothing to dispose of. -/
theorem Core.disposed_of_empty (h : ∀ e : Engine, c.queue e = []) : c.disposed = some c := by
  unfold Core.disposed
  cases engineOfNum (field c.ctl.xcause 8 3).toNat with
  | none => rfl
  | some e => simp [dispose, faultedEntry, h e]

/-- The engine that `xcause` names disposes of its entry. -/
theorem Core.disposed_eq {e : Engine} (he : e ∈ [Engine.v, .m, .d, .f]) (hx : c.ctl.xcause.extractLsb' 8 3 = e.num) :
    c.disposed = dispose e (c.ctl.xcause.extractLsb' 16 2).toNat c := by
  have hn : engineOfNum (field c.ctl.xcause 8 3).toNat = some e := by
    rw [toNat_field_extract _ _ (by decide), hx]
    cases e
    case c => exact absurd he (by decide)
    all_goals rfl
  simp only [Core.disposed, hn, toNat_field_extract _ 16 (show 2 < 64 by decide)]

theorem faultedEntry_first {q : QEntry} {lvl : BitVec 8} (more : List QEntry) (hl : q.flev = lvl) (hf : q.faulted.isSome = true) :
    faultedEntry lvl (q :: more) = some (q, 0) := by
  simp [faultedEntry, hl, hf]

/-- A disposal leaves the seat and the queues of the other engines. -/
structure Core.Disposes (c c' : Core) (e : Engine) (left : List QEntry) : Prop where
  seat : c'.seat = c.seat
  own : c'.queue e = left
  others : ∀ e', e' ≠ e → c'.queue e' = c.queue e'

section
variable {e : Engine} {q : QEntry} {more : List QEntry} (he : e ∈ [Engine.v, .m, .d, .f]) (hq : c.queue e = q :: more)
  (hl : q.flev = c.seat.depth) (hf : q.faulted.isSome = true)

include he in
/-- Replacing the queue of an engine is one. -/
theorem Core.disposes_setQueue (left : List QEntry) : c.Disposes (c.setQueue e left) e left :=
  ⟨c.setQueue_seat e left, c.queue_setQueue_same left he, fun _ hee => c.queue_setQueue_ne left hee⟩

include hq hl hf

/-- DISP 2 waits for room for the entry's token. -/
theorem dispose_full (hr : c.tok.room q.ins.tok? = false) : dispose e 2 c = none := by
  simp [dispose, hq, faultedEntry_first more hl hf, hr]

include he

/-- DISP 0 lets the first entry start again. -/
theorem dispose_restart : ∃ c', dispose e 0 c = some c' ∧
    c.Disposes c' e ({ q with faulted := none, replay := replays q } :: more) ∧ c'.tok = c.tok := by
  refine ⟨_, ?_, Core.disposes_setQueue he _, c.setQueue_tok e _⟩
  simp only [dispose, hq, faultedEntry_first more hl hf, if_true, List.set_cons_zero]

/-- DISP 1 and 2 take the first entry away, DISP 2 posting its token; a closed window may go with it (R309). -/
theorem dispose_removes {disp : Nat} (h0 : disp ≠ 0) (hr : disp = 2 → c.tok.room q.ins.tok? = true) :
    ∃ c', dispose e disp c = some c' ∧ c.Disposes c' e more ∧
      c'.tok = if disp = 2 then c.tok.push q.ins.tok? else c.tok := by
  have hn : ¬(disp = 2 ∧ ¬ c.tok.room q.ins.tok? = true) := fun ⟨h2, hr2⟩ => hr2 (hr h2)
  have hm : ∃ m, dispose e disp c = some { c.setQueue e more with
      mtx := m, tok := if disp = 2 then c.tok.push q.ins.tok? else c.tok } := by
    simp only [dispose, hq, faultedEntry_first more hl hf, h0, if_false, hn, List.eraseIdx_cons_zero]
    rw [← c.setQueue_tok e more]
    split <;> split <;> exact ⟨_, rfl⟩
  obtain ⟨m, hm⟩ := hm
  obtain ⟨hseat, hown, hothers⟩ := Core.disposes_setQueue (c := c) he more
  exact ⟨_, hm, ⟨hseat, hown, hothers⟩, rfl⟩

end

end

/-! ## The end of the bundle that holds `eret` (R393) -/

/-- A head seat is seated. -/
theorem State.head_ne_of_folded {s : State} {k : CoreId} (tb : TableId) (h : (s.core k).seat.st = .folded) : s.head tb ≠ some k := by
  intro hk
  have hm : k ∈ s.seated tb := List.mem_of_mem_head? hk
  have hs : (s.core k).seat.st = .seated := by simpa using (List.mem_filter.mp hm).2
  rw [h] at hs
  cases hs

section
variable {k : CoreId} {s : State}

/-- While an entry that is not frozen stands in a queue the return waits. -/
theorem leaveEret_busy {e : Engine} (he : e ∈ [Engine.v, .m, .d, .f]) (hb : (s.core k).engineIdle e = false) : leaveEret k s = s := by
  refine if_pos (List.any_eq_true.mpr ⟨e, he, ?_⟩)
  rw [hb]
  rfl

/-- While DISP 2 waits for room the return of a folded core waits. -/
theorem leaveEret_full (hst : (s.core k).seat.st = .folded) (hd : (s.core k).disposed = none) : leaveEret k s = s := by
  have hns : ¬SeatState.folded = .seated := by decide
  unfold leaveEret
  cases hn : engineOfNum (field (s.core k).ctl.xcause 8 3).toNat with
  | none => simp [Core.disposed, hn] at hd
  | some e =>
    simp only [Core.disposed, hn] at hd
    simp only [hn, hd, hst, hns, if_false]
    split <;> rfl

/-- A folded core whose entries are all frozen, and whose faulting entry is disposed of, comes back. -/
theorem leaveEret_folded {c : Core} (hst : (s.core k).seat.st = .folded) (hi : ∀ e : Engine, ∀ q ∈ (s.core k).queue e, q.flev ≠ 0#8)
    (hd : (s.core k).disposed = some c) (hf : ∀ e : Engine, ∀ q ∈ c.queue e, q.fault = none) :
    leaveEret k s = s.setCore k (eretCore c) := by
  have hidle : ([.v, .m, .d, .f] : List Engine).any (fun e => !((s.core k).engineIdle e)) = false :=
    List.any_eq_false.mpr fun e _ => by simp [(Core.engineIdle_iff _ e).mpr (hi e)]
  have htaken : transferTaken k s = s := if_neg (State.head_ne_of_folded _ hst)
  have hp : takePending k (s.setCore k (eretCore c)) = none :=
    takePending_of_not_marked k _ (by
      rw [State.core_setCore]
      exact Core.marked_eq_false _ (eretCore_no_fault c hf))
  have hns : ¬SeatState.folded = .seated := by decide
  unfold leaveEret
  cases hn : engineOfNum (field (s.core k).ctl.xcause 8 3).toNat <;>
    simp only [Core.disposed, hn] at hd <;>
    simp only [hidle, hst, hns, hn, hd, htaken, hp, Bool.false_eq_true, if_false, if_true, Option.getD_none]

/-- When the first entry of an engine is disposed of, the entries of the level that are left go on, and the depth falls. -/
theorem leaveEret_disposes {c : Core} {e : Engine} {left : List QEntry} (hst : (s.core k).seat.st = .folded)
    (hall : ∀ e' : Engine, ∀ x ∈ (s.core k).queue e', x.flev ≠ 0#8 ∧ x.fault = none) (hl : (s.core k).seat.depth ≠ 0#8)
    (hd : (s.core k).disposed = some c) (hc : (s.core k).Disposes c e left) (hleft : ∀ x ∈ left, x.fault = none) :
    leaveEret k s = s.setCore k (eretCore c) ∧ (eretCore c).seat.depth.toNat = (s.core k).seat.depth.toNat - 1 ∧
      (∀ e', e' ≠ e → (eretCore c).queue e' = unfreeze (s.core k).seat.depth ((s.core k).queue e')) ∧
      (eretCore c).queue e = unfreeze (s.core k).seat.depth left := by
  obtain ⟨hseat, hown, hothers⟩ := hc
  have hlc : c.seat.depth ≠ 0#8 := hseat ▸ hl
  have hnone : ∀ e' : Engine, ∀ x ∈ c.queue e', x.fault = none := fun e' x hx => by
    by_cases hee : e' = e
    · exact hleft x (hown ▸ hee ▸ hx)
    · exact (hall e' x (hothers e' hee ▸ hx)).2
  refine ⟨leaveEret_folded hst (fun e' x hx => (hall e' x hx).1) hd hnone, by rw [eretCore_depth, hseat], fun e' hee => ?_, ?_⟩
  · rw [eretCore_queue c hlc, hseat, hothers e' hee]
  · rw [eretCore_queue c hlc, hseat, hown]

/-- Behind the last instruction of its bundle a control unit leaves it (R30). -/
theorem step_of_standsAtEnd {rest : List Turn} {s : State} (ha : s.settleSeats.agenda = .control k :: rest)
    (he : State.standsAtEnd { s.settleSeats with agenda := rest } k) :
    step s = .next (endBundle k { s.settleSeats with agenda := rest }) := by
  obtain ⟨hgo, b, items, hb, hdec, hfind⟩ := he
  rw [step_of_agenda s _ rest ha]
  show controlTurn k _ = _
  rw [controlTurn_of_goesOn k _ b hgo hb, bundlePrep]
  simp only [hdec, hfind]
  rfl

/-- The end of a bundle in which `eret` was noted is the return. -/
theorem endBundle_eret (h : (s.core k).front.pend = .eret) : endBundle k s = leaveEret k s := by
  simp only [endBundle, h]

end

/-- A change of one core that keeps its tower leaves every byte. -/
theorem State.sameBytes_setCore (s : State) (k : CoreId) (c : Core) (h : c.tower = (s.core k).tower) : s.SameBytes (s.setCore k c) where
  tower k' o := by
    by_cases hk : k' = k
    · subst hk
      rw [State.core_setCore, h]
    · rw [State.core_setCore_ne _ _ _ _ hk]
  tier _ _ := rfl
  host _ := rfl
  rom _ := rfl

/-- Settles O12: `eret` at its slot by the values of DISP and ENG; the return by `leaveEret_folded`, and what it leaves by the lemmas
about `eretCore` and `dispose`. -/
theorem eretReturns : Obligations.EretReturns := by
  unfold Obligations.EretReturns
  refine ⟨fun t s h hsup => ?slot, fun k rest s ha => ?back, fun k rest s ha => ?queues⟩
  case slot =>
    intro disp eng
    have h3 := field_eq_iff (s.core s.exe).ctl.xcause 16 (show 2 < 64 by decide) 3 (by decide)
    have h0 := field_eq_iff (s.core s.exe).ctl.xcause 16 (show 2 < 64 by decide) 0 (by decide)
    have e0 := field_eq_iff (s.core s.exe).ctl.xcause 8 (show 3 < 64 by decide) 0 (by decide)
    have e7 := field_eq_iff (s.core s.exe).ctl.xcause 8 (show 3 < 64 by decide) 7 (by decide)
    refine ⟨fun hv => exec_eret_allowed h hsup ?_, fun hv => exec_eret_refused h hsup ?_⟩ <;> rw [h3, ne_eq, h0, e0, e7] <;> omega
  case back =>
    intro u hend hpend hst hempty c pc slot mark
    have hmark : c.backMark = mark := rfl
    have hback : leaveEret k u = u.setCore k (eretCore c) :=
      leaveEret_folded hst (fun e q hq => absurd (hempty e ▸ hq) List.not_mem_nil) (Core.disposed_of_empty hempty)
        (fun e q hq => absurd (hempty e ▸ hq) List.not_mem_nil)
    refine ⟨u.setCore k (eretCore c), by rw [step_of_standsAtEnd ha hend, endBundle_eret hpend, hback], ?_⟩
    intro d
    have hd : d = eretCore c := State.core_setCore _ _ _
    obtain ⟨hpc, hbundle, hrun, hfrozen⟩ := eretCore_front c
    refine ⟨hd ▸ hpc, hd ▸ hbundle, hd ▸ hrun.trans hend.1.1, fun hm => ?fresh, fun e hm hs => ?same, fun e hm hs => ?other,
      hd ▸ hfrozen, fun i hi => hd ▸ getLsbD_eretCst c.ctl.cst hi, hd ▸ rfl, hd ▸ eretCore_depth c, hd ▸ rfl,
      hd ▸ eretCore_of_empty c hempty, fun k' hk => State.core_setCore_ne _ _ _ _ hk, rfl, State.sameBytes_setCore u k _ ?tower⟩
    case fresh =>
      rw [hd, eretCore_front_none c (hmark.trans hm)]
      exact ⟨rfl, rfl, rfl, rfl⟩
    case same =>
      rw [hd, eretCore_front_some c (hmark.trans hm), Front.comeBack_same (slot := c.backSlot) _ _ hs]
      exact ⟨rfl, rfl, rfl, rfl⟩
    case other =>
      rw [hd, eretCore_front_some c (hmark.trans hm), Front.comeBack_ne (slot := c.backSlot) _ _ hs]
      exact ⟨rfl, rfl, rfl, rfl⟩
    case tower => rw [eretCore_of_empty c hempty]
  case queues =>
    intro u hend hpend hst c
    have hstep : step s = .next (leaveEret k u) := by rw [step_of_standsAtEnd ha hend, endBundle_eret hpend]
    refine ⟨fun ⟨e, he, q, hq, h0⟩ => ?busy, fun e q more he hq hall hdepth hl hfaulted hx => ?frozen⟩
    case busy =>
      have hb : c.engineIdle e = false := Bool.eq_false_iff.mpr fun hi => (Core.engineIdle_iff c e).mp hi q hq h0
      rw [hstep, leaveEret_busy he hb]
    case frozen =>
      intro disp
      have hdisp : c.disposed = dispose e disp c := Core.disposed_eq he hx
      have hmore : ∀ x ∈ more, x.fault = none := fun x hxm => (hall e x (hq ▸ List.mem_cons_of_mem q hxm)).2
      have hfirst : q.fault = none := (hall e q (hq ▸ List.mem_cons_self)).2
      refine ⟨fun h2 hr => ?full, fun hle hr => ?returns⟩
      case full => rw [hstep, leaveEret_full hst (hdisp.trans (h2 ▸ dispose_full hq hl hfaulted hr))]
      by_cases h0 : disp = 0
      · obtain ⟨c', hc, hdis, htok⟩ := dispose_restart he hq hl hfaulted
        obtain ⟨hback, hdep, hothers, hown⟩ := leaveEret_disposes hst hall hdepth (hdisp.trans (h0 ▸ hc)) hdis
          (List.forall_mem_cons.mpr ⟨hfirst, hmore⟩)
        refine ⟨_, hstep.trans (congrArg _ hback), ?_⟩
        rw [State.core_setCore, if_neg (by omega)]
        exact ⟨hdep, hothers, fun _ => hown, fun h1 => absurd h0 (by omega), (eretCore_tok c').trans htok⟩
      · obtain ⟨c', hc, hdis, htok⟩ := dispose_removes he hq hl hfaulted h0 hr
        obtain ⟨hback, hdep, hothers, hown⟩ := leaveEret_disposes hst hall hdepth (hdisp.trans hc) hdis hmore
        refine ⟨_, hstep.trans (congrArg _ hback), ?_⟩
        rw [State.core_setCore]
        exact ⟨hdep, hothers, fun hz => absurd hz h0, fun _ => hown, (eretCore_tok c').trans htok⟩

end Sys2Proof.Machine

/-! The immediates of the shifts at decode (R70). -/

namespace Sys2Proof

open Laws.Encoding

/-- Where the first slot of an instruction with a reserved field value stands, the decoder refuses at that slot (R39). -/
theorem decodeAt_reserved {i : Instr} {e : Engine} {b : BitVec 256} {k : Nat} (he : i.engine? = some e) (hf : i.fieldsOk = false)
    (hw : bundleSlot b k = encodeFirst i) : decodeAt b k e = .error k := by
  obtain ⟨⟨i0, hb, hf0, -⟩, -⟩ := statement_of_instr i e he
  simp [decodeAt, hw, hb, hf0, hf]

/-- The four shifts by an immediate. -/
def shiftsBy (d a : BitVec 5) (imm : BitVec 14) : List Instr :=
  [.slli d a imm none, .srli d a imm none, .srai d a imm none, .roli d a imm none]

section
variable {d a : BitVec 5} {imm : BitVec 14} {i : Instr} (hi : i ∈ shiftsBy d a imm)
include hi

/-- A shift by an immediate is a control instruction of one slot whose immediate lies below 64. -/
theorem shiftsBy_spec : i.engine? = some .c ∧ i.fieldsOk = decide (imm.toNat < 64) ∧ encode i = [(1#4, encodeFirst i)] ∧
    i.wf = i.fieldsOk ∧ i.isGang = false := by
  simp only [shiftsBy, List.mem_cons, List.not_mem_nil, or_false] at hi
  obtain rfl | rfl | rfl | rfl := hi <;>
    exact ⟨rfl, rfl, rfl, (show (((_ && true) && true) && true) = _ by simp only [Bool.and_true]), rfl⟩

/-- With an immediate from 0 to 63 it decodes. -/
theorem decodeBundle_shiftsBy (h : imm.toNat ≤ 63) : decodeBundle (bundleOf [(1#4, encodeFirst i)]) = .ok [⟨1, 1, .c, i⟩] := by
  obtain ⟨he, hf, henc, hwf, hg⟩ := shiftsBy_spec hi
  have hs : i.slots = 1 := by rw [← length_encode he, henc]; rfl
  exact decodeBundle_of_eq_encode henc.symm hs he (by rw [hwf, hf]; exact decide_eq_true (by omega)) hg

/-- With any other it is refused where it stands. -/
theorem decodeAt_shiftsBy (h : 63 < imm.toNat) {b : BitVec 256} {k : Nat} (hw : bundleSlot b k = encodeFirst i) :
    decodeAt b k .c = .error k := by
  obtain ⟨he, hf, -⟩ := shiftsBy_spec hi
  exact decodeAt_reserved he (by rw [hf]; exact decide_eq_false (by omega)) hw

end

/-- Settles O17: the four words are the encodings of the shifts, which `decodeBundle_shiftsBy` and `decodeAt_shiftsBy` decode. -/
theorem shiftImmediates : Obligations.ShiftImmediates := by
  unfold Obligations.ShiftImmediates
  intro d a imm word
  refine ⟨fun h => ⟨?slli, ?srli, ?srai, ?roli⟩, fun h op hop b k hw => ?refused⟩
  case slli => exact decodeBundle_shiftsBy (d := d) (a := a) (i := .slli d a imm none) (by simp [shiftsBy]) h
  case srli => exact decodeBundle_shiftsBy (d := d) (a := a) (i := .srli d a imm none) (by simp [shiftsBy]) h
  case srai => exact decodeBundle_shiftsBy (d := d) (a := a) (i := .srai d a imm none) (by simp [shiftsBy]) h
  case roli => exact decodeBundle_shiftsBy (d := d) (a := a) (i := .roli d a imm none) (by simp [shiftsBy]) h
  case refused =>
    have hi : ∃ i ∈ shiftsBy d a imm, word op = encodeFirst i := by
      simp only [List.mem_cons, List.not_mem_nil, or_false] at hop
      obtain rfl | rfl | rfl | rfl := hop
      · exact ⟨.slli d a imm none, by simp [shiftsBy], rfl⟩
      · exact ⟨.srli d a imm none, by simp [shiftsBy], rfl⟩
      · exact ⟨.srai d a imm none, by simp [shiftsBy], rfl⟩
      · exact ⟨.roli d a imm none, by simp [shiftsBy], rfl⟩
    obtain ⟨i, hmem, he⟩ := hi
    exact decodeAt_shiftsBy hmem h (hw.trans he)

end Sys2Proof

/-! Element-wise float instructions (R121, R135, R160 to R166, R169 to R172, R179, R180): each is `vElem` with its own operation. -/

namespace Sys2Proof.Machine

/-! ## Reads beside no matrix command (R261) -/

/-- With no matrix command still writing, an operand's element as a value is the same in every read. -/
theorem VIn.val_now (v : VIn) (h : v.c.mtx.before = []) (r : BitVec 6) (code : BitVec 4) (k e q : Nat) :
    ((v.for e).at q).val r code k = (v.for e).val r code k :=
  congrArg (readVal v.ef v.w v.x.sfmt code) ((v.el_now h r k e q).trans (v.el_now h r k e v.slot).symm)

/-- With no matrix command still writing, an operand's element as bits is the same in every read. -/
theorem VIn.el_at_now (v : VIn) (h : v.c.mtx.before = []) (r : BitVec 6) (k e q : Nat) :
    ((v.for e).at q).el r k = (v.for e).el r k :=
  (v.el_now h r k e q).trans (v.el_now h r k e v.slot).symm

/-! ## The shape that all of them share -/

section
variable {i : Instr} {s : State} (h : s.engineGoes .v i.tok?) {x : VExt} {d : BitVec 6} {p : BitVec 4} {n : BitVec 1}
  {codes : List (BitVec 4)} {conv : Bool} {draws : VIn → Bool} {f : VIn → Nat → Mode → VRes}
  (he : exec i s = runE .v i (capOf i (s.core s.exe)) (vElem d p n x codes conv draws f) s)
include h he

/-- An element-wise instruction, its operation written as any `g` that agrees with it on what the executing core reads: it
runs over its lanes when its element format takes its operands, and else traps `ILLENC` (R163, R165). -/
theorem exec_vElem_gives (g : VIn → Nat → Mode → VRes)
    (hg : (s.core s.exe).mtx.before = [] → ∀ e m, f ((s.vin i x).for e) e m = g ((s.vin i x).for e) e m) :
    ((s.vin i x).ok codes = true → s.lanes i x d p n conv (draws (s.vin i x)) g) ∧
    ((s.vin i x).ok codes = false → exec i s = .next (s.engineTraps .v i { code := 0x01#8 })) := by
  refine ⟨fun hok => ?_, fun hok => runE_lanes_trap i x d p n codes conv draws f s h hok he⟩
  obtain ⟨-, -, -, -, -, hbefore, -⟩ := id h
  have hl := runE_lanes i x d p n codes conv draws _ f s h rfl hok he
  simp only [State.lanes, hg hbefore] at hl
  exact hl

end

/-! ## The operations as the statement writes them -/

/-- `v.min` and `v.max`: the chosen operand's bits when nothing narrows, the canonical NaN for two NaNs (R171). -/
theorem pickRes_now (v : VIn) (hb : v.c.mtx.before = []) (a b : BitVec 6) (k e : Nat) (f : Val → Val → Val) : pickRes (v.for e) a b k f =
    (let u := v.for e
     let r := f (u.val a u.x.sa k) (u.val b u.x.sb k)
     if u.x.nw = 0#4 ∧ u.x.sa = 0#4 ∧ u.x.sb = 0#4 then
       (if r.isNan then .raw ((u.ef.nanBits).getD 0) else .raw (if r = u.val a u.x.sa k then u.el a k else u.el b k))
     else .flt r 0#6) := by
  simp only [pickRes, v.val_now hb, v.el_at_now hb]

/-- `v.qnt`: a division by zero delivers the largest value of the type, any other quotient itself (R180). -/
theorem qntRes_eq (nw : BitVec 4) (x y : Val) : qntRes nw x y =
    (if (Val.div x y).2 = 0x02#6 then .flt (maxVal (nwTy nw) (Val.div x y).1.neg?) (Val.div x y).2
     else .flt (Val.div x y).1 (Val.div x y).2) := rfl

/-- Settles O35: each instruction by `exec_vElem_gives`; its second and third operands are read as its first, no matrix command
being still writing (`VIn.val_now`). -/
theorem vectorFloat : Obligations.VectorFloat := by
  unfold Obligations.VectorFloat
  intro d a b p n x y t s h w e fits gives va vb one two picks signs
  refine ⟨?add, ?sub, ?mul, ?div, ?fma, ?min, ?max, ?abs, ?neg, ?sqrt, ?rcp, ?rsqrt, ?exp2, ?log2, ?tanh, ?cvtIf, ?cvtFf, ?cvtFi,
    ?qnt⟩
  case add => exact exec_vElem_gives h (exec_vAdd ..) _ fun hb k m => by rw [VIn.val_now _ hb]; rfl
  case sub => exact exec_vElem_gives h (exec_vSub ..) _ fun hb k m => by rw [VIn.val_now _ hb]; rfl
  case mul => exact exec_vElem_gives h (exec_vMul ..) _ fun hb k m => by rw [VIn.val_now _ hb]; rfl
  case div => exact exec_vElem_gives h (exec_vDiv ..) _ fun hb k m => by rw [VIn.val_now _ hb]; rfl
  case fma => exact exec_vElem_gives h (exec_vFma ..) _ fun hb k m => by rw [VIn.val_now _ hb, VIn.val_now _ hb]; rfl
  case min => exact exec_vElem_gives h (exec_vMin ..) _ fun hb k m => pickRes_now _ hb ..
  case max => exact exec_vElem_gives h (exec_vMax ..) _ fun hb k m => pickRes_now _ hb ..
  case abs => exact exec_vElem_gives h (exec_vAbs ..) _ fun _ _ _ => rfl
  case neg => exact exec_vElem_gives h (exec_vNeg ..) _ fun _ _ _ => rfl
  case sqrt => exact exec_vElem_gives h (exec_vSqrt ..) _ fun _ _ _ => rfl
  case rcp => exact exec_vElem_gives h (exec_vRcp ..) _ fun _ _ _ => rfl
  case rsqrt => exact exec_vElem_gives h (exec_vRsqrt ..) _ fun _ _ _ => rfl
  case exp2 => exact exec_vElem_gives h (exec_vExp2 ..) _ fun _ _ _ => rfl
  case log2 => exact exec_vElem_gives h (exec_vLog2 ..) _ fun _ _ _ => rfl
  case tanh => exact exec_vElem_gives h (exec_vTanh ..) _ fun _ _ _ => rfl
  case cvtIf => exact exec_vElem_gives h (exec_vCvtIf ..) _ fun _ _ _ => rfl
  case cvtFf => exact exec_vElem_gives h (exec_vCvtFf ..) _ fun _ _ _ => rfl
  case cvtFi => exact exec_vElem_gives h (exec_vCvtFi ..) _ fun _ _ _ => rfl
  case qnt => exact exec_vElem_gives h (exec_vQnt ..) _ fun hb k m => by rw [VIn.val_now _ hb, qntRes_eq]; rfl

end Sys2Proof.Machine

/-! Reductions and scans (R112, R128, R167, R182, R183): what the pairwise tree keeps, what a node of it gives, and what the
instructions write. -/

namespace Sys2Proof.Machine

/-! ## The pairwise tree (R126) -/

section
variable {α σ : Type} (R : List α → α → Prop) (P : σ → Prop)

/-- A node joins two summaries of lists into one of both, and keeps what holds of the state. -/
def NodeJoins (op : α → α → σ → α × σ) : Prop :=
  ∀ l r xs ys st, R xs l → R ys r → P st → R (xs ++ ys) (op l r st).1 ∧ P (op l r st).2

variable {R P}

/-- One level turns summaries of some lists into summaries of their joined pairs, half as many. -/
theorem pairLevel_joins (op : Nat → α → α → σ → α × σ) (hop : ∀ i, NodeJoins R P (op i)) (i : Nat) (as : List α)
    (zss : List (List α)) (st : σ) (h : List.Forall₂ R zss as) (hP : P st) :
    ∃ zss', zss'.flatten = zss.flatten ∧ List.Forall₂ R zss' (pairLevel op i as st).1 ∧ P (pairLevel op i as st).2 ∧
      (pairLevel op i as st).1.length = (as.length + 1) / 2 := by
  induction i, as, st using pairLevel.induct op generalizing zss with
  | case1 i a b rest st x st1 hx _ _ _ ih =>
    obtain ⟨xs, zss', ha, h', rfl⟩ := List.forall₂_cons_right_iff.mp h
    obtain ⟨ys, zss, hb, hrest, rfl⟩ := List.forall₂_cons_right_iff.mp h'
    obtain ⟨hR, hP1⟩ := hop i a b xs ys st ha hb hP
    rw [hx] at hR hP1
    obtain ⟨joined, hz, hf, hp, hl⟩ := ih zss hrest hP1
    simp only [pairLevel, hx]
    refine ⟨(xs ++ ys) :: joined, by simp [hz], .cons hR hf, hp, ?_⟩
    simp only [List.length_cons, hl]
    omega
  | case2 i a st => exact ⟨zss, rfl, h, hP, by simp [pairLevel]⟩
  | case3 i st => exact ⟨zss, rfl, h, hP, by simp [pairLevel]⟩

/-- The levels bring the summaries of some lists down to one, of all of them. -/
theorem pairTree_joins (op : Nat → Nat → α → α → σ → α × σ) (hop : ∀ lvl i, NodeJoins R P (op lvl i)) (fuel lvl : Nat)
    (as : List α) (zss : List (List α)) (st : σ) (hne : as ≠ []) (hlen : as.length ≤ 2 ^ fuel) (h : List.Forall₂ R zss as)
    (hP : P st) : ∃ a, (pairTree op fuel lvl as st).1 = [a] ∧ R zss.flatten a ∧ P (pairTree op fuel lvl as st).2 := by
  have one (as : List α) (zss : List (List α)) (hne : as ≠ []) (h1 : as.length ≤ 1) (h : List.Forall₂ R zss as) :
      ∃ a, as = [a] ∧ R zss.flatten a := by
    match as, h with
    | [a], .cons ha .nil => exact ⟨a, rfl, by simpa using ha⟩
  induction fuel generalizing lvl as zss st with
  | zero =>
    obtain ⟨a, ha, hR⟩ := one as zss hne hlen h
    exact ⟨a, ha, hR, hP⟩
  | succ fuel ih =>
    rw [pairTree]
    split
    next h1 =>
      obtain ⟨a, ha, hR⟩ := one as zss hne h1 h
      exact ⟨a, ha, hR, hP⟩
    next h1 =>
      obtain ⟨zss', hz, hf, hp, hl⟩ := pairLevel_joins (op lvl) (hop lvl) 0 as zss st h hP
      have hpos : (pairLevel (op lvl) 0 as st).1 ≠ [] := List.ne_nil_of_length_pos (by omega)
      rw [← hz]
      exact ih (lvl + 1) _ zss' _ hpos (by rw [Nat.pow_succ] at hlen; omega) hf hp

/-- The pairwise tree over a list that needs no pad summarises it. -/
theorem pairwise_joins (op : Nat → Nat → α → α → σ → α × σ) (hop : ∀ lvl i, NodeJoins R P (op lvl i)) (h1 : ∀ a, R [a] a)
    (pad : α) (xs : List α) (st : σ) (hne : xs ≠ []) (hpad : padPow2 pad xs = xs) (hP : P st) :
    R xs (pairwise op pad xs st).1 ∧ P (pairwise op pad xs st).2 := by
  have hlen : xs.length ≤ 2 ^ (xs.length + 1) := Nat.le_trans (Nat.le_succ _) Nat.lt_two_pow_self.le
  have hone : List.Forall₂ R (xs.map fun a => [a]) xs := by
    rw [List.forall₂_map_left_iff, List.forall₂_same]
    exact fun a _ => h1 a
  obtain ⟨a, ha, hR, hp⟩ := pairTree_joins op hop (xs.length + 1) 1 xs _ st hne hlen hone hP
  rw [show (xs.map fun a => [a]).flatten = xs by simp [← List.flatMap_def]] at hR
  simp only [pairwise, hpad, ha, List.headD_cons]
  exact ⟨hR, hp⟩

end

/-- A list of 32 or 64 elements needs no pad. -/
theorem padPow2_of_length {α : Type} (pad : α) (xs : List α) (h : xs.length = 32 ∨ xs.length = 64) : padPow2 pad xs = xs := by
  have h31 : Nat.log2 31 = 4 := by decide
  have h63 : Nat.log2 63 = 5 := by decide
  obtain h | h := h <;> simp [padPow2, h, h31, h63]

/-! ## A node draws from the generators alone (R121, R126) -/

theorem drawMode_sameBut (m : BitVec 3) (lane : Nat) {v c : Vec} (h : v.sameBut c) : (drawMode m lane v).2.sameBut c := by
  unfold drawMode
  split
  · exact h
  · exact h

theorem redNode_sameBut (i : VIn) (o : RedOp) (e l r : Nat) {st : Vec × Fl} {c : Vec} (h : st.1.sameBut c) :
    (redNode i o e l r st).2.1.sameBut c := by
  unfold redNode
  split
  · cases o
    · exact drawMode_sameBut _ _ h
    · exact h
    · exact h
  · cases o <;> exact h

theorem scanStep_sameBut (i : VIn) (dist : Nat) (els es : List Nat) {st : Vec × Fl} {c : Vec} (h : st.1.sameBut c) :
    (scanStep i dist els es st).2.1.sameBut c := by
  induction es generalizing st with
  | nil => exact h
  | cons e es ih =>
    unfold scanStep
    split
    · exact ih h
    · exact ih (redNode_sameBut i .add _ _ _ h)

theorem scanAll_sameBut (i : VIn) (fuel dist : Nat) (els : List Nat) {st : Vec × Fl} {c : Vec} (h : st.1.sameBut c) :
    (scanAll i fuel dist els st).2.1.sameBut c := by
  induction fuel generalizing dist els st with
  | zero => exact h
  | succ fuel ih =>
    unfold scanAll
    split
    · exact h
    · exact ih _ _ (scanStep_sameBut i dist els _ h)

/-! ## Writing row vd (R134, R261) -/

/-- A row written beside changed generators: it holds what is written, and the rest is as it was. -/
theorem Vec.sameBut.setRow {v c : Vec} (h : v.sameBut c) (r : BitVec 6) (x : BitVec 1024) :
    (v.setRow r x).row r = x ∧ (∀ q, q ≠ r → (v.setRow r x).row q = c.row q) ∧ (v.setRow r x).preds = c.preds ∧
      (v.setRow r x).exposed = c.exposed := by
  obtain ⟨h0, h1, he, hp⟩ := h
  have hrow (q : BitVec 6) : v.row q = c.row q := by simp only [Vec.row, Vec.tile, h0, h1, he]
  refine ⟨by rw [Vec.row_setRow, if_pos rfl], fun q hq => by rw [Vec.row_setRow, if_neg hq, hrow], ?_, ?_⟩ <;>
    (unfold Vec.setRow Vec.setTile; split) <;> assumption

section
variable (v : VIn)

/-- An element read is below 2^w. -/
theorem VIn.el_lt (r : BitVec 6) (k : Nat) : v.el r k < 2 ^ v.w := BitVec.isLt _

/-- The elements of a row of N numbers of w bits. -/
theorem VIn.elemAt_packRow (xs : List Nat) (hl : xs.length = v.n) (m : Nat) (hm : m < v.n) :
    elemAt (packRow v.w xs) v.w m = xs.getD m 0 % 2 ^ v.w := by
  have hw : v.w * v.n = 1024 := accW_accN _
  rw [Sys2Proof.Machine.elemAt_packRow v.w xs m (by omega) (by rw [hl, hw]), List.getD_eq_getElem _ _ (by omega)]

/-- The elements of a row formed element by element. -/
theorem VIn.elemAt_packRow_map (f : Nat → Nat) (m : Nat) (hm : m < v.n) :
    elemAt (packRow v.w ((List.range v.n).map f)) v.w m = f m % 2 ^ v.w := by
  rw [v.elemAt_packRow _ (by simp) m hm]
  simp [List.getD_eq_getElem?_getD, hm]

end

/-! ## Reductions (R128, R167, R182) -/

section
variable (v : VIn) (o : RedOp) (a : BitVec 6) (p : BitVec 4) (n : BitVec 1)

/-- The elements that a reduction or a scan starts from. -/
def VIn.redEls : List Nat := (List.range v.n).map (redEl v o a p n)

/-- What a reduction gives: the result, the vector unit with its generators advanced, the flags. -/
def VIn.redTree : Nat × (Vec × Fl) :=
  if neverActive v.cap p n then (redIdent v o, (v.c.vec, 0#6))
  else pairwise (fun lvl ix l r st => redNode v o (ix * 2 ^ lvl) l r st) (redIdent v o) (v.redEls o a p n) (v.c.vec, 0#6)

/-- The predicate word `?!p0`. -/
theorem neverActive_iff (cap : Cap) : neverActive cap p n = true ↔ ppred cap.prb p = 0#4 ∧ n = 1#1 := by
  simp [neverActive, bit1]

/-- A vector has 32 elements or 64. -/
theorem VIn.n_cases : v.n = 32 ∨ v.n = 64 := by
  unfold VIn.n accN accW
  split
  · exact .inl rfl
  · exact .inr rfl

/-- Elements have 32 bits or 16. -/
theorem VIn.w_cases : v.w = 32 ∨ v.w = 16 := by
  unfold VIn.w accW
  split
  · exact .inl rfl
  · exact .inr rfl

/-- Under `?!p0` no element is active (R135). -/
theorem VIn.not_active_of_never (h : neverActive v.cap p n = true) (k : Nat) (hk : k < v.n) : v.active p n k = false := by
  obtain ⟨hp, rfl⟩ := (neverActive_iff p n v.cap).mp h
  have h64 : k < 64 := by have := v.n_cases; omega
  have ht : (v.c.vec.pred (ppred v.cap.prb p)).getLsbD k = true := by
    rw [hp]
    exact BitVec.getLsbD_allOnes.trans (decide_eq_true h64)
  simp [VIn.active, ht, bit1]

variable {v o a p n}

/-- What holds of elements and nodes holds of the tree. -/
theorem VIn.redTree_joins {R : List Nat → Nat → Prop} {P : Vec × Fl → Prop} (hn : neverActive v.cap p n = false)
    (h1 : ∀ q, R [q] q) (hop : ∀ e, NodeJoins R P (redNode v o e)) (hP : P (v.c.vec, 0#6)) :
    R (v.redEls o a p n) (v.redTree o a p n).1 ∧ P (v.redTree o a p n).2 := by
  have hlen : (v.redEls o a p n).length = v.n := by simp [VIn.redEls]
  have hne : v.redEls o a p n ≠ [] := List.ne_nil_of_length_pos (by have := v.n_cases; omega)
  rw [VIn.redTree, if_neg (by rw [hn]; exact Bool.false_ne_true)]
  exact pairwise_joins _ (fun lvl i => hop (i * 2 ^ lvl)) h1 _ _ _ hne (padPow2_of_length _ _ (hlen ▸ v.n_cases)) hP

/-- A reduction changes the generators alone. -/
theorem VIn.redTree_sameBut : (v.redTree o a p n).2.1.sameBut v.c.vec := by
  cases hn : neverActive v.cap p n with
  | true => rw [VIn.redTree, if_pos hn]; exact ⟨rfl, rfl, rfl, rfl⟩
  | false =>
    exact (redTree_joins (R := fun _ _ => True) (P := fun st => st.1.sameBut v.c.vec) hn (fun _ => trivial)
      (fun e l r _ _ _ _ _ h => ⟨trivial, redNode_sameBut v o e l r h⟩) ⟨rfl, rfl, rfl, rfl⟩).2

end

section
variable (o : RedOp) (d a : BitVec 6) (p : BitVec 4) (n : BitVec 1) (x : VExt) (k : CoreId) (cap : Cap) (r : Word) (s : State)
  (v : VIn) (hv : v = { c := s.core k, cap := cap, x := x, tick := s.tick })
include hv

/-- A reduction writes its result to every element of vd. -/
theorem vReduce_done (hb : (s.core k).mtx.before = []) (hok : v.ok [x.sa] = true) : vReduce o d a p n x k cap r s =
    (let t := v.redTree o a p n
     let u := t.2.1.setRow (vrow cap.vrb d) (packRow v.w (List.replicate v.n t.1))
     .done (s.setCore k ({ s.core k with vec := u }.raise t.2.2))) := by
  subst hv
  simp only [vReduce, hok, Bool.not_true, Bool.false_eq_true, if_false, Core.rowPut, hb]
  rfl

/-- A reduction whose operand the element format does not take traps (R165). -/
theorem vReduce_trap (hok : v.ok [x.sa] = false) : vReduce o d a p n x k cap r s = .trap vIllenc s := by
  subst hv
  simp only [vReduce, hok, Bool.not_false, if_true]

/-- A scan whose operand the element format does not take traps (R165). -/
theorem vScan_trap (hok : v.ok [x.sa] = false) : vScan d a p n x k cap r s = .trap vIllenc s := by
  subst hv
  simp only [vScan, hok, Bool.not_false, if_true]

/-- A scan does nothing under `?!p0` (R167). -/
theorem vScan_never (hok : v.ok [x.sa] = true) (hn : neverActive v.cap p n = true) : vScan d a p n x k cap r s = .done s := by
  subst hv
  simp only [vScan, hok, Bool.not_true, Bool.false_eq_true, if_false, hn, if_true]

/-- A scan writes its results to the active elements of vd (R183). -/
theorem vScan_done (hb : (s.core k).mtx.before = []) (hok : v.ok [x.sa] = true) (hn : neverActive v.cap p n = false) :
    vScan d a p n x k cap r s =
      (let out := scanAll v 7 1 (v.redEls .add a p n) (v.c.vec, 0#6)
       let els := (List.range v.n).map (fun e => if v.active p n e then canonEl v (out.1.getD e 0) else v.el d e)
       .done (s.setCore k ({ s.core k with vec := out.2.1.setRow (vrow cap.vrb d) (packRow v.w els) }.raise out.2.2))) := by
  subst hv
  simp only [vScan, hok, Bool.not_true, Bool.false_eq_true, if_false, hn, Core.rowPut, hb]
  rfl

end

/-! ## Integers as a reduction reads them (R124, R160, R161) -/

/-- A pattern of w bits as an integer: in two's complement where it is signed. -/
theorem readInt_of_lt (sg : Bool) (w q : Nat) (h : q < 2 ^ w) :
    readInt sg w q = if sg = true ∧ 2 ^ (w - 1) ≤ q then (q : Int) - 2 ^ w else q := by
  cases sg <;> simp [readInt, sextInt, Nat.mod_eq_of_lt h]

/-- An integer of w bits lies in the range of its signedness. -/
theorem readInt_range (sg : Bool) {w t q : Nat} (h1 : 2 ^ (w - 1) = t) (ht : 2 ^ w = 2 * t) (h : q < 2 ^ w) :
    (if sg then -(t : Int) else 0) ≤ readInt sg w q ∧ readInt sg w q ≤ (if sg then (t : Int) - 1 else 2 * t - 1) := by
  have hp : (2 : Int) ^ w = 2 * t := by exact_mod_cast ht
  rw [readInt_of_lt sg w q h, h1, hp]
  cases sg with
  | false => simp; omega
  | true => simp; split <;> omega

/-- A pattern and the integer it stands for agree modulo 2^w. -/
theorem readInt_modEq (sg : Bool) (w q : Nat) : readInt sg w q ≡ q [ZMOD 2 ^ w] := by
  have hm : ((q % 2 ^ w : Nat) : Int) ≡ q [ZMOD 2 ^ w] := by
    push_cast
    exact Int.mod_modEq _ _
  cases sg with
  | false => exact Int.ModEq.refl _
  | true =>
    simp only [readInt, if_true, sextInt]
    split
    · exact (Int.sub_modulus_modEq_iff.mpr Int.ModEq.rfl).trans hm
    · exact hm

/-- Without saturation an integer is delivered modulo 2^w (R124). -/
theorem intDeliver_modEq (sg : Bool) (w : Nat) (z : Int) : (((intDeliver sg w false z).1 : Nat) : Int) ≡ z [ZMOD 2 ^ w] := by
  have h0 : (2 : Int) ^ w ≠ 0 := by positivity
  simp only [intDeliver, Bool.false_and, Bool.false_eq_true, if_false, Int.toNat_of_nonneg (Int.emod_nonneg z h0)]
  exact Int.mod_modEq _ _

/-- Half of the patterns of an element have their top bit clear. -/
theorem VIn.two_pow_w (v : VIn) : 2 ^ v.w = 2 * 2 ^ (v.w - 1) := by
  obtain hw | hw := v.w_cases <;> rw [hw] <;> rfl

/-- A subfield of an integer operand widens to a pattern of w bits (R160, R161). -/
theorem VIn.pat_lt (v : VIn) (a : BitVec 6) (code : BitVec 4) (k : Nat) : v.pat a code k < 2 ^ v.w := by
  have hw : (partOf v.w code).1 ≤ v.w := by
    have := v.w_cases
    unfold partOf
    simp only []
    split_ifs <;> simp <;> omega
  have hb : partBits v.w code (v.el a k) < 2 ^ v.w :=
    Nat.lt_of_lt_of_le (Nat.mod_lt _ (by positivity)) (Nat.pow_le_pow_right (by decide) hw)
  have h0 : (2 : Int) ^ v.w ≠ 0 := by positivity
  unfold VIn.pat readPat
  simp only []
  split
  · have hlt := Int.emod_lt_of_pos (sextInt (partOf v.w code).1 (partBits v.w code (v.el a k))) (show (0 : Int) < 2 ^ v.w by positivity)
    have := Int.emod_nonneg (sextInt (partOf v.w code).1 (partBits v.w code (v.el a k))) h0
    zify
    omega
  · exact hb

section
variable {v : VIn} (hs : v.x.sfmt.toNat < 2)
include hs

/-- An integer reduction reads an active element's pattern, and the identity for an inactive one (R128). -/
theorem VIn.redEl_int (o : RedOp) (a : BitVec 6) (p : BitVec 4) (n : BitVec 1) (k : Nat) :
    redEl v o a p n k = if v.active p n k then v.pat a v.x.sa k else redIdent v o := by
  have h2 : ¬(2 ≤ v.x.sfmt.toNat ∧ v.x.sa ≠ 0#4) := fun h => by omega
  simp only [redEl, if_neg h2]

/-- An integer node adds, without saturation modulo 2^w. -/
theorem redNode_add_modEq (hsat : v.x.sat = false) (e l r : Nat) (st : Vec × Fl) :
    ((redNode v .add e l r st).1 : Int) ≡ l + r [ZMOD 2 ^ v.w] := by
  rw [redNode, if_neg (by omega)]
  simp only [hsat]
  exact (intDeliver_modEq v.signed v.w _).trans ((readInt_modEq _ _ l).add (readInt_modEq _ _ r))

/-- An integer node of the greatest gives the greater, and raises nothing. -/
theorem redNode_max (e l r : Nat) (st : Vec × Fl) :
    redNode v .max e l r st = (if readInt v.signed v.w l < readInt v.signed v.w r then r else l, st) := by
  rw [redNode, if_neg (by omega)]

/-- An integer node of the least gives the less, and raises nothing. -/
theorem redNode_min (e l r : Nat) (st : Vec × Fl) :
    redNode v .min e l r st = (if readInt v.signed v.w r < readInt v.signed v.w l then r else l, st) := by
  rw [redNode, if_neg (by omega)]

/-- The identity of an integer sum is 0. -/
theorem redIdent_add : redIdent v .add = 0 := by
  rw [redIdent, if_neg (by omega)]

/-- The identity of the greatest is the least integer. -/
theorem redIdent_max_eq : redIdent v .max = if v.signed then 2 ^ (v.w - 1) else 0 := by
  rw [redIdent, if_neg (by omega)]

/-- The identity of the least is the greatest integer. -/
theorem redIdent_min_eq : redIdent v .min = if v.signed then 2 ^ (v.w - 1) - 1 else 2 ^ v.w - 1 := by
  rw [redIdent, if_neg (by omega)]

/-- The identity of the greatest is a pattern of w bits, and no integer is less. -/
theorem redIdent_max : redIdent v .max < 2 ^ v.w ∧
    ∀ q, q < 2 ^ v.w → readInt v.signed v.w (redIdent v .max) ≤ readInt v.signed v.w q := by
  have ht := v.two_pow_w
  have hpos : 0 < 2 ^ (v.w - 1) := by positivity
  have hlt : redIdent v .max < 2 ^ v.w := by rw [redIdent_max_eq hs]; split <;> omega
  refine ⟨hlt, fun q hq => le_trans (le_of_eq ?_) (readInt_range v.signed rfl ht hq).1⟩
  rw [readInt_of_lt _ _ _ hlt, redIdent_max_eq hs]
  zify at ht
  cases v.signed <;> simp
  omega

/-- The identity of the least is a pattern of w bits, and no integer is greater. -/
theorem redIdent_min : redIdent v .min < 2 ^ v.w ∧
    ∀ q, q < 2 ^ v.w → readInt v.signed v.w q ≤ readInt v.signed v.w (redIdent v .min) := by
  have ht := v.two_pow_w
  have hpos : 0 < 2 ^ (v.w - 1) := by positivity
  have hlt : redIdent v .min < 2 ^ v.w := by rw [redIdent_min_eq hs]; split <;> omega
  refine ⟨hlt, fun q hq => le_trans (readInt_range v.signed rfl ht hq).2 (le_of_eq ?_)⟩
  rw [readInt_of_lt _ _ _ hlt, redIdent_min_eq hs, ht]
  cases v.signed <;> simp

end

/-! ## Integer reductions over the active elements (R128, R182) -/

/-- The active elements as integers. -/
def VIn.actives (v : VIn) (a : BitVec 6) (p : BitVec 4) (n : BitVec 1) : List Int :=
  ((List.range v.n).filter (v.active p n)).map (v.int v.signed a v.x.sa)

/-- Modulo 2^w, a sum over all in which the others count 0 is the sum over those that are on. -/
theorem sum_ite_modEq (m : Int) (on : Nat → Bool) (f : Nat → Nat) (g : Nat → Int) (hfg : ∀ k, g k ≡ f k [ZMOD m]) (l : List Nat) :
    ((l.map fun k => ((if on k then f k else 0 : Nat) : Int)).sum) ≡ ((l.filter on).map g).sum [ZMOD m] := by
  induction l with
  | nil => exact Int.ModEq.rfl
  | cons k l ih =>
    cases hk : on k with
    | true => simpa [hk] using (hfg k).symm.add ih
    | false => simpa [hk] using ih

section
variable {v : VIn} (hs : v.x.sfmt.toNat < 2) {a : BitVec 6} {p : BitVec 4} {n : BitVec 1}

/-- Under `?!p0` no element is among the active ones. -/
theorem VIn.actives_of_never (h : neverActive v.cap p n = true) : v.actives a p n = [] := by
  have hf : (List.range v.n).filter (v.active p n) = [] := List.filter_eq_nil_iff.mpr fun k hk => by
    rw [v.not_active_of_never p n h k (List.mem_range.mp hk)]
    exact Bool.false_ne_true
  rw [VIn.actives, hf, List.map_nil]

include hs

/-- Without saturation the sum of the active integers, modulo 2^w (R128). -/
theorem VIn.redTree_add_modEq (hsat : v.x.sat = false) :
    ((v.redTree .add a p n).1 : Int) ≡ (v.actives a p n).sum [ZMOD 2 ^ v.w] := by
  cases hn : neverActive v.cap p n with
  | true => rw [VIn.redTree, if_pos hn, redIdent_add hs, VIn.actives_of_never hn]; rfl
  | false =>
    have htree : ((v.redTree .add a p n).1 : Int) ≡ ((v.redEls .add a p n).map Nat.cast).sum [ZMOD 2 ^ v.w] :=
      (VIn.redTree_joins (o := .add) (R := fun qs q => (q : Int) ≡ (qs.map Nat.cast).sum [ZMOD 2 ^ v.w]) (P := fun _ => True) hn
        (fun q => by simp) (fun e l r xs ys st hl hr _ =>
          ⟨by simpa using (redNode_add_modEq hs hsat e l r st).trans (hl.add hr), trivial⟩) trivial).1
    refine htree.trans ?_
    have hels := sum_ite_modEq (2 ^ v.w) (v.active p n) (v.pat a v.x.sa) (v.int v.signed a v.x.sa)
      (fun k => readInt_modEq _ _ _) (List.range v.n)
    simpa [VIn.redEls, VIn.redEl_int hs, redIdent_add hs, Function.comp_def, VIn.actives] using hels

/-- An operation whose nodes choose the better of two integers gives the best of the active ones, and raises no flag; its
identity is no better than any. -/
theorem VIn.redTree_best (o : RedOp) (le : Int → Int → Prop) (hrefl : ∀ z, le z z) (htrans : ∀ x y z, le x y → le y z → le x z)
    (hanti : ∀ x y, le x y → le y x → x = y)
    (hnode : ∀ e l r st, ∃ q, redNode v o e l r st = (q, st) ∧ (q = l ∨ q = r) ∧
      le (readInt v.signed v.w l) (readInt v.signed v.w q) ∧ le (readInt v.signed v.w r) (readInt v.signed v.w q))
    (hid : redIdent v o < 2 ^ v.w ∧ ∀ q, q < 2 ^ v.w → le (readInt v.signed v.w (redIdent v o)) (readInt v.signed v.w q)) :
    (v.redTree o a p n).1 < 2 ^ v.w ∧ (v.redTree o a p n).2.2 = 0#6 ∧
      (∀ z ∈ v.actives a p n, le z (readInt v.signed v.w (v.redTree o a p n).1)) ∧
      (v.actives a p n ≠ [] → readInt v.signed v.w (v.redTree o a p n).1 ∈ v.actives a p n) := by
  cases hn : neverActive v.cap p n with
  | true =>
    rw [VIn.redTree, if_pos hn, VIn.actives_of_never hn]
    exact ⟨hid.1, rfl, fun z hz => absurd hz List.not_mem_nil, fun h => absurd rfl h⟩
  | false =>
    let rd := readInt v.signed v.w
    obtain ⟨⟨hmem, hbest⟩, hfl⟩ := VIn.redTree_joins (o := o) (a := a) (R := fun qs q => q ∈ qs ∧ ∀ z ∈ qs, le (rd z) (rd q))
      (P := fun st => st.2 = 0#6) hn (fun q => ⟨by simp, by simpa using hrefl (rd q)⟩) (fun e l r xs ys st hl hr hst => by
        obtain ⟨q, hq, hlr, hql, hqr⟩ := hnode e l r st
        rw [hq]
        refine ⟨⟨?_, fun z hz => ?_⟩, hst⟩
        · obtain rfl | rfl := hlr
          · exact List.mem_append_left _ hl.1
          · exact List.mem_append_right _ hr.1
        · obtain hz | hz := List.mem_append.mp hz
          · exact htrans _ _ _ (hl.2 z hz) hql
          · exact htrans _ _ _ (hr.2 z hz) hqr) rfl
    obtain ⟨k, hk, hkq⟩ := List.mem_map.mp hmem
    rw [VIn.redEl_int hs] at hkq
    have hall : ∀ z ∈ v.actives a p n, le z (rd (v.redTree o a p n).1) := fun z hz => by
      obtain ⟨j, hj, rfl⟩ := List.mem_map.mp hz
      obtain ⟨hj, hact⟩ := List.mem_filter.mp hj
      refine hbest (v.pat a v.x.sa j) (List.mem_map.mpr ⟨j, hj, ?_⟩)
      rw [VIn.redEl_int hs, if_pos hact]
    refine ⟨?_, hfl, hall, fun hne => ?_⟩
    · rw [← hkq]
      split
      · exact v.pat_lt a v.x.sa k
      · exact hid.1
    · cases hact : v.active p n k with
      | true => exact List.mem_map.mpr ⟨k, List.mem_filter.mpr ⟨hk, hact⟩, by rw [← hkq, hact]; rfl⟩
      | false =>
        obtain ⟨z, hz⟩ := List.exists_mem_of_ne_nil _ hne
        have hq : (v.redTree o a p n).1 = redIdent v o := by rw [← hkq, hact]; rfl
        have hle : le (rd (redIdent v o)) z := by
          obtain ⟨j, -, rfl⟩ := List.mem_map.mp hz
          exact hid.2 _ (v.pat_lt a v.x.sa j)
        have hge := hall z hz
        rw [hq] at hge ⊢
        rwa [show readInt v.signed v.w (redIdent v o) = z from hanti _ _ hle hge]

/-- The greatest of the active integers (R128). -/
theorem VIn.redTree_max : (v.redTree .max a p n).1 < 2 ^ v.w ∧ (v.redTree .max a p n).2.2 = 0#6 ∧
    (∀ z ∈ v.actives a p n, z ≤ readInt v.signed v.w (v.redTree .max a p n).1) ∧
    (v.actives a p n ≠ [] → readInt v.signed v.w (v.redTree .max a p n).1 ∈ v.actives a p n) := by
  refine VIn.redTree_best hs .max (· ≤ ·) le_refl (fun _ _ _ => le_trans) (fun _ _ => le_antisymm) (fun e l r st => ?_) (redIdent_max hs)
  refine ⟨_, redNode_max hs e l r st, ?_⟩
  split <;> refine ⟨by simp, ?_, ?_⟩ <;> omega

/-- The least of the active integers (R128). -/
theorem VIn.redTree_min : (v.redTree .min a p n).1 < 2 ^ v.w ∧ (v.redTree .min a p n).2.2 = 0#6 ∧
    (∀ z ∈ v.actives a p n, readInt v.signed v.w (v.redTree .min a p n).1 ≤ z) ∧
    (v.actives a p n ≠ [] → readInt v.signed v.w (v.redTree .min a p n).1 ∈ v.actives a p n) := by
  refine VIn.redTree_best hs .min (fun x y => y ≤ x) le_refl (fun _ _ _ h h' => h'.trans h) (fun _ _ h h' => h'.antisymm h)
    (fun e l r st => ?_) (redIdent_min hs)
  refine ⟨_, redNode_min hs e l r st, ?_⟩
  split <;> refine ⟨by simp, ?_, ?_⟩ <;> omega

end

/-! ## The statement -/

section
variable {o : RedOp} {d a : BitVec 6} {p : BitVec 4} {n : BitVec 1} {x : VExt} {i : Instr} {s : State}
  (h : s.engineGoes .v i.tok?)
include h

/-- A reduction that can go retires with its result in every element of vd; the other rows, the predicates and the tiles' roles
stay (R182). -/
theorem exec_vReduce (he : exec i s = runE .v i (capOf i (s.core s.exe)) (vReduce o d a p n x) s) (hok : (s.vin i x).ok [x.sa] = true) :
    let v := s.vin i x
    ∃ u, exec i s = .next (s.engineDid (fun c => { c with vec := u }.raise (v.redTree o a p n).2.2) i) ∧
      (∀ m, m < v.n → elemAt (u.row (vrow v.cap.vrb d)) v.w m = (v.redTree o a p n).1 % 2 ^ v.w) ∧
      (∀ r, r ≠ vrow v.cap.vrb d → u.row r = v.c.vec.row r) ∧ u.preds = v.c.vec.preds ∧ u.exposed = v.c.vec.exposed := by
  intro v
  obtain ⟨-, -, -, -, -, hbefore, -⟩ := id h
  obtain ⟨hrow, hrows, hpreds, hexposed⟩ := (v.redTree_sameBut (o := o) (a := a) (p := p) (n := n)).setRow (vrow v.cap.vrb d)
    (packRow v.w (List.replicate v.n (v.redTree o a p n).1))
  refine ⟨_, he.trans (runE_done _ _ _ _ _ _ h (vReduce_done o d a p n x _ _ _ s v rfl hbefore hok)), fun m hm => ?_, hrows, hpreds,
    hexposed⟩
  refine (congrArg (elemAt · v.w m) hrow).trans ((v.elemAt_packRow _ List.length_replicate m hm).trans ?_)
  simp [List.getD_eq_getElem?_getD, hm]

/-- A scan that can go retires with its results in the active elements of vd (R183). -/
theorem exec_vScan_done (he : exec i s = runE .v i (capOf i (s.core s.exe)) (vScan d a p n x) s)
    (hok : (s.vin i x).ok [x.sa] = true) (hn : neverActive (s.vin i x).cap p n = false) :
    let v := s.vin i x
    let out := scanAll v 7 1 (v.redEls .add a p n) (v.c.vec, 0#6)
    ∃ u, exec i s = .next (s.engineDid (fun c => { c with vec := u }.raise out.2.2) i) ∧
      (∀ m, m < v.n → elemAt (u.row (vrow v.cap.vrb d)) v.w m =
        if v.active p n m then canonEl v (out.1.getD m 0) % 2 ^ v.w else v.el d m) ∧
      (∀ r, r ≠ vrow v.cap.vrb d → u.row r = v.c.vec.row r) ∧ u.preds = v.c.vec.preds ∧ u.exposed = v.c.vec.exposed := by
  intro v out
  obtain ⟨-, -, -, -, -, hbefore, -⟩ := id h
  have hsame : out.2.1.sameBut v.c.vec := scanAll_sameBut v 7 1 _ ⟨rfl, rfl, rfl, rfl⟩
  obtain ⟨hrow, hrows, hpreds, hexposed⟩ := hsame.setRow (vrow v.cap.vrb d)
    (packRow v.w ((List.range v.n).map (fun e => if v.active p n e then canonEl v (out.1.getD e 0) else v.el d e)))
  refine ⟨_, he.trans (runE_done _ _ _ _ _ _ h (vScan_done d a p n x _ _ _ s v rfl hbefore hok hn)), fun m hm => ?_, hrows, hpreds,
    hexposed⟩
  refine (congrArg (elemAt · v.w m) hrow).trans ((v.elemAt_packRow_map _ m hm).trans ?_)
  split
  · rfl
  · exact Nat.mod_eq_of_lt (v.el_lt d m)

end

/-- Settles O39: what is written by `exec_vReduce` and `exec_vScan_done`, what the tree of integers gives by
`VIn.redTree_add_modEq`, `VIn.redTree_max` and `VIn.redTree_min`. -/
theorem vectorReductions : Obligations.VectorReductions := by
  unfold Obligations.VectorReductions
  intro d a p n x t s h c e v els never tree on whole num reduces
  have hnever : never ↔ neverActive v.cap p n = true := (neverActive_iff p n v.cap).symm
  have htree (o : RedOp) : tree o = v.redTree o a p n := if_congr hnever rfl rfl
  have hnum (q : Nat) (hq : q < 2 ^ v.w) : num q = readInt v.signed v.w q := (readInt_of_lt v.signed v.w q hq).symm
  refine ⟨fun hok i hi => ?trap, fun hok => ⟨?add, ?max, ?min, fun hw hsat => ?sum, fun hw => ?greatest, fun hw => ?least,
    fun hn => ?never, fun hn => ?scan⟩⟩
  case trap =>
    simp only [List.mem_cons, List.not_mem_nil, or_false] at hi
    obtain rfl | rfl | rfl | rfl := hi
    · exact runE_trap _ _ _ _ _ _ _ h (vReduce_trap .add d a p n e _ _ _ s v rfl hok)
    · exact runE_trap _ _ _ _ _ _ _ h (vReduce_trap .max d a p n e _ _ _ s v rfl hok)
    · exact runE_trap _ _ _ _ _ _ _ h (vReduce_trap .min d a p n e _ _ _ s v rfl hok)
    · exact runE_trap _ _ _ _ _ _ _ h (vScan_trap d a p n e _ _ _ s v rfl hok)
  case add => simp only [reduces, htree]; exact exec_vReduce h (exec_vRadd ..) hok
  case max => simp only [reduces, htree]; exact exec_vReduce h (exec_vRmax ..) hok
  case min => simp only [reduces, htree]; exact exec_vReduce h (exec_vRmin ..) hok
  case sum =>
    rw [htree]
    exact VIn.redTree_add_modEq (of_decide_eq_true hw) hsat
  case greatest =>
    obtain ⟨hlt, hfl, hall, hmem⟩ := VIn.redTree_max (v := v) (of_decide_eq_true hw) (a := a) (p := p) (n := n)
    rw [htree, hnum _ hlt]
    exact ⟨hfl, hall, hmem⟩
  case least =>
    obtain ⟨hlt, hfl, hall, hmem⟩ := VIn.redTree_min (v := v) (of_decide_eq_true hw) (a := a) (p := p) (n := n)
    rw [htree, hnum _ hlt]
    exact ⟨hfl, hall, hmem⟩
  case never =>
    exact runE_done _ _ _ _ _ _ h (vScan_never d a p n e _ _ _ s v rfl hok (hnever.mp hn))
  case scan =>
    exact exec_vScan_done h (exec_vScan ..) hok (Bool.not_eq_true _ ▸ fun hr => hn (hnever.mpr hr))

end Sys2Proof.Machine

/-! Multiplies, `m.scacc` and `m.zero` (R117, R127, R309, R310, R320 to R322, R325 to R329, R400): how such a command starts, reads
its operands and retires; what it forms in the engaged tile and its partial plane. -/

namespace Sys2Proof.Machine

/-! ## The start of a command (R309, R400) -/

/-- The core when a matrix command starts: outside a handler the retained window takes it, or closes. -/
def Core.started (c : Core) (e : QEntry) (closing enters : Bool) : Core :=
  if c.seat.depth = 0#8 then { c with mtx := c.mtx.begin e closing enters (tokTs e.ins.tok?) } else c

theorem mBegin_eq_started (k : CoreId) (e : QEntry) (closing enters : Bool) (s : State) :
    mBegin k e closing enters s = s.modCore k (fun c => c.started e closing enters) := rfl

/-- A matrix unit that differs from another in the retained window alone. -/
def Mtx.WindowOnly (m x : Mtx) : Prop := ∃ w cmds f, x = { m with window := w, cmds := cmds, faultAt := f }

theorem Mtx.WindowOnly.set {m x : Mtx} (h : m.WindowOnly x) (w : WindowState) (cmds : List QEntry) (f : Option Nat) :
    m.WindowOnly { x with window := w, cmds := cmds, faultAt := f } := by
  obtain ⟨_, _, _, rfl⟩ := h
  exact ⟨w, cmds, f, rfl⟩

theorem Mtx.WindowOnly.ite {m x y : Mtx} {b : Prop} [Decidable b] (hx : m.WindowOnly x) (hy : m.WindowOnly y) :
    m.WindowOnly (if b then x else y) := by
  split <;> assumption

theorem Mtx.begin_windowOnly (m : Mtx) (e : QEntry) (closing enters ts : Bool) : m.WindowOnly (m.begin e closing enters ts) := by
  have h0 : m.WindowOnly m := ⟨_, _, _, rfl⟩
  have h1 := Mtx.WindowOnly.ite (b := closing = true) (h0.set .none [] none) h0
  have h2 := Mtx.WindowOnly.ite (b := ts = true) (h1.set .anchored [] none) h1
  exact Mtx.WindowOnly.ite (Mtx.WindowOnly.ite (h2.set .overflowed [] none) (h2.set _ _ _)) h2

section
variable (c : Core) (e : QEntry) (closing enters : Bool)

/-- A core whose retained window alone is changed. -/
def Core.withWindow (w : WindowState) (cmds : List QEntry) (faultAt : Option Nat) : Core :=
  { c with mtx := { c.mtx with window := w, cmds := cmds, faultAt := faultAt } }

/-- The start of a command changes the window alone. -/
theorem Core.started_eq : ∃ w cmds f, c.started e closing enters = c.withWindow w cmds f := by
  unfold Core.started
  split
  · obtain ⟨w, cmds, f, h⟩ := c.mtx.begin_windowOnly e closing enters (tokTs e.ins.tok?)
    exact ⟨w, cmds, f, congrArg (fun m => { c with mtx := m }) h⟩
  · exact ⟨_, _, _, rfl⟩

/-- A command that enters the window: TS anchors it anew, an anchored one takes it as long as it holds fewer than 48 (R309). -/
theorem Core.started_enters (t : Option Tok) (ht : e.ins.tok? = t) :
    ((c.started e false true).mtx.window, (c.started e false true).mtx.cmds) =
      if c.seat.depth ≠ 0#8 then (c.mtx.window, c.mtx.cmds)
      else if tokTs t then (.anchored, [e])
      else if c.mtx.window ≠ .anchored then (c.mtx.window, c.mtx.cmds)
      else if 48 ≤ c.mtx.cmds.length then (.overflowed, []) else (.anchored, c.mtx.cmds ++ [e]) := by
  subst ht
  unfold Core.started Mtx.begin
  by_cases hd : c.seat.depth = 0#8
  · cases tokTs e.ins.tok?
    · by_cases hw : c.mtx.window = .anchored <;> by_cases hl : 48 ≤ c.mtx.cmds.length <;> simp [hd, hw, hl]
    · simp [hd]
  · simp [hd]

end

/-! ## The engaged tile (R133, R321) -/

theorem Vec.tile_setTile (v : Vec) (b : Bool) (t : Bank (BitVec 6) (BitVec 1024)) : (v.setTile b t).tile b = t := by
  unfold Vec.setTile Vec.tile
  split <;> simp_all

theorem Vec.tile_setTile_not (v : Vec) (b : Bool) (t : Bank (BitVec 6) (BitVec 1024)) : (v.setTile b t).tile (!b) = v.tile (!b) := by
  unfold Vec.setTile Vec.tile
  cases v.exposed <;> cases b <;> rfl

theorem Vec.setTile_setTile (v : Vec) (b : Bool) (t u : Bank (BitVec 6) (BitVec 1024)) :
    (v.setTile b t).setTile b u = v.setTile b u := by
  unfold Vec.setTile
  cases v.exposed <;> cases b <;> rfl

/-- A tile set to itself. -/
theorem Vec.setTile_tile (v : Vec) (b : Bool) : v.setTile b (v.tile b) = v := by
  unfold Vec.setTile Vec.tile
  split <;> rfl

/-- The vector unit with another engaged tile: the exposed one, the roles, the predicates and the generators stay. -/
theorem Vec.setTile_true_keeps (v : Vec) (t : Bank (BitVec 6) (BitVec 1024)) : (v.setTile true t).tile false = v.tile false ∧
    (v.setTile true t).preds = v.preds ∧ (v.setTile true t).exposed = v.exposed ∧ (v.setTile true t).gens = v.gens := by
  refine ⟨v.tile_setTile_not true t, ?_, ?_, ?_⟩ <;> (unfold Vec.setTile; split) <;> rfl

/-- A row of the engaged tile after a write to one. -/
theorem Core.engRow_setEngRow (c : Core) {r q : Nat} (x : BitVec 1024) (hr : r < 64) (hq : q < 64) :
    (c.setEngRow r x).engRow q = if q = r then x else c.engRow q := by
  have he : (BitVec.ofNat 6 q = BitVec.ofNat 6 r) ↔ q = r := by
    rw [← BitVec.toNat_inj, BitVec.toNat_ofNat, BitVec.toNat_ofNat]
    omega
  simp only [Core.engRow, Core.setEngRow, Vec.tile_setTile]
  split
  · next h => rw [he.mpr h, Bank.get_set_same]
  · next h => exact Bank.get_set_ne _ _ _ _ _ (fun h' => h (he.mp h'))

/-- A write to a row of the engaged tile changes that tile alone. -/
theorem Core.setEngRow_keeps {c d : Core} {t : Bank (BitVec 6) (BitVec 1024)} (h : d = { c with vec := c.vec.setTile true t }) (r : Nat)
    (x : BitVec 1024) : ∃ t, d.setEngRow r x = { c with vec := c.vec.setTile true t } := by
  subst h
  exact ⟨_, congrArg (fun v => { c with vec := v }) (Vec.setTile_setTile ..)⟩

/-! ## Changing a region of the engaged tile (R321, R325) -/

section
variable (c : Core) (row0 col0 m n : Nat) (f : Nat → Nat → Nat → Nat × Fl)

/-- What becomes of element e of row i of a region: inside the region's columns what f gives, else itself. -/
def regionEl (w col0 n : Nat) (f : Nat → Nat → Nat → Nat × Fl) (i : Nat) (row : BitVec 1024) (e : Nat) : Nat × Fl :=
  if col0 ≤ e ∧ e < col0 + n then f i (e - col0) (elemAt row w e) else (elemAt row w e, 0#6)

/-- What becomes of row i of a region. -/
def Core.regionRow (i : Nat) : List (Nat × Fl) :=
  (List.range (1024 / accW c.ctl.acct)).map (regionEl (accW c.ctl.acct) col0 n f i (c.engRow (row0 + i)))

/-- One more row of a region. -/
theorem Core.updRegion_succ : c.updRegion row0 col0 (m + 1) n f =
    (let a := c.updRegion row0 col0 m n f
     let els := (List.range (1024 / accW c.ctl.acct)).map (regionEl (accW c.ctl.acct) col0 n f m (a.1.engRow (row0 + m)))
     (a.1.setEngRow (row0 + m) (packRow (accW c.ctl.acct) (els.map (fun p => p.1))), els.foldl (fun fl p => fl ||| p.2) a.2)) := by
  rw [Core.updRegion, List.range_succ, List.foldl_append]
  rfl

/-- Changing a region changes the engaged tile alone. -/
theorem Core.updRegion_keeps : ∃ t, (c.updRegion row0 col0 m n f).1 = { c with vec := c.vec.setTile true t } := by
  induction m with
  | zero => exact ⟨c.vec.tile true, congrArg (fun v => { c with vec := v }) (Vec.setTile_tile ..).symm⟩
  | succ m ih =>
    obtain ⟨t, ht⟩ := ih
    rw [Core.updRegion_succ]
    exact Core.setEngRow_keeps ht _ _

variable {m} (hm : row0 + m ≤ 64)
include hm

/-- The rows of the region become what `regionRow` says; the others stay. -/
theorem Core.engRow_updRegion (r : Nat) (hr : r < 64) : (c.updRegion row0 col0 m n f).1.engRow r =
    if row0 ≤ r ∧ r < row0 + m then packRow (accW c.ctl.acct) ((c.regionRow row0 col0 n f (r - row0)).map (fun p => p.1))
    else c.engRow r := by
  induction m generalizing r with
  | zero => simp [Core.updRegion]
  | succ m ih =>
    have hrow (q : Nat) (hq : q < 64) := ih (by omega) q hq
    rw [Core.updRegion_succ]
    dsimp only
    have hnew : ¬(row0 ≤ row0 + m ∧ row0 + m < row0 + m) := by omega
    rw [Core.engRow_setEngRow _ _ (by omega) hr, hrow (row0 + m) (by omega), if_neg hnew]
    by_cases h : r = row0 + m
    · have hin : row0 ≤ row0 + m ∧ row0 + m < row0 + (m + 1) := by omega
      rw [if_pos h, h, if_pos hin, Nat.add_sub_cancel_left]
      rfl
    · rw [if_neg h, hrow r hr]
      exact if_congr (by omega) rfl rfl

omit hm in
/-- A flag is raised by a fold over elements where it was raised before or an element raises it. -/
theorem getLsbD_foldl_or (els : List (Nat × Fl)) (fl : Fl) (q : Nat) :
    (els.foldl (fun fl p => fl ||| p.2) fl).getLsbD q = true ↔ fl.getLsbD q = true ∨ ∃ p ∈ els, p.2.getLsbD q = true := by
  induction els generalizing fl with
  | nil => simp
  | cons p els ih => simp [ih, or_assoc]

/-- The flags raised are those of the region's elements. -/
theorem Core.flags_updRegion (q : Nat) : (c.updRegion row0 col0 m n f).2.getLsbD q = true ↔
    ∃ i, i < m ∧ ∃ p ∈ c.regionRow row0 col0 n f i, p.2.getLsbD q = true := by
  induction m with
  | zero => simp [Core.updRegion]
  | succ m ih =>
    have hrow : (c.updRegion row0 col0 m n f).1.engRow (row0 + m) = c.engRow (row0 + m) := by
      rw [Core.engRow_updRegion c row0 col0 n f (by omega) _ (by omega), if_neg (by omega)]
    rw [Core.updRegion_succ]
    dsimp only
    rw [hrow, getLsbD_foldl_or, ih (by omega)]
    simp only [Nat.lt_succ_iff_lt_or_eq, or_and_right, exists_or, exists_eq_left]
    rfl

end

/-- What a command leaves that forms each element of a region of the engaged tile by f: that element, and no other; the partial
plane; the flags that f raises over the region (R325, R328). -/
structure Core.RegionFormed (c d : Core) (row0 col0 m n : Nat) (f : Nat → Nat → Nat → Nat × Fl) : Prop where
  elems : ∀ r e, r < 64 → e < 1024 / accW c.ctl.acct →
    (row0 ≤ r ∧ r < row0 + m ∧ col0 ≤ e ∧ e < col0 + n → elemAt (d.engRow r) (accW c.ctl.acct) e =
      (f (r - row0) (e - col0) (elemAt (c.engRow r) (accW c.ctl.acct) e)).1 % 2 ^ accW c.ctl.acct) ∧
    (¬(row0 ≤ r ∧ r < row0 + m ∧ col0 ≤ e ∧ e < col0 + n) →
      elemAt (d.engRow r) (accW c.ctl.acct) e = elemAt (c.engRow r) (accW c.ctl.acct) e)
  plane : ∀ r e, d.planeAt r e = c.planeAt r e
  flags : ∃ fl : Fl, d.ctl = (c.raise fl).ctl ∧ ∀ q, q < 6 → (fl.getLsbD q = true ↔
    ∃ i j, i < m ∧ j < n ∧ (f i j (elemAt (c.engRow (row0 + i)) (accW c.ctl.acct) (col0 + j))).2.getLsbD q = true)

section
variable {c : Core} {row0 col0 m n : Nat} (hok : regionOk c.ctl.acct row0 col0 m n = true) (f : Nat → Nat → Nat → Nat × Fl)
include hok

/-- A region lies in the tile (R321). -/
theorem region_inside : row0 + m ≤ 64 ∧ col0 + n ≤ 1024 / accW c.ctl.acct := by
  simp only [regionOk, Bool.and_eq_true, decide_eq_true_eq] at hok
  obtain ⟨⟨-, hrows⟩, hcols⟩ := hok
  refine ⟨hrows, hcols.trans (le_of_eq ?_)⟩
  unfold nMax accW
  split <;> rfl

/-- Element e of a row of the region is what `regionEl` gives. -/
theorem Core.elemAt_updRegion {r e : Nat} (hr : r < 64) (hin : row0 ≤ r ∧ r < row0 + m) (he : e < 1024 / accW c.ctl.acct) :
    elemAt ((c.updRegion row0 col0 m n f).1.engRow r) (accW c.ctl.acct) e =
      (regionEl (accW c.ctl.acct) col0 n f (r - row0) (c.engRow r) e).1 % 2 ^ accW c.ctl.acct := by
  have hw : accW c.ctl.acct * (1024 / accW c.ctl.acct) = 1024 := accW_accN c.ctl.acct
  have hrow : row0 + (r - row0) = r := by omega
  rw [Core.engRow_updRegion c row0 col0 n f (region_inside hok).1 r hr, if_pos hin,
    elemAt_packRow _ _ e (by simpa [Core.regionRow] using he) (by simp [Core.regionRow, hw])]
  simp [Core.regionRow, hrow]

/-- Changing a region by f and raising its flags forms the region. -/
theorem Core.updRegion_formed :
    c.RegionFormed ((c.updRegion row0 col0 m n f).1.raise (c.updRegion row0 col0 m n f).2) row0 col0 m n f := by
  obtain ⟨hrows, hcols⟩ := region_inside hok
  obtain ⟨t, ht⟩ := c.updRegion_keeps row0 col0 m n f
  obtain ⟨-, -, hexposed, -⟩ := c.vec.setTile_true_keeps t
  refine ⟨fun r e hr he => ⟨fun hin => ?_, fun hout => ?_⟩, fun r e => ?_, (c.updRegion row0 col0 m n f).2, ?_, fun q _ => ?_⟩
  · obtain ⟨h1, h2, h34⟩ := hin
    refine (Core.elemAt_updRegion hok f hr ⟨h1, h2⟩ he).trans ?_
    rw [regionEl, if_pos h34]
  · by_cases hin : row0 ≤ r ∧ r < row0 + m
    · refine (Core.elemAt_updRegion hok f hr hin he).trans ?_
      rw [regionEl, if_neg (fun h => hout ⟨hin.1, hin.2, h⟩)]
      exact Nat.mod_eq_of_lt (BitVec.isLt _)
    · refine congrArg (elemAt · _ e) ((Core.engRow_updRegion c row0 col0 n f hrows r hr).trans (if_neg hin))
  · simp only [Core.raise, Core.planeAt, Core.plane, ht, hexposed]
  · simp only [Core.raise, ht]
  · rw [Core.flags_updRegion c row0 col0 n f hrows q]
    constructor
    · rintro ⟨i, hi, x, hx, hq⟩
      obtain ⟨e, -, rfl⟩ := List.mem_map.mp hx
      unfold regionEl at hq
      split at hq
      · next hin => exact ⟨i, e - col0, hi, by omega, by rwa [show col0 + (e - col0) = e by omega]⟩
      · simp at hq
    · rintro ⟨i, j, hi, hj, hq⟩
      refine ⟨i, hi, _, List.mem_map.mpr ⟨col0 + j, List.mem_range.mpr (by omega), rfl⟩, ?_⟩
      rwa [regionEl, if_pos (by omega), Nat.add_sub_cancel_left]

/-- Where f raises no flag, changing the region is enough. -/
theorem Core.updRegion_formed_flagless (hf : ∀ i j x, (f i j x).2 = 0#6) :
    c.RegionFormed (c.updRegion row0 col0 m n f).1 row0 col0 m n f := by
  have hfl : (c.updRegion row0 col0 m n f).2 = 0#6 := by
    refine BitVec.eq_of_getLsbD_eq fun q _ => ?_
    rw [Bool.eq_iff_iff, Core.flags_updRegion c row0 col0 n f (region_inside hok).1 q]
    simp only [BitVec.getLsbD_zero, Bool.false_eq_true, iff_false]
    rintro ⟨i, hi, x, hx, hq⟩
    obtain ⟨e, -, rfl⟩ := List.mem_map.mp hx
    unfold regionEl at hq
    split at hq <;> simp [hf] at hq
  have h := Core.updRegion_formed hok f
  rw [hfl, Core.raise, Ctl.raise_none] at h
  exact h

end

/-! ## The chunks of `m.mma.i` (R127) -/

/-- Chunks of len cover the numbers below k, each once and in order. -/
theorem chunks_flatMap (len k c : Nat) :
    ((List.range c).flatMap fun q => (List.range (min len (k - q * len))).map fun i => q * len + i) = List.range (min (c * len) k) := by
  induction c with
  | zero => simp
  | succ c ih =>
    rw [List.range_succ, List.flatMap_append, ih, List.flatMap_singleton]
    rcases Nat.lt_or_ge (c * len) k with h | h
    · rw [Nat.min_eq_left h.le, Nat.succ_mul, show min (c * len + len) k = c * len + min len (k - c * len) by omega, List.range_add]
    · rw [Nat.min_eq_right h, Nat.sub_eq_zero_of_le h, Nat.min_zero, Nat.min_eq_right (h.trans (Nat.mul_le_mul_right _ (Nat.le_succ c)))]
      simp

/-- All chunks of an operand hold all of its K. -/
theorem chunkKs_all (a : BitVec 512) : chunkKs a (List.range (chunkCount .int a)) = List.range (opK a) := by
  have hlen : chunkLen (shFmt a) = 4 ∨ chunkLen (shFmt a) = 8 := by
    unfold chunkLen
    split
    · exact .inl rfl
    · exact .inr rfl
  have hmin : min ((opK a + chunkLen (shFmt a) - 1) / chunkLen (shFmt a) * chunkLen (shFmt a)) (opK a) = opK a := by
    obtain h | h := hlen <;> rw [h] <;> omega
  exact (chunks_flatMap _ _ _).trans (by rw [chunkCount, hmin])

/-- An element of `m.mma.i`: the exact sum over K, added modulo 2^32 (R325). -/
theorem mmaInt_eq (ta tb : Tower) (a b : BitVec 512) (i j c : Nat) :
    mmaInt ta tb a b (List.range (chunkCount .int a)) i j c =
      (((c : Int) + ((List.range (opK a)).map fun k => opInt ta a k i * opInt tb b k j).sum) % 2 ^ 32).toNat := by
  rw [mmaInt, chunkKs_all, List.sum_eq_foldl, List.foldl_map]

/-! ## The partial plane (R326, R327) -/

@[simp] theorem Core.plane_setPlane (c : Core) (p : Bank Nat (BitVec 32)) : (c.setPlane p).plane = p := by
  unfold Core.setPlane Core.plane
  split <;> simp_all

@[simp] theorem Core.setPlane_vec (c : Core) (p : Bank Nat (BitVec 32)) : (c.setPlane p).vec = c.vec := by
  unfold Core.setPlane
  split <;> rfl

section
variable (p : Bank Nat (BitVec 32)) (g : Nat → Nat → BitVec 32) (row0 col0 n : Nat) (hn : col0 + n ≤ 32) (r e : Nat) (he : e < 32)
include hn he

/-- Elements written to a row of a plane. -/
theorem Bank.get_setPlaneRow (R : Nat) (h : Nat → BitVec 32) :
    ((List.range n).foldl (fun p j => p.set (R * 32 + (col0 + j)) (h j)) p).get 0#32 (r * 32 + e) =
      if r = R ∧ col0 ≤ e ∧ e < col0 + n then h (e - col0) else p.get 0#32 (r * 32 + e) := by
  induction n with
  | zero => rw [if_neg (by omega)]; rfl
  | succ n ih =>
    rw [List.range_succ, List.foldl_append, List.foldl_cons, List.foldl_nil]
    by_cases hk : r = R ∧ e = col0 + n
    · obtain ⟨rfl, rfl⟩ := hk
      rw [Bank.get_set_same, if_pos (by omega), Nat.add_sub_cancel_left]
    · rw [Bank.get_set_ne _ _ _ _ _ (by omega), ih (by omega)]
      exact if_congr (by omega) rfl rfl

/-- Elements written to a region of a plane, row by row. -/
theorem Bank.get_setPlaneRegion (m : Nat) :
    ((List.range m).foldl (fun p i => (List.range n).foldl (fun p j => p.set ((row0 + i) * 32 + (col0 + j)) (g i j)) p) p).get 0#32
        (r * 32 + e) =
      if row0 ≤ r ∧ r < row0 + m ∧ col0 ≤ e ∧ e < col0 + n then g (r - row0) (e - col0) else p.get 0#32 (r * 32 + e) := by
  induction m with
  | zero => rw [if_neg (by omega)]; rfl
  | succ m ih =>
    rw [List.range_succ, List.foldl_append, List.foldl_cons, List.foldl_nil,
      Bank.get_setPlaneRow _ col0 n hn r e he (row0 + m) (g m), ih]
    by_cases hr : r = row0 + m
    · have hnew : ¬(row0 ≤ r ∧ r < row0 + m ∧ col0 ≤ e ∧ e < col0 + n) := by omega
      rw [if_neg hnew, show r - row0 = m by omega]
      exact if_congr (by omega) rfl rfl
    · rw [if_neg (fun h => hr h.1)]
      exact if_congr (by omega) rfl rfl

end

/-! ## Checks that are met (R320 to R322) -/

/-- A kind whose operands have scale bytes (R327, R328). -/
def MKind.scaled (kind : MKind) : Bool := decide (kind = .k4) || decide (kind = .scacc)

/-- The runs of tower bytes that a command reads of an operand: its elements, but for `m.scacc`, and its scale bytes. -/
def operandRuns (kind : MKind) (t : Tower) (x : BitVec 512) : List (Nat × Nat) :=
  (if kind = .scacc then [] else opSpans t x) ++ (if kind.scaled then opScales x else [])

section
variable (t : Tower) (x : BitVec 512)

theorem operandRuns_flt : operandRuns .flt t x = opSpans t x := List.append_nil _
theorem operandRuns_int : operandRuns .int t x = opSpans t x := List.append_nil _
theorem operandRuns_k4 : operandRuns .k4 t x = opSpans t x ++ opScales x := rfl
theorem operandRuns_scacc : operandRuns .scacc t x = opScales x := List.nil_append _

end

/-- Of the checks met: the formats fit the accumulator, the region the tile, and both operands are in place. -/
theorem mulCheck_none {kind : MKind} {row0 col0 : Nat} {c : Core} {a b : BitVec 512} (h : mulCheck kind row0 col0 true c a b = none) :
    mFmtOk kind (shFmt a) (shFmt b) c.ctl.acct = true ∧ regionOk c.ctl.acct row0 col0 (opR a) (opR b) = true ∧
      opPlace c.tower kind.scaled a = none ∧ opPlace c.tower kind.scaled b = none := by
  unfold mulCheck at h
  dsimp only at h
  split at h
  · cases h
  next hfmt =>
    split at h
    · cases h
    next hregion =>
      simp only [not_or, not_not] at hfmt
      obtain ⟨-, -, hfmt, -, -⟩ := hfmt
      simp only [List.findSome?_eq_none_iff, List.mem_cons, List.not_mem_nil, or_false, forall_eq_or_imp, forall_eq, id, if_true,
        Option.map_eq_none_iff] at h
      obtain ⟨-, -, ha, hb, -⟩ := h
      exact ⟨hfmt, by simpa using hregion, ha, hb⟩

/-! ## Reading operands without error or poison (R205, R206) -/

/-- Runs of a tower that a read finds without error and without poison. -/
def Tower.CleanRuns (t : Tower) (rs : List (Nat × Nat)) : Prop := ∀ x ∈ rs, (t.scrub x.1 x.2).2 = (0, 0) ∧ t.firstPoison x.1 x.2 = none

/-- Consuming clean runs changes nothing and meets nothing. -/
theorem consumeRuns_clean (owner : CoreId) (rs : List (Nat × Nat)) (s : State) (h : (s.core owner).tower.CleanRuns rs) :
    consumeRuns owner rs s = (s, none) := by
  induction rs with
  | nil => rfl
  | cons r rest ih =>
    obtain ⟨hscrub, hpoison⟩ := h r List.mem_cons_self
    have htouch : s.touchPiece owner { a := windowAddr r.1, len := r.2, at_ := .window r.1 } = s :=
      State.scrubTower_of_clean s owner r.1 r.2 hscrub
    simp only [consumeRuns, htouch, hpoison]
    exact ih fun x hx => h x (List.mem_cons_of_mem _ hx)

/-! ## What a command changes besides its elements -/

/-- A core that differs from another in the engaged tile, its partial plane and flags alone, as far as a command is concerned. -/
structure Core.EngagedOnly (c d : Core) : Prop where
  tower : d.tower = c.tower
  exposedTile : d.vec.tile false = c.vec.tile false
  preds : d.vec.preds = c.vec.preds
  exposed : d.vec.exposed = c.vec.exposed
  gens : d.vec.gens = c.vec.gens
  shapes : d.shapes = c.shapes
  check : d.mtx.check = c.mtx.check
  epi : d.mtx.epi = c.mtx.epi
  window : (d.mtx.window, d.mtx.cmds) = (c.mtx.window, c.mtx.cmds)

section
variable {c d : Core}

theorem Core.engagedOnly_setTile (c : Core) (t : Bank (BitVec 6) (BitVec 1024)) :
    c.EngagedOnly { c with vec := c.vec.setTile true t } :=
  have ⟨htile, hpreds, hexposed, hgens⟩ := c.vec.setTile_true_keeps t
  ⟨rfl, htile, hpreds, hexposed, hgens, rfl, rfl, rfl, rfl⟩

theorem Core.EngagedOnly.raise (h : c.EngagedOnly d) (fl : Fl) : c.EngagedOnly (d.raise fl) :=
  ⟨h.tower, h.exposedTile, h.preds, h.exposed, h.gens, h.shapes, h.check, h.epi, h.window⟩

theorem Core.EngagedOnly.setPlane (h : c.EngagedOnly d) (p : Bank Nat (BitVec 32)) : c.EngagedOnly (d.setPlane p) := by
  unfold Core.setPlane
  split <;> exact ⟨h.tower, h.exposedTile, h.preds, h.exposed, h.gens, h.shapes, h.check, h.epi, h.window⟩

theorem Core.engagedOnly_updRegion (c : Core) (row0 col0 m n : Nat) (f : Nat → Nat → Nat → Nat × Fl) :
    c.EngagedOnly (c.updRegion row0 col0 m n f).1 := by
  obtain ⟨t, ht⟩ := c.updRegion_keeps row0 col0 m n f
  rw [ht]
  exact c.engagedOnly_setTile t

/-- A command changes the engaged tile, its plane and the flags alone (R325 to R329). -/
theorem mApply_engagedOnly (kind : MKind) (row0 col0 : Nat) (mode : Mode) (a b : BitVec 512) (qs : List Nat) (tb : Tower) (c : Core) :
    c.EngagedOnly (mApply kind row0 col0 mode a b qs tb c) := by
  cases kind with
  | flt => exact (c.engagedOnly_updRegion ..).raise _
  | int => exact c.engagedOnly_updRegion ..
  | k4 => exact Core.EngagedOnly.setPlane ⟨rfl, rfl, rfl, rfl, rfl, rfl, rfl, rfl, rfl⟩ _
  | scacc => exact (c.engagedOnly_updRegion ..).raise _
  | zero => exact (c.engagedOnly_setTile []).setPlane []

end

/-! ## A command runs whole and retires (R127, R309, R310) -/

/-- A core whose note of a fault in the window is changed. -/
def Core.noteFault (c : Core) (f : Option Nat) : Core := { c with mtx := { c.mtx with faultAt := f } }

/-- A command that is done leaves at most the note of its fault cleared (R397). -/
theorem markFault_done (k : CoreId) (e : QEntry) (d : Core) (s : State) :
    ∃ f, markFault k e false (s.setCore k d) = s.setCore k (d.noteFault f) := by
  unfold markFault
  split
  · exact ⟨none, State.modCore_modCore s k (fun _ => d) (fun c => c.noteFault none)⟩
  · exact ⟨d.mtx.faultAt, rfl⟩

/-- A command that meets nothing runs all its chunks and is done. -/
theorem mulLoop_done {k : CoreId} {e : QEntry} {fuel n : Nat} {s s' : State} (hn : allChunks e = List.range n)
    (h : runSlice k e (allChunks e) s = .ok s') : mulLoop k e .whole (fuel + 1) false 0 [] s = .done (markFault k e false s') := by
  have hrange : (List.range (allChunks e).length).drop 0 = allChunks e := by simp [hn]
  change (match runSlice k e ((List.range (allChunks e).length).drop 0) s with
    | .ok s' => if false || decide ((allChunks e).length ≤ (allChunks e).length) then Eff.done (markFault k e false s') else .hold _ s'
    | .trap t s' => .fault t 0#64 s'
    | .bad owner off s' => _) = _
  rw [hrange, h]
  exact if_pos (by simp)

section
variable {i : Instr} {kind : MKind} {row0 col0 : Nat} {rm : BitVec 3} (hi : mDesc i = some (kind, row0, col0, rm)) {k : CoreId}
  {cap : Cap} {s : State}
include hi

theorem allChunks_eq : allChunks { ins := i, slots := i.slots, cap := cap } = List.range (chunkCount kind cap.sha) := by
  simp only [allChunks, hi]

/-- A command on a region, its operands in place and clean, forms its elements. -/
theorem runSlice_region (hk : kind ≠ .zero) (qs : List Nat) (ha : opPlace (s.core k).tower kind.scaled cap.sha = none)
    (hb : opPlace (s.core k).tower kind.scaled cap.shb = none)
    (hclean : (s.core k).tower.CleanRuns (operandRuns kind (s.core k).tower cap.sha ++ operandRuns kind (s.core k).tower cap.shb)) :
    runSlice k { ins := i, slots := i.slots, cap := cap } qs s =
      .ok (s.modCore k (fun c => mApply kind row0 col0 (modeOf rm cap.rm) cap.sha cap.shb qs (s.core k).tower c)) := by
  have hca := consumeRuns_clean k _ s fun x hx => hclean x (List.mem_append_left _ hx)
  have hcb := consumeRuns_clean k _ s fun x hx => hclean x (List.mem_append_right _ hx)
  unfold runSlice
  split
  next h => cases hi.symm.trans h
  next h =>
    cases hi.symm.trans h
    exact absurd rfl hk
  next h =>
    cases hi.symm.trans h
    unfold operandRuns MKind.scaled at hca hcb
    unfold MKind.scaled at ha hb
    simp only [bOwner, ha, hb, hca, hcb]

/-- A command whose checks fail traps. -/
theorem mulBody_trap (hk : kind ≠ .zero) (r : Word) {x : Bool} {tr : TrapInfo}
    (hc : mulCheck kind row0 col0 true (s.core k) cap.sha cap.shb = some (x, tr)) : mulBody i k cap r s = .trap tr s := by
  simp [mulBody, mulEntry, hi, bOwner, hk, hc]

/-- A command that starts and meets nothing is done. -/
theorem mulBody_runs (r : Word) (hc : kind = .zero ∨ mulCheck kind row0 col0 true (s.core k) cap.sha cap.shb = none) (g : Core → Core)
    (hrun : ∀ d, d.tower = (s.core k).tower → runSlice k { ins := i, slots := i.slots, cap := cap } (List.range (chunkCount kind cap.sha))
      (s.setCore k d) = .ok ((s.setCore k d).modCore k g)) :
    ∃ f, mulBody i k cap r s = .done (s.setCore k ((g ((s.core k).started { ins := i, slots := i.slots, cap := cap }
      (decide (kind = .scacc)) (decide (kind ≠ .scacc)))).noteFault f)) := by
  let e : QEntry := { ins := i, slots := i.slots, cap := cap }
  let c0 := (s.core k).started e (decide (kind = .scacc)) (decide (kind ≠ .scacc))
  obtain ⟨w, cmds, fa, hc0⟩ := (s.core k).started_eq e (decide (kind = .scacc)) (decide (kind ≠ .scacc))
  have hloop := mulLoop_done (fuel := 1048576) (allChunks_eq hi) (by
    rw [allChunks_eq hi]
    exact hrun c0 (by simp only [c0, hc0]; rfl))
  obtain ⟨f, hf⟩ := markFault_done k e (g c0) s
  have hset : (s.setCore k c0).modCore k g = s.setCore k (g c0) := State.modCore_modCore s k (fun _ => c0) g
  rw [hset, hf] at hloop
  refine ⟨f, Eq.trans ?_ hloop⟩
  obtain rfl | hc := hc
  · simp only [mulBody, mulEntry, hi, if_true, mBegin_eq_started]
    rfl
  · simp only [mulBody, mulEntry, hi, bOwner, decide_true, hc, ite_self, mBegin_eq_started]
    rfl

end

/-! ## A command at its core's slot (R322, R325 to R329) -/

/-- What a command leaves that is formed by g: the core when it started, g done to it, the note of its fault changed at most. -/
structure Ended (s : State) (i : Instr) (closing enters : Bool) (g : Core → Core) (d : Core) : Prop where
  ends : exec i s = .next ((s.setCore s.exe d).engineWent s.exe i) ∧ d.tower = (s.core s.exe).tower ∧
    d.vec.tile false = (s.core s.exe).vec.tile false ∧ d.vec.preds = (s.core s.exe).vec.preds ∧
    d.vec.exposed = (s.core s.exe).vec.exposed ∧ d.vec.gens = (s.core s.exe).vec.gens ∧ d.shapes = (s.core s.exe).shapes ∧
    d.mtx.check = (s.core s.exe).mtx.check ∧ d.mtx.epi = (s.core s.exe).mtx.epi
  window : (d.mtx.window, d.mtx.cmds) = (((s.core s.exe).started ((s.core s.exe).entry i) closing enters).mtx.window,
    ((s.core s.exe).started ((s.core s.exe).entry i) closing enters).mtx.cmds)
  formed : ∃ w cmds f f', d = (g ((s.core s.exe).withWindow w cmds f)).noteFault f'

section
variable {i : Instr} {kind : MKind} {row0 col0 : Nat} {rm : BitVec 3} (hi : mDesc i = some (kind, row0, col0, rm)) {s : State}
  (hexec : exec i s = runE .m i (capOf i (s.core s.exe)) (mulBody i) s) (hgo : s.engineGoes .m i.tok?)
include hi hexec hgo

/-- A command whose checks fail traps. -/
theorem command_traps (hk : kind ≠ .zero) (x : Bool) (tr : TrapInfo) (hc : mulCheck kind row0 col0 true (s.core s.exe)
    (capOf i (s.core s.exe)).sha (capOf i (s.core s.exe)).shb = some (x, tr)) : exec i s = .next (s.engineTraps .m i tr) :=
  hexec.trans (runE_trap .m i _ (mulBody i) s s tr hgo (mulBody_trap hi hk _ hc))

/-- A command that meets nothing retires. -/
theorem command_ends (hc : kind = .zero ∨ mulCheck kind row0 col0 true (s.core s.exe) (capOf i (s.core s.exe)).sha
      (capOf i (s.core s.exe)).shb = none) (g : Core → Core) (hg : ∀ c : Core, c.EngagedOnly (g c))
    (hrun : ∀ d, d.tower = (s.core s.exe).tower → runSlice s.exe ((s.core s.exe).entry i)
      (List.range (chunkCount kind (capOf i (s.core s.exe)).sha)) (s.setCore s.exe d) = .ok ((s.setCore s.exe d).modCore s.exe g)) :
    ∃ d, Ended s i (decide (kind = .scacc)) (decide (kind ≠ .scacc)) g d := by
  obtain ⟨w, cmds, f, hc0⟩ := (s.core s.exe).started_eq ((s.core s.exe).entry i) (decide (kind = .scacc)) (decide (kind ≠ .scacc))
  obtain ⟨f', hbody⟩ : ∃ f', mulBody i s.exe (capOf i (s.core s.exe)) 0#64 s = .done (s.setCore s.exe ((g ((s.core s.exe).started
    ((s.core s.exe).entry i) (decide (kind = .scacc)) (decide (kind ≠ .scacc)))).noteFault f')) := mulBody_runs hi 0#64 hc g hrun
  rw [hc0] at hbody
  obtain ⟨htower, htile, hpreds, hexposed, hgens, hshapes, hcheck, hepi, hwindow⟩ := hg ((s.core s.exe).withWindow w cmds f)
  exact ⟨_, ⟨hexec.trans (runE_done .m i _ (mulBody i) s _ hgo hbody), htower, htile, hpreds, hexposed, hgens, hshapes, hcheck, hepi⟩,
    hc0 ▸ hwindow, w, cmds, f, f', rfl⟩

/-- A command on a region, its checks met and its operands clean, forms its elements and retires. -/
theorem command_ends_region (hk : kind ≠ .zero) (hc : mulCheck kind row0 col0 true (s.core s.exe) (capOf i (s.core s.exe)).sha
      (capOf i (s.core s.exe)).shb = none)
    (hclean : (s.core s.exe).tower.CleanRuns (operandRuns kind (s.core s.exe).tower (capOf i (s.core s.exe)).sha ++
      operandRuns kind (s.core s.exe).tower (capOf i (s.core s.exe)).shb)) :
    ∃ d, Ended s i (decide (kind = .scacc)) (decide (kind ≠ .scacc)) (mApply kind row0 col0 (modeOf rm (capOf i (s.core s.exe)).rm)
      (capOf i (s.core s.exe)).sha (capOf i (s.core s.exe)).shb (List.range (chunkCount kind (capOf i (s.core s.exe)).sha))
      (s.core s.exe).tower) d := by
  obtain ⟨-, -, ha, hb⟩ := mulCheck_none hc
  refine command_ends hi hexec hgo (.inr hc) _ (fun c => mApply_engagedOnly ..) fun d hd => ?_
  have hcore : ((s.setCore s.exe d).core s.exe).tower = (s.core s.exe).tower := by rw [State.core_setCore, hd]
  have h := runSlice_region hi (k := s.exe) (cap := capOf i (s.core s.exe)) (s := s.setCore s.exe d) hk
    (List.range (chunkCount kind (capOf i (s.core s.exe)).sha)) (by rwa [hcore]) (by rwa [hcore]) (by rwa [hcore])
  rwa [hcore] at h

end

section
variable {s : State} {i : Instr} {d : Core} {row0 col0 : Nat} {mode : Mode} {a b : BitVec 512} {closing entering : Bool} {qs : List Nat}

/-- What a command forms, it forms of the core before its start: the window and the note of its fault are no part of it. -/
theorem Core.RegionFormed.of_withWindow {c d : Core} {m n : Nat} {f : Nat → Nat → Nat → Nat × Fl} {w : WindowState}
    {cmds : List QEntry} {q q' : Option Nat} (h : (c.withWindow w cmds q).RegionFormed d row0 col0 m n f) :
    c.RegionFormed (d.noteFault q') row0 col0 m n f :=
  ⟨h.elems, h.plane, h.flags⟩

/-- A command that enters the window (R309). -/
theorem Ended.enters {g : Core → Core} (h : Ended s i false true g d) (t : Option Tok) (ht : i.tok? = t) :
    (d.mtx.window, d.mtx.cmds) =
      if (s.core s.exe).seat.depth ≠ 0#8 then ((s.core s.exe).mtx.window, (s.core s.exe).mtx.cmds)
      else if tokTs t then (.anchored, [(s.core s.exe).entry i])
      else if (s.core s.exe).mtx.window ≠ .anchored then ((s.core s.exe).mtx.window, (s.core s.exe).mtx.cmds)
      else if 48 ≤ (s.core s.exe).mtx.cmds.length then (.overflowed, [])
      else (.anchored, (s.core s.exe).mtx.cmds ++ [(s.core s.exe).entry i]) :=
  h.window.trans (Core.started_enters _ _ t ht)

/-- A command that closes the window (R309). -/
theorem Ended.closes {g : Core → Core} (h : Ended s i true false g d) (t : Option Tok) (ht : i.tok? = t) :
    (d.mtx.window, d.mtx.cmds) =
      if (s.core s.exe).seat.depth ≠ 0#8 then ((s.core s.exe).mtx.window, (s.core s.exe).mtx.cmds)
      else (if tokTs t then .anchored else .none, []) :=
  h.window.trans (Core.begun_closes _ _ t ht)

section
variable (hok : regionOk (s.core s.exe).ctl.acct row0 col0 (opR a) (opR b) = true)
include hok

/-- `m.mma` forms its region (R325). -/
theorem Ended.formed_flt (h : Ended s i closing entering (mApply .flt row0 col0 mode a b qs (s.core s.exe).tower) d) :
    (s.core s.exe).RegionFormed d row0 col0 (opR a) (opR b)
      (mmaFlt (accFmt (s.core s.exe).ctl.acct) mode (s.core s.exe).tower (s.core s.exe).tower a b qs) := by
  obtain ⟨w, cmds, q, q', rfl⟩ := h.formed
  exact (Core.updRegion_formed (c := (s.core s.exe).withWindow w cmds q) hok _).of_withWindow

/-- `m.mma.i` over all its chunks forms its region by the exact sums over K (R325). -/
theorem Ended.formed_int
    (h : Ended s i closing entering (mApply .int row0 col0 mode a b (List.range (chunkCount .int a)) (s.core s.exe).tower) d) :
    (s.core s.exe).RegionFormed d row0 col0 (opR a) (opR b) (fun i j x => ((((x : Int) + ((List.range (opK a)).map fun k =>
      opInt (s.core s.exe).tower a k i * opInt (s.core s.exe).tower b k j).sum) % 2 ^ 32).toNat, 0#6)) := by
  obtain ⟨w, cmds, q, q', rfl⟩ := h.formed
  simp only [← mmaInt_eq]
  exact (Core.updRegion_formed_flagless (c := (s.core s.exe).withWindow w cmds q) hok _ fun _ _ _ => rfl).of_withWindow

/-- `m.scacc` forms its region from the partial plane and the blocks' powers (R328). -/
theorem Ended.formed_scacc (h : Ended s i closing entering (mApply .scacc row0 col0 mode a b qs (s.core s.exe).tower) d) :
    (s.core s.exe).RegionFormed d row0 col0 (opR a) (opR b) (fun i j x =>
      scaccEl mode ((s.core s.exe).planeAt (row0 + i) (col0 + j)) (((opScale (s.core s.exe).tower a i % 64 : Nat) : Int) - 32 +
        (((opScale (s.core s.exe).tower b j % 64 : Nat) : Int) - 32)) x) := by
  obtain ⟨w, cmds, q, q', rfl⟩ := h.formed
  exact (Core.updRegion_formed (c := (s.core s.exe).withWindow w cmds q) hok _).of_withWindow

/-- `m.mma.k4` forms its region of the partial plane, and the tile stays (R327). -/
theorem Ended.formed_k4 (h : Ended s i closing entering (mApply .k4 row0 col0 mode a b qs (s.core s.exe).tower) d)
    (hacct : (s.core s.exe).ctl.acct = 0#2) : d.ctl = (s.core s.exe).ctl ∧ d.vec = (s.core s.exe).vec ∧ ∀ r e, e < 32 →
      d.planeAt r e = if row0 ≤ r ∧ r < row0 + opR a ∧ col0 ≤ e ∧ e < col0 + opR b
        then (mmaK4 (s.core s.exe).tower (s.core s.exe).tower a b (r - row0) (e - col0)).toNat
        else (s.core s.exe).planeAt r e := by
  obtain ⟨w, cmds, q, q', rfl⟩ := h.formed
  have hcols : col0 + opR b ≤ 32 := by
    obtain ⟨-, hcols⟩ := region_inside hok
    rwa [hacct] at hcols
  refine ⟨?_, Core.setPlane_vec .., fun r e he => ?_⟩
  · unfold mApply Core.setPlane Core.noteFault
    dsimp only
    split <;> rfl
  · have hplane (c : Core) : (c.noteFault q').planeAt r e = c.planeAt r e := rfl
    rw [hplane, mApply, Core.planeAt, Core.plane_setPlane, Bank.get_setPlaneRegion _ _ row0 col0 _ hcols r e he, apply_ite BitVec.toNat]
    rfl

end

/-- `m.zero` leaves the engaged tile and its partial plane zero (R329). -/
theorem Ended.formed_zero (h : Ended s i closing entering Core.zeroEngaged d) :
    d.ctl = (s.core s.exe).ctl ∧ ∀ r e, d.engRow r = 0#1024 ∧ d.planeAt r e = 0 := by
  obtain ⟨w, cmds, q, q', rfl⟩ := h.formed
  refine ⟨?_, fun r e => ⟨?_, ?_⟩⟩
  · unfold Core.zeroEngaged Core.setPlane Core.noteFault
    split <;> rfl
  · have htile (c : Core) : (c.noteFault q').engRow r = (c.vec.tile true).get 0#1024 (BitVec.ofNat 6 r) := rfl
    rw [htile, Core.zeroEngaged, Core.setPlane_vec, Vec.tile_setTile]
    rfl
  · have hplane (c : Core) : (c.noteFault q').planeAt r e = (c.plane.get 0#32 (r * 32 + e)).toNat := rfl
    rw [hplane, Core.zeroEngaged, Core.plane_setPlane]
    rfl

end

/-- A multiply that is not ganged runs as its core's next matrix command (R325). -/
theorem runMul_alone (i : Instr) (s : State) (hp : (s.core s.exe).front.pfx = none) :
    runMul i s = runE .m i (capOf i (s.core s.exe)) (mulBody i) s := by
  simp only [runMul, hp]

/-- Settles O41: each command traps or retires by `command_traps` and `command_ends_region`; what it forms is said once for each kind. -/
theorem matrixProducts : Obligations.MatrixProducts := by
  unfold Obligations.MatrixProducts
  intro a b row col rm t s hgo hpfx
  refine ⟨?_, ?_, ?_, ?_, ?_⟩
  · have hi : mDesc (.mMma a b row col rm t) = some (.flt, row.toNat, col.toNat, rm) := rfl
    have hexec := (exec_mMma a b row col rm t s).trans (runMul_alone (.mMma a b row col rm t) s hpfx)
    refine ⟨fun x tr hc => command_traps hi hexec hgo (by decide) x tr hc, fun hc hclean => ?_⟩
    obtain ⟨-, hok, -, -⟩ := mulCheck_none hc
    obtain ⟨d, h⟩ := command_ends_region hi hexec hgo (by decide) hc (by rwa [operandRuns_flt, operandRuns_flt])
    have hf := h.formed_flt hok
    exact ⟨d, h.ends, h.enters t rfl, hf.elems, hf.plane, hf.flags⟩
  · have hi : mDesc (.mMmaI a b row col t) = some (.int, row.toNat, col.toNat, 0#3) := rfl
    have hexec := (exec_mMmaI a b row col t s).trans (runMul_alone (.mMmaI a b row col t) s hpfx)
    refine ⟨fun x tr hc => command_traps hi hexec hgo (by decide) x tr hc, fun hc hclean => ?_⟩
    obtain ⟨-, hok, -, -⟩ := mulCheck_none hc
    obtain ⟨d, h⟩ := command_ends_region hi hexec hgo (by decide) hc (by rwa [operandRuns_int, operandRuns_int])
    have hf := h.formed_int hok
    exact ⟨d, h.ends, h.enters t rfl, hf.elems, hf.plane, hf.flags⟩
  · have hi : mDesc (.mMmaK4 a b row col t) = some (.k4, row.toNat, col.toNat, 0#3) := rfl
    have hexec := (exec_mMmaK4 a b row col t s).trans (runMul_alone (.mMmaK4 a b row col t) s hpfx)
    refine ⟨fun x tr hc => command_traps hi hexec hgo (by decide) x tr hc, fun hc hclean => ?_⟩
    obtain ⟨hfmt, hok, -, -⟩ := mulCheck_none hc
    have hacct : (s.core s.exe).ctl.acct = 0#2 := by
      simp only [mFmtOk, Bool.and_eq_true, decide_eq_true_eq] at hfmt
      obtain ⟨⟨hacct, -⟩, -⟩ := hfmt
      exact hacct
    obtain ⟨d, h⟩ := command_ends_region hi hexec hgo (by decide) hc
      (by rwa [operandRuns_k4, operandRuns_k4, ← List.append_assoc])
    obtain ⟨hctl, hvec, hplane⟩ := h.formed_k4 hok hacct
    exact ⟨d, h.ends, h.enters t rfl, hctl, hvec, fun r e _ he =>
      ⟨fun hin => (hplane r e he).trans (if_pos hin), fun hout => (hplane r e he).trans (if_neg hout)⟩⟩
  · have hi : mDesc (.mScacc a b row col rm t) = some (.scacc, row.toNat, col.toNat, rm) := rfl
    have hexec := exec_mScacc a b row col rm t s
    refine ⟨fun x tr hc => command_traps hi hexec hgo (by decide) x tr hc, fun hc hclean => ?_⟩
    obtain ⟨-, hok, -, -⟩ := mulCheck_none hc
    obtain ⟨d, h⟩ := command_ends_region hi hexec hgo (by decide) hc (by rwa [operandRuns_scacc, operandRuns_scacc])
    have hf := h.formed_scacc hok
    exact ⟨d, h.ends, h.closes t rfl, hf.elems, hf.plane, hf.flags⟩
  · obtain ⟨d, h⟩ := command_ends (i := .mZero t) rfl (exec_mZero t s) hgo (.inl rfl) Core.zeroEngaged
      (fun c => (c.engagedOnly_setTile []).setPlane []) fun _ _ => rfl
    obtain ⟨hctl, hzero⟩ := h.formed_zero
    exact ⟨d, h.ends, h.enters t rfl, hctl, hzero⟩

end Sys2Proof.Machine

/-! Element-wise integer instructions (R135, R160 to R166, R169, R172 to R176, R181): each is `vElem` with its own operation. -/

namespace Sys2Proof.Machine

/-! ## Reads beside no matrix command (R261) -/

section
variable (v : VIn) (h : v.c.mtx.before = []) (r : BitVec 6) (code : BitVec 4)
include h

/-- With no matrix command still writing, an operand's element as a pattern is the same in every read. -/
theorem VIn.pat_now (k e q : Nat) : ((v.for e).at q).pat r code k = (v.for e).pat r code k :=
  congrArg (readPat v.w v.x.sfmt code) (v.el_at_now h r k e q)

/-- With no matrix command still writing, an operand's element as an integer is the same in every read. -/
theorem VIn.int_now (sg : Bool) (k e q : Nat) : ((v.for e).at q).int sg r code k = (v.for e).int sg r code k :=
  congrArg (readInt sg v.w) (v.pat_now h r code k e q)

end

/-! ## Shifts and bit counts of patterns (R173, R175) -/

/-- A pattern of w bits shifted right with copies of its top bit (R173). -/
theorem sarPat_eq {w q : Nat} (m : Nat) (h : q < 2 ^ w) :
    sarPat w q m =
      (((if 2 ^ (w - 1) ≤ q then (q : Int) - 2 ^ w else q) / (2 ^ (min m w) : Int)) % (2 ^ w : Int)).toNat := by
  simp only [sarPat, sextInt, Nat.mod_eq_of_lt h]

/-- The highest set bit of a number other than zero is that of its binary logarithm. -/
theorem setBitsDown_head {w x : Nat} (hx : x ≠ 0) (h : x < 2 ^ w) : (setBitsDown w x).head? = some x.log2 := by
  refine setBitsDown_of_highest ((Nat.log2_lt hx).mpr h) (Nat.testBit_log2 hx) fun j hj _ => Nat.testBit_lt_two_pow ?_
  exact (Nat.log2_lt hx).mp hj

/-- The zero bits above a number's highest set bit. -/
theorem clzN_eq {w x : Nat} (h : x < 2 ^ w) : (clzN w x : Int) = if x = 0 then (w : Int) else (w : Int) - 1 - x.log2 := by
  split
  next h0 => rw [h0, (counts_zero w).1]
  next h0 =>
    have hl : x.log2 < w := (Nat.log2_lt h0).mpr h
    rw [clzN_of_highest (setBitsDown_head h0 h)]
    omega

/-- The index of a number's highest set bit. -/
theorem ffsN_eq {w x : Nat} (h : x < 2 ^ w) : ffsN w x = if x = 0 then w else x.log2 := by
  split
  next h0 => rw [h0, (counts_zero w).2.2]
  next h0 => exact ffsN_of_highest (setBitsDown_head h0 h)

/-- A part of an element is below two to its width (R161). -/
theorem partBits_lt (w : Nat) (code : BitVec 4) (el : Nat) : partBits w code el < 2 ^ (partOf w code).1 :=
  Nat.mod_lt _ (by positivity)

/-- `v.rshr`: the quotient rounded, the flag of the rounding left aside (R176). -/
theorem rshrInt_eq (m : Mode) (z : Int) (n : Nat) :
    rshrInt m z n = match (Val.fin (decide (z < 0)) z.natAbs (-(n : Int)) false).toIntegral m with
      | some q => q.1
      | none => 0 := by
  unfold rshrInt
  cases (Val.fin (decide (z < 0)) z.natAbs (-(n : Int)) false).toIntegral m <;> rfl

/-! ## `v.dp4` (R181) -/

/-- The dot product, byte after byte. -/
theorem dp4Sum_eq (sg : Bool) (acc a b : Nat) :
    dp4Sum sg acc a b =
      (let byte (z q : Nat) : Int := readInt sg 8 (z / 2 ^ (8 * q) % 256)
       readInt sg 32 acc + byte a 0 * byte b 0 + byte a 1 * byte b 1 + byte a 2 * byte b 2 + byte a 3 * byte b 3) := rfl

/-- An instruction that can go runs the same with any body that agrees where it runs. -/
theorem runE_congr {e : Engine} {i : Instr} {cap : Cap} {body body' : Body} {s : State} (h : s.engineGoes e i.tok?)
    (hb : body s.exe cap 0#64 s = body' s.exe cap 0#64 s) : runE e i cap body s = runE e i cap body' s := by
  rw [runE, if_pos (engineGoes_now h), runE, if_pos (engineGoes_now h), hb]

section
variable (d a b : BitVec 6) (p : BitVec 4) (n : BitVec 1) (x : Option VExt) (t : Option Tok) {s : State}
  (h : s.engineGoes .v t)
include h

/-- With 32-bit elements it is an element-wise instruction. -/
theorem exec_vDp4_vElem (hw : accW (s.core s.exe).ctl.acct = 32) :
    exec (.vDp4 d a b p n x t) s = runE .v (.vDp4 d a b p n x t) (capOf (.vDp4 d a b p n x t) (s.core s.exe))
      (vElem d p n (x.getD vextDefault) [] false drawsInt (fun v e _ =>
        .int v.signed (dp4Sum v.signed ((v.at 2).el d e) (v.el a e) ((v.at 1).el b e)))) s :=
  (exec_vDp4 ..).trans (runE_congr h (if_neg (not_not.mpr hw)))

/-- With elements of another width it traps (R165). -/
theorem exec_vDp4_trap (hw : accW (s.core s.exe).ctl.acct ≠ 32) :
    exec (.vDp4 d a b p n x t) s = .next (s.engineTraps .v (.vDp4 d a b p n x t) { code := 0x01#8 }) :=
  (exec_vDp4 ..).trans (runE_trap .v (.vDp4 d a b p n x t) _ _ s s vIllenc h (if_pos hw))

end

/-- Settles O36: each instruction by `exec_vElem_gives`; its second and third operands are read as its first, no matrix command
being still writing, and the counts and shifts are those of the patterns read. -/
theorem vectorInteger : Obligations.VectorInteger := by
  unfold Obligations.VectorInteger
  intro d a b j p n x y t s h w e fits rounds gives ints pats ia ib pa pb part wide shl shr sar ab
  refine ⟨?iadd, ?isub, ?imul, ?imin, ?nmin, ?imax, ?nmax, ?iabs, ?clz, ?popc, ?ffs, ?and, ?or, ?xor, ?not, ?shl, ?shr, ?sar,
    ?shli, ?shri, ?sari, ?fsh, ?rshr, fun hw => ?dp4, fun hw => ?dp4Traps⟩
  case iadd => exact exec_vElem_gives h (exec_vIadd ..) _ fun hb k m => by rw [VIn.int_now _ hb]; rfl
  case isub => exact exec_vElem_gives h (exec_vIsub ..) _ fun hb k m => by rw [VIn.int_now _ hb]; rfl
  case imul => exact exec_vElem_gives h (exec_vImul ..) _ fun hb k m => by rw [VIn.int_now _ hb]; rfl
  case imin => exact exec_vElem_gives h (exec_vImin ..) _ fun hb k m => by rw [VIn.int_now _ hb]; rfl
  case nmin => exact exec_vElem_gives h (exec_vNmin ..) _ fun hb k m => by rw [VIn.int_now _ hb]; rfl
  case imax => exact exec_vElem_gives h (exec_vImax ..) _ fun hb k m => by rw [VIn.int_now _ hb]; rfl
  case nmax => exact exec_vElem_gives h (exec_vNmax ..) _ fun hb k m => by rw [VIn.int_now _ hb]; rfl
  case iabs => exact exec_vElem_gives h (exec_vIabs ..) _ fun _ _ _ => rfl
  case clz => exact exec_vElem_gives h (exec_vClz ..) _ fun _ _ _ => congrArg _ (clzN_eq (partBits_lt ..))
  case popc => exact exec_vElem_gives h (exec_vPopc ..) _ fun _ _ _ => rfl
  case ffs => exact exec_vElem_gives h (exec_vFfs ..) _ fun _ _ _ => by rw [ffsN_eq (partBits_lt ..), Nat.cast_ite]; rfl
  case and => exact exec_vElem_gives h (exec_vAnd ..) _ fun hb k m => by rw [VIn.pat_now _ hb]; rfl
  case or => exact exec_vElem_gives h (exec_vOr ..) _ fun hb k m => by rw [VIn.pat_now _ hb]; rfl
  case xor => exact exec_vElem_gives h (exec_vXor ..) _ fun hb k m => by rw [VIn.pat_now _ hb]; rfl
  case not => exact exec_vElem_gives h (exec_vNot ..) _ fun _ _ _ => rfl
  case shl => exact exec_vElem_gives h (exec_vShl ..) _ fun hb k m => by rw [VIn.pat_now _ hb]; rfl
  case shr => exact exec_vElem_gives h (exec_vShr ..) _ fun hb k m => by rw [VIn.pat_now _ hb]; rfl
  case sar =>
    exact exec_vElem_gives h (exec_vSar ..) _ fun hb k m => by rw [VIn.pat_now _ hb, sarPat_eq _ (VIn.pat_lt ..)]; rfl
  case shli => exact exec_vElem_gives h (exec_vShli ..) _ fun _ _ _ => rfl
  case shri => exact exec_vElem_gives h (exec_vShri ..) _ fun _ _ _ => rfl
  case sari => exact exec_vElem_gives h (exec_vSari ..) _ fun _ _ _ => by rw [sarPat_eq _ (VIn.pat_lt ..)]; rfl
  case fsh => exact exec_vElem_gives h (exec_vFsh ..) _ fun hb k m => by rw [VIn.pat_now _ hb, VIn.pat_now _ hb]; rfl
  case rshr => exact exec_vElem_gives h (exec_vRshr ..) _ fun _ _ _ => by rw [rshrInt_eq]; rfl
  case dp4 =>
    obtain ⟨hw, hfits⟩ := hw
    exact (exec_vElem_gives h (exec_vDp4_vElem d a b p n x t h hw) _ fun hb k m => by
      rw [VIn.el_at_now _ hb, VIn.el_at_now _ hb, dp4Sum_eq]).1 hfits
  case dp4Traps =>
    by_cases hw32 : w = 32
    · have hfits : fits e [] = false := Bool.eq_false_iff.mpr fun hf => hw ⟨hw32, hf⟩
      exact runE_lanes_trap _ _ _ _ _ _ _ _ _ _ h hfits (exec_vDp4_vElem d a b p n x t h hw32)
    · exact exec_vDp4_trap d a b p n x t h hw32

end Sys2Proof.Machine

/-! Vector comparisons and predicate logic (R135, R177, R189): what a predicate register reads after a write, and the word
that each of them writes. -/

namespace Sys2Proof.Machine

/-! ## Predicate registers (R135) -/

/-- A predicate register written other than p0 reads what was written. -/
theorem Vec.pred_setPred_same (v : Vec) {p : BitVec 4} (y : Word) (hp : p ≠ 0#4) : (v.setPred p y).pred p = y := by
  rw [Vec.setPred, if_neg hp, Vec.pred, if_neg hp, Bank.get_set_same]

/-- A write leaves every other predicate register, and a write to p0 leaves them all. -/
theorem Vec.pred_setPred_other (v : Vec) {p r : BitVec 4} (y : Word) (h : r ≠ p ∨ p = 0#4) :
    (v.setPred p y).pred r = v.pred r := by
  by_cases hp : p = 0#4
  · rw [Vec.setPred, if_pos hp]
  · have hr : r ≠ p := h.resolve_right hp
    simp only [Vec.setPred, if_neg hp, Vec.pred, Bank.get_set_ne _ _ _ _ _ hr]

/-- Predicate register 0 reads as all ones. -/
theorem Vec.pred_zero (v : Vec) : v.pred 0#4 = BitVec.allOnes 64 := rfl

/-! ## Words of bits -/

/-- Bit k of a word of bits is its k-th entry. -/
theorem testBit_packBits (bs : List Bool) (k : Nat) : (packBits bs).testBit k = bs.getD k false := by
  induction bs generalizing k with
  | nil => simp [packBits]
  | cons b bs ih =>
    have h : packBits (b :: bs) = Nat.bit b (packBits bs) := by cases b <;> simp [packBits, Nat.bit_val, Nat.add_comm]
    cases k with
    | zero => rw [h, Nat.testBit_bit_zero, List.getD_cons_zero]
    | succ k => rw [h, Nat.testBit_bit_succ, ih, List.getD_cons_succ]

/-- The word made bit by bit below n, and zero from n up. -/
theorem getLsbD_packBits_map (f : Nat → Bool) (n : Nat) {k : Nat} (hk : k < 64) :
    (BitVec.ofNat 64 (packBits ((List.range n).map f))).getLsbD k = if k < n then f k else false := by
  rw [BitVec.getLsbD_ofNat, decide_eq_true hk, Bool.true_and, testBit_packBits, List.getD_eq_getElem?_getD]
  by_cases h : k < n <;> simp [h]

/-- A word with its bits from n up cleared. -/
theorem getLsbD_clearFrom (w : Word) (n : Nat) {k : Nat} (hk : k < 64) :
    (w &&& BitVec.ofNat 64 (2 ^ n - 1)).getLsbD k = (decide (k < n) && w.getLsbD k) := by
  rw [BitVec.getLsbD_and, BitVec.getLsbD_ofNat, decide_eq_true hk, Bool.true_and, Nat.testBit_two_pow_sub_one, Bool.and_comm]

/-- The ones below n. -/
theorem popcN_mod (n : Nat) (w : Word) : popcN n (w.toNat % 2 ^ n) = ((List.range n).filter w.getLsbD).length := by
  refine congrArg List.length (List.filter_congr fun k hk => ?_)
  rw [Nat.testBit_mod_two_pow, decide_eq_true (List.mem_range.mp hk), Bool.true_and]
  rfl

/-! ## Comparisons (R177) -/

section
variable (v : VIn) (h : v.c.mtx.before = []) (r : BitVec 6) (code : BitVec 4) (k q : Nat)
include h

/-- With no matrix command still writing, another operand is read as the first: as a value. -/
theorem VIn.val_at_now : (v.at q).val r code k = v.val r code k := v.val_now h r code k v.out q

/-- The same as a pattern. -/
theorem VIn.pat_at_now : (v.at q).pat r code k = v.pat r code k := v.pat_now h r code k v.out q

/-- The same as an integer. -/
theorem VIn.int_at_now (sg : Bool) : (v.at q).int sg r code k = v.int sg r code k := v.int_now h r code sg k v.out q

end

section
variable {i : Instr} {s : State} (h : s.engineGoes .v i.tok?) {x : VExt} {q p : BitVec 4} {n : BitVec 1}
  {codes : List (BitVec 4)} {f : VIn → Nat → Bool × Fl}
  (he : exec i s = runE .v i (capOf i (s.core s.exe)) (vCmp q p n x codes f) s)
include h he

/-- A comparison, written as any `g` that agrees with it on what the executing core reads: it sets the active bits of its
predicate, keeps the inactive ones below N and clears the others, or traps `ILLENC` when its element format does not take its
operands. -/
theorem exec_vCmp_compares (g : Nat → Bool × Fl) (hg : (s.core s.exe).mtx.before = [] → f (s.vin i x) = g) :
    let v := s.vin i x
    (v.ok codes = true → ∃ y : Word,
      exec i s = .next (s.engineDid (fun c => { c with vec := c.vec.setPred (ppred c.ctl.prb q) y }.raise
        (((List.range v.n).filter (v.active p n)).foldl (fun fl k => fl ||| (g k).2) 0#6)) i) ∧
      ∀ k, k < 64 → y.getLsbD k =
        if k < v.n then (if v.active p n k then (g k).1 else (v.c.vec.pred (ppred v.c.ctl.prb q)).getLsbD k) else false) ∧
    (v.ok codes = false → exec i s = .next (s.engineTraps .v i { code := 0x01#8 })) := by
  intro v
  obtain ⟨-, -, -, -, -, hb, -⟩ := id h
  obtain rfl := hg hb
  refine ⟨fun hok => ⟨_, he.trans (runE_done _ _ _ _ _ _ h (if_neg ?ok)), fun k hk => getLsbD_packBits_map _ _ hk⟩,
    fun hok => he.trans (runE_trap _ _ _ _ _ s vIllenc h (if_pos ?bad))⟩
  case ok => exact (show (!v.ok codes) ≠ true by rw [hok]; decide)
  case bad => exact (show (!v.ok codes) = true by rw [hok]; rfl)

end

/-! ## Predicate logic (R189) -/

section
variable {i : Instr} {s : State} (h : s.engineGoes .v i.tok?) {q a b : BitVec 4} {f : Word → Word → Word}
  (he : exec i s = runE .v i (capOf i (s.core s.exe)) (pLogic q a b f) s)
include h he

/-- Predicate logic works on the bits below N and clears the others. -/
theorem exec_pLogic_bits (g : Nat → Bool) (hg : ∀ k, k < 64 →
      (f ((s.core s.exe).vec.pred (ppred (s.core s.exe).ctl.prb a)) ((s.core s.exe).vec.pred (ppred (s.core s.exe).ctl.prb b))).getLsbD k
        = g k) : ∃ y : Word,
    exec i s = .next (s.engineDid (fun c => { c with vec := c.vec.setPred (ppred c.ctl.prb q) y }.raise 0#6) i) ∧
    ∀ k, k < 64 → y.getLsbD k = (decide (k < accN (s.core s.exe).ctl.acct) && g k) := by
  refine ⟨f ((s.core s.exe).vec.pred (ppred (s.core s.exe).ctl.prb a)) ((s.core s.exe).vec.pred (ppred (s.core s.exe).ctl.prb b)) &&&
    BitVec.ofNat 64 (2 ^ accN (s.core s.exe).ctl.acct - 1), ?_, fun k hk => ?_⟩
  · simp only [State.engineDid, Core.raise, Ctl.raise_none]
    exact he.trans (runE_done _ _ _ _ _ _ h rfl)
  · rw [getLsbD_clearFrom _ _ hk, hg k hk]

end

/-- Settles O38: a comparison by `exec_vCmp_compares`, predicate logic by `exec_pLogic_bits`. -/
theorem predicates : Obligations.Predicates := by
  unfold Obligations.Predicates
  intro q r o a b g p n x t s h c e v P puts compares va vb nan ordered logic
  refine ⟨?feq, ?flt, ?fle, ?ieq, ?ilt, ?nlt, ?and, ?or, ?xor, ?andn, ?not, ?cnt, fun u m y => ⟨?p0, ?other, ?same⟩⟩
  case feq => exact exec_vCmp_compares h (exec_vFeq ..) _ fun hb => funext fun k => by rw [VIn.val_at_now _ hb]; rfl
  case flt => exact exec_vCmp_compares h (exec_vFlt ..) _ fun hb => funext fun k => by rw [VIn.val_at_now _ hb]; rfl
  case fle => exact exec_vCmp_compares h (exec_vFle ..) _ fun hb => funext fun k => by rw [VIn.val_at_now _ hb]; rfl
  case ieq => exact exec_vCmp_compares h (exec_vIeq ..) _ fun hb => funext fun k => by rw [VIn.pat_at_now _ hb]; rfl
  case ilt => exact exec_vCmp_compares h (exec_vIlt ..) _ fun hb => funext fun k => by rw [VIn.int_at_now _ hb]; rfl
  case nlt => exact exec_vCmp_compares h (exec_vNlt ..) _ fun hb => funext fun k => by rw [VIn.int_at_now _ hb]; rfl
  case and => exact exec_pLogic_bits h (exec_pAnd ..) _ fun k _ => BitVec.getLsbD_and
  case or => exact exec_pLogic_bits h (exec_pOr ..) _ fun k _ => BitVec.getLsbD_or
  case xor => exact exec_pLogic_bits h (exec_pXor ..) _ fun k _ => BitVec.getLsbD_xor
  case andn => exact exec_pLogic_bits h (exec_pAndn ..) _ fun k hk => by simp [hk]; rfl
  case not => exact exec_pLogic_bits h (exec_pNot ..) _ fun k hk => by simp [hk]; rfl
  case cnt =>
    rw [← popcN_mod]
    exact (exec_pCnt ..).trans (runE_done _ _ _ _ _ _ h rfl)
  case p0 => exact Vec.pred_zero _
  case other => exact fun m' hm => Vec.pred_setPred_other u y hm
  case same => exact Vec.pred_setPred_same u y

end Sys2Proof.Machine

/-! Folds, joins and the seat status word (R145 to R147, R149 to R151): the seats of a table, and what a `join` leaves. -/

namespace Sys2Proof.Machine

/-! ## Cores and their seats -/

@[simp] theorem seatOf_coreAt (tb : TableId) (x : BitVec 4) : seatOf (coreAt tb x) = x := by
  refine BitVec.eq_of_getLsbD_eq fun i hi => ?_
  have happ : (coreAt tb x).getLsbD i = x.getLsbD i := BitVec.getLsbD_append.trans (by simp [hi])
  simp [seatOf, happ, hi]

theorem tableCores_nodup (tb : TableId) : (tableCores tb).Nodup := by
  refine List.Nodup.map_on (fun i hi j hj hij => ?_) List.nodup_range
  have hx : BitVec.ofNat 4 i = BitVec.ofNat 4 j := by simpa using congrArg seatOf hij
  have := congrArg BitVec.toNat hx
  rw [BitVec.toNat_ofNat, BitVec.toNat_ofNat] at this
  have := List.mem_range.mp hi
  have := List.mem_range.mp hj
  omega

/-- The bits of the seats of a table whose cores are in a state. -/
theorem seatMask_seatsIn (s : State) (tb : TableId) (p : SeatState → Bool) (lo : Nat) :
    seatMask (s.seatsIn tb p) * 2 ^ lo =
      (((List.range 16).filter fun i => p (s.core (coreAt tb (BitVec.ofNat 4 i))).seat.st).map fun i => 2 ^ (lo + i)).sum := by
  have hsum (ks : List CoreId) : seatMask ks = (ks.map fun k => 2 ^ (seatOf k).toNat).sum := by
    rw [seatMask, List.sum_eq_foldl, List.foldl_map]
  rw [hsum, State.seatsIn, tableCores, List.filter_map, List.map_map, ← List.sum_map_mul_right]
  refine congrArg List.sum (List.map_congr_left fun i hi => ?_)
  have hi : i < 16 := List.mem_range.mp (List.mem_of_mem_filter hi)
  simp [Nat.mod_eq_of_lt hi, Nat.pow_add, Nat.mul_comm]

/-- The seat status word (R151). -/
theorem seatWord_eq (s : State) (k : CoreId) : seatWord s k =
    (let x := (s.core k).seat
     let tb := tableOf k
     let ones (p : SeatState → Bool) (lo : Nat) : Nat :=
       (((List.range 16).filter fun i => p (s.core (coreAt tb (BitVec.ofNat 4 i))).seat.st).map fun i => 2 ^ (lo + i)).sum
     BitVec.ofNat 64 (k.toNat % 16 + (if x.st = .seated then 0 else 16) + (if s.head tb = some k then 64 else 0)
       + 128 * x.stack.length + 2048 * x.topCode + ones (fun st => decide (st = .seated)) 16
       + ones (fun st => decide (st = .folded) || decide (st = .waiting)) 32)) := by
  have hseat : (seatOf k).toNat = k.toNat % 16 := by simp [seatOf]
  simp only [seatWord, State.seated, State.folded, seatMask_seatsIn, hseat, Nat.mul_comm _ 128, Nat.mul_comm _ 2048]

/-! ## A control instruction that has retired -/

theorem State.core_went (s : State) (k : CoreId) (t : Option Tok) : (s.went k t).core k =
    { s.core k with tok := ((s.core k).tok.pop t).push t, front := (s.core k).front.advance } := by
  simp [State.went]

theorem State.core_went_ne (s : State) {k k' : CoreId} (t : Option Tok) (h : k' ≠ k) : (s.went k t).core k' = s.core k' := by
  simp [State.went, State.core_modCore_ne _ _ _ _ h]

@[simp] theorem State.went_tables (s : State) (k : CoreId) (t : Option Tok) : (s.went k t).tables = s.tables := by
  simp [State.went]

@[simp] theorem State.table_went (s : State) (k : CoreId) (t : Option Tok) (tb : TableId) : (s.went k t).table tb = s.table tb := by
  simp [State.table]

/-! ## Join entries (R145) -/

/-- A join stack's top accepts an id when it is that id or the any-join entry. -/
theorem Seat.accepts_iff (x : Seat) (j : BitVec 4) :
    x.accepts j = true ↔ x.stack.getLast? = some (.id j) ∨ x.stack.getLast? = some .any := by
  unfold Seat.accepts Seat.top
  cases x.stack.getLast? with
  | none => simp
  | some e => cases e <;> simp [JoinEntry.accepts]

/-- A pop when the top is exactly j leaves the rest of the seat. -/
theorem Seat.stack_popIf (x : Seat) (j : BitVec 4) :
    (x.popIf j).stack = if x.stack.getLast? = some (.id j) then x.stack.dropLast else x.stack := by
  unfold Seat.popIf Seat.top
  split <;> rfl

@[simp] theorem Seat.n_popIf (x : Seat) (j : BitVec 4) : (x.popIf j).n = x.n := by
  unfold Seat.popIf
  split <;> rfl

@[simp] theorem Seat.st_popIf (x : Seat) (j : BitVec 4) : (x.popIf j).st = x.st := by
  unfold Seat.popIf
  split <;> rfl

/-! ## A table's seats when one core's seat keeps its state -/

section
variable {s u : State} {k : CoreId} (ho : ∀ k', k' ≠ k → u.core k' = s.core k') (hk : (u.core k).seat.st = (s.core k).seat.st)
include ho hk

theorem State.seatsIn_of_others (tb : TableId) (p : SeatState → Bool) : u.seatsIn tb p = s.seatsIn tb p := by
  refine List.filter_congr fun k' _ => ?_
  by_cases h : k' = k
  · rw [h, hk]
  · rw [ho k' h]

theorem State.noPending_of_others (hs : (s.core k).seat.st ≠ .folded) (tb : TableId) (j : BitVec 4) :
    u.noPending tb j = s.noPending tb j := by
  unfold State.noPending
  rw [State.seatsIn_of_others ho hk]
  refine congrArg (!·) (Bool.eq_iff_iff.mpr ?_)
  simp only [List.any_eq_true]
  refine exists_congr fun k' => and_congr_right fun hk' => ?_
  rw [ho k' fun h => hs (h ▸ of_decide_eq_true (List.mem_filter.mp hk').2)]

end

/-! ## Re-seating cores -/

section
variable (g : Seat → Seat)

theorem State.core_modSeat (s : State) (k k' : CoreId) :
    (s.modSeat k g).core k' = if k' = k then { s.core k with seat := g (s.core k).seat } else s.core k' := by
  split
  next h => rw [h]; exact State.core_modCore ..
  next h => exact State.core_modCore_ne _ _ _ _ h

/-- Changing the seats of several cores changes each of them once. -/
theorem State.core_foldl_modSeat (s : State) {ks : List CoreId} (hks : ks.Nodup) (k' : CoreId) :
    (ks.foldl (fun s k => s.modSeat k g) s).core k' =
      if k' ∈ ks then { s.core k' with seat := g (s.core k').seat } else s.core k' := by
  induction ks generalizing s with
  | nil => rfl
  | cons k ks ih =>
    obtain ⟨hk, hks⟩ := List.nodup_cons.mp hks
    rw [List.foldl_cons, ih _ hks, State.core_modSeat]
    by_cases h : k' = k
    · subst h
      simp [hk]
    · simp [h]

end

/-! ## `join` (R146, R147, R150) -/

/-- The cores that a completed stream join at x with id j re-seats. -/
def State.joiners (s : State) (tb : TableId) (x : Pc) (j : BitVec 4) : List CoreId :=
  (s.waiting tb).filter fun k => decide ((s.core k).front.pc = x) && (s.core k).seat.accepts j

/-- What a completed stream join leaves: its cores popped and seated behind the stream's latest bundle, whose successor is the
next bundle (R146). -/
def State.joinedUp (s : State) (tb : TableId) (x : Pc) (j : BitVec 4) : State :=
  ((s.joiners tb x j).foldl (fun u k => u.modSeat k fun y => { y.pop with st := .seated, n := (s.table tb).f }) s).setTable tb
    { s.table tb with join := none, succ := some (x + 1#51) }

/-- A stream join that can complete does. -/
theorem joinTry_completes {tb : TableId} {s : State} {x : Pc} {j : BitVec 4} {k : CoreId}
    (hj : (s.table tb).join = some (x, j)) (hh : s.head tb = some k) (hd : (s.core k).front.joined = true)
    (hx : (s.core k).front.pc = x) (hn : (s.core k).seat.n = (s.table tb).f) (hs : (s.table tb).succ = none)
    (hp : s.noPending tb j = true) : joinTry tb s = s.joinedUp tb x j := by
  unfold joinTry
  simp only [hj, hh, hd, hx, hn, hs, hp]
  simp [State.joinedUp, State.joiners]

/-- The parts of a core that a completed join re-seats, and the others. -/
theorem State.core_joinedUp (s : State) (tb : TableId) (x : Pc) (j : BitVec 4) (k : CoreId) :
    (s.joinedUp tb x j).core k = if k ∈ s.joiners tb x j then
      { s.core k with seat := { (s.core k).seat.pop with st := .seated, n := (s.table tb).f } } else s.core k := by
  have hks : (s.joiners tb x j).Nodup := List.Nodup.filter _ (List.Nodup.filter _ (tableCores_nodup tb))
  rw [State.joinedUp, State.core_setTable]
  exact State.core_foldl_modSeat _ s hks k

theorem State.front_joinedUp (s : State) (tb : TableId) (x : Pc) (j : BitVec 4) (k : CoreId) :
    ((s.joinedUp tb x j).core k).front = (s.core k).front := by
  rw [State.core_joinedUp]
  split <;> rfl

theorem State.tok_joinedUp (s : State) (tb : TableId) (x : Pc) (j : BitVec 4) (k : CoreId) :
    ((s.joinedUp tb x j).core k).tok = (s.core k).tok := by
  rw [State.core_joinedUp]
  split <;> rfl

theorem State.table_joinedUp (s : State) (tb : TableId) (x : Pc) (j : BitVec 4) :
    (s.joinedUp tb x j).table tb = { s.table tb with join := none, succ := some (x + 1#51) } :=
  State.table_setTable ..

/-- A seated core behind a completed join only pops an entry that is exactly its id. -/
theorem joinSeated_behind {j : BitVec 4} {s : State} {k : CoreId}
    (hs : ((s.table (tableOf k)).successor (s.core k).seat.n).isSome = true) : joinSeated k j true s =
      .done ((s.modSeat k fun y => y.popIf j).modCore k fun y => { y with front := { y.front with pend := .join } }) := by
  have hlatest : ¬((s.modSeat k fun y => y.popIf j).head (tableOf k) = some k ∧ (s.core k).seat.n = (s.table (tableOf k)).f ∧
      (s.table (tableOf k)).succ = none) := by
    rintro ⟨-, hn, hsucc⟩
    simp [Table.successor, hn, hsucc] at hs
  have ht : (s.modSeat k fun y => y.popIf j).table (tableOf k) = s.table (tableOf k) := rfl
  simp only [joinSeated, if_true, ht, if_neg hlatest, if_pos hs]

/-- The stream's join noted by its head seat, which has executed its slot and popped its entry (R146, R150). -/
def State.joinNoted (s : State) (k : CoreId) (j : BitVec 4) : State :=
  markStarted k ((s.modSeat k fun y => y.popIf j).setTable (tableOf k)
    { s.table (tableOf k) with join := some ((s.core k).front.pc, j) })

section
variable {s : State} {k : CoreId} {j : BitVec 4}

theorem State.core_joinNoted : (s.joinNoted k j).core k =
    { s.core k with seat := (s.core k).seat.popIf j, front := { (s.core k).front with started := true } } := by
  simp [State.joinNoted, markStarted, State.modSeat]

theorem State.core_joinNoted_ne {k' : CoreId} (h : k' ≠ k) : (s.joinNoted k j).core k' = s.core k' := by
  simp [State.joinNoted, markStarted, State.modSeat, State.core_modCore_ne _ _ _ _ h]

theorem State.table_joinNoted : (s.joinNoted k j).table (tableOf k) =
    { s.table (tableOf k) with join := some ((s.core k).front.pc, j) } := by
  simp [State.joinNoted, markStarted]

theorem State.seatsIn_joinNoted (tb : TableId) (p : SeatState → Bool) : (s.joinNoted k j).seatsIn tb p = s.seatsIn tb p :=
  State.seatsIn_of_others (fun _ => State.core_joinNoted_ne) (by simp [State.core_joinNoted]) tb p

variable (hst : (s.core k).seat.st = .seated) (hh : s.head (tableOf k) = some k)
  (hn : (s.core k).seat.n = (s.table (tableOf k)).f) (hs : (s.table (tableOf k)).succ = none)
  (hp : s.noPending (tableOf k) j = true) {t : Option Tok}
  (hi : (s.core k).front.item.map (fun it => it.ins) = some (.join j t))
include hst hh hn hs hp hi

/-- The head seat's join at the stream's latest bundle completes at once when no core is pending. -/
theorem joinSeated_head : joinSeated k j true s =
    .done (((s.joinNoted k j).joinedUp (tableOf k) (s.core k).front.pc j).modCore k
      fun y => { y with front := { y.front with pend := .join } }) := by
  have hjoined : ((s.joinNoted k j).core k).front.joined = true := by
    obtain ⟨it, hit, hins⟩ := Option.map_eq_some_iff.mp hi
    have hitem : ({ (s.core k).front with started := true } : Front).item = some it := hit
    simp [State.core_joinNoted, Front.joined, hitem, hins]
  have hnone : (s.joinNoted k j).noPending (tableOf k) j = true := by
    rw [State.noPending_of_others (fun _ => State.core_joinNoted_ne) (by simp [State.core_joinNoted]) (by rw [hst]; decide), hp]
  have hnow : joinTry (tableOf k) (s.joinNoted k j) = (s.joinNoted k j).joinedUp (tableOf k) (s.core k).front.pc j :=
    joinTry_completes (by rw [State.table_joinNoted]) ((congrArg List.head? (State.seatsIn_joinNoted _ _)).trans hh) hjoined
      (by rw [State.core_joinNoted]) (by simp [State.core_joinNoted, State.table_joinNoted, hn])
      (by rw [State.table_joinNoted]; exact hs) hnone
  have hfixed : (((s.joinNoted k j).joinedUp (tableOf k) (s.core k).front.pc j).table (tableOf k)).successor (s.core k).seat.n =
      some ((s.core k).front.pc + 1#51) := by
    simp [State.joinedUp, State.table_joinNoted, Table.successor, hn]
  have hhead : (s.modSeat k fun y => y.popIf j).head (tableOf k) = some k :=
    (congrArg List.head? (State.seatsIn_of_others (fun _ => State.core_modCore_ne _ _ _ _) (by simp) _ _)).trans hh
  have hat : (s.modSeat k fun y => y.popIf j).head (tableOf k) = some k ∧
      (s.core k).seat.n = ((s.modSeat k fun y => y.popIf j).table (tableOf k)).f ∧
      ((s.modSeat k fun y => y.popIf j).table (tableOf k)).succ = none := ⟨hhead, hn, hs⟩
  have hjoin : joinSeated k j true s =
      (let u := joinTry (tableOf k) (s.joinNoted k j)
       if ((u.table (tableOf k)).successor (s.core k).seat.n).isSome then
         .done (u.modCore k fun y => { y with front := { y.front with pend := .join } })
       else .hold 0#64 u) := by
    unfold joinSeated
    simp only [if_true]
    rw [if_pos hat]
    rfl
  rw [hjoin, hnow]
  exact if_pos (by rw [hfixed]; rfl)

end

section
variable {j : BitVec 4} {t : Option Tok} {s : State} (h : s.goes t)
include h

/-- A folded core's join whose id its stack's top does not accept traps `JOINMIS` (R147). -/
theorem exec_join_refused (hst : (s.core s.exe).seat.st = .folded) (ha : (s.core s.exe).seat.accepts j = false) :
    exec (.join j t) s =
      .next (s.traps { code := 0x19#8, addr := BitVec.ofNat 64 (j.toNat + 16 * (s.core s.exe).seat.topCode) }) := by
  refine runC_trap t (joinBody j) s s _ h ?_
  simp only [joinBody, hst]
  exact if_pos (by rw [ha]; rfl)

/-- A folded core's join waits while its table has seated cores (R147). -/
theorem exec_join_waits (hst : (s.core s.exe).seat.st = .folded) (ha : (s.core s.exe).seat.accepts j = true)
    (hs : s.seated (tableOf s.exe) ≠ []) :
    exec (.join j t) s = .next ((s.modSeat s.exe fun y => { y with st := .waiting }).waits t) := by
  have hv : s.vacant (tableOf s.exe) = false := by
    rw [State.vacant, List.isEmpty_eq_false_iff.mpr hs, Bool.false_and]
  have hbody : joinBody j s.exe s = .hold 0#64 (s.modSeat s.exe fun y => { y with st := .waiting }) := by
    simp [joinBody, hst, ha, hv]
  exact (runC_goes t (joinBody j) s h).trans (by rw [hbody]; rfl)

/-- A seated core's join that can go does its part as one that has not started. -/
theorem joinBody_seated (hst : (s.core s.exe).seat.st = .seated) : joinBody j s.exe s = joinSeated s.exe j true s := by
  obtain ⟨-, hstarted, -⟩ := h
  simp only [joinBody, hst, hstarted, Bool.not_false]

/-- A seated core behind a completed join goes on, its entry popped when it is exactly the id. -/
theorem exec_join_behind (hst : (s.core s.exe).seat.st = .seated)
    (hs : ((s.table (tableOf s.exe)).successor (s.core s.exe).seat.n).isSome = true) : exec (.join j t) s =
      .next (s.did (fun c => { c with seat := c.seat.popIf j, front := { c.front with pend := .join } }) t) := by
  refine (runC_done t (joinBody j) s _ h ((joinBody_seated h hst).trans (joinSeated_behind hs)) (by simp [State.modSeat])).trans ?_
  rw [State.modSeat, State.modCore_modCore]
  rfl

/-- The head seat's join at the stream's latest bundle completes at once when no core is pending. -/
theorem exec_join_head (hst : (s.core s.exe).seat.st = .seated) (hh : s.head (tableOf s.exe) = some s.exe)
    (hn : (s.core s.exe).seat.n = (s.table (tableOf s.exe)).f) (hs : (s.table (tableOf s.exe)).succ = none)
    (hp : s.noPending (tableOf s.exe) j = true)
    (hi : (s.core s.exe).front.item.map (fun it => it.ins) = some (.join j t)) : exec (.join j t) s =
      .next ((((s.joinNoted s.exe j).joinedUp (tableOf s.exe) s.here j).modCore s.exe
        fun c => { c with front := { c.front with pend := .join } }).went s.exe t) := by
  refine runC_done t (joinBody j) s _ h ((joinBody_seated h hst).trans (joinSeated_head hst hh hn hs hp hi)) ?_
  rw [State.core_modCore, State.tok_joinedUp, State.core_joinNoted]

end

/-- Settles O25: the seat word by `seatWord_eq`, the cases of a join by the `exec_join` lemmas. -/
theorem foldAndSeat : Obligations.FoldAndSeat := by
  unfold Obligations.FoldAndSeat
  refine ⟨fun j d t s h => ⟨?fold, ?seat⟩, fun j t s h => ⟨fun hst hno => ?refused, fun hst hfit hs => ?waits,
    fun hst hs => ?behind, fun hst hh hn hs hp hi => ?head⟩⟩
  case fold => exact runC_done t (foldBody j) s _ h rfl (by simp)
  case seat =>
    refine (runC_done t (seatBody d) s _ h rfl (by simp [State.setReg])).trans ?_
    rw [seatWord_eq]
    rfl
  case refused =>
    exact exec_join_refused h hst (Bool.eq_false_iff.mpr fun ha => hno ((Seat.accepts_iff _ _).mp ha))
  case waits =>
    refine ⟨_, exec_join_waits h hst ((Seat.accepts_iff _ _).mpr hfit) hs, ?_, ?_, ?_, ?_, fun k' hk' => ?_, rfl⟩
    · simp [State.waits, State.modSeat]
    · simp [State.waits, State.modSeat]
    · simp [State.waits, State.modSeat]
    · simp [State.waits, State.modSeat]
    · exact (State.core_modCore_ne _ _ _ _ hk').trans (State.core_modCore_ne _ _ _ _ hk')
  case behind =>
    refine ⟨_, exec_join_behind h hst hs, ?_, ?_, ?_, ?_, fun k' hk' => ?_⟩
    · simp [State.did, State.core_went, Seat.stack_popIf]
    · simp [State.did, State.core_went, Front.advance]
    · simp [State.did, State.core_went, Front.advance]
    · simp [State.did]
    · exact (State.core_went_ne _ _ hk').trans (State.core_modCore_ne _ _ _ _ hk')
  case head =>
    refine ⟨_, exec_join_head h hst hh hn hs hp hi, ?_, ?_, ?_, ?_, fun k' hk' hpc ha => ?_⟩
    · rw [State.table_went, State.table_modCore, State.table_joinedUp]
    · rw [State.table_went, State.table_modCore, State.table_joinedUp]
    · rw [State.core_went, State.core_modCore]
      rfl
    · rw [State.core_went, State.core_modCore]
      exact congrArg Front.next (State.front_joinedUp ..) |>.trans (by rw [State.core_joinNoted])
    · have hne : k' ≠ s.exe := by
        rintro rfl
        have hwait : (s.core s.exe).seat.st = .waiting := of_decide_eq_true (List.mem_filter.mp hk').2
        rw [hst] at hwait
        exact absurd hwait (by decide)
      have hmem : k' ∈ (s.joinNoted s.exe j).joiners (tableOf s.exe) s.here j := by
        rw [State.joiners, List.mem_filter, State.waiting, State.seatsIn_joinNoted, State.core_joinNoted_ne hne, hpc, ha]
        exact ⟨hk', by simp⟩
      rw [State.core_went_ne _ _ hne, State.core_modCore_ne _ _ _ _ hne, State.core_joinedUp, if_pos hmem,
        State.core_joinNoted_ne hne, State.table_joinNoted]
      exact ⟨rfl, rfl, rfl⟩

end Sys2Proof.Machine

/-! Fences and barriers (R157, R235, R251, R257, R275 to R277): when they wait, and whom a barrier releases. -/

namespace Sys2Proof.Machine

/-! ## The bytes that synchronisation leaves -/

theorem State.SameBytes.trans {s u v : State} (h : s.SameBytes u) (h' : u.SameBytes v) : s.SameBytes v where
  tower k o := (h'.tower k o).trans (h.tower k o)
  tier far o := (h'.tier far o).trans (h.tier far o)
  host a := (h'.host a).trans (h.host a)
  rom a := (h'.rom a).trans (h.rom a)

theorem State.SameBytes.refl (s : State) : s.SameBytes s := ⟨fun _ _ => rfl, fun _ _ => rfl, fun _ => rfl, fun _ => rfl⟩

theorem State.sameBytes_performed (s : State) (k : CoreId) : s.SameBytes (s.performed k) :=
  ⟨fun _ _ => rfl, fun _ _ => rfl, fun _ => rfl, fun _ => rfl⟩

/-- A control instruction that retires leaves every byte. -/
theorem State.sameBytes_went (s : State) (k : CoreId) (t : Option Tok) : s.SameBytes (s.went k t) := by
  refine State.SameBytes.trans (u := performedBy k t s) ?_ (State.sameBytes_setCore _ k _ rfl)
  obtain h | h | h | h := performedBy_cases k t s <;> rw [h] <;>
    exact ⟨fun _ _ => rfl, fun _ _ => rfl, fun _ => rfl, fun _ => rfl⟩

/-! ## Fences (R235, R251, R275, R277) -/

/-- With no stack in self-refresh a fence waits for its core's accesses alone. -/
theorem State.fenceWaits_of_quiet {s : State} (hq : ∀ n, (s.stack n).selfRefresh = false) (k : CoreId) (sc : BitVec 4) :
    s.fenceWaits k sc = s.outstanding k := by
  simp [State.fenceWaits, hq]

theorem State.fenceWaits_of_outstanding {s : State} {k : CoreId} (h : s.outstanding k = true) (sc : BitVec 4) :
    s.fenceWaits k sc = true := by
  rw [State.fenceWaits, h, Bool.true_or]

/-- Below `.die` a fence covers no stack. -/
theorem State.fenceWaits_of_lt (s : State) (k : CoreId) {sc : BitVec 4} (h : sc.toNat < 4) :
    s.fenceWaits k sc = s.outstanding k := by
  simp [State.fenceWaits, scopeStacks, h]

/-- The stacks of a scope: its die's at `.die`, all above. -/
theorem mem_scopeStacks {k : CoreId} {sc : BitVec 4} {n : StackId}
    (h : 5 ≤ sc.toNat ∨ (sc = 4#4 ∧ n.extractLsb' 0 3 = dieOf k)) : n ∈ scopeStacks k sc := by
  obtain h | ⟨rfl, h⟩ := h
  · have h4 : sc ≠ 4#4 := by
      rintro rfl
      exact absurd h (by decide)
    rw [scopeStacks, if_neg (by omega), if_neg h4]
    exact List.mem_map.mpr ⟨n.toNat, List.mem_range.mpr n.isLt, by simp⟩
  · rw [scopeStacks, if_neg (by decide), if_pos rfl, ← h]
    clear h
    revert n
    decide

theorem State.fenceWaits_of_selfRefresh {s : State} {k : CoreId} {sc : BitVec 4} {n : StackId}
    (hn : (s.stack n).selfRefresh = true) (h : 5 ≤ sc.toNat ∨ (sc = 4#4 ∧ n.extractLsb' 0 3 = dieOf k)) :
    s.fenceWaits k sc = true := by
  rw [State.fenceWaits, List.any_eq_true.mpr ⟨n, mem_scopeStacks h, hn⟩, Bool.or_true]

section
variable {a b : BitVec 5} {sc : BitVec 4} {t : Option Tok} {s : State} (h : s.goes t)
include h

/-- A fence that waits has its tokens popped. -/
theorem exec_fence_waits (hw : s.fenceWaits s.exe sc = true) : exec (.fence sc t) s = .next (s.waits t) :=
  (runC_goes t (fenceBody sc) s h).trans (by rw [fenceBody, if_pos hw]; rfl)

/-- A fence that ends has its core's stores performed. -/
theorem exec_fence_ends (hw : s.fenceWaits s.exe sc = false) : exec (.fence sc t) s = .next ((s.performed s.exe).went s.exe t) :=
  runC_done t (fenceBody sc) s _ h (if_neg (by rw [hw]; decide)) rfl

/-- `iflush` waits as a fence of scope `.sys`. -/
theorem exec_iflush_waits (hw : s.fenceWaits s.exe 8#4 = true) : exec (.iflush a b t) s = .next (s.waits t) :=
  (runC_goes t (iflushBody a b) s h).trans (by rw [iflushBody, if_pos hw]; rfl)

/-- `iflush` that ends flushes what it reaches. -/
theorem exec_iflush_ends (hw : s.fenceWaits s.exe 8#4 = false) {u : State}
    (hu : flushCode s.exe (s.val a).toNat (s.val b).toNat (s.performed s.exe) = u) (ht : (u.core s.exe).tok = (s.core s.exe).tok) :
    exec (.iflush a b t) s = .next (u.went s.exe t) :=
  runC_done t (iflushBody a b) s _ h ((if_neg (by rw [hw]; decide)).trans (congrArg Eff.done hu)) ht

end

/-! ## Releasing the participants of a barrier (R157) -/

/-- A core that has arrived at b and is released from it. -/
def Core.freed (c : Core) (b : BitVec 3 × BitVec 4) : Core :=
  { c with arrived := c.arrived.filter fun y => decide (y ≠ b), released := b :: c.released }

theorem Core.freed_arrived (c : Core) (b : BitVec 3 × BitVec 4) : (c.freed b).arrived.contains b = false := by
  simp [Core.freed]

theorem Core.freed_released (c : Core) (b : BitVec 3 × BitVec 4) : (c.freed b).released.contains b = true := by
  simp [Core.freed]

section
variable (p : Parties) (b : BitVec 3 × BitVec 4) (s : State)

/-- The core c takes part and has arrived. -/
def Parties.arrivedAt (c : CoreId) : Bool := p.here s c && (s.core c).arrived.contains b

/-- Beside no suspended context that takes part, releasing at a core frees the core when it has arrived. -/
theorem Parties.release_eq {c : CoreId} (h : ∀ x ∈ s.launch.suspended, p.saved c x = false) :
    p.release b s c = if p.arrivedAt b s c then s.modCore c (·.freed b) else s := by
  unfold Parties.release Parties.arrivedAt
  simp only []
  rw [if_neg]
  · rfl
  · rw [Bool.not_eq_true, List.any_eq_false]
    intro x hx
    rw [h x]
    · decide
    · split at hx <;> exact hx

/-- Releasing at several cores frees each that has arrived, once, and leaves every byte. -/
theorem Parties.foldl_release (cs : List CoreId) (h : ∀ c ∈ cs, ∀ x ∈ s.launch.suspended, p.saved c x = false) :
    (∀ c, (cs.foldl (p.release b) s).core c =
      if c ∈ cs ∧ p.arrivedAt b s c = true then (s.core c).freed b else s.core c) ∧
    s.SameBytes (cs.foldl (p.release b) s) := by
  induction cs generalizing s with
  | nil => exact ⟨fun c => by simp, .refl s⟩
  | cons c0 cs ih =>
    rw [List.foldl_cons, p.release_eq b s (h c0 List.mem_cons_self)]
    have hcs : ∀ c ∈ cs, ∀ x ∈ s.launch.suspended, p.saved c x = false := fun c hc => h c (List.mem_cons_of_mem _ hc)
    by_cases h0 : p.arrivedAt b s c0 = true
    · rw [if_pos h0]
      obtain ⟨hcore, hsame⟩ := ih (s.modCore c0 (·.freed b)) hcs
      refine ⟨fun c => ?_, (State.sameBytes_setCore s c0 ((s.core c0).freed b) rfl).trans hsame⟩
      rw [hcore c]
      by_cases hc : c = c0
      · subst hc
        have hgone : p.arrivedAt b (s.modCore c (·.freed b)) c = false := by
          rw [Parties.arrivedAt, State.core_modCore, Core.freed_arrived, Bool.and_false]
        simp [hgone, h0]
      · have hsame : p.arrivedAt b (s.modCore c0 (·.freed b)) c = p.arrivedAt b s c := by
          rw [Parties.arrivedAt, State.core_modCore_ne _ _ _ _ hc]
          rfl
        simp [hsame, State.core_modCore_ne _ _ _ _ hc, hc]
    · rw [if_neg h0]
      obtain ⟨hcore, hsame⟩ := ih s hcs
      refine ⟨fun c => ?_, hsame⟩
      rw [hcore c]
      by_cases hc : c = c0
      · subst hc
        simp [h0]
      · simp [hc]

/-! ## When every participant has arrived (R157, R457) -/

/-- Beside no suspended context that takes part, a barrier is full when each core that takes part and is not out has arrived. -/
theorem Parties.full_of (h : ∀ c ∈ p.cores, p.here s c = true → (s.core c).seat.st ≠ .out → (s.core c).arrived.contains b = true)
    (hs : ∀ c ∈ p.cores, ∀ x ∈ s.launch.suspended, p.saved c x = false) : p.full s b = true := by
  refine List.all_eq_true.mpr fun c hc => List.all_eq_true.mpr fun x hx => ?_
  have hnone : s.launch.suspended.filter (p.saved c) = [] := by
    rw [List.filter_eq_nil_iff]
    exact fun x hx => by rw [hs c hc x hx]; decide
  rw [Parties.arrivals, hnone, List.filterMap_nil, List.append_nil] at hx
  split at hx
  next hin =>
    rw [Bool.and_eq_true, decide_eq_true_eq] at hin
    rw [List.mem_singleton.mp hx]
    exact h c hc hin.1 hin.2
  next => exact absurd hx List.not_mem_nil

/-- A barrier is not full while a core that takes part, and is not out, has not arrived. -/
theorem Parties.not_full {c : CoreId} (hc : c ∈ p.cores) (hh : p.here s c = true) (hst : (s.core c).seat.st ≠ .out)
    (ha : (s.core c).arrived.contains b = false) : p.full s b = false := by
  refine Bool.eq_false_iff.mpr fun hf => ?_
  have hin : (p.here s c && decide ((s.core c).seat.st ≠ .out)) = true := by rw [hh, decide_eq_true hst]; rfl
  have := List.all_eq_true.mp (List.all_eq_true.mp hf c hc) false (by
    rw [Parties.arrivals, if_pos hin, ha]
    exact List.mem_append_left _ (List.mem_singleton.mpr rfl))
  exact absurd this (by decide)

end

/-- A pod's barrier that is not full locally does nothing. -/
theorem podTry_not_full {id : BitVec 4} {s : State} (h : s.podParties.full s (7#3, id) = false) : podTry id s = s := by
  have hs : podOnce id s = s := by
    unfold podOnce
    exact if_pos (by rw [h]; rfl)
  unfold podTry
  simp only [hs]
  exact List.foldl_fixed' (fun _ => by rw [hs, ite_self]) _

/-- The parties of a core's barrier that is the pod's are the pod's. -/
theorem State.parties_of_isPod {s : State} {k : CoreId} {lvl : BitVec 3} (h : s.isPod k lvl = true) :
    lvl = 7#3 ∧ s.parties k lvl = s.podParties := by
  obtain ⟨hl, hlisted⟩ := (Bool.and_eq_true _ _).mp h
  have htask : (s.table (tableOf k)).task.isNone = false := by
    cases ht : (s.table (tableOf k)).task with
    | none => simp [ht] at hlisted
    | some _ => rfl
  obtain rfl := of_decide_eq_true hl
  refine ⟨rfl, ?_⟩
  have hb : s.barTask k 7#3 = fun t => s.podListed t.gid := funext fun t => if_pos h
  simp only [State.parties, State.podParties, State.barUnit, h, htask, hb, if_true, Bool.false_eq_true, if_false]
  rfl

/-- A barrier that is not full releases nobody. -/
theorem barTry_not_full {k : CoreId} {lvl : BitVec 3} {id : BitVec 4} {s : State}
    (h : (s.parties k lvl).full s (lvl, id) = false) : barTry k lvl id s = s := by
  unfold barTry
  simp only []
  split
  next hp =>
    obtain ⟨rfl, hp⟩ := State.parties_of_isPod hp
    exact podTry_not_full (hp ▸ h)
  next => exact if_neg (by rw [h]; decide)

/-! ## The quad of a core -/

theorem tableOf_of_mem_quadCores {tb : TableId} {q : BitVec 2} {m : CoreId} (h : m ∈ quadCores tb q) : tableOf m = tb := by
  obtain ⟨i, -, rfl⟩ := List.mem_map.mp h
  refine BitVec.eq_of_getLsbD_eq fun n hn => ?_
  have happ : (tb ++ (q ++ BitVec.ofNat 2 i) : BitVec (7 + (2 + 2))).getLsbD (4 + n) = tb.getLsbD n :=
    BitVec.getLsbD_append.trans (by rw [if_neg (by omega)]; congr 1; omega)
  simpa [tableOf, hn] using happ

theorem mem_quadCores (k : CoreId) : k ∈ quadCores (tableOf k) (quadOf k) := by
  refine List.mem_map.mpr ⟨(memberOf k).toNat, List.mem_range.mpr (memberOf k).isLt, ?_⟩
  rw [BitVec.ofNat_toNat, BitVec.setWidth_eq]
  refine BitVec.eq_of_getLsbD_eq fun i hi => BitVec.getLsbD_append.trans ?_
  rw [BitVec.getLsbD_append]
  split_ifs with h4 h2
  · simp [memberOf, h2]
  · simp [quadOf, show i - 2 < 2 by omega, show 2 + (i - 2) = i by omega]
  · simp [tableOf, show i - 4 < 7 by omega, show 4 + (i - 4) = i by omega]

/-! ## `bar` (R257, R276) -/

/-- Core k has arrived at b, behind its fence. -/
def State.arrives (s : State) (k : CoreId) (b : BitVec 3 × BitVec 4) : State :=
  (s.performed k).modCore k fun x => { x with arrived := b :: x.arrived }

/-- Core k goes on behind b, from which it was released. -/
def State.passes (s : State) (k : CoreId) (b : BitVec 3 × BitVec 4) : State :=
  (s.performed k).modCore k fun x => { x with released := x.released.filter fun y => decide (y ≠ b) }

/-- In a barrier that is not the pod's a core's own table takes part in its barrier. -/
theorem State.here_of_tableOf {s : State} {k c : CoreId} {lvl : BitVec 3} (hp : s.isPod k lvl = false) (hc : tableOf c = tableOf k) :
    (s.parties k lvl).here s c = true := by
  unfold Parties.here
  rw [hc]
  cases ht : (s.table (tableOf k)).task with
  | none => simp [State.parties, ht]
  | some own => simp [State.parties, State.barTask, hp, ht, sameTask]

section
variable {sc id : BitVec 4} {lvl : BitVec 3} (hl : sc.truncate 3 = lvl) {t : Option Tok} {s : State} (h : s.goes t)
include hl h

/-- A core that was released goes on. -/
theorem exec_bar_released (hr : (s.core s.exe).released.contains (lvl, id) = true) :
    exec (.bar sc id t) s = .next ((s.passes s.exe (lvl, id)).went s.exe t) := by
  subst hl
  refine runC_done t (barBody sc id) s _ h ?_ (by simp [State.passes])
  simp only [barBody, hr, Bool.or_true, if_true]
  rfl

variable (hr : (s.core s.exe).released.contains (lvl, id) = false)
include hr

/-- A core that has arrived before only waits while the barrier is not full. -/
theorem exec_bar_stays (ha : (s.core s.exe).arrived.contains (lvl, id) = true)
    (hf : (s.parties s.exe lvl).full s (lvl, id) = false) : exec (.bar sc id t) s = .next (s.waits t) := by
  subst hl
  have hbody : barBody sc id s.exe s = .hold 0#64 s := by
    simp only [barBody, ha, hr, Bool.or_false, if_true, Bool.false_eq_true, if_false, barTry_not_full hf]
  exact (runC_goes t (barBody sc id) s h).trans (by rw [hbody]; rfl)

variable (ha : (s.core s.exe).arrived.contains (lvl, id) = false)
include ha

/-- A core that has not arrived waits first as at a fence. -/
theorem exec_bar_waits (hw : s.fenceWaits s.exe sc = true) : exec (.bar sc id t) s = .next (s.waits t) := by
  subst hl
  have hbody : barBody sc id s.exe s = .wait s := by
    simp only [barBody, ha, hr, Bool.or_false, Bool.false_eq_true, if_false, hw, if_true]
  exact (runC_goes t (barBody sc id) s h).trans (by rw [hbody]; rfl)

variable (hw : s.fenceWaits s.exe sc = false) {u : State} (hu : barTry s.exe lvl id (s.arrives s.exe (lvl, id)) = u)
include hw hu

omit h in
/-- Behind its fence a core that has not arrived arrives, and goes on when its arrival has released it. -/
theorem barBody_arrives : barBody sc id s.exe s =
    if (u.core s.exe).released.contains (lvl, id) then .done (u.passes s.exe (lvl, id)) else .hold 0#64 u := by
  subst hl hu
  simp only [barBody, ha, hr, Bool.or_false, Bool.false_eq_true, if_false, hw]
  rfl

/-- A core whose arrival does not release it waits, its tokens popped. -/
theorem exec_bar_arrives (hr' : (u.core s.exe).released.contains (lvl, id) = false) :
    exec (.bar sc id t) s = .next (startC s.exe t false u) := by
  refine (runC_goes t (barBody sc id) s h).trans ?_
  rw [barBody_arrives hl hr ha hw hu, if_neg (by rw [hr']; decide)]

/-- A core whose arrival releases it goes on. -/
theorem exec_bar_completes (hr' : (u.core s.exe).released.contains (lvl, id) = true)
    (ht : (u.core s.exe).tok = (s.core s.exe).tok) :
    exec (.bar sc id t) s = .next ((u.passes s.exe (lvl, id)).went s.exe t) :=
  runC_done t (barBody sc id) s _ h ((barBody_arrives hl hr ha hw hu).trans (if_pos hr')) (by simp [State.passes, ht])

end

section
variable {k : CoreId} {b : BitVec 3 × BitVec 4} {s : State}

theorem State.core_arrives : (s.arrives k b).core k = { s.core k with arrived := b :: (s.core k).arrived } := by
  simp [State.arrives]

theorem State.core_arrives_ne {m : CoreId} (h : m ≠ k) : (s.arrives k b).core m = s.core m := by
  simp [State.arrives, State.core_modCore_ne _ _ _ _ h]

theorem State.core_passes : (s.passes k b).core k =
    { s.core k with released := (s.core k).released.filter fun y => decide (y ≠ b) } := by
  simp [State.passes]

theorem State.core_passes_ne {m : CoreId} (h : m ≠ k) : (s.passes k b).core m = s.core m := by
  simp [State.passes, State.core_modCore_ne _ _ _ _ h]

theorem State.sameBytes_arrives (s : State) (k : CoreId) (b : BitVec 3 × BitVec 4) : s.SameBytes (s.arrives k b) :=
  (s.sameBytes_performed k).trans (State.sameBytes_setCore _ k _ rfl)

theorem State.sameBytes_passes (s : State) (k : CoreId) (b : BitVec 3 × BitVec 4) : s.SameBytes (s.passes k b) :=
  (s.sameBytes_performed k).trans (State.sameBytes_setCore _ k _ rfl)

/-- A list that lacks b is left whole when b is filtered out of it. -/
theorem filter_ne_of_contains {xs : List (BitVec 3 × BitVec 4)} (h : xs.contains b = false) :
    xs.filter (fun y => decide (y ≠ b)) = xs :=
  List.filter_eq_self.mpr fun y hy => decide_eq_true fun hyb => by
    rw [List.contains_iff_mem.mpr (hyb ▸ hy)] at h
    exact absurd h (by decide)

/-- A barrier that is full with core k's arrival releases each core that takes part and has arrived, k among them. -/
theorem barTry_arrives {k : CoreId} {lvl : BitVec 3} {id : BitVec 4} {s : State} (hpod : s.isPod k lvl = false)
    (hall : ∀ m ∈ (s.parties k lvl).cores, m ≠ k → (s.parties k lvl).here s m = true → (s.core m).seat.st ≠ .out →
      (s.core m).arrived.contains (lvl, id) = true)
    (hs : ∀ m ∈ (s.parties k lvl).cores, ∀ x ∈ s.launch.suspended, (s.parties k lvl).saved m x = false) :
    barTry k lvl id (s.arrives k (lvl, id)) =
      (s.parties k lvl).cores.foldl ((s.parties k lvl).release (lvl, id)) (s.arrives k (lvl, id)) := by
  have hfull : (s.parties k lvl).full (s.arrives k (lvl, id)) (lvl, id) = true := by
    refine Parties.full_of _ _ _ (fun c hc hh hst => ?_) hs
    by_cases hck : c = k
    · rw [hck, State.core_arrives]
      simp
    · rw [State.core_arrives_ne hck] at hst ⊢
      exact hall c hc hck hh hst
  have hpod' : ¬((s.arrives k (lvl, id)).isPod k lvl = true) := fun hp => absurd (hpod.symm.trans hp) (by decide)
  exact (if_neg hpod').trans (if_pos hfull)

end

section
variable {sc id : BitVec 4} {lvl : BitVec 3} (hl : sc.truncate 3 = lvl) {p : Parties} {t : Option Tok} {s : State}
  (hp : s.parties s.exe lvl = p) (h : s.goes t) (hr : (s.core s.exe).released.contains (lvl, id) = false)
  (ha : (s.core s.exe).arrived.contains (lvl, id) = false) (hw : s.fenceWaits s.exe sc = false)
include hl hp h hr ha hw

/-- The last arrival at a barrier that is not the pod's: the core and the other participants go on, and every byte stays. -/
theorem bar_last_arrival (hpod : s.isPod s.exe lvl = false) (hin : s.exe ∈ p.cores)
    (hall : ∀ m ∈ p.cores, m ≠ s.exe → p.here s m = true → (s.core m).seat.st ≠ .out →
      (s.core m).arrived.contains (lvl, id) = true)
    (hs : ∀ m ∈ p.cores, ∀ x ∈ s.launch.suspended, p.saved m x = false) :
    ∃ u, exec (.bar sc id t) s = .next u ∧ (u.core s.exe).front.slot = (s.core s.exe).front.next ∧
      (u.core s.exe).arrived = (s.core s.exe).arrived ∧ (u.core s.exe).released = (s.core s.exe).released ∧
      (∀ m ∈ p.cores, m ≠ s.exe → p.here s m = true → (s.core m).seat.st ≠ .out →
        (u.core m).arrived.contains (lvl, id) = false ∧ (u.core m).released.contains (lvl, id) = true) ∧
      u.reg s.exe = s.reg s.exe ∧ s.SameBytes u := by
  subst hp
  obtain ⟨hcore, hsame⟩ := Parties.foldl_release (s.parties s.exe lvl) (lvl, id) (s.arrives s.exe (lvl, id)) _ hs
  have htry := barTry_arrives hpod hall hs
  generalize (s.parties s.exe lvl).cores.foldl _ (s.arrives s.exe (lvl, id)) = u at hcore hsame htry
  have hme : u.core s.exe = ((s.arrives s.exe (lvl, id)).core s.exe).freed (lvl, id) := by
    refine (hcore s.exe).trans (if_pos ⟨hin, ?_⟩)
    have hhere : (s.parties s.exe lvl).here (s.arrives s.exe (lvl, id)) s.exe = true := State.here_of_tableOf hpod rfl
    rw [Parties.arrivedAt, hhere, State.core_arrives]
    simp
  have hother (m : CoreId) (hm : m ∈ (s.parties s.exe lvl).cores) (hmk : m ≠ s.exe) (hh : (s.parties s.exe lvl).here s m = true)
      (hst : (s.core m).seat.st ≠ .out) : u.core m = (s.core m).freed (lvl, id) := by
    have hat : (s.parties s.exe lvl).arrivedAt (lvl, id) (s.arrives s.exe (lvl, id)) m = true := by
      rw [Parties.arrivedAt, State.core_arrives_ne hmk, hall m hm hmk hh hst, Bool.and_true]
      exact hh
    rw [hcore m, if_pos ⟨hm, hat⟩, State.core_arrives_ne hmk]
  have hgo : exec (.bar sc id t) s = .next ((u.passes s.exe (lvl, id)).went s.exe t) :=
    exec_bar_completes hl h hr ha hw htry (by rw [hme, Core.freed_released]) (by rw [hme, State.core_arrives]; rfl)
  refine ⟨_, hgo, ?_, ?_, ?_, fun m hm hmk hh hst => ?_, ?_, ?_⟩
  · rw [State.core_went, State.core_passes, hme, State.core_arrives]
    rfl
  · rw [State.core_went, State.core_passes, hme, State.core_arrives]
    simpa [Core.freed] using filter_ne_of_contains ha
  · rw [State.core_went, State.core_passes, hme, State.core_arrives]
    simpa [Core.freed] using filter_ne_of_contains hr
  · rw [State.core_went_ne _ _ hmk, State.core_passes_ne hmk, hother m hm hmk hh hst]
    exact ⟨Core.freed_arrived .., Core.freed_released ..⟩
  · unfold State.reg
    rw [State.core_went, State.core_passes, hme, State.core_arrives]
    rfl
  · exact (((s.sameBytes_arrives _ _).trans hsame).trans (u.sameBytes_passes _ _)).trans (State.sameBytes_went _ _ _)

/-- An arrival before that of another participant: it is noted, and the core waits, its tokens popped. -/
theorem bar_early_arrival {m : CoreId} (hm : m ∈ p.cores) (hmk : m ≠ s.exe) (hh : p.here s m = true)
    (hst : (s.core m).seat.st ≠ .out) (hma : (s.core m).arrived.contains (lvl, id) = false) :
    ∃ u, exec (.bar sc id t) s = .next u ∧ (u.core s.exe).front.slot = (s.core s.exe).front.slot ∧
      (u.core s.exe).arrived = (lvl, id) :: (s.core s.exe).arrived ∧
      (u.core s.exe).tok = (s.core s.exe).tok.pop t ∧ (∀ k', k' ≠ s.exe → u.core k' = s.core k') := by
  subst hp
  have hcore : (s.arrives s.exe (lvl, id)).core m = s.core m := State.core_arrives_ne hmk
  have htry : barTry s.exe lvl id (s.arrives s.exe (lvl, id)) = s.arrives s.exe (lvl, id) :=
    barTry_not_full (Parties.not_full _ _ _ hm hh (by rw [hcore]; exact hst) (by rw [hcore]; exact hma))
  refine ⟨_, exec_bar_arrives hl h hr ha hw htry (by rw [State.core_arrives]; exact hr), ?_, ?_, ?_, fun k' hk' => ?_⟩
  · rw [startC, State.core_modCore, State.core_arrives]
  · rw [startC, State.core_modCore, State.core_arrives]
  · rw [startC, State.core_modCore, State.core_arrives]
    rfl
  · rw [startC, State.core_modCore_ne _ _ _ _ hk', State.core_arrives_ne hk']

end

/-- Settles O31: fences by what they wait for, a barrier by `bar_last_arrival` and `bar_early_arrival`; in a quad every core's table is
the executing core's own. -/
theorem fencesAndBarriers : Obligations.FencesAndBarriers := by
  unfold Obligations.FencesAndBarriers
  intro a b sc id t s h
  refine ⟨fun ho hq => ?fence, fun ho hq hst => ?folded, fun ho hq hst hh => ?head, fun ho hq hst hh => ?seated, fun ho => ?outstanding,
    fun n hn => ?refresh, ?quad, ?level, ?again⟩
  case fence => exact exec_fence_ends h (by rw [State.fenceWaits_of_quiet hq, ho])
  case folded =>
    have hw := (State.fenceWaits_of_quiet hq s.exe 8#4).trans ho
    refine exec_iflush_ends h hw (if_neg ?_) (by simp)
    rw [State.core_performed, hst]
    decide
  case head =>
    have hw := (State.fenceWaits_of_quiet hq s.exe 8#4).trans ho
    exact exec_iflush_ends h hw ((if_pos hst).trans (if_pos hh)) (by simp)
  case seated =>
    have hw := (State.fenceWaits_of_quiet hq s.exe 8#4).trans ho
    exact exec_iflush_ends h hw ((if_pos hst).trans (if_neg hh)) (by simp)
  case outstanding =>
    have hw := State.fenceWaits_of_outstanding ho
    exact ⟨exec_fence_waits h (hw sc), exec_iflush_waits h (hw _), fun ha hr => exec_bar_waits rfl h hr ha (hw sc)⟩
  case refresh =>
    exact ⟨exec_iflush_waits h (State.fenceWaits_of_selfRefresh hn (.inl (by decide))),
      fun hsc => exec_fence_waits h (State.fenceWaits_of_selfRefresh hn hsc)⟩
  case quad =>
    intro quad ho ha hst hr
    have hw : s.fenceWaits s.exe 2#4 = false := (s.fenceWaits_of_lt s.exe (by decide)).trans ho
    have hpod : s.isPod s.exe 2#3 = false := rfl
    have hhere (m : CoreId) (hm : m ∈ quad) : (s.parties s.exe 2#3).here s m = true :=
      State.here_of_tableOf hpod (tableOf_of_mem_quadCores hm)
    refine ⟨fun hall hs => ?_, fun m hm hmk hmst hma => bar_early_arrival (sc := 2#4) rfl rfl h hr ha hw hm hmk (hhere m hm) hmst hma⟩
    have hlast := bar_last_arrival (sc := 2#4) (id := id) rfl rfl h hr ha hw hpod (mem_quadCores s.exe)
      (fun m hm hmk _ hmst => (hall m hm hmk).resolve_left hmst) fun m hm x hx => ?_
    · obtain ⟨u, hu, h1, h2, h3, h4, h5, h6⟩ := hlast
      exact ⟨u, hu, h1, h2, h3, fun m hm hmk hmst => h4 m hm hmk (hhere m hm) hmst, h5, h6⟩
    · rw [Parties.saved, decide_eq_false (by rw [tableOf_of_mem_quadCores hm]; exact hs x hx), Bool.false_and]
  case level =>
    intro lvl p lacks hsc hw ha hin hst hr
    refine ⟨fun hpod hall hs => ?_, fun m hm hmk hlacks => ?_⟩
    · exact bar_last_arrival rfl rfl h hr ha hw hpod hin
        (fun m hm hmk hh hmst => by_contra fun hma => hall m hm hmk ⟨hh, hmst, Bool.eq_false_iff.mpr hma⟩)
        fun m hm x hx => hs x hx m hm
    · obtain ⟨hh, hmst, hma⟩ := hlacks
      exact bar_early_arrival rfl rfl h hr ha hw hm hmk hh hmst hma
  case again =>
    intro lvl _
    exact ⟨fun hr => exec_bar_released rfl h hr, fun hr ha hf => exec_bar_stays rfl h hr ha hf⟩

end Sys2Proof.Machine

/-! Events of the engines: a ganged matrix command that has popped its tokens and waits for a partner (R153, R301, R311). -/

namespace Sys2Proof.Machine

/-- The shape word of one E4M3 number. -/
def oneNumber (base : Nat) : BitVec 512 := BitVec.ofNat 512 (base + (3 + 2 * 32) * 2 ^ 64)

/-- A product of two numbers, ganged between cores 0 and 1 of a quad, whose tokens are popped. -/
def waitingCommand : QEntry :=
  { ins := .mMma 1#4 2#4 0#6 0#6 0#3 none, slots := 1
    cap := { sha := oneNumber 0xFFFFFFFE000000, shb := oneNumber 0xFFFFFFFE000200 }
    started := true, gang := some { mask := 3#4, gq := 0#2, index := some (0, 1) } }

/-- Core 0 holds it, and core 1, seated before the stream bundle from which it was routed, has not come to it. -/
def awaitsPartner : State :=
  (State.reset.modCore 0#11 fun c => { c with mq := [waitingCommand], seat := { st := .seated, n := 1 } }).modCore 1#11 fun c =>
    { c with seat := { st := .seated, n := 0 } }

namespace awaitsPartner

/-- Nothing keeps the M engine of core 0 from its one command. -/
def Ready (u : State) : Prop :=
  (u.core 0#11).queue .m = [waitingCommand] ∧ (u.core 0#11).pendingFault = none ∧ u.atJoin 0#11 = false ∧
    (u.core 0#11).inLoad = false ∧ (u.core 0#11).inBar = false ∧ (u.table (tableOf 0#11)).stop = false ∧
    ∀ e' ∈ [Engine.v, .m], e' ≠ Engine.m → ∀ x ∈ (u.core 0#11).queue e', x.atWork = false

/-- The same of a state that a turn ends in, as a test. -/
def endsReady : Eff → Bool
  | .done u => decide ((u.core 0#11).queue .m = [waitingCommand]) && (u.core 0#11).pendingFault.isNone && !u.atJoin 0#11 &&
      !(u.core 0#11).inLoad && !(u.core 0#11).inBar && !(u.table (tableOf 0#11)).stop && ((u.core 0#11).queue .v).isEmpty
  | _ => false

theorem endsReady_run : endsReady (waitingCommand.run 0#11 .whole awaitsPartner) = true := by decide +kernel

theorem ready_of_endsReady {u : State} (h : endsReady (.done u) = true) : Ready u := by
  simp only [endsReady, Bool.and_eq_true, decide_eq_true_eq, Bool.not_eq_true', Option.isNone_iff_eq_none,
    List.isEmpty_iff] at h
  obtain ⟨⟨⟨⟨⟨⟨hq, hf⟩, hj⟩, hl⟩, hb⟩, hs⟩, hv⟩ := h
  refine ⟨hq, hf, hj, hl, hb, hs, fun e' he' hne x hx => ?_⟩
  obtain rfl | rfl := List.mem_pair.mp he'
  · rw [hv] at hx
    exact absurd hx List.not_mem_nil
  · exact absurd rfl hne

/-- By itself the command would compute its slice and be done. -/
theorem run_done : ∃ u, waitingCommand.run 0#11 .whole awaitsPartner = .done u ∧ Ready u := by
  have h := endsReady_run
  cases hr : waitingCommand.run 0#11 .whole awaitsPartner with
  | done u => exact ⟨u, rfl, ready_of_endsReady (hr ▸ h)⟩
  | _ => rw [hr] at h; exact absurd h Bool.false_ne_true

theorem ready : Ready awaitsPartner := by
  refine ready_of_endsReady ?_
  decide +kernel

/-- The command that core 0 holds has left its queue. -/
def leftQueue : Host.Outcome State Fault Refusal → Bool
  | .next u => (u.core 0#11).mq.isEmpty
  | _ => false

/-- Its turn leaves it where it is, for its partner has not come. -/
theorem leftQueue_start : leftQueue (exec (.instructionStart 0#11 .m) awaitsPartner) = false := by decide +kernel

end awaitsPartner

open awaitsPartner in
/-- Refutes O50: a ganged command that has popped its tokens does not run at its event while a partner is still to come. -/
theorem not_engineEvents : ¬ Obligations.EngineEvents := by
  unfold Obligations.EngineEvents
  intro holds
  obtain ⟨⟨entry, -⟩, -⟩ := holds
  obtain ⟨-, -, going, -⟩ := entry 0#11 .m waitingCommand awaitsPartner (by decide) rfl rfl rfl rfl
    (fun _ h => absurd h List.not_mem_nil) (fun h => absurd h (by decide)) rfl ready
  obtain ⟨⟨done, -⟩, -⟩ := going rfl rfl
  obtain ⟨u, hrun, hready⟩ := run_done
  obtain ⟨retires, -⟩ := done u hrun hready
  have left := leftQueue_start
  rw [retires rfl] at left
  simp [leftQueue, Core.setQueue] at left

end Sys2Proof.Machine

/-! Vector moves (R168, R178, R184 to R188): moves element by element are `vElem`, the others write one row, a scalar register, the
generators, or the three rows of a group. -/

namespace Sys2Proof.Machine

/-! ## Writing row vd alone (R134) -/

@[simp] theorem Vec.setRow_tile_engaged (v : Vec) (r : BitVec 6) (x : BitVec 1024) : (v.setRow r x).tile true = v.tile true := by
  cases h : v.exposed <;> simp [Vec.setRow, Vec.setTile, Vec.tile, h]

@[simp] theorem Vec.setRow_preds (v : Vec) (r : BitVec 6) (x : BitVec 1024) : (v.setRow r x).preds = v.preds := by
  unfold Vec.setRow Vec.setTile
  split <;> rfl

@[simp] theorem Vec.setRow_exposed (v : Vec) (r : BitVec 6) (x : BitVec 1024) : (v.setRow r x).exposed = v.exposed := by
  unfold Vec.setRow Vec.setTile
  split <;> rfl

@[simp] theorem Vec.setRow_gens (v : Vec) (r : BitVec 6) (x : BitVec 1024) : (v.setRow r x).gens = v.gens := by
  unfold Vec.setRow Vec.setTile
  split <;> rfl

/-- A row formed element by element and written to vd. -/
theorem VIn.Row.of_setRow (v : VIn) (d : BitVec 6) (f g : Nat → Nat) (hfg : ∀ m, g m % 2 ^ v.w = f m % 2 ^ v.w) :
    v.Row d f (v.c.vec.setRow (vrow v.cap.vrb d) (packRow v.w ((List.range v.n).map g))) where
  elems m hm := by rw [Vec.row_setRow, if_pos rfl, v.elemAt_packRow_map g m hm, hfg]
  rows r hr := by rw [Vec.row_setRow, if_neg hr]
  engaged := Vec.setRow_tile_engaged ..
  preds := Vec.setRow_preds ..
  exposed := Vec.setRow_exposed ..
  gens := Vec.setRow_gens ..

/-! ## `v.bcast` and `v.cex` (R185, R187) -/

/-- `v.bcast` is element-wise, every element taking the scalar captured at the hand-over. -/
theorem exec_vBcast_vElem (d : BitVec 6) (g : BitVec 5) (p : BitVec 4) (n : BitVec 1) (x : Option VExt) (t : Option Tok) {s : State}
    (h : s.engineGoes .v t) : exec (.vBcast d g p n x t) s =
      runE .v (.vBcast d g p n x t) (capOf (.vBcast d g p n x t) (s.core s.exe))
        (vElem d p n (x.getD vextDefault) [] false drawsNone fun _ _ _ => .raw (s.val g).toNat) s :=
  (exec_vBcast ..).trans (runE_congr h rfl)

/-- The bits element k takes, read beside no matrix command: its partner's when the two stand in the wrong order. -/
theorem cexBits_now (v : VIn) (hb : v.c.mtx.before = []) (a b : BitVec 6) (k : Nat) : cexBits v a b k =
    (let q := v.el b k % 64 % v.n
     let low := decide (k < q) != (v.el b k).testBit 6
     if q ≠ k ∧ low = true ∧ cexBefore v (v.el a q) (v.el a k) = true then v.el a q
     else if q ≠ k ∧ low = false ∧ cexBefore v (v.el a k) (v.el a q) = true then v.el a q
     else v.el a k) := by
  have hel : (v.at 1).el b k = v.el b k := v.el_now hb b k v.out 1
  simp only [cexBits, hel, Bool.not_eq_true]

/-! ## `v.ins` and `v.ext` (R185) -/

section
variable (d a : BitVec 6) (g : BitVec 5) (p : BitVec 4) (n : BitVec 1) (x : VExt) (k : CoreId) (cap : Cap) (r : Word) (s : State)
  (v : VIn) (hv : v = { c := s.core k, cap := cap, x := x, tick := s.tick })
include hv

theorem vIns_trap (ha : v.n ≤ a.toNat) : vIns d a p n x k cap r s = .trap vIllenc s := by
  subst hv
  exact if_pos ha

/-- `v.ins` writes the scalar to the element it names, when that is active, and every other element as it was. -/
theorem vIns_done (hb : (s.core k).mtx.before = []) (ha : a.toNat < v.n) : vIns d a p n x k cap r s =
    .done (s.setCore k { s.core k with vec := (s.core k).vec.setRow (vrow cap.vrb d) (packRow v.w ((List.range v.n).map fun m =>
      if m = a.toNat ∧ v.active p n m = true then cap.x.toNat % 2 ^ v.w else v.el d m)) }) := by
  subst hv
  exact (if_neg (Nat.not_le.mpr ha)).trans (by rw [Core.rowPut_now _ hb])

theorem vExtract_trap (hd : v.n ≤ d.toNat) : vExtract d a g p n x k cap r s = .trap vIllenc s := by
  subst hv
  exact if_pos hd

/-- `v.ext` writes an active element to the scalar register. -/
theorem vExtract_active (hd : d.toNat < v.n) (hact : v.active p n d.toNat = true) :
    vExtract d a g p n x k cap r s = .done (s.setReg k g (BitVec.ofNat 64 (v.el a d.toNat))) := by
  subst hv
  exact (if_neg (Nat.not_le.mpr hd)).trans (if_pos hact)

/-- `v.ext` of an inactive element does nothing. -/
theorem vExtract_inactive (hd : d.toNat < v.n) (hact : v.active p n d.toNat = false) :
    vExtract d a g p n x k cap r s = .done s := by
  subst hv
  exact (if_neg (Nat.not_le.mpr hd)).trans (if_neg (Bool.eq_false_iff.mp hact))

end

/-! ## `v.seed` (R188) -/

/-- The generators of the lanes `ls` that are on, seeded from w. -/
def Vec.seedLanes (v : Vec) (on : Nat → Bool) (w : BitVec 32) (ls : List Nat) : Vec :=
  ls.foldl (fun v lane => if on lane then v.setGen lane (seedLane (BitVec.ofNat 5 lane) w) else v) v

section
variable (on : Nat → Bool) (w : BitVec 32)

theorem Vec.seedLanes_cons (v : Vec) (lane : Nat) (ls : List Nat) : v.seedLanes on w (lane :: ls) =
    (if on lane then v.setGen lane (seedLane (BitVec.ofNat 5 lane) w) else v).seedLanes on w ls := rfl

/-- A lane's generator is seeded if the lane is among those and on, and stays otherwise. -/
theorem Vec.gen_seedLanes (v : Vec) (ls : List Nat) (hls : ∀ l ∈ ls, l < 32) (lane : Nat) (hlane : lane < 32) :
    (v.seedLanes on w ls).gen lane =
      if lane ∈ ls ∧ on lane = true then seedLane (BitVec.ofNat 5 lane) w else v.gen lane := by
  induction ls generalizing v with
  | nil => simp [seedLanes]
  | cons l ls ih =>
    have hl : l < 32 := hls l List.mem_cons_self
    rw [seedLanes_cons, ih _ fun q hq => hls q (List.mem_cons_of_mem _ hq)]
    by_cases hon : on l = true
    · rw [if_pos hon, Vec.gen_setGen _ _ _ _ hl hlane]
      by_cases heq : lane = l
      · subst heq
        simp [hon]
      · simp [heq]
    · rw [if_neg hon]
      by_cases heq : lane = l
      · subst heq
        simp [hon]
      · simp [heq]

/-- Seeding changes the generators alone. -/
theorem Vec.seedLanes_sameBut (v : Vec) (ls : List Nat) {c : Vec} (h : v.sameBut c) : (v.seedLanes on w ls).sameBut c := by
  induction ls generalizing v with
  | nil => exact h
  | cons l ls ih =>
    rw [seedLanes_cons]
    refine ih _ ?_
    split
    · exact h
    · exact h

end

/-- A lane holds an active element. -/
def VIn.laneActive (v : VIn) (p : BitVec 4) (n : BitVec 1) (lane : Nat) : Bool :=
  (List.range v.n).any fun m => decide (laneOf v.n m = lane) && v.active p n m

theorem VIn.laneActive_iff (v : VIn) (p : BitVec 4) (n : BitVec 1) (lane : Nat) :
    v.laneActive p n lane = true ↔ ∃ m, m < v.n ∧ laneOf v.n m = lane ∧ v.active p n m = true := by
  simp [laneActive]

/-- `v.seed` seeds the lanes that hold an active element. -/
theorem vSeed_done (p : BitVec 4) (n : BitVec 1) (x : VExt) (k : CoreId) (cap : Cap) (r : Word) (s : State) (v : VIn)
    (hv : v = { c := s.core k, cap := cap, x := x, tick := s.tick }) : vSeed p n x k cap r s =
      .done (s.setCore k { s.core k with
        vec := (s.core k).vec.seedLanes (v.laneActive p n) (cap.x.truncate 32) (List.range 32) }) := by
  subst hv
  rfl

/-! ## The groups of three registers (R136, R137) -/

/-- Two registers of one half name one row only if they are one. -/
theorem vrow_injective (vrb : BitVec 5) {q r : BitVec 6} (hhalf : q.toNat / 32 = r.toNat / 32) (h : vrow vrb q = vrow vrb r) :
    q = r := by
  by_cases hq : q.toNat < 32
  · rwa [vrow, if_pos hq, vrow, if_pos (by omega)] at h
  · rw [vrow, if_neg hq, vrow, if_neg (by omega)] at h
    have hlow := congrArg (BitVec.extractLsb' 0 5) h
    rw [BitVec.extractLsb'_append_eq_right, BitVec.extractLsb'_append_eq_right] at hlow
    have hnat := congrArg BitVec.toNat (add_right_cancel hlow)
    rw [BitVec.truncate_eq_setWidth, BitVec.truncate_eq_setWidth, BitVec.toNat_setWidth, BitVec.toNat_setWidth] at hnat
    exact BitVec.eq_of_toNat_eq (by omega)

/-- A group that does not wrap names three rows. -/
theorem vrow_group (vrb : BitVec 5) {r : BitVec 6} (h : groupOk r = true) :
    vrow vrb r ≠ vrow vrb (r + 1#6) ∧ vrow vrb r ≠ vrow vrb (r + 2#6) ∧ vrow vrb (r + 1#6) ≠ vrow vrb (r + 2#6) := by
  have hr : r.toNat / 32 = (r.toNat + 2) / 32 := of_decide_eq_true h
  have hlt := r.isLt
  have h1 : (r + 1#6).toNat = r.toNat + 1 := by rw [BitVec.toNat_add]; exact Nat.mod_eq_of_lt (by simp; omega)
  have h2 : (r + 2#6).toNat = r.toNat + 2 := by rw [BitVec.toNat_add]; exact Nat.mod_eq_of_lt (by simp; omega)
  have hne {q q' : BitVec 6} (hhalf : q.toNat / 32 = q'.toNat / 32) (hq : q.toNat ≠ q'.toNat) : vrow vrb q ≠ vrow vrb q' :=
    fun he => hq (congrArg _ (vrow_injective vrb hhalf he))
  exact ⟨hne (by omega) (by omega), hne (by omega) (by omega), hne (by omega) (by omega)⟩

/-- One of three groups wraps when its first and its last register lie in different halves. -/
theorem groupsOk_eq_false_iff (d a b : BitVec 6) : (groupOk d && groupOk a && groupOk b) = false ↔
    d.toNat / 32 ≠ (d.toNat + 2) / 32 ∨ a.toNat / 32 ≠ (a.toNat + 2) / 32 ∨ b.toNat / 32 ≠ (b.toNat + 2) / 32 := by
  simp only [Bool.and_eq_false_iff, groupOk, decide_eq_false_iff_not, or_assoc, ne_eq]

/-- The rows that the registers of a group name, written. -/
def Vec.setGroup (v : Vec) (vrb : BitVec 5) (d : BitVec 6) (row : (Nat × Nat × Nat → Nat) → BitVec 1024) : Vec :=
  ((v.setRow (vrow vrb d) (row fun q => q.1)).setRow (vrow vrb (d + 1#6)) (row fun q => q.2.1)).setRow (vrow vrb (d + 2#6))
    (row fun q => q.2.2)

section
variable (v : Vec) (vrb : BitVec 5) (d : BitVec 6) (row : (Nat × Nat × Nat → Nat) → BitVec 1024)

/-- Each register of a group that does not wrap holds its own row. -/
theorem Vec.row_setGroup (hg : groupOk d = true) (r : BitVec 6) (f : Nat × Nat × Nat → Nat)
    (h : (r, f) ∈ [(d, fun q : Nat × Nat × Nat => q.1), (d + 1#6, fun q => q.2.1), (d + 2#6, fun q => q.2.2)]) :
    (v.setGroup vrb d row).row (vrow vrb r) = row f := by
  obtain ⟨h01, h02, h12⟩ := vrow_group vrb hg
  simp only [List.mem_cons, List.not_mem_nil, or_false, Prod.mk.injEq] at h
  obtain ⟨rfl, rfl⟩ | ⟨rfl, rfl⟩ | ⟨rfl, rfl⟩ := h <;> simp [setGroup, Vec.row_setRow, h01, h02, h12]

/-- Every other row stays. -/
theorem Vec.row_setGroup_other {r : BitVec 6} (h0 : r ≠ vrow vrb d) (h1 : r ≠ vrow vrb (d + 1#6)) (h2 : r ≠ vrow vrb (d + 2#6)) :
    (v.setGroup vrb d row).row r = v.row r := by
  simp [setGroup, Vec.row_setRow, h0, h1, h2]

/-- The engaged tile, the predicates, the tiles' roles and the generators stay. -/
theorem Vec.setGroup_frame : (v.setGroup vrb d row).tile true = v.tile true ∧ (v.setGroup vrb d row).preds = v.preds ∧
    (v.setGroup vrb d row).exposed = v.exposed ∧ (v.setGroup vrb d row).gens = v.gens := by
  simp [setGroup]

end

/-! ## `v.lse` (R186) -/

section
variable (v : VIn) (d a b : BitVec 6) (p : BitVec 4) (n : BitVec 1)

/-- The merge of two groups' triples at element m, with its flags. -/
def VIn.lseAt (m : Nat) : (Nat × Nat × Nat) × Fl :=
  lseMerge (v.el a m) (v.el (a + 1#6) m) (v.el (a + 2#6) m) (v.el b m) (v.el (b + 1#6) m) (v.el (b + 2#6) m)

/-- What `v.lse` leaves at element m of the group vd: the merge at an active element, else the triple that stands there. -/
def VIn.lseOut (m : Nat) : (Nat × Nat × Nat) × Fl :=
  if v.active p n m then v.lseAt a b m else ((v.el d m, v.el (d + 1#6) m, v.el (d + 2#6) m), 0#6)

/-- The row of the group that takes the component f. -/
def VIn.lseRow (f : Nat × Nat × Nat → Nat) : BitVec 1024 := packRow 32 ((List.range 32).map fun m => f (v.lseOut d a b p n m).1)

/-- The flags of the merges at the active elements. -/
def VIn.lseFlags : Fl := ((List.range 32).filter (v.active p n)).foldl (fun fl m => fl ||| (v.lseAt a b m).2) 0#6

/-- An element of a row of the group: the merge's component where it is active, else its bits as they were. -/
theorem VIn.elemAt_lseRow (hw : v.w = 32) (m : Nat) (hm : m < 32) (r : BitVec 6) (f : Nat × Nat × Nat → Nat)
    (h : (r, f) ∈ [(d, fun q : Nat × Nat × Nat => q.1), (d + 1#6, fun q => q.2.1), (d + 2#6, fun q => q.2.2)]) :
    elemAt (v.lseRow d a b p n f) 32 m = if v.active p n m then f (v.lseAt a b m).1 % 2 ^ 32 else v.el r m := by
  have hold : f (v.el d m, v.el (d + 1#6) m, v.el (d + 2#6) m) = v.el r m := by
    simp only [List.mem_cons, List.not_mem_nil, or_false, Prod.mk.injEq] at h
    obtain ⟨rfl, rfl⟩ | ⟨rfl, rfl⟩ | ⟨rfl, rfl⟩ := h <;> rfl
  rw [lseRow, Sys2Proof.Machine.elemAt_packRow 32 _ m (by simpa using hm) (by simp), List.getElem_map, List.getElem_range]
  cases hact : v.active p n m with
  | true => simp [lseOut, hact]
  | false =>
    simp only [lseOut, hact, Bool.false_eq_true, if_false, hold]
    exact Nat.mod_eq_of_lt (hw ▸ v.el_lt r m)

/-- An inactive element raises nothing. -/
theorem VIn.foldl_lseOut :
    ((List.range 32).map (v.lseOut d a b p n)).foldl (fun fl q => fl ||| q.2) 0#6 = v.lseFlags a b p n := by
  rw [lseFlags, List.foldl_map, List.foldl_filter]
  refine congrArg (fun f => (List.range 32).foldl f 0#6) (funext fun fl => funext fun m => ?_)
  cases hact : v.active p n m <;> simp [lseOut, hact]

end

section
variable (d a b : BitVec 6) (p : BitVec 4) (n : BitVec 1) (x : VExt) (k : CoreId) (cap : Cap) (r : Word) (s : State)
  (v : VIn) (hv : v = { c := s.core k, cap := cap, x := x, tick := s.tick })
include hv

/-- `v.lse` with elements of another width traps (R165). -/
theorem vLse_illenc (hw : v.w ≠ 32) : vLse d a b p n x k cap r s = .trap vIllenc s := by
  subst hv
  exact if_pos hw

/-- `v.lse` with a group that wraps traps (R168). -/
theorem vLse_grpwrap (hw : v.w = 32) (hg : (groupOk d && groupOk a && groupOk b) = false) :
    vLse d a b p n x k cap r s = .trap Trap.grpwrap s := by
  subst hv
  exact (if_neg (not_not.mpr hw)).trans (if_pos (by rw [hg]; rfl))

/-- `v.lse` writes the merged triples to the active elements of the group vd, and raises their flags. -/
theorem vLse_done (hb : (s.core k).mtx.before = []) (hw : v.w = 32) (hg : (groupOk d && groupOk a && groupOk b) = true) :
    vLse d a b p n x k cap r s = .done (s.setCore k
      ({ s.core k with vec := (s.core k).vec.setGroup cap.vrb d (v.lseRow d a b p n) }.raise (v.lseFlags a b p n))) := by
  have hel (q : BitVec 6) (m : Nat) : (v.at 1).el q m = v.el q m := v.el_now (hv ▸ hb) q m v.out 1
  rw [← v.foldl_lseOut d]
  unfold vLse
  simp only [← hv]
  rw [if_neg (not_not.mpr hw), if_neg (by rw [hg]; decide)]
  simp only [hel, BitVec.add_zero, Core.rowPut, hb, List.map_map]
  rfl

end

/-- Settles O37: the moves by `exec_vElem_gives`, their second operand read as their first; `v.ins` by `VIn.Row.of_setRow`, `v.ext`
by what its body does for an active element and for another, `v.seed` by `Vec.gen_seedLanes`, `v.lse` by `Vec.row_setGroup` and
`VIn.elemAt_lseRow`. -/
theorem vectorMoves : Obligations.VectorMoves := by
  unfold Obligations.VectorMoves
  intro d a b g p n x t s h k c e v illenc places
  obtain ⟨-, -, -, -, -, hbefore, -⟩ := id h
  refine ⟨?sel, ?perm, ?bcast, ?cex, ⟨fun ha => ?insTraps, fun ha => ?ins⟩,
    ⟨fun hd => ?extTraps, fun hd hact => ?ext, fun hd hact => ?extNone⟩, ?seed,
    ⟨fun hw => ?lseTraps, fun hw hg => ?lseWraps, fun hw hg => ?lse⟩⟩
  case sel => exact exec_vElem_gives h (exec_vSel ..) _ fun hb m _ => by rw [VIn.el_at_now _ hb]
  case perm => exact exec_vElem_gives h (exec_vPerm ..) _ fun hb m _ => by rw [VIn.el_at_now _ hb]
  case bcast => exact exec_vElem_gives h (exec_vBcast_vElem d g p n x t h) _ fun _ _ _ => rfl
  case cex => exact exec_vElem_gives h (exec_vCex ..) _ fun hb m _ => by rw [cexBits_now _ hb]
  case insTraps => exact (exec_vIns ..).trans (runE_trap _ _ _ _ _ _ _ h (vIns_trap d a p n e _ _ _ s _ rfl ha))
  case ins =>
    have hbits (m : Nat) : (if m = a.toNat ∧ v.active p n m = true then (s.val g).toNat % 2 ^ v.w else v.el d m) % 2 ^ v.w =
        (if m = a.toNat ∧ v.active p n m = true then (s.val g).toNat else v.el d m) % 2 ^ v.w := by
      split_ifs
      · exact Nat.mod_mod ..
      · rfl
    exact ⟨_, VIn.Row.of_setRow v d _ _ hbits,
      (exec_vIns ..).trans (runE_done _ _ _ _ _ _ h (vIns_done d a p n e _ _ _ s (s.vin (.vIns d a g p n x t) e) rfl hbefore ha))⟩
  case extTraps => exact (exec_vExt ..).trans (runE_trap _ _ _ _ _ _ _ h (vExtract_trap d a g p n e _ _ _ s _ rfl hd))
  case ext => exact (exec_vExt ..).trans (runE_done _ _ _ _ _ _ h (vExtract_active d a g p n e _ _ _ s _ rfl hd hact))
  case extNone => exact (exec_vExt ..).trans (runE_done _ _ _ _ _ _ h (vExtract_inactive d a g p n e _ _ _ s _ rfl hd hact))
  case seed =>
    refine ⟨_, (exec_vSeed ..).trans (runE_done _ _ _ _ _ _ h (vSeed_done p n e _ _ _ s (s.vin (.vSeed g p n x t) e) rfl)),
      fun lane hlane => ?_, ?_⟩
    · rw [Vec.gen_seedLanes _ _ _ _ (fun _ => List.mem_range.mp) lane hlane]
      exact if_congr ((and_iff_right (List.mem_range.mpr hlane)).trans (v.laneActive_iff p n lane)) rfl rfl
    · obtain ⟨h0, h1, hexposed, hpreds⟩ := Vec.seedLanes_sameBut (v.laneActive p n) ((s.val g).truncate 32) c.vec (List.range 32)
        (c := c.vec) ⟨rfl, rfl, rfl, rfl⟩
      exact ⟨h0, h1, hpreds, hexposed⟩
  case lseTraps => exact (exec_vLse ..).trans (runE_trap _ _ _ _ _ _ _ h (vLse_illenc d a b p n e _ _ _ s _ rfl hw))
  case lseWraps =>
    have hwraps := (groupsOk_eq_false_iff d a b).mpr hg
    exact (exec_vLse ..).trans (runE_trap _ _ _ _ _ _ _ h (vLse_grpwrap d a b p n e _ _ _ s _ rfl hw hwraps))
  case lse =>
    have hok := Bool.eq_true_of_not_eq_false (mt (groupsOk_eq_false_iff d a b).mp hg)
    have hokd : groupOk d = true := Bool.and_elim_left (Bool.and_elim_left hok)
    obtain ⟨hengaged, hpreds, hexposed, hgens⟩ := c.vec.setGroup_frame c.ctl.vrb d (v.lseRow d a b p n)
    refine ⟨_, (exec_vLse ..).trans (runE_done _ _ _ _ _ _ h (vLse_done d a b p n e _ _ _ s v rfl hbefore hw hok)),
      fun m hm r f hrf => ?_, fun r h0 h1 h2 => c.vec.row_setGroup_other _ _ _ h0 h1 h2, hengaged, hpreds, hexposed, hgens⟩
    exact (congrArg (elemAt · 32 m) (c.vec.row_setGroup c.ctl.vrb d _ hokd r f hrf)).trans
      (v.elemAt_lseRow d a b p n hw m hm r f hrf)

end Sys2Proof.Machine

/-! The tag table (R212, R213, R279 to R281): the fields of an entry, the entry that `tlook` finds, what `tset` and `tclr` write. -/

namespace Sys2Proof.Machine

/-! ## Fields of a word that are zero -/

/-- A field is zero when the bits cut out are. -/
theorem field_eq_zero_iff (w : Word) (lo : Nat) {len : Nat} (h : len < 64) : field w lo len = 0#64 ↔ w.extractLsb' lo len = 0#len :=
  (field_eq_iff w lo h 0 (by decide)).trans (by rw [← BitVec.toNat_inj, BitVec.toNat_ofNat, Nat.zero_mod])

/-- The low bits of a word, truncated or cut out. -/
theorem truncate_eq_extractLsb' (w : Word) {n : Nat} (h : n ≤ 64) : (w.truncate n : BitVec n) = w.extractLsb' 0 n := by
  rw [BitVec.truncate_eq_setWidth, BitVec.setWidth_eq_extractLsb' h]

/-! ## The fields of an entry (R212) -/

section
variable (v clean : Bool) {line sz block : Nat} (hl : line < 2 ^ 16) (hs : sz < 2 ^ 3) (hb : block < 2 ^ 47)
include hl hs hb

theorem toNat_tagMake : (tagMake v clean line sz block).toNat = v.toNat + 2 * clean.toNat + line * 4 + sz * 2 ^ 64 + block * 2 ^ 67 := by
  rw [tagMake, BitVec.toNat_ofNat, Nat.mod_eq_of_lt]
  · cases v <;> cases clean <;> rfl
  · split <;> split <;> omega

theorem tagV_tagMake : tagV (tagMake v clean line sz block) = v := by
  rw [tagV, BitVec.getLsbD, toNat_tagMake v clean hl hs hb, Nat.testBit_eq_decide_div_mod_eq]
  cases v <;> simp <;> omega

theorem tagClean_tagMake : tagClean (tagMake v clean line sz block) = clean := by
  rw [tagClean, BitVec.getLsbD, toNat_tagMake v clean hl hs hb, Nat.testBit_eq_decide_div_mod_eq]
  have := Bool.toNat_lt v
  cases clean <;> simp <;> omega

theorem tagLine_tagMake : tagLine (tagMake v clean line sz block) = line := by
  rw [tagLine, BitVec.extractLsb'_toNat, toNat_tagMake v clean hl hs hb, Nat.shiftRight_eq_div_pow]
  have := Bool.toNat_lt v
  have := Bool.toNat_lt clean
  omega

theorem tagSz_tagMake : tagSz (tagMake v clean line sz block) = sz := by
  rw [tagSz, BitVec.extractLsb'_toNat, toNat_tagMake v clean hl hs hb, Nat.shiftRight_eq_div_pow]
  have := Bool.toNat_lt v
  have := Bool.toNat_lt clean
  omega

theorem tagBlock_tagMake : tagBlock (tagMake v clean line sz block) = block := by
  rw [tagBlock, BitVec.extractLsb'_toNat, toNat_tagMake v clean hl hs hb, Nat.shiftRight_eq_div_pow]
  have := Bool.toNat_lt v
  have := Bool.toNat_lt clean
  omega

end

/-! ## The lowest entry that an address hits (R213, R279) -/

/-- Looking for the first of a list that gives a value under a condition is looking for the first under the condition. -/
theorem findSome?_ite {α β : Type} (p : α → Bool) (f : α → β) (l : List α) :
    l.findSome? (fun x => if p x then some (f x) else none) = (l.find? p).map f := by
  induction l with
  | nil => rfl
  | cons x xs ih => by_cases hx : p x <;> simp [hx, ih]

/-- Entry i of the table. -/
def Core.tagEntry (c : Core) (i : Nat) : BitVec 128 := c.tags.get 0#128 (BitVec.ofNat 10 i)

theorem Core.tagFind_eq (c : Core) (p : BitVec 128 → Bool) : c.tagFind p =
    ((List.range 1024).find? (fun i => p (c.tagEntry i))).map (fun i => (BitVec.ofNat 10 i, c.tagEntry i)) := by
  rw [Core.tagFind, List.findSome?_map]
  exact findSome?_ite (fun i => p (c.tagEntry i)) (fun i => (BitVec.ofNat 10 i, c.tagEntry i)) (List.range 1024)

/-- An address in the address space hits entry i. -/
def Core.tagHit (c : Core) (a i : Nat) : Prop :=
  a < 2 ^ 56 ∧ tagV (c.tagEntry i) = true ∧ a / 512 / 2 ^ tagSz (c.tagEntry i) = tagBlock (c.tagEntry i) / 2 ^ tagSz (c.tagEntry i)

theorem Core.tagHits_iff (c : Core) {a : Nat} (i : Nat) (ha : a < 2 ^ 56) : tagHits (c.tagEntry i) a = true ↔ c.tagHit a i := by
  rw [tagHits, Bool.and_eq_true, decide_eq_true_eq, Core.tagHit, and_iff_right ha]

theorem tlookWord_none {c : Core} {a : Nat} (h : ∀ i, i < 1024 → ¬c.tagHit a i) : tlookWord c a = BitVec.allOnes 64 := by
  unfold tlookWord
  by_cases ha : 2 ^ 56 ≤ a
  · rw [if_pos ha]
  · have hnone : c.tagFind (fun e => tagHits e a) = none := by
      rw [c.tagFind_eq, List.find?_eq_none.mpr]
      · rfl
      · exact fun i hi => mt (c.tagHits_iff i (by omega)).mp (h i (List.mem_range.mp hi))
    rw [if_neg ha, hnone]

theorem tlookWord_some {c : Core} {a i : Nat} (hi : i < 1024) (h : c.tagHit a i) (hlow : ∀ j, j < i → ¬c.tagHit a j) :
    tlookWord c a = BitVec.ofNat 64 ((if tagClean (c.tagEntry i) then 2 ^ 62 else 0) + i * 2 ^ 32
      + (512 * tagLine (c.tagEntry i) + a % (512 * 2 ^ tagSz (c.tagEntry i))) % 2 ^ 25) := by
  have ha : a < 2 ^ 56 := h.1
  have hsome : c.tagFind (fun e => tagHits e a) = some (BitVec.ofNat 10 i, c.tagEntry i) := by
    have hfirst : (List.range 1024).find? (fun i => tagHits (c.tagEntry i) a) = some i :=
      List.find?_range_eq_some.mpr ⟨(c.tagHits_iff i ha).mpr h, List.mem_range.mpr hi, fun j hj => by
        simpa using mt (c.tagHits_iff j ha).mp (hlow j hj)⟩
    rw [c.tagFind_eq, hfirst]
    rfl
  unfold tlookWord
  rw [if_neg (by omega), hsome]
  simp only [BitVec.toNat_ofNat, Nat.mod_eq_of_lt (show i < 2 ^ 10 from hi)]

/-! ## `tset` and `tclr` (R280, R281) -/

theorem tsetBok_iff (sz : Nat) (b : Word) : tsetBok sz b = true ↔ b.extractLsb' 28 36 = 0#36 ∧
    (b.extractLsb' 10 16).toNat % 2 ^ sz = 0 ∧ (b.extractLsb' 10 16).toNat + 2 ^ sz ≤ 65536 := by
  simp only [tsetBok, Bool.and_eq_true, decide_eq_true_eq, field_eq_zero_iff _ _ (show 36 < 64 by decide),
    toNat_field_extract b 10 (show 16 < 64 by decide), and_assoc]

theorem tsetAok_iff (sz : Nat) (a : Word) : tsetAok sz a = true ↔ a.extractLsb' 56 8 = 0#8 ∧ a.extractLsb' 3 6 = 0#6 ∧
    (a.extractLsb' 9 47).toNat % 2 ^ sz = 0 := by
  simp only [tsetAok, Bool.and_eq_true, decide_eq_true_eq, field_eq_zero_iff _ _ (show 8 < 64 by decide),
    field_eq_zero_iff _ _ (show 6 < 64 by decide), toNat_field_extract a 9 (show 47 < 64 by decide), and_assoc]

/-- The entry that `tset` writes of its two operands (R280). -/
def tsetEntry (a b : Word) : BitVec 128 :=
  tagMake (bit b 27) (bit b 26) (field b 10 16).toNat (field a 0 3).toNat (field a 9 47).toNat

theorem tsetEntry_fields (a b : Word) : tagV (tsetEntry a b) = b.getLsbD 27 ∧ tagClean (tsetEntry a b) = b.getLsbD 26 ∧
    tagLine (tsetEntry a b) = (b.extractLsb' 10 16).toNat ∧ tagSz (tsetEntry a b) = (a.extractLsb' 0 3).toNat ∧
    tagBlock (tsetEntry a b) = (a.extractLsb' 9 47).toNat := by
  have hl := (b.extractLsb' 10 16).isLt
  have hs := (a.extractLsb' 0 3).isLt
  have hb := (a.extractLsb' 9 47).isLt
  rw [tsetEntry, toNat_field_extract b 10 (by decide), toNat_field_extract a 0 (by decide), toNat_field_extract a 9 (by decide)]
  exact ⟨tagV_tagMake _ _ hl hs hb, tagClean_tagMake _ _ hl hs hb, tagLine_tagMake _ _ hl hs hb, tagSz_tagMake _ _ hl hs hb,
    tagBlock_tagMake _ _ hl hs hb⟩

section
variable {a b : BitVec 5} {t : Option Tok} {s : State} (h : s.goes t)
include h

/-- A second operand that breaks the table of R280 traps with its value. -/
theorem exec_tset_refuses_b (hb : tsetBok (field (s.val a) 0 3).toNat (s.val b) = false) :
    exec (.tset a b t) s = .next (s.traps { code := 0x01#8, addr := s.val b }) :=
  runC_trap t (tsetBody a b) s s _ h (if_pos (congrArg Bool.not hb))

/-- Then a first operand that breaks it. -/
theorem exec_tset_refuses_a (hb : tsetBok (field (s.val a) 0 3).toNat (s.val b) = true)
    (ha : tsetAok (field (s.val a) 0 3).toNat (s.val a) = false) :
    exec (.tset a b t) s = .next (s.traps { code := 0x01#8, addr := s.val a }) :=
  runC_trap t (tsetBody a b) s s _ h ((if_neg (ne_true_of_eq_false (congrArg Bool.not hb))).trans
    (if_pos (congrArg Bool.not ha)))

/-- `tset` with operands that obey the table writes one entry. -/
theorem exec_tset_writes (hb : tsetBok (field (s.val a) 0 3).toNat (s.val b) = true)
    (ha : tsetAok (field (s.val a) 0 3).toNat (s.val a) = true) : exec (.tset a b t) s = .next (s.did (fun c =>
      { c with tags := c.tags.set ((s.val b).extractLsb' 0 10) (tsetEntry (s.val a) (s.val b)) }) t) := by
  rw [← truncate_eq_extractLsb' _ (by decide)]
  exact runC_done t (tsetBody a b) s _ h ((if_neg (ne_true_of_eq_false (congrArg Bool.not hb))).trans
    (if_neg (ne_true_of_eq_false (congrArg Bool.not ha)))) (by rw [State.core_modCore])

/-- `tclr` with a bit above 10 set traps with its operand. -/
theorem exec_tclr_refuses (ha : (s.val a).extractLsb' 11 53 ≠ 0#53) :
    exec (.tclr a t) s = .next (s.traps { code := 0x01#8, addr := s.val a }) :=
  runC_trap t (tclrBody a) s s _ h (if_pos (mt (field_eq_zero_iff _ _ (by decide)).mp ha))

/-- `tclr` clears every entry under bit 10, and else the one named. -/
theorem exec_tclr_clears (ha : (s.val a).extractLsb' 11 53 = 0#53) : exec (.tclr a t) s = .next (s.did (fun c =>
    { c with tags := if (s.val a).getLsbD 10 then [] else c.tags.erase ((s.val a).extractLsb' 0 10) }) t) := by
  rw [← truncate_eq_extractLsb' _ (by decide)]
  exact runC_done t (tclrBody a) s _ h (if_neg (not_not.mpr ((field_eq_zero_iff _ _ (by decide)).mpr ha)))
    (by rw [State.core_modCore])

end

/-- What `tclr` leaves of an entry. -/
theorem get_cleared (m : Bank (BitVec 10) (BitVec 128)) (all : Bool) (k i : BitVec 10) :
    Bank.get (if all then [] else m.erase k) 0#128 i = if all = true ∨ i = k then 0#128 else m.get 0#128 i := by
  cases all with
  | true => rfl
  | false =>
    by_cases hi : i = k
    · simp [hi, Bank.get_erase_same]
    · simp [hi, Bank.get_erase_ne _ _ _ _ hi]

/-- Settles O33: the operands of `tset` by `tsetBok_iff` and `tsetAok_iff`, its entry by `tsetEntry_fields`, the lowest hit by
`tlookWord_some`. -/
theorem tagTable : Obligations.TagTable := by
  unfold Obligations.TagTable
  intro d a b t s h va vb c sz line entry hit bok aok
  have hsz : (field va 0 3).toNat = sz := toNat_field_extract va 0 (by decide)
  have hbok : tsetBok (field va 0 3).toNat vb = true ↔ bok := hsz ▸ tsetBok_iff sz vb
  have haok : tsetAok (field va 0 3).toNat va = true ↔ aok := hsz ▸ tsetAok_iff sz va
  have tlook {w : Word} (hw : tlookWord c va.toNat = w) : exec (.tlook d a t) s = .next (s.puts d w t) :=
    hw ▸ runC_done t (tlookBody d a) s _ h rfl (by simp [State.setReg])
  refine ⟨fun hb => exec_tset_refuses_b h (eq_false_of_ne_true (mt hbok.mp hb)),
    fun hb ha => exec_tset_refuses_a h (hbok.mpr hb) (eq_false_of_ne_true (mt haok.mp ha)),
    fun hb ha => ⟨_, exec_tset_writes h (hbok.mpr hb) (haok.mpr ha), tsetEntry_fields va vb⟩, exec_tclr_refuses h,
    fun ha => ⟨_, exec_tclr_clears h ha, get_cleared c.tags (va.getLsbD 10) (va.extractLsb' 0 10)⟩,
    fun hnone => tlook (tlookWord_none hnone), fun i hi hhit hlow => tlook (tlookWord_some hi hhit hlow)⟩

end Sys2Proof.Machine

/-! Rings (R215, R216, R284, R285): the fields of a ring's descriptor, what filling in a descriptor, draining a slot and freeing
one leave of them, and the three instructions. -/

namespace Sys2Proof.Machine

/-! ## Writing a bit field (R2) -/

/-- Writing a bit field of a word gives the value's low bits there and leaves the others. -/
theorem getLsbD_setField (w : Word) (lo : Nat) {len : Nat} (v : Word) {j : Nat} (hj : j < 64) :
    (setField w lo len v).getLsbD j = if lo ≤ j ∧ j < lo + len then v.getLsbD (j - lo) else w.getLsbD j := by
  have hmask (n : Nat) : (BitVec.ofNat 64 (2 ^ len - 1)).getLsbD n = (decide (n < 64) && decide (n < len)) := by
    rw [BitVec.getLsbD_ofNat, Nat.testBit_two_pow_sub_one]
  simp only [setField, BitVec.getLsbD_or, BitVec.getLsbD_and, BitVec.getLsbD_not, BitVec.getLsbD_shiftLeft, hmask]
  by_cases hlo : j < lo
  · simp [hlo, hj, show ¬(lo ≤ j ∧ j < lo + len) by omega]
  · by_cases hhi : j < lo + len
    · simp [hlo, hj, show lo ≤ j ∧ j < lo + len by omega, show j - lo < 64 by omega, show j - lo < len by omega]
    · simp [hlo, hj, show ¬(lo ≤ j ∧ j < lo + len) by omega, show ¬j - lo < len by omega]

theorem getLsbD_field (w : Word) (lo : Nat) {len : Nat} (i : Nat) (h : len < 64) :
    (field w lo len).getLsbD i = (decide (i < len) && w.getLsbD (lo + i)) := by
  rw [BitVec.getLsbD, toNat_field w lo h, Nat.testBit_mod_two_pow, ← Nat.shiftRight_eq_div_pow, Nat.testBit_shiftRight, BitVec.getLsbD]

/-- A field reads back the low bits of what was written to it. -/
theorem field_setField_same (w v : Word) {lo len : Nat} (h : len < 64) (hfit : lo + len ≤ 64) :
    (field (setField w lo len v) lo len).toNat = v.toNat % 2 ^ len := by
  rw [← Nat.div_one v.toNat, ← Nat.pow_zero 2, ← toNat_field v 0 h]
  refine congrArg _ (BitVec.eq_of_getLsbD_eq fun i hi => ?_)
  rw [getLsbD_field _ _ _ h, getLsbD_field _ _ _ h]
  by_cases hl : i < len
  · rw [getLsbD_setField _ _ _ (by omega), if_pos (by omega), Nat.zero_add, Nat.add_sub_cancel_left]
  · simp [hl]

/-- A field stays when another is written. -/
theorem field_setField_ne (w v : Word) {lo len lo' len' : Nat} (h : len' < 64) (hfit : lo' + len' ≤ 64)
    (hd : lo + len ≤ lo' ∨ lo' + len' ≤ lo) : field (setField w lo len v) lo' len' = field w lo' len' := by
  refine BitVec.eq_of_getLsbD_eq fun i hi => ?_
  rw [getLsbD_field _ _ _ h, getLsbD_field _ _ _ h]
  by_cases hl : i < len'
  · rw [getLsbD_setField _ _ _ (by omega), if_neg (by omega)]
  · simp [hl]

/-- A bit stays when a field beside it is written. -/
theorem bit_setField_ne (w v : Word) {lo len i : Nat} (hi : i < 64) (hd : lo + len ≤ i ∨ i < lo) :
    bit (setField w lo len v) i = bit w i := by
  rw [bit, getLsbD_setField _ _ _ hi, if_neg (by omega), bit]

/-! ## A ring's descriptor (R215) -/

/-- What `ring.acq` and `ring.rel` leave of a descriptor: the number and place of the slots and the head. -/
structure Ring.SameShape (q r : Ring) : Prop where
  head : q.head = r.head
  count : q.count = r.count
  size : q.size = r.size
  base : q.base = r.base
  val : q.val = r.val

theorem Ring.tail_lt (r : Ring) : r.tail < 64 := by
  rw [Ring.tail, toNat_field _ _ (by decide)]
  exact Nat.mod_lt _ (by decide)

theorem Ring.filled_lt (r : Ring) : r.filled < 128 := by
  rw [Ring.filled, toNat_field _ _ (by decide)]
  exact Nat.mod_lt _ (by decide)

theorem Ring.count_le (r : Ring) : r.count ≤ 64 := by
  rw [Ring.count, toNat_field _ _ (by decide)]
  omega

theorem Ring.slot_setSlot_same (r : Ring) (i : Nat) (v : BitVec 6) : (r.setSlot i v).slot i = v := Bank.get_set_same ..

theorem Ring.slot_setSlot_ne (r : Ring) {i j : Nat} (v : BitVec 6) (hi : i < 64) (hj : j < 64) (h : j ≠ i) :
    (r.setSlot i v).slot j = r.slot j := by
  refine Bank.get_set_ne _ _ _ _ _ fun he => h ?_
  have := congrArg BitVec.toNat he
  simpa only [BitVec.toNat_ofNat, Nat.mod_eq_of_lt (show i < 2 ^ 6 from hi), Nat.mod_eq_of_lt (show j < 2 ^ 6 from hj)] using this

/-! ## `ring.init` (R284) -/

section
variable {off count size : Nat}

/-- The number whose bits are the descriptor that `ring.init` writes; the size's seventh bit stands apart. -/
theorem toNat_ringDesc (ho : off < 2 ^ 25) (hc : count ≤ 64) : ∃ e, e ≤ 1 ∧ (e = 1 ↔ 64 ≤ size / 32 - 1) ∧
    (ringDesc off count size).toNat = 2 ^ 63 + count * 2 ^ 44 + (count - 1) * 2 ^ 26 + ((size / 32 - 1) % 64) * 2 ^ 20 + e * 2 ^ 19
      + off / 64 := by
  rw [ringDesc, BitVec.toNat_ofNat]
  by_cases hu : 64 ≤ size / 32 - 1
  · exact ⟨1, by omega, by omega, by rw [if_pos hu]; omega⟩
  · exact ⟨0, by omega, by omega, by rw [if_neg hu]; omega⟩

/-- The ring that `ring.init` sets up. -/
def ringSetUp (off count size : Nat) : Ring := { desc := ringDesc off count size, slots := [] }

theorem ringSetUp_fields (ho : off < 2 ^ 25) (h64 : off % 64 = 0) (hc : 1 ≤ count) (hc' : count ≤ 64) (h32 : size % 32 = 0)
    (hs : 32 ≤ size) (hs' : size ≤ 4096) : let q := ringSetUp off count size
    q.val = true ∧ q.count = count ∧ q.size = size ∧ q.base = off ∧ q.head = 0 ∧ q.tail = 0 ∧ q.filled = 0 ∧ q.free = count := by
  obtain ⟨e, he, hu, hn⟩ := toNat_ringDesc (size := size) ho hc'
  have hbit (i : Nat) : bit (ringDesc off count size) i = decide ((ringDesc off count size).toNat / 2 ^ i % 2 = 1) :=
    Nat.testBit_eq_decide_div_mod_eq
  refine ⟨?val, ?count, ?size, ?base, ?head, ?tail, ?filled, ?free⟩
  case val =>
    rw [Ring.val, ringSetUp, hbit, decide_eq_true_eq]
    omega
  case size =>
    rw [Ring.size, ringSetUp, hbit, toNat_field _ _ (by decide)]
    simp only [decide_eq_true_eq]
    split <;> omega
  case count =>
    simp only [Ring.count, ringSetUp, toNat_field _ _ (show 6 < 64 by decide)]
    omega
  case base =>
    simp only [Ring.base, ringSetUp, toNat_field _ _ (show 19 < 64 by decide)]
    omega
  all_goals
    have hlow : (ringDesc off count size).toNat / 2 ^ 32 = 2 ^ 31 + count * 2 ^ 12 := by omega
    simp only [Ring.head, Ring.tail, Ring.filled, Ring.free, ringSetUp]
    rw [toNat_field _ _ (by decide)]
    clear hn
    omega

theorem ringSetUp_isEmpty (j : Nat) : (ringSetUp off count size).isEmpty j = true := by
  simp [Ring.isEmpty, Ring.slot, ringSetUp, Bank.get]

end

section
variable {d a b : BitVec 5} {t : Option Tok} {s : State} (h : s.goes t)
include h

/-- An operand outside the tower window traps `PERM` with its value. -/
theorem exec_ringInit_outside (hw : ¬(0xFFFFFFFE000000 ≤ (s.val a).toNat ∧ (s.val a).toNat < 2 ^ 56)) :
    exec (.ringInit d a b t) s = .next (s.traps { code := 0x05#8, addr := s.val a }) := by
  have hout : (s.val a).toNat < windowBase ∨ 2 ^ 56 ≤ (s.val a).toNat := by unfold windowBase; omega
  exact runC_trap t (ringInitBody d a b) s s _ h (if_pos hout)

omit h in
/-- Inside the window the three checks that follow decide. -/
theorem ringInitBody_inside (hw : 0xFFFFFFFE000000 ≤ (s.val a).toNat ∧ (s.val a).toNat < 2 ^ 56) :
    ringInitBody d a b s.exe s =
    let off := (s.val a).toNat - 0xFFFFFFFE000000
    let count := ((s.val b).extractLsb' 0 7).toNat
    let size := ((s.val b).extractLsb' 16 13).toNat
    if off % 64 ≠ 0 then .trap { code := 0x01#8, addr := s.val a } s
    else if ¬((s.val b).extractLsb' 7 9 = 0#9 ∧ (s.val b).extractLsb' 29 35 = 0#35 ∧ 1 ≤ count ∧ count ≤ 64 ∧ size % 32 = 0 ∧
        32 ≤ size ∧ size ≤ 4096) then .trap { code := 0x01#8, addr := s.val b } s
    else if 2 ^ 25 < off + count * size then .trap { code := 0x01#8, addr := s.val a } s
    else .done (s.modCore s.exe (fun c => c.setRing (d.truncate 4) (ringSetUp off count size))) := by
  have hin : ¬((s.val a).toNat < windowBase ∨ 2 ^ 56 ≤ (s.val a).toNat) := by unfold windowBase; omega
  refine (if_neg hin).trans ?_
  simp only [← toNat_field_extract (s.val b) 0 (show 7 < 64 by decide), ← toNat_field_extract (s.val b) 16 (show 13 < 64 by decide),
    ← field_eq_zero_iff (s.val b) 7 (show 9 < 64 by decide), ← field_eq_zero_iff (s.val b) 29 (show 35 < 64 by decide)]
  refine if_congr Iff.rfl rfl (if_congr ?_ rfl rfl)
  show _ ∨ _ ∨ _ ↔ _
  simp only [not_and_or, Nat.not_le, Nat.lt_one_iff]
  rfl

end

/-! ## `ring.acq` (R216, R285) -/

/-- The ring once its tail slot is being drained by an owner. -/
def Ring.drained (r : Ring) (who : BitVec 4) : Ring :=
  { r.setSlot r.tail (3#2 ++ who) with
      desc := setField (setField r.desc 51 7 (BitVec.ofNat 64 (r.filled - 1))) 38 6 (BitVec.ofNat 64 ((r.tail + 1) % r.count)) }

theorem Ring.acquireDrain_full {r : Ring} (who : BitVec 4) (h : r.isFull r.tail = true) :
    r.acquireDrain who = some (r.tail, r.drained who) := if_pos h

theorem Ring.acquireDrain_not_full {r : Ring} (who : BitVec 4) (h : r.isFull r.tail = false) : r.acquireDrain who = none :=
  if_neg (by rw [h]; decide)

theorem Ring.drained_slot (r : Ring) (who : BitVec 4) : (r.drained who).slot r.tail = (3#2 ++ who : BitVec 6) ∧
    ∀ j, j < 64 → j ≠ r.tail → (r.drained who).slot j = r.slot j :=
  ⟨r.slot_setSlot_same r.tail _, fun _ hj hne => r.slot_setSlot_ne _ r.tail_lt hj hne⟩

theorem Ring.drained_tail (r : Ring) (who : BitVec 4) : (r.drained who).tail = (r.tail + 1) % r.count := by
  have hlt : (r.tail + 1) % r.count < 64 := Nat.lt_of_lt_of_le (Nat.mod_lt _ (Nat.succ_pos _)) r.count_le
  rw [Ring.tail, Ring.drained, field_setField_same _ _ (by decide) (by decide), BitVec.toNat_ofNat]
  omega

theorem Ring.drained_filled (r : Ring) (who : BitVec 4) : (r.drained who).filled = r.filled - 1 := by
  have hlt := r.filled_lt
  rw [Ring.filled, Ring.drained, field_setField_ne _ _ (by decide) (by decide) (by decide),
    field_setField_same _ _ (by decide) (by decide), BitVec.toNat_ofNat]
  omega

theorem Ring.drained_free (r : Ring) (who : BitVec 4) : (r.drained who).free = r.free := by
  rw [Ring.free, Ring.drained, field_setField_ne _ _ (by decide) (by decide) (by decide),
    field_setField_ne _ _ (by decide) (by decide) (by decide), Ring.free]

/-- Fields below bit 38 and VAL stay when a field from bit 38 to bit 57 is written. -/
theorem Ring.SameShape.of_setField {q r : Ring} {lo len : Nat} (v : Word) (hlo : 38 ≤ lo) (hhi : lo + len ≤ 63)
    (hq : q.desc = setField r.desc lo len v) : q.SameShape r where
  head := by rw [Ring.head, hq, field_setField_ne _ _ (by decide) (by decide) (by omega), Ring.head]
  count := by rw [Ring.count, hq, field_setField_ne _ _ (by decide) (by decide) (by omega), Ring.count]
  size := by
    rw [Ring.size, hq, field_setField_ne _ _ (by decide) (by decide) (by omega), bit_setField_ne _ _ (by decide) (by omega), Ring.size]
  base := by rw [Ring.base, hq, field_setField_ne _ _ (by decide) (by decide) (by omega), Ring.base]
  val := by rw [Ring.val, hq, bit_setField_ne _ _ (by decide) (by omega), Ring.val]

theorem Ring.SameShape.trans {q r x : Ring} (h : q.SameShape r) (h' : r.SameShape x) : q.SameShape x :=
  ⟨h.head.trans h'.head, h.count.trans h'.count, h.size.trans h'.size, h.base.trans h'.base, h.val.trans h'.val⟩

theorem Ring.drained_sameShape (r : Ring) (who : BitVec 4) : (r.drained who).SameShape r :=
  Ring.SameShape.trans (r := { r with desc := setField r.desc 51 7 (BitVec.ofNat 64 (r.filled - 1)) })
    (.of_setField _ (by decide) (by decide) rfl) (.of_setField _ (by decide) (by decide) rfl)

/-! ## `ring.rel` (R216, R285) -/

/-- The ring once slot j is free again. -/
def Ring.slotFreed (r : Ring) (j : Nat) : Ring :=
  { r.setSlot j 0#6 with desc := setField r.desc 44 7 (BitVec.ofNat 64 (r.free + 1)) }

/-- The oldest slot that an owner holds is one that it may free. -/
theorem Ring.releaseDrain_oldest {r : Ring} {who : BitVec 4} {j : Nat} (h : r.oldestDraining who = some j) :
    r.releaseDrain who j = some (r.slotFreed j) := by
  have hj := List.find?_some h
  rw [Bool.and_eq_true, decide_eq_true_eq] at hj
  exact if_pos hj

theorem Ring.slotFreed_slot (r : Ring) {j : Nat} (hj : j < 64) : (r.slotFreed j).slot j = 0#6 ∧
    ∀ j', j' < 64 → j' ≠ j → (r.slotFreed j).slot j' = r.slot j' :=
  ⟨r.slot_setSlot_same j _, fun _ hj' hne => r.slot_setSlot_ne _ hj hj' hne⟩

theorem Ring.slotFreed_free (r : Ring) (j : Nat) (h : r.free < 127) : (r.slotFreed j).free = r.free + 1 := by
  rw [Ring.free, Ring.slotFreed, field_setField_same _ _ (by decide) (by decide), BitVec.toNat_ofNat]
  omega

theorem Ring.slotFreed_filled (r : Ring) (j : Nat) : (r.slotFreed j).filled = r.filled := by
  rw [Ring.filled, Ring.slotFreed, field_setField_ne _ _ (by decide) (by decide) (by decide), Ring.filled]

theorem Ring.slotFreed_tail (r : Ring) (j : Nat) : (r.slotFreed j).tail = r.tail := by
  rw [Ring.tail, Ring.slotFreed, field_setField_ne _ _ (by decide) (by decide) (by decide), Ring.tail]

theorem Ring.slotFreed_sameShape (r : Ring) (j : Nat) : (r.slotFreed j).SameShape r := .of_setField _ (by decide) (by decide) rfl

/-! ## The three instructions -/

section
variable {d a : BitVec 5} {t : Option Tok} {s : State} (h : s.goes t)
include h

/-- Both instructions of a ring that is not set up trap `PERM` with its number. -/
theorem exec_ring_not_set_up (hv : ((s.core s.exe).ring (a.truncate 4)).val = false) :
    exec (.ringAcq d a t) s = .next (s.traps { code := 0x05#8, addr := (a.truncate 4 : BitVec 4).zeroExtend 64 }) ∧
      exec (.ringRel a t) s = .next (s.traps { code := 0x05#8, addr := (a.truncate 4 : BitVec 4).zeroExtend 64 }) := by
  refine ⟨runC_trap t (ringAcqBody d a) s s _ h (if_pos (by rw [hv]; rfl)), runC_trap t (ringRelBody a) s s _ h ?_⟩
  simp only [ringRelBody, hv, Bool.false_eq_true, if_false]
  rfl

variable (hv : ((s.core s.exe).ring (a.truncate 4)).val = true)
include hv

theorem exec_ringAcq_waits (hf : ((s.core s.exe).ring (a.truncate 4)).isFull ((s.core s.exe).ring (a.truncate 4)).tail = false) :
    exec (.ringAcq d a t) s = .next (s.waits t) := by
  refine (runC_goes t (ringAcqBody d a) s h).trans ?_
  simp only [ringAcqBody, hv, Bool.not_true, Bool.false_eq_true, if_false, Ring.acquireDrain_not_full _ hf]
  rfl

theorem exec_ringAcq_drains (hf : ((s.core s.exe).ring (a.truncate 4)).isFull ((s.core s.exe).ring (a.truncate 4)).tail = true) :
    exec (.ringAcq d a t) s = .next ((s.awaited s.exe).did (fun c =>
      (c.setRing (a.truncate 4) (((s.core s.exe).ring (a.truncate 4)).drained (ctlOwner s.exe))).setReg d
        (BitVec.ofNat 64 (windowAddr (((s.core s.exe).ring (a.truncate 4)).slotOff ((s.core s.exe).ring (a.truncate 4)).tail)))) t) := by
  refine runC_done t (ringAcqBody d a) s _ h ?_ (by rw [show (s.awaited s.exe).exe = s.exe from rfl, State.core_modCore]; rfl)
  simp only [ringAcqBody, hv, Bool.not_true, Bool.false_eq_true, if_false, Ring.acquireDrain_full _ hf]
  rfl

theorem exec_ringRel_frees {j : Nat} (hj : ((s.core s.exe).ring (a.truncate 4)).oldestDraining (ctlOwner s.exe) = some j) :
    exec (.ringRel a t) s = .next (s.did (fun c =>
      c.setRing (a.truncate 4) (((s.core s.exe).ring (a.truncate 4)).slotFreed j)) t) := by
  refine runC_done t (ringRelBody a) s _ h ?_ (by rw [State.core_modCore]; rfl)
  simp only [ringRelBody, hv, if_true, hj, Option.bind_some, Ring.releaseDrain_oldest hj]
  rfl

theorem exec_ringRel_refused (hj : ((s.core s.exe).ring (a.truncate 4)).oldestDraining (ctlOwner s.exe) = none) :
    exec (.ringRel a t) s = .next (s.traps { code := 0x05#8, addr := (a.truncate 4 : BitVec 4).zeroExtend 64 }) := by
  refine runC_trap t (ringRelBody a) s s _ h ?_
  simp only [ringRelBody, hv, if_true, hj, Option.bind_none]
  rfl

end

/-- Settles O32: `ring.init` by its checks in order and the fields of its descriptor, `ring.acq` and `ring.rel` by what
`Ring.drained` and `Ring.slotFreed` leave of the ring. -/
theorem ringResults : Obligations.RingResults := by
  unfold Obligations.RingResults
  intro d a b t s h va vb off count size inside fits n r me
  refine ⟨exec_ringInit_outside h, fun hw h64 => ?align, fun hw h64 hf => ?misfit, fun hw h64 hf hend => ?beyond,
    fun hw h64 hf hend => ?setUp, exec_ring_not_set_up h, exec_ringAcq_waits h, fun hv hf => ?acq, fun j hv hj hlt hfree => ?rel,
    exec_ringRel_refused h⟩
  case align => exact runC_trap t _ s s _ h ((ringInitBody_inside hw).trans (if_pos h64))
  case misfit =>
    exact runC_trap t _ s s _ h ((ringInitBody_inside hw).trans ((if_neg (not_not.mpr h64)).trans (if_pos hf)))
  case beyond =>
    exact runC_trap t _ s s _ h ((ringInitBody_inside hw).trans
      ((if_neg (not_not.mpr h64)).trans ((if_neg (not_not.mpr hf)).trans (if_pos hend))))
  case setUp =>
    obtain ⟨-, -, hc, hc', h32, hs, hs'⟩ := id hf
    have hoff : off < 2 ^ 25 := by
      have : 0 < count * size := Nat.mul_pos (by omega) (by omega)
      omega
    obtain ⟨hval, hcount, hsize, hbase, hhead, htail, hfilled, hfree⟩ := ringSetUp_fields hoff h64 hc hc' h32 hs hs'
    exact ⟨ringSetUp off count size,
      runC_done t _ s _ h ((ringInitBody_inside hw).trans ((if_neg (not_not.mpr h64)).trans
        ((if_neg (not_not.mpr hf)).trans (if_neg (Nat.not_lt.mpr hend))))) (by rw [State.core_modCore]; rfl),
      hval, hcount, hsize, hbase, hhead, htail, hfilled, hfree, ringSetUp_isEmpty⟩
  case acq =>
    obtain ⟨hslot, hothers⟩ := r.drained_slot me
    obtain ⟨hhead, hcount, hsize, hbase, hval⟩ := r.drained_sameShape me
    have haddr : windowAddr (r.slotOff r.tail) = 0xFFFFFFFE000000 + r.base + r.tail * r.size := (Nat.add_assoc ..).symm
    exact ⟨r.drained me, haddr ▸ exec_ringAcq_drains h hv hf, hslot, hothers, r.drained_tail me, r.drained_filled me, hhead,
      r.drained_free me, hcount, hsize, hbase, hval.trans hv⟩
  case rel =>
    obtain ⟨hslot, hothers⟩ := r.slotFreed_slot hlt
    obtain ⟨hhead, hcount, hsize, hbase, hval⟩ := r.slotFreed_sameShape j
    exact ⟨r.slotFreed j, exec_ringRel_frees h hv hj, hslot, hothers, r.slotFreed_free j hfree, r.slotFreed_filled j, hhead,
      r.slotFreed_tail j, hcount, hsize, hbase, hval.trans hv⟩

end Sys2Proof.Machine

/-! Events of towers and translations (R200 to R204, R207, R241 to R243): what a refresh leaves of a subarray's marks, how many
translations a cache keeps of each kind, and what an invalidation leaves. -/

namespace Sys2Proof.Machine

/-! ## Marks -/

theorem Marks.has_iff (m : Marks) (n : Nat) : Marks.has m n = true ↔ n ∈ m := by simp [Marks.has]

theorem Marks.has_put (m : Marks) (n : Nat) (b : Bool) (x : Nat) : Marks.has (Marks.put m n b) x = if x = n then b else Marks.has m x := by
  rw [Bool.eq_iff_iff, Marks.has_iff]
  cases b with
  | false => by_cases hx : x = n <;> simp [Marks.put, hx, Marks.has_iff]
  | true =>
    by_cases hn : n ∈ m
    · by_cases hx : x = n <;> simp [Marks.put, hn, hx, Marks.has_iff]
    · by_cases hx : x = n <;> simp [Marks.put, hn, hx, Marks.has_iff]

theorem Marks.has_foldl_put (f : Nat → Nat) (l : List Nat) (m : Marks) (p : Nat) :
    Marks.has (l.foldl (fun m x => Marks.put m (f x) true) m) p = true ↔ Marks.has m p = true ∨ ∃ x ∈ l, f x = p := by
  induction l generalizing m with
  | nil => simp
  | cons x xs ih =>
    rw [List.foldl_cons, ih, Marks.has_put]
    by_cases hx : p = f x
    · simp [hx]
    · simp [hx, Ne.symm hx]

/-! ## Refresh (R200, R202, R204, R207) -/

/-- A word of 8 bytes lies in a subarray's rows. -/
def inSub (sub : BitVec 10) (x : Nat) : Prop := sub.toNat * 4224 ≤ x ∧ x < sub.toNat * 4224 + 4224

theorem inRange_sub (sub : BitVec 10) (x : Nat) : inRange (rowKey sub.toNat 0 / 8) 4224 x =
    (decide (sub.toNat * 4224 ≤ x) && decide (x < sub.toNat * 4224 + 4224)) := by
  have hw : rowKey sub.toNat 0 / 8 = sub.toNat * 4224 := by
    rw [rowKey]
    omega
  rw [inRange, hw]

theorem inRange_sub_iff (sub : BitVec 10) (x : Nat) : inRange (rowKey sub.toNat 0 / 8) 4224 x = true ↔ inSub sub x := by
  rw [inRange_sub, Bool.and_eq_true, decide_eq_true_eq, decide_eq_true_eq, inSub]

section
variable (t : Tower) (sub : BitVec 10)

theorem Tower.mem_refresh_err1 (x : Nat) : x ∈ (t.refresh sub).1.err1 ↔ x ∈ t.err1 ∧ ¬inSub sub x := by
  simp [Tower.refresh, ← inRange_sub_iff]

theorem Tower.mem_refresh_err2 (x : Nat) : x ∈ (t.refresh sub).1.err2 ↔ x ∈ t.err2 ∧ ¬inSub sub x := by
  simp [Tower.refresh, ← inRange_sub_iff]

theorem Tower.has_refresh_poison (p : Nat) : Marks.has (t.refresh sub).1.poison p = true ↔
    Marks.has t.poison p = true ∨ ∃ x ∈ t.err2, inSub sub x ∧ x / 4 = p := by
  refine (Marks.has_foldl_put (· / 4) _ t.poison p).trans ?_
  simp only [List.mem_filter, inRange_sub_iff, and_assoc]

theorem Tower.has_refresh_defer (n : Nat) : Marks.has (t.refresh sub).1.defer n = true ↔
    Marks.has t.defer n = true ∧ n ≠ sub.toNat := by
  refine (Bool.eq_iff_iff.mp (Marks.has_put t.defer sub.toNat false n)).trans ?_
  by_cases hn : n = sub.toNat <;> simp [hn]

/-- The event of a refresh is raised when it finds a word with more than one bit in error (R207). -/
theorem towerEvent_refresh (k : CoreId) (u : State) : towerEvent k (t.refresh sub).2 u =
    if (t.err2.filter (fun x => decide (sub.toNat * 4224 ≤ x) && decide (x < sub.toNat * 4224 + 4224))) = [] then u
    else u.modDie (dieOf k) (fun d => { d with events := d.events ++ [{ source := 2, detail := (tableOf k).toNat }] }) := by
  have hlen : (t.refresh sub).2 = (t.err2.filter (inRange (rowKey sub.toNat 0 / 8) 4224)).length := rfl
  rw [towerEvent, hlen, funext (inRange_sub sub)]
  exact if_congr List.length_eq_zero_iff rfl rfl

end

section
variable {k : CoreId} {sub : BitVec 10} {age : Nat} {s : State}

/-- The ages at which a subarray may be refreshed (R200). -/
def Tower.dueAt (t : Tower) (sub : BitVec 10) (age : Nat) : Prop := t.age.get 0 sub ≤ age ∧ t.earliest sub ≤ age ∧ age ≤ t.latest sub

theorem exec_subarrayRefresh_due (hp : (s.core k).tower.pinnedIn sub = none) (hd : (s.core k).tower.dueAt sub age) :
    exec (.subarrayRefresh k sub age) s = .next (towerEvent k ((s.core k).tower.refresh sub).2
      (s.modCore k (fun c => { c with tower := ((s.core k).tower.refresh sub).1 }))) := by
  obtain ⟨hold, hearly, hlate⟩ := hd
  refine congrArg Host.Outcome.next (if_pos ?_)
  simp [hp, hold, hearly, hlate]

theorem exec_subarrayRefresh_ages (h : (s.core k).tower.pinnedIn sub ≠ none ∨ ¬(s.core k).tower.dueAt sub age) :
    exec (.subarrayRefresh k sub age) s = .next (ageTo k sub age s) := by
  refine congrArg Host.Outcome.next (if_neg ?_)
  rw [Bool.and_eq_true, Bool.and_eq_true, Bool.and_eq_true, decide_eq_true_eq, decide_eq_true_eq, decide_eq_true_eq,
    Option.isNone_iff_eq_none]
  rintro ⟨⟨⟨hold, hearly⟩, hlate⟩, hp⟩
  exact h.elim (fun hn => hn hp) (fun hn => hn ⟨hold, hearly, hlate⟩)

theorem exec_forcedRefresh_unpinned (hp : (s.core k).tower.pinnedIn sub = none) :
    exec (.forcedRefresh k sub age) s = .next (ageTo k sub age s) := by
  simp only [exec_forcedRefresh, execForcedRefresh, hp]

theorem exec_forcedRefresh_pinned {n : BitVec 5} {l : Line} (hp : (s.core k).tower.pinnedIn sub = some (n, l)) :
    exec (.forcedRefresh k sub age) s = .next (if age = (s.core k).tower.latest sub then
      towerEvent k (((s.core k).tower.writeBack l).refresh sub).2 (s.modCore k (fun c => { c with tower :=
        let t := (((s.core k).tower.writeBack l).refresh sub).1
        { t with lines := t.lines.set n (some (t.capture l.row l.keep)) } }))
      else ageTo k sub age s) := by
  simp only [exec_forcedRefresh, execForcedRefresh, hp]

end

/-! ## Cached translations (R241) -/

/-- The entries of a list that stay in a cache that keeps `pages` of one kind and `ranges` of the other. -/
def tlbKept (pages ranges : Nat) (l : List TlbEntry) : List TlbEntry :=
  (l.zipIdx.filter (fun p => decide (((l.take p.2).filter (fun x => decide (x.range = p.1.range))).length <
    (if p.1.range then ranges else pages)))).map (fun p => p.1)

theorem tlbInsert_eq (pages ranges all : Nat) (e : TlbEntry) (l : List TlbEntry) :
    tlbInsert pages ranges all e l = (tlbKept pages ranges (e :: l.filter (fun x => decide (x ≠ e)))).take all := rfl

section
variable (pages ranges : Nat)

theorem tlbKept_append (l : List TlbEntry) (a : TlbEntry) : tlbKept pages ranges (l ++ [a]) = tlbKept pages ranges l ++
    if (l.filter (fun x => decide (x.range = a.range))).length < (if a.range then ranges else pages) then [a] else [] := by
  have hearlier : ∀ p ∈ l.zipIdx, (l ++ [a]).take p.2 = l.take p.2 := fun p hp =>
    List.take_append_of_le_length (Nat.le_of_lt (List.snd_lt_of_mem_zipIdx hp))
  have hlast : (l ++ [a]).take (0 + l.length) = l := by simp
  rw [tlbKept, List.zipIdx_append, List.filter_append, List.map_append, tlbKept]
  congr 1
  · refine congrArg _ (List.filter_congr fun p hp => ?_)
    rw [hearlier p hp]
  · rw [List.zipIdx_singleton]
    by_cases hlt : (l.filter (fun x => decide (x.range = a.range))).length < (if a.range then ranges else pages)
    · rw [if_pos hlt, List.filter_cons_of_pos (by exact decide_eq_true (by rwa [hlast]))]
      rfl
    · rw [if_neg hlt, List.filter_cons_of_neg (by simpa only [decide_eq_true_eq, hlast] using hlt)]
      rfl

/-- Of each kind as many entries stay as the cache has places for. -/
theorem length_filter_tlbKept (l : List TlbEntry) (c : Bool) :
    ((tlbKept pages ranges l).filter (fun x => decide (x.range = c))).length =
      min (if c then ranges else pages) (l.filter (fun x => decide (x.range = c))).length := by
  induction l using List.reverseRecOn with
  | nil => simp [tlbKept]
  | append_singleton l a ih =>
    rw [tlbKept_append, List.filter_append, List.length_append, ih, List.filter_append, List.length_append]
    by_cases hc : a.range = c
    · subst hc
      by_cases hlt : (l.filter (fun x => decide (x.range = a.range))).length < (if a.range then ranges else pages)
      · rw [if_pos hlt, List.filter_cons_of_pos (by exact decide_eq_true rfl)]
        simp only [List.filter_nil, List.length_singleton]
        omega
      · rw [if_neg hlt, List.filter_cons_of_pos (by exact decide_eq_true rfl)]
        simp only [List.filter_nil, List.length_singleton, List.length_nil]
        omega
    · split <;> simp [hc]

theorem mem_of_mem_tlbKept {l : List TlbEntry} {x : TlbEntry} (h : x ∈ tlbKept pages ranges l) : x ∈ l := by
  obtain ⟨p, hp, rfl⟩ := List.mem_map.mp h
  exact List.fst_mem_of_mem_zipIdx (List.mem_of_mem_filter hp)

theorem head?_tlbKept_cons {e : TlbEntry} (h : 0 < if e.range then ranges else pages) (l : List TlbEntry) :
    (tlbKept pages ranges (e :: l)).head? = some e := by
  rw [tlbKept, List.zipIdx_cons, List.filter_cons_of_pos (by exact decide_eq_true h)]
  rfl

theorem length_filter_tlbInsert (all : Nat) (e : TlbEntry) (l : List TlbEntry) (c : Bool) :
    ((tlbInsert pages ranges all e l).filter (fun x => decide (x.range = c))).length ≤ if c then ranges else pages := by
  rw [tlbInsert_eq]
  refine (((List.take_sublist _ _).filter _).length_le).trans ?_
  rw [length_filter_tlbKept]
  exact Nat.min_le_left _ _

end

/-! ## Invalidations (R242, R243) -/

/-- A change of every listed value that leaves the default shows at each key. -/
theorem Bank.get_map_value {κ α : Type} [DecidableEq κ] (g : κ → α → α) (m : Bank κ α) (d : α) (k : κ) (hd : g k d = d) :
    Bank.get (m.map (fun e => (e.1, g e.1 e.2))) d k = g k (Bank.get m d k) := by
  induction m with
  | nil => exact hd.symm
  | cons e rest ih =>
    by_cases hk : e.1 = k
    · subst hk
      simp [Bank.get]
    · simpa [Bank.get, hk] using ih

section
variable {d : DieId} {sd : Shootdown} {s : State}

/-- A core's cached translations, purged when it is of the die. -/
def Shootdown.purgeCore (sd : Shootdown) (d : DieId) (k : CoreId) (c : Core) : Core :=
  if dieOf k = d then { c with tlb := sd.purge c.tlb } else c

/-- A table's cached translations, purged when it is of the die. -/
def Shootdown.purgeTable (sd : Shootdown) (d : DieId) (tb : TableId) (t : Table) : Table :=
  if tableDie tb = d then { t with tlb := sd.purge t.tlb } else t

/-- The package once the entries that an invalidation names are gone. -/
def State.purged (s : State) (d : DieId) (sd : Shootdown) : State :=
  { s with cores := s.cores.map (fun e => (e.1, sd.purgeCore d e.1 e.2)), tables := s.tables.map (fun e => (e.1, sd.purgeTable d e.1 e.2)) }

theorem State.core_purged (k : CoreId) : (s.purged d sd).core k = sd.purgeCore d k (s.core k) :=
  Bank.get_map_value (sd.purgeCore d) s.cores {} k (by unfold Shootdown.purgeCore; split <;> rfl)

theorem State.table_purged (tb : TableId) : (s.purged d sd).table tb = sd.purgeTable d tb (s.table tb) :=
  Bank.get_map_value (sd.purgeTable d) s.tables {} tb (by unfold Shootdown.purgeTable; split <;> rfl)

/-- The package once an invalidation has ended. -/
def State.shotDown (s : State) (d : DieId) (sd : Shootdown) : State :=
  { (s.purged d sd).modDie d (fun x => { x with busy := none }) with
    late := s.late.filter (fun l => decide (dieOf l.core ≠ d))
    early := s.early.filter (fun e => decide (dieOf e.core ≠ d))
    spaces := if sd.all then s.spaces.set d { asdt := (s.die d).asdt, hbm := s.hbm } else s.spaces }

theorem exec_shootdownComplete_ends (hb : (s.die d).busy = some sd) (hf : s.inFlight d = false) :
    exec (.shootdownComplete d) s = .next (s.shotDown d sd) := by
  have hcore : (fun e : CoreId × Core => if dieOf e.1 = d then (e.1, { e.2 with tlb := sd.purge e.2.tlb }) else e) =
      fun e => (e.1, sd.purgeCore d e.1 e.2) := funext fun e => by
    unfold Shootdown.purgeCore
    split <;> rfl
  have htable : (fun e : TableId × Table => if tableDie e.1 = d then (e.1, { e.2 with tlb := sd.purge e.2.tlb }) else e) =
      fun e => (e.1, sd.purgeTable d e.1 e.2) := funext fun e => by
    unfold Shootdown.purgeTable
    split <;> rfl
  simp only [exec_shootdownComplete, execShootdownComplete, hb, hf, Bool.false_eq_true, if_false, hcore, htable, State.shotDown]
  cases hall : sd.all
  · rfl
  · simp only [State.freshSpaces, if_true, State.die_modDie]
    rfl

theorem Shootdown.mem_purge (l : List TlbEntry) (e : TlbEntry) : e ∈ sd.purge l ↔
    e ∈ l ∧ ¬((sd.all = true ∨ e.asid = sd.asid) ∧ e.first ≤ sd.last ∧ sd.first ≤ e.last) := by
  rw [Shootdown.purge, List.mem_filter, Bool.not_eq_true', ← Bool.not_eq_true]
  simp only [Shootdown.hits, Bool.and_eq_true, Bool.or_eq_true, decide_eq_true_eq, and_assoc]

theorem State.core_shotDown (k : CoreId) : (s.shotDown d sd).core k = sd.purgeCore d k (s.core k) := s.core_purged k

theorem State.table_shotDown (tb : TableId) : (s.shotDown d sd).table tb = sd.purgeTable d tb (s.table tb) := s.table_purged tb

theorem State.die_shotDown (d' : DieId) : (s.shotDown d sd).die d' = if d' = d then { s.die d with busy := none } else s.die d' := by
  by_cases h : d' = d
  · subst h
    rw [if_pos rfl]
    exact State.die_modDie (s.purged d' sd) d' (fun x => { x with busy := none })
  · rw [if_neg h]
    exact State.die_modDie_ne (s.purged d sd) d d' (fun x => { x with busy := none }) h

theorem Die.writeTictl_idle {x : Die} (v : Word) (hb : x.busy = none) : x.writeTictl v = if v.getLsbD 63 then
    { x with
      tictl := v &&& 0x1FFFF#64
      busy := some (if x.tilen.toNat = 0 then { asid := v.truncate 16, all := v.getLsbD 16, first := 0, last := 2 ^ 56 - 1 }
        else { asid := v.truncate 16, all := v.getLsbD 16, first := (field x.tiva 12 44).toNat * 4096
               last := (field x.tiva 12 44).toNat * 4096 + x.tilen.toNat * 4096 - 1 }) }
    else { x with tictl := v &&& 0x1FFFF#64 } := by
  have hkeep : keepBits v 0 17 = v &&& 0x1FFFF#64 := keepBits_eq_and v 0 17
  simp only [Die.writeTictl, hb, Option.isSome_none, Bool.false_eq_true, if_false, hkeep, bit]
  split
  · split <;> rfl
  · rfl

end

/-- Settles O51: a refresh by what it leaves of each kind of mark, the caches by `tlbKept`, an invalidation by `State.shotDown`. -/
theorem towerEvents : Obligations.TowerEvents := by
  unfold Obligations.TowerEvents
  refine ⟨?refresh, ?walk, ?caches, ?tictl, ?shootdown⟩
  case refresh =>
    intro k sub age s T put w here lost old kept' latest earliest due kept
    refine ⟨fun hp hd => ⟨(T.refresh sub).1, ?due, T.mem_refresh_err1 sub, T.mem_refresh_err2 sub, ?poison, T.has_refresh_defer sub,
      rfl⟩, exec_subarrayRefresh_ages, exec_forcedRefresh_unpinned,
      fun n l hp => ⟨fun hage => ?early, fun hage => ?forced⟩, rfl, rfl⟩
    case due => exact (exec_subarrayRefresh_due hp hd).trans (congrArg Host.Outcome.next (towerEvent_refresh T sub k _))
    case poison => exact T.has_refresh_poison sub
    case early => exact (exec_forcedRefresh_pinned hp).trans (congrArg Host.Outcome.next (if_neg hage))
    case forced =>
      intro t1 t2 t3
      exact (exec_forcedRefresh_pinned hp).trans (congrArg Host.Outcome.next
        ((if_pos hage).trans (towerEvent_refresh t1 sub k _)))
  case walk =>
    intro k va use s c walk s1
    refine ⟨fun hin => ?_, fun hout => congrArg Host.Outcome.next (if_pos hout)⟩
    have hrun : exec (.translationWalk k ⟨va, use⟩) s = .next (match walk with
        | .wait => s
        | .xlate => s1
        | .ok e =>
          if e.denies c.sup use then s1
          else (s1.modCore k (fun c => { c with tlb := tlbInsert 64 8 72 (s.cachePiece (dieOf k) va.toNat e) c.tlb })).modTable
            (tableOf k) (fun t => { t with tlb := tlbInsert 2048 2048 2048 (s.cachePiece (dieOf k) va.toNat e) t.tlb })) :=
      congrArg Host.Outcome.next (if_neg (Nat.not_le.mpr hin))
    refine ⟨fun e hw => ⟨fun hdeny => ?_, fun hdeny => ?_⟩, fun hw => ?_, fun hw => ?_⟩ <;> rw [hrun, hw]
    · exact congrArg Host.Outcome.next (if_pos hdeny)
    · exact congrArg Host.Outcome.next (if_neg (by rw [hdeny]; decide))
  case caches =>
    intro pages ranges all e x l hpages hranges hall
    have hkind : 0 < if e.range then ranges else pages := by split <;> assumption
    refine ⟨?head, fun hx => ?mem, List.length_take_le .., ?pages, ?ranges⟩
    case head =>
      rw [tlbInsert_eq, List.head?_take, if_neg (by omega)]
      exact head?_tlbKept_cons pages ranges hkind _
    case mem =>
      rw [tlbInsert_eq] at hx
      obtain rfl | hx := List.mem_cons.mp (mem_of_mem_tlbKept pages ranges (List.mem_of_mem_take hx))
      · exact .inl rfl
      · exact .inr (List.mem_of_mem_filter hx)
    case pages => simpa using length_filter_tlbInsert pages ranges all e l false
    case ranges => simpa using length_filter_tlbInsert pages ranges all e l true
  case tictl =>
    intro d v s x base n
    refine ⟨fun hb => ?busy, fun hb hv => ?go, fun hb hv => ?noGo⟩
    case busy => exact congrArg (fun y => Host.Outcome.next (s.setDie d y)) (if_pos hb)
    case go => exact congrArg (fun y => Host.Outcome.next (s.setDie d y)) ((x.writeTictl_idle v hb).trans (if_pos hv))
    case noGo =>
      exact congrArg (fun y => Host.Outcome.next (s.setDie d y)) ((x.writeTictl_idle v hb).trans (if_neg (by rw [hv]; decide)))
  case shootdown =>
    intro d sd s hb gone
    refine ⟨fun hf => ?inFlight, fun hf => ⟨s.shotDown d sd, exec_shootdownComplete_ends hb hf, fun k => ?core, fun tb => ?table,
      State.die_shotDown, rfl⟩⟩
    case inFlight => simp only [exec_shootdownComplete, execShootdownComplete, hb, hf, if_true]
    case core =>
      rw [State.core_shotDown, Shootdown.purgeCore]
      by_cases hk : dieOf k = d
      · rw [if_pos hk]
        exact ⟨fun _ => Shootdown.mem_purge _, rfl, fun hn => absurd hk hn⟩
      · rw [if_neg hk]
        exact ⟨fun hd => absurd hd hk, rfl, fun _ => rfl⟩
    case table =>
      rw [State.table_shotDown, Shootdown.purgeTable]
      by_cases ht : tableDie tb = d
      · rw [if_pos ht]
        exact ⟨fun _ => Shootdown.mem_purge _, rfl, fun hn => absurd ht hn⟩
      · rw [if_neg ht]
        exact ⟨fun hd => absurd hd ht, rfl, fun _ => rfl⟩

end Sys2Proof.Machine

/-! Events of the package (R209, R295, R297, R441 to R445): what a step done for each core of a die or table leaves of each, the
march test and the spare core, firmware and measurements, functions that fail, and the clock. -/

namespace Sys2Proof.Machine

/-! ## A step done for each of several parts -/

section
variable {σ κ α β : Type}

/-- Steps that each change one part change each part named once. -/
theorem foldl_parts [DecidableEq κ] (get : σ → κ → α) (f : σ → κ → σ) (g : κ → α → α)
    (h : ∀ s k k', get (f s k) k' = if k' = k then g k (get s k) else get s k') (s : σ) {ks : List κ} (hks : ks.Nodup) (k' : κ) :
    get (ks.foldl f s) k' = if k' ∈ ks then g k' (get s k') else get s k' := by
  induction ks generalizing s with
  | nil => simp
  | cons k ks ih =>
    obtain ⟨hk, hks⟩ := List.nodup_cons.mp hks
    rw [List.foldl_cons, ih _ hks, h]
    by_cases hk' : k' = k
    · subst hk'
      simp [hk]
    · simp [hk']

/-- Steps that each keep something keep it. -/
theorem foldl_keeps (get : σ → β) (f : σ → κ → σ) (h : ∀ s k, get (f s k) = get s) (s : σ) (ks : List κ) :
    get (ks.foldl f s) = get s := by
  induction ks generalizing s with
  | nil => rfl
  | cons k ks ih => rw [List.foldl_cons, ih, h]

end

theorem State.core_modCore_if (s : State) (k k' : CoreId) (f : Core → Core) :
    (s.modCore k f).core k' = if k' = k then f (s.core k) else s.core k' := by
  split
  next h => rw [h, State.core_modCore]
  next h => exact State.core_modCore_ne _ _ _ _ h

theorem State.die_modDie_if (s : State) (d d' : DieId) (f : Die → Die) :
    (s.modDie d f).die d' = if d' = d then f (s.die d) else s.die d' := by
  split
  next h => rw [h, State.die_modDie]
  next h => exact State.die_modDie_ne _ _ _ _ h

/-! ## Cores by die, table and seat (R23) -/

theorem tableOf_coreAt (tb : TableId) (x : BitVec 4) : tableOf (coreAt tb x) = tb :=
  (BitVec.extractLsb'_append_eq_of_le (by decide)).trans (BitVec.extractLsb'_eq_self (x := tb))

theorem coreAt_seatOf (k : CoreId) : coreAt (tableOf k) (seatOf k) = k := BitVec.extractLsb'_append_extractLsb' (w := 7) (len := 4)

theorem mem_tableCores {tb : TableId} {k : CoreId} : k ∈ tableCores tb ↔ tableOf k = tb := by
  rw [tableCores, List.mem_map]
  constructor
  · rintro ⟨i, -, rfl⟩
    exact tableOf_coreAt ..
  · rintro rfl
    exact ⟨(seatOf k).toNat, List.mem_range.mpr (seatOf k).isLt, by rw [BitVec.ofNat_toNat, BitVec.setWidth_eq, coreAt_seatOf]⟩

/-- The cores of a die. -/
def dieCores (d : DieId) : List CoreId := (List.range 256).map (fun i => (d ++ BitVec.ofNat 8 i : CoreId))

theorem mem_dieCores {d : DieId} {k : CoreId} : k ∈ dieCores d ↔ dieOf k = d := by
  rw [dieCores, List.mem_map]
  constructor
  · rintro ⟨i, -, rfl⟩
    exact (BitVec.extractLsb'_append_eq_of_le (by decide)).trans (BitVec.extractLsb'_eq_self (x := d))
  · rintro rfl
    refine ⟨(k.extractLsb' 0 8).toNat, List.mem_range.mpr (k.extractLsb' 0 8).isLt, ?_⟩
    rw [BitVec.ofNat_toNat, BitVec.setWidth_eq]
    exact BitVec.extractLsb'_append_extractLsb' (w := 3) (len := 8)

theorem dieCores_nodup (d : DieId) : (dieCores d).Nodup := by
  refine List.Nodup.map_on (fun i hi j hj hij => ?_) List.nodup_range
  have hlow (n : Nat) : ((d ++ BitVec.ofNat 8 n : CoreId)).extractLsb' 0 8 = BitVec.ofNat 8 n :=
    (BitVec.extractLsb'_append_eq_of_add_le (by decide)).trans BitVec.extractLsb'_eq_self
  have hx := congrArg BitVec.toNat ((hlow i).symm.trans ((congrArg (BitVec.extractLsb' 0 8) hij).trans (hlow j)))
  rw [BitVec.toNat_ofNat, BitVec.toNat_ofNat] at hx
  have := List.mem_range.mp hi
  have := List.mem_range.mp hj
  omega

theorem tableNo_toNat (tb : TableId) : (tableNo tb).toNat = tb.toNat % 16 := by
  rw [tableNo, BitVec.extractLsb'_toNat, Nat.shiftRight_zero]

/-! ## DREADY (R441) -/

theorem getLsbD_one_shiftLeft {i : Nat} (hi : i < 24) (j : Nat) : (1#24 <<< i).getLsbD j = decide (j = i) := by
  rw [BitVec.getLsbD_shiftLeft, BitVec.getLsbD_one]
  by_cases hj : j = i
  · subst hj
    simp [hi]
  · by_cases hlt : j < i
    · simp [hlt, hj]
    · simp [hlt, hj, show j - i ≠ 0 by omega]

theorem Die.getLsbD_setReady (x : Die) {i : Nat} (hi : i < 24) (j : Nat) :
    (x.setReady i true).dready.getLsbD j = (x.dready.getLsbD j || decide (j = i)) := by
  rw [← getLsbD_one_shiftLeft hi j]
  exact BitVec.getLsbD_or

/-! ## Resets (R32) -/

theorem State.core_resetCore (s : State) (k k' : CoreId) :
    (resetCore s k).core k' = if k' = k then (s.core k).resetState else s.core k' :=
  State.core_modCore_if { (s.leaveQueues k).performed k with hbm := s.hbm.map (fun e => (e.1, e.2.disown k)) } k k' Core.resetState

theorem State.core_foldl_resetCore (s : State) (tb : TableId) (k : CoreId) : ((tableCores tb).foldl resetCore s).core k =
    if tableOf k = tb then (s.core k).resetState else s.core k := by
  rw [foldl_parts State.core resetCore (fun _ => Core.resetState) State.core_resetCore s (tableCores_nodup tb)]
  exact if_congr mem_tableCores rfl rfl

theorem State.dies_foldl_resetCore (s : State) (ks : List CoreId) : (ks.foldl resetCore s).dies = s.dies :=
  foldl_keeps State.dies resetCore (fun _ _ => rfl) s ks

theorem Tower.dropPins_cells (t : Tower) : t.dropPins.cells = t.cells :=
  foldl_keeps Tower.cells (fun t (e : BitVec 5 × Option Line) => match e.2 with
      | some l => t.noteFree l.row
      | none => t) (fun t e => by cases e.2 <;> rfl) t t.lines

/-- A core in its reset state, but for a tower without pins, is reset. -/
theorem State.CoreReset.of_core {s : State} {k : CoreId} {c : Core} {t : Tower} (h : s.core k = { c.resetState with tower := t })
    (ht : ∀ n, t.line n = none) : s.CoreReset k where
  pc := by rw [h]; rfl
  idle := by rw [h]; exact ⟨rfl, rfl⟩
  cst := by rw [h]; rfl
  regs r := by
    rw [State.reg, h]
    show Ctl.reg {} r = 0#64
    unfold Ctl.reg
    split <;> rfl
  trapRegs := by rw [h]; exact ⟨rfl, rfl, rfl, rfl⟩
  sysRegs := by rw [h]; exact ⟨rfl, rfl, rfl, rfl, rfl, rfl, rfl, rfl⟩
  preds := by rw [h]; exact ⟨rfl, fun p hp => if_neg hp⟩
  tiles := by rw [h]; exact ⟨fun _ => rfl, fun _ => rfl, rfl⟩
  shapes _ := by rw [h]; rfl
  queues e := by rw [h]; cases e <;> rfl
  tokens q := by
    rw [h]
    show Toks.held {} q = 0
    unfold Toks.held
    split <;> rfl
  lines n := by rw [h]; exact ht n
  rings _ := by rw [h]; exact (by decide : Ring.val {} = false)
  tags _ := by rw [h]; exact (by decide : tagV 0#128 = false)
  seat := by rw [h]; exact ⟨rfl, rfl⟩

/-! ## The boot march test (R295, R297, R442) -/

/-- No seat of table t of a die counts as faulty. -/
def Die.sound (x : Die) (t : Nat) : Prop := ∀ n ∈ x.faulty, n / 16 ≠ t

theorem State.faultySeats_isEmpty_iff (s : State) (tb : TableId) :
    (s.faultySeats tb).isEmpty = true ↔ (s.die (tableDie tb)).sound (tb.toNat % 16) := by
  rw [State.faultySeats, tableNo_toNat, List.isEmpty_iff, List.filter_eq_nil_iff]
  simp only [decide_eq_true_eq]
  rfl

theorem State.mayBoot_iff (s : State) (tb : TableId) : s.mayBoot tb = true ↔
    (s.die (tableDie tb)).verified = true ∧ (s.die (tableDie tb)).dready.getLsbD (tb.toNat % 16) = false ∧ (s.table tb).task = none ∧
      Marks.has (s.die (tableDie tb)).booting (tb.toNat % 16) = false ∧ Marks.has (s.die (tableDie tb)).spent (tb.toNat % 16) = false ∧
      (s.die (tableDie tb)).sound (tb.toNat % 16) := by
  simp only [State.mayBoot, Bool.and_eq_true, Bool.not_eq_true', Option.isNone_iff_eq_none, State.tableReady, tableNo_toNat,
    State.faultySeats_isEmpty_iff, and_assoc]

/-- What the seats, dies and dealer are once a table has entered its march test. -/
theorem bootTable_starts (tb : TableId) (s : State) (h : s.mayBoot tb = true) :
    ((bootTable tb s).die (tableDie tb)).booting = Marks.put (s.die (tableDie tb)).booting (tb.toNat % 16) true ∧
      ((bootTable tb s).table tb).succ = some 0#51 ∧
      ∀ k, tableOf k = tb → (bootTable tb s).core k = (s.core k).resetState.boot := by
  have hboot (u : State) (k : CoreId) : ((tableCores tb).foldl (fun s k => s.modCore k Core.boot) u).core k =
      if k ∈ tableCores tb then (u.core k).boot else u.core k :=
    foldl_parts State.core _ (fun _ => Core.boot) (fun s k k' => s.core_modCore_if k k' Core.boot) u (tableCores_nodup tb) k
  have hdies (u : State) : ((tableCores tb).foldl (fun s k => s.modCore k Core.boot) u).dies = u.dies :=
    foldl_keeps State.dies (fun s k => s.modCore k Core.boot) (fun _ _ => rfl) u _
  rw [bootTable, if_pos h]
  refine ⟨?die, ?table, fun k hk => ?core⟩
  case die =>
    rw [State.die_modDie, State.die_modTable, State.die, hdies, tableNo_toNat]
    exact congrArg (fun x : Bank DieId Die => Marks.put (x.get {} (tableDie tb)).booting _ true) (s.dies_foldl_resetCore (tableCores tb))
  case table => rw [State.table_modDie, State.table_modTable]
  case core =>
    rw [State.core_modDie, State.core_modTable, hboot, if_pos (mem_tableCores.mpr hk), resetTable, State.core_modTable,
      State.core_foldl_resetCore, if_pos hk]

/-- A die once its table t has passed, if no seat of it is faulty and it has not used its spare and failed again. -/
def Die.passed (x : Die) (t : Nat) : Die :=
  if (x.faulty.filter (fun n => decide (n / 16 = t))).isEmpty && !Marks.has x.spent t then x.setReady t true else x

theorem passTable_modDie (tb : TableId) (s : State) (f : Die → Die) : passTable tb (s.modDie (tableDie tb) f) =
    s.modDie (tableDie tb) (fun x => (f x).passed (tb.toNat % 16)) := by
  have hmod (g : Die → Die) (hg : g (s.die (tableDie tb)) = (f (s.die (tableDie tb))).passed (tb.toNat % 16)) :
      s.modDie (tableDie tb) g = s.modDie (tableDie tb) (fun x => (f x).passed (tb.toNat % 16)) :=
    congrArg (s.setDie (tableDie tb)) hg
  rw [passTable, State.faultySeats, State.die_modDie, tableNo_toNat]
  split
  next hsound =>
    rw [State.modDie_modDie]
    refine hmod _ ?_
    simp only [Die.passed, hsound, Bool.true_and]
    cases Marks.has (f (s.die (tableDie tb))).spent (tb.toNat % 16) <;> rfl
  next hsound =>
    refine hmod f ?_
    simp only [Die.passed, hsound, Bool.false_and, Bool.false_eq_true, if_false]

section
variable (x : Die) {t : Nat} (ht : t < 24)
include ht

theorem Die.getLsbD_passed (i : Nat) : (x.passed t).dready.getLsbD i = true ↔
    x.dready.getLsbD i = true ∨ (i = t ∧ x.sound t ∧ Marks.has x.spent t = false) := by
  have hsound : (x.faulty.filter (fun n => decide (n / 16 = t))).isEmpty = true ↔ x.sound t := by
    rw [List.isEmpty_iff, List.filter_eq_nil_iff]
    simp only [decide_eq_true_eq]
    rfl
  by_cases hp : x.sound t ∧ Marks.has x.spent t = false
  · rw [Die.passed, if_pos (by rw [hsound.mpr hp.1, hp.2]; rfl), x.getLsbD_setReady ht, Bool.or_eq_true, decide_eq_true_eq,
      and_iff_left hp]
  · rw [Die.passed, if_neg (by rwa [Bool.and_eq_true, Bool.not_eq_true', hsound]), and_iff_right_of_imp] <;> simp [hp]

omit ht in
theorem Die.passed_eq (t : Nat) : x.passed t = { x with dready := (x.passed t).dready } := by
  unfold Die.passed
  split <;> rfl

end

section
variable (tb : TableId) (s : State)

/-- A core's summary word shows a failure. -/
def State.marchFails (s : State) (k : CoreId) : Prop := bytesToNat ((s.core k).tower.read 0 8) % 4 ≠ 0

theorem State.marchFails_coreAt {tb : TableId} {k : CoreId} (hk : tableOf k = tb) (hf : s.marchFails k) :
    s.marchFails (tb ++ seatOf k) := by
  have hat : (tb ++ seatOf k : CoreId) = k := hk ▸ coreAt_seatOf k
  rwa [hat]

/-- The seats of a table whose summary words show a failure. -/
def State.marchBad (s : State) (tb : TableId) : List CoreId :=
  (tableCores tb).filter (fun k => summaryFails (bytesToNat ((s.core k).tower.read 0 8)))

theorem State.mem_marchBad {k : CoreId} : k ∈ s.marchBad tb ↔ tableOf k = tb ∧ s.marchFails k := by
  rw [State.marchBad, List.mem_filter, mem_tableCores, summaryFails, decide_eq_true_eq]
  rfl

theorem State.exists_mem_marchBad (p : BitVec 4 → Prop) : (∃ k ∈ s.marchBad tb, p (seatOf k)) ↔
    ∃ a : BitVec 4, p a ∧ s.marchFails (tb ++ a) := by
  constructor
  · rintro ⟨k, hk, hp⟩
    obtain ⟨rfl, hf⟩ := (s.mem_marchBad tb).mp hk
    exact ⟨seatOf k, hp, s.marchFails_coreAt rfl hf⟩
  · rintro ⟨a, hp, hf⟩
    exact ⟨coreAt tb a, (s.mem_marchBad tb).mpr ⟨tableOf_coreAt tb a, hf⟩, (seatOf_coreAt tb a).symm ▸ hp⟩

theorem State.two_le_marchBad : 2 ≤ (s.marchBad tb).length ↔
    ∃ a b : BitVec 4, a ≠ b ∧ s.marchFails (tb ++ a) ∧ s.marchFails (tb ++ b) := by
  have hnodup : (s.marchBad tb).Nodup := (tableCores_nodup tb).filter _
  rw [← List.toFinset_card_of_nodup hnodup, Nat.succ_le_iff, Finset.one_lt_card]
  simp only [List.mem_toFinset]
  constructor
  · rintro ⟨k, hk, k', hk', hne⟩
    obtain ⟨rfl, hf⟩ := (s.mem_marchBad tb).mp hk
    obtain ⟨htb, hf'⟩ := (s.mem_marchBad _).mp hk'
    refine ⟨seatOf k, seatOf k', fun he => hne ?_, s.marchFails_coreAt rfl hf, s.marchFails_coreAt htb hf'⟩
    rw [← coreAt_seatOf k, he, ← htb, coreAt_seatOf]
  · rintro ⟨a, b, hne, ha, hb⟩
    refine ⟨coreAt tb a, (s.mem_marchBad tb).mpr ⟨tableOf_coreAt tb a, ha⟩, coreAt tb b,
      (s.mem_marchBad tb).mpr ⟨tableOf_coreAt tb b, hb⟩, fun he => hne ?_⟩
    simpa using congrArg seatOf he

/-- A die once the march test of table tb has been read, before the table may pass. -/
def Die.marched (x : Die) (tb : TableId) (bad : List CoreId) : Die :=
  { x with
    booting := Marks.put x.booting (tb.toNat % 16) false
    faulty := x.faulty ++ bad.map (fun k => faultyNo tb (seatOf k))
    spent := if 2 ≤ bad.length ∨ ((x.seatmap.get 0#8 (tableNo tb)).getLsbD 7 ∧ bad ≠ []) then Marks.put x.spent (tb.toNat % 16) true
      else x.spent }

theorem marchDone_reads (hb : Marks.has (s.die (tableDie tb)).booting (tb.toNat % 16) = true) (he : s.tableEnded tb = true)
    (hclean : ∀ k, tableOf k = tb → ((s.core k).tower.scrub 0 8).2 = (0, 0)) : marchDone tb s =
    s.modDie (tableDie tb) (fun _ => ((s.die (tableDie tb)).marched tb (s.marchBad tb)).passed (tb.toNat % 16)) := by
  have hscrub (ks : List CoreId) (hks : ∀ k ∈ ks, tableOf k = tb) : ks.foldl (fun s k => s.scrubTower k 0 8) s = s := by
    induction ks with
    | nil => rfl
    | cons k ks ih =>
      rw [List.foldl_cons, s.scrubTower_of_clean k 0 8 (hclean k (hks k (by simp))), ih fun k' hk' => hks k' (by simp [hk'])]
  rw [marchDone, tableNo_toNat]
  rw [if_pos (by rw [hb, he]; rfl), hscrub _ fun k hk => mem_tableCores.mp hk]
  exact passTable_modDie tb s (fun x => (x.marched tb (s.marchBad tb)))

theorem Die.mem_marched_faulty (x : Die) (n : Nat) : n ∈ (x.marched tb (s.marchBad tb)).faulty ↔
    n ∈ x.faulty ∨ ∃ seat : BitVec 4, n = tb.toNat % 16 * 16 + seat.toNat ∧ s.marchFails (tb ++ seat) := by
  rw [Die.marched, List.mem_append, List.mem_map, ← s.exists_mem_marchBad tb fun a => n = tb.toNat % 16 * 16 + a.toNat]
  simp only [faultyNo, tableNo_toNat, eq_comm]

theorem Die.has_marched_spent (x : Die) : Marks.has (x.marched tb (s.marchBad tb)).spent (tb.toNat % 16) = true ↔
    Marks.has x.spent (tb.toNat % 16) = true ∨
      (∃ a b : BitVec 4, a ≠ b ∧ s.marchFails (tb ++ a) ∧ s.marchFails (tb ++ b)) ∨
      ((x.seatmap.get 0#8 (tb.extractLsb' 0 4)).getLsbD 7 = true ∧ ∃ a : BitVec 4, s.marchFails (tb ++ a)) := by
  have hany : s.marchBad tb ≠ [] ↔ ∃ a : BitVec 4, s.marchFails (tb ++ a) := by
    rw [← List.isEmpty_eq_false_iff, List.isEmpty_eq_false_iff_exists_mem]
    simpa using s.exists_mem_marchBad tb fun _ => True
  rw [← hany, ← s.two_le_marchBad, Die.marched]
  by_cases h : 2 ≤ (s.marchBad tb).length ∨ ((x.seatmap.get 0#8 (tableNo tb)).getLsbD 7 = true ∧ s.marchBad tb ≠ [])
  · rw [if_pos h, Marks.has_put, if_pos rfl]
    exact iff_of_true rfl (.inr h)
  · rw [if_neg h]
    exact (or_iff_left h).symm

end

/-! ## Firmware (R443) -/

theorem getLsbD_or_ite (x : BitVec 24) (b : Bool) {i : Nat} (hi : i < 24) (j : Nat) :
    (x ||| (if b = true then 1#24 <<< i else 0#24)).getLsbD j = (x.getLsbD j || (b && decide (j = i))) := by
  rw [BitVec.getLsbD_or]
  cases b with
  | false => rw [if_neg Bool.false_ne_true, BitVec.getLsbD_zero, Bool.false_and]
  | true => rw [if_pos rfl, getLsbD_one_shiftLeft hi, Bool.true_and]

/-- The cores with the known-bad rows of a blob in their remap tables. -/
def State.knownBad (s : State) (d : DieId) (blob : List (Nat × BitVec 8)) : State := (dieCores d).foldl (writeKnownBad blob) s

section
variable (s : State) (d : DieId) (fw blob : List (Nat × BitVec 8))

theorem State.dies_knownBad : (s.knownBad d blob).dies = s.dies := by
  rw [State.knownBad]
  exact foldl_keeps State.dies (writeKnownBad blob) (fun _ _ => rfl) s _

theorem State.die_knownBad (d' : DieId) : (s.knownBad d blob).die d' = s.die d' := by
  rw [State.die, State.dies_knownBad, State.die]

theorem State.stack_knownBad (st : StackId) : (s.knownBad d blob).stack st = s.stack st := by
  rw [State.stack, State.knownBad, foldl_keeps State.hbm (writeKnownBad blob) (fun _ _ => rfl), State.stack]

theorem State.knownBad_frame : s.knownBad d blob = { s with cores := (s.knownBad d blob).cores } := by
  have h (ks : List CoreId) : ks.foldl (writeKnownBad blob) s = { s with cores := (ks.foldl (writeKnownBad blob) s).cores } :=
    congrArg (fun u : State => { u with cores := (ks.foldl (writeKnownBad blob) s).cores })
      (foldl_keeps (fun s : State => { s with cores := [] }) (writeKnownBad blob) (fun _ _ => rfl) s ks)
  rw [State.knownBad]
  exact h _

theorem State.core_knownBad (k : CoreId) : (s.knownBad d blob).core k = if dieOf k = d then
      { s.core k with tower := { (s.core k).tower with remap := putRemap (s.core k).tower.remap (Config.knownBad blob k) } }
    else s.core k := by
  rw [State.knownBad, foldl_parts State.core (writeKnownBad blob)
    (fun k c => { c with tower := { c.tower with remap := putRemap c.tower.remap (Config.knownBad blob k) } })
    (fun s k k' => (s.core_modCore_if k k' _).trans (by split <;> simp only [*])) s (dieCores_nodup d)]
  exact if_congr mem_dieCores rfl rfl

/-- DREADY of a die once firmware and blob are accepted: DC, and the stacks that have trained. -/
def State.bootReady (s : State) (d : DieId) : BitVec 24 :=
  let near := (s.stack (0#1 ++ d)).trained
  (s.die d).dready ||| 1#24 <<< 21 ||| (if near then 1#24 <<< 16 else 0#24) |||
    (if near && (s.stack (1#1 ++ d)).trained then 1#24 <<< 17 else 0#24)

theorem startFirmware_eq : startFirmware d fw blob s = (s.knownBad d blob).modDie d (fun _ =>
    { s.die d with verified := true, firmware := fw, blob := blob, dready := s.bootReady d }) := by
  show readyStacks d ((s.knownBad d blob).modDie d _) = _
  rw [readyStacks, State.modDie_modDie, State.bootReady, ← s.stack_knownBad d blob, ← s.stack_knownBad d blob,
    ← s.die_knownBad d blob]
  generalize s.knownBad d blob = u
  rfl

theorem State.getLsbD_bootReady (i : Nat) : (s.bootReady d).getLsbD i = true ↔ (s.die d).dready.getLsbD i = true ∨ i = 21 ∨
    (i = 16 ∧ (s.stack (0#1 ++ d)).trained = true) ∨
    (i = 17 ∧ (s.stack (0#1 ++ d)).trained = true ∧ (s.stack (1#1 ++ d)).trained = true) := by
  rw [State.bootReady, getLsbD_or_ite _ _ (by decide), getLsbD_or_ite _ _ (by decide), BitVec.getLsbD_or,
    getLsbD_one_shiftLeft (by decide)]
  simp only [Bool.or_eq_true, Bool.and_eq_true, decide_eq_true_eq, or_assoc, and_comm]

end

/-! ## Measurements (R443) -/

/-- What an SPDM answer is cut from. -/
def State.measurements (s : State) : List (BitVec 384 × List (BitVec 8) × List (BitVec 8)) :=
  [measured (s.romBytes 0#3), measured (s.die 0#3).firmware, measured (s.die 0#3).blob] ++
    s.remaps.map (fun m => measured (remapBytes m))

section
variable (s : State)

theorem State.length_remaps : s.remaps.length = 2176 := by
  rw [State.remaps, List.length_append, List.length_map, List.length_range, List.length_map, allTables, List.length_map,
    List.length_range]

theorem State.getElem?_remaps_seat {n : Nat} (hn : n < 2048) : s.remaps[n]? = some (s.core (BitVec.ofNat 11 n)).tower.remap := by
  rw [State.remaps, List.getElem?_append_left (by rwa [List.length_map, List.length_range]), List.getElem?_map,
    List.getElem?_range hn, Option.map_some]

theorem State.getElem?_remaps_idle (tb : TableId) : s.remaps[2048 + tb.toNat]? = some (s.idleRemap tb) := by
  rw [State.remaps, List.getElem?_append_right (by rw [List.length_map, List.length_range]; omega), List.length_map,
    List.length_range, Nat.add_sub_cancel_left, List.getElem?_map, allTables, List.getElem?_map, List.getElem?_range tb.isLt,
    Option.map_some, Option.map_some, BitVec.ofNat_toNat, BitVec.setWidth_eq]

theorem State.length_measurements : s.measurements.length = 2179 := by
  rw [State.measurements, List.length_append, List.length_map, s.length_remaps]
  rfl

theorem State.getElem?_measurements (n : Nat) :
    s.measurements[n + 3]? = (s.remaps[n]?).map (fun m => measured (remapBytes m)) := by
  rw [State.measurements, List.getElem?_append_right (Nat.le_add_left 3 n), ← List.getElem?_map]
  rfl

end

/-! ## The spare core (R442) -/

theorem spareTower_line (blob : List (Nat × BitVec 8)) (tb : TableId) (repairs : List (BitVec 11 × BitVec 32)) (n : BitVec 5) :
    (spareTower blob tb repairs).line n = none := by
  rw [spareTower]
  rfl

/-- The package once a tower has taken the place of a core's. -/
def State.spared (s : State) (k : CoreId) (t : Tower) : State := (resetCore s k).modCore k (fun c => { c with tower := t })

theorem State.core_spared (s : State) (k k' : CoreId) (t : Tower) :
    (s.spared k t).core k' = if k' = k then { (s.core k).resetState with tower := t } else s.core k' := by
  rw [State.spared, State.core_modCore_if, State.core_resetCore, if_pos rfl, State.core_resetCore]
  split <;> rfl

/-- A die once the spare core of its table t stands at a seat, before the table may pass. -/
def Die.takenOver (x : Die) (t seat : BitVec 4) (old : Bank (BitVec 11) (BitVec 32)) : Die :=
  { x with
    seatmap := x.seatmap.set t (8#4 ++ seat), retired := x.retired.set t old
    faulty := Marks.put x.faulty (t.toNat * 16 + seat.toNat) false }

theorem spareCoreTakeover_moves (tb : TableId) (seat : BitVec 4) (repairs : List (BitVec 11 × BitVec 32)) (s : State) :
    let d := tableDie tb
    let t : BitVec 4 := tb.extractLsb' 0 4
    let x := s.die d
    let k : CoreId := tb ++ seat
    let n := t.toNat * 16 + seat.toNat
    Marks.has x.faulty n = true → (x.seatmap.get 0#8 t).getLsbD 7 = false →
      ∃ u, exec (.spareCoreTakeover tb ⟨seat, repairs⟩) s = .next u ∧
        u.CoreReset k ∧ (u.core k).tower = spareTower x.blob tb repairs ∧ (∀ k', k' ≠ k → u.core k' = s.core k') ∧
        (∀ d', d' ≠ d → u.die d' = s.die d') ∧
        u.die d = { x with seatmap := x.seatmap.set t (8#4 ++ seat), faulty := (u.die d).faulty, dready := (u.die d).dready
                           retired := x.retired.set t (s.core k).tower.remap } ∧
        (∀ q, Marks.has (u.die d).faulty q = true ↔ Marks.has x.faulty q = true ∧ q ≠ n) ∧
        (∀ i, (u.die d).dready.getLsbD i = true ↔ x.dready.getLsbD i = true ∨
          (i = t.toNat ∧ (∀ q ∈ (u.die d).faulty, q / 16 ≠ t.toNat) ∧ Marks.has x.spent t.toNat = false)) := by
  intro d t x k n hfaulty hfree
  have hu : exec (.spareCoreTakeover tb ⟨seat, repairs⟩) s = .next ((s.spared k (spareTower x.blob tb repairs)).modDie d
      (fun x => (x.takenOver t seat (s.core k).tower.remap).passed (tb.toNat % 16))) := by
    rw [exec_spareCoreTakeover, execSpareCoreTakeover]
    refine congrArg _ ((if_neg ?_).trans (passTable_modDie tb (s.spared k (spareTower x.blob tb repairs)) _))
    rw [Bool.or_eq_true, Bool.not_eq_true', not_or]
    exact ⟨fun h => Bool.false_ne_true (h.symm.trans hfaulty), fun h => Bool.false_ne_true (hfree.symm.trans h)⟩
  have hk : (s.spared k (spareTower x.blob tb repairs)).core k = { (s.core k).resetState with tower := spareTower x.blob tb repairs } :=
    (s.core_spared k k _).trans (if_pos rfl)
  refine ⟨_, hu, State.CoreReset.of_core hk (spareTower_line x.blob tb repairs), ?tower, fun k' hk => ?core, fun d' hd => ?dies, ?die,
    fun q => ?faulty, fun i => ?ready⟩
  case tower => rw [State.core_modDie, hk]
  case core => exact (s.core_spared k k' _).trans (if_neg hk)
  case dies => exact State.die_modDie_ne _ _ _ _ hd
  all_goals rw [State.die_modDie, Die.passed_eq]
  case die => rfl
  case faulty =>
    show Marks.has (Marks.put x.faulty n false) q = true ↔ _
    rw [Marks.has_put]
    by_cases hq : q = n <;> simp [hq]
  case ready =>
    show (Die.passed _ (tb.toNat % 16)).dready.getLsbD i = true ↔ _
    rw [← tableNo_toNat, Die.getLsbD_passed _ (by have := (tableNo tb).isLt; omega)]
    rfl

/-! ## Functions that fail (R441, R454) -/

theorem mem_allDies (d : DieId) : d ∈ allDies :=
  List.mem_map.mpr ⟨d.toNat, List.mem_range.mpr d.isLt, by rw [BitVec.ofNat_toNat, BitVec.setWidth_eq]⟩

theorem portFails_die (p : BitVec 5) (s : State) (d : DieId) :
    (portFails p s).die d = { s.die d with events := (s.die d).events ++ [{ source := 4, detail := p.toNat }] } :=
  (foldl_parts State.die (fun s d => s.event d 4 p.toNat) (fun _ x => { x with events := x.events ++ [{ source := 4, detail := p.toNat }] })
    (fun s d d' => (s.die_modDie_if d d' _).trans (by split <;> simp only [*])) _ (by decide) d).trans (if_pos (mem_allDies d))

theorem portFails_up (p : BitVec 5) (s : State) : (portFails p s).fabric.up = s.fabric.up &&& ~~~(1#24 <<< p.toNat) :=
  congrArg Fabric.up (foldl_keeps State.fabric (fun s d => s.event d 4 p.toNat) (fun _ _ => rfl) _ allDies)

theorem portFails_portUp {p : BitVec 5} (hp : p.toNat < 24) (s : State) : (portFails p s).fabric.portUp p = false := by
  rw [Fabric.portUp, portFails_up, BitVec.getLsbD_and, BitVec.getLsbD_not, getLsbD_one_shiftLeft hp]
  simp

section
variable (d : DieId) {i : Nat} (s : State)

/-- The port whose ready bit is bit i of a die. -/
def portOf (d : DieId) (i : Nat) : BitVec 5 := BitVec.ofNat 5 (3 * d.toNat + (i - 18))

theorem portOf_toNat (hi : 18 ≤ i ∧ i ≤ 20) : (portOf d i).toNat = 3 * d.toNat + (i - 18) := by
  have := d.isLt
  rw [portOf, BitVec.toNat_ofNat, Nat.mod_eq_of_lt (by omega)]

theorem loseFunction_port (hi : 18 ≤ i ∧ i ≤ 20) : loseFunction d i s = portFails (portOf d i) s := by
  rw [loseFunction, if_neg (by omega), if_neg (by omega), if_pos hi]
  rfl

theorem loseFunction_dies (hi : ¬(18 ≤ i ∧ i ≤ 20)) : (loseFunction d i s).dies = s.dies := by
  rw [loseFunction, if_neg hi]
  split
  · rfl
  · split
    · rfl
    · split <;> rfl

theorem loseFunction_dready : ((loseFunction d i s).die d).dready = (s.die d).dready := by
  by_cases hi : 18 ≤ i ∧ i ≤ 20
  · rw [loseFunction_port d s hi, portFails_die]
  · exact congrArg (fun x : Bank DieId Die => (x.get {} d).dready) (loseFunction_dies d s hi)

end

theorem readyBitClear_loses (d : DieId) (i : BitVec 5) (s : State) :
    let loses := loseFunction d i.toNat s
    ((s.die d).dready.getLsbD i.toNat = false → exec (.readyBitClear d i) s = .next s) ∧
    ((s.die d).dready.getLsbD i.toNat = true → exec (.readyBitClear d i) s = .next (loses.modDie d (fun x =>
        { x with dready := x.dready &&& ~~~(1#24 <<< i.toNat), events := x.events ++ [{ source := 5, detail := i.toNat }] })) ∧
      (i.toNat < 18 ∨ 20 < i.toNat → loses.dies = s.dies) ∧
      (∀ d', 18 ≤ i.toNat → i.toNat ≤ 20 → loses.die d' = { s.die d' with
        events := (s.die d').events ++ [{ source := 4, detail := 3 * d.toNat + (i.toNat - 18) }] }) ∧
      (i = 16#5 → (loses.stack (0#1 ++ d)).trained = false) ∧ (i = 17#5 → (loses.stack (1#1 ++ d)).trained = false) ∧
      (∀ p : BitVec 5, 18 ≤ i.toNat → i.toNat ≤ 20 → p.toNat = 3 * d.toNat + (i.toNat - 18) → loses.fabric.portUp p = false) ∧
      (i = 23#5 → loses.pkg.link = none)) := by
  intro loses
  rw [exec_readyBitClear, execReadyBitClear]
  refine ⟨fun h => by rw [h]; rfl, fun h => ⟨?clears, ?dies, fun d' h1 h2 => ?events, ?near, ?far, fun p h1 h2 hp => ?port, ?link⟩⟩
  case clears =>
    rw [if_pos h]
    exact congrArg _ ((clearReady_eq d i.toNat loses).trans (if_pos (by rw [loseFunction_dready, h])))
  case dies => exact fun h => loseFunction_dies d s (by omega)
  case events =>
    show (loseFunction d i.toNat s).die d' = _
    rw [loseFunction_port d s ⟨h1, h2⟩, portFails_die, portOf_toNat d ⟨h1, h2⟩]
  case near =>
    rintro rfl
    rw [show loses = s.modStack (0#1 ++ d) (fun x => { x with trained := false }) from if_pos rfl, State.stack_modStack]
  case far =>
    rintro rfl
    rw [show loses = s.modStack (1#1 ++ d) (fun x => { x with trained := false }) from (if_neg (by decide)).trans (if_pos rfl),
      State.stack_modStack]
  case port =>
    have hport : p = portOf d i.toNat := BitVec.eq_of_toNat_eq (hp.trans (portOf_toNat d ⟨h1, h2⟩).symm)
    show (loseFunction d i.toNat s).fabric.portUp p = false
    have := d.isLt
    rw [loseFunction_port d s ⟨h1, h2⟩, ← hport]
    exact portFails_portUp (by omega) s
  case link => rintro rfl; rfl

/-! ## Power (R445) -/

theorem plimOf_toNat (v : Word) : (plimOf v).toNat =
    if v.toNat % 4096 < 1000 then 1000 else if 3200 < v.toNat % 4096 then 3200 else v.toNat % 4096 := by
  have hfield : (field v 0 12).toNat = v.toNat % 4096 := by simp [toNat_field]
  rw [plimOf, BitVec.toNat_ofNat, hfield, Nat.mod_eq_of_lt (by omega)]
  split
  · omega
  · split <;> omega


/-- Settles O57: each event by what its fold leaves of each core and die. -/
theorem packageEvents : Obligations.PackageEvents := by
  unfold Obligations.PackageEvents
  refine ⟨fun d fw blob s => ?firmware, fun first count s => ?spdm, fun tb s => ?march, fun tb seat repairs s => ?spare,
    readyBitClear_loses, fun d v s => ⟨rfl, rfl⟩, fun d tgt s => ?forward, fun v watts s => ?power⟩
  case firmware =>
    intro ok
    rw [exec_firmwareVerify, execFirmwareVerify]
    refine ⟨fun h => ?once, fun hv hr h => ?recovery, fun hv hr hf hb => ?runs⟩
    case once => rw [if_pos (by rwa [Bool.or_eq_true])]
    case recovery =>
      rw [if_neg (by rw [hv, hr]; exact Bool.false_ne_true), if_neg]
      rw [Bool.and_eq_true]
      rintro ⟨hf, hb⟩
      exact h.elim (fun h => Bool.false_ne_true (h.symm.trans hf)) fun h => Bool.false_ne_true (h.symm.trans hb)
    case runs =>
      rw [if_neg (by rw [hv, hr]; exact Bool.false_ne_true), if_pos (by rw [Bool.and_eq_true]; exact ⟨hf, hb⟩)]
      refine ⟨_, rfl, ?frame, fun d' hd => ?others, ?die, fun i _ => ?ready, fun k => ?core⟩
      all_goals rw [startFirmware_eq]
      case frame =>
        have hframe := s.knownBad_frame d blob.bytes
        generalize s.knownBad d blob.bytes = u at hframe
        rw [hframe]
        rfl
      case others => rw [State.die_modDie_ne _ _ _ _ hd, State.die_knownBad]
      case die => rw [State.die_modDie]
      case ready => rw [State.die_modDie]; exact s.getLsbD_bootReady d i
      case core => simp only [State.core_modDie, State.core_knownBad, putRemap]
  case spdm =>
    intro x m
    rw [exec_spdmMeasurement, execSpdmMeasurement]
    refine ⟨fun hv => congrArg _ (if_neg (by rw [hv]; exact Bool.false_ne_true)), fun hv => ⟨s.measurements, ?answer,
      s.length_measurements, rfl, rfl, rfl, fun n hn => ?seats, fun tb => ?idle⟩⟩
    case answer => exact congrArg _ (if_pos hv)
    case seats => rw [State.getElem?_measurements, State.getElem?_remaps_seat s hn]; rfl
    case idle => rw [show 2051 + tb.toNat = 2048 + tb.toNat + 3 by omega, State.getElem?_measurements, State.getElem?_remaps_idle]; rfl
  case march =>
    intro d t x none_
    refine ⟨fun h => ?waits, fun hv hr ht hb hs hn => ?boots, fun h => ?under, fun hb he hclean => ?ends, fun hv => ?early,
      fun hv => ?ready⟩
    case waits =>
      refine if_neg fun hmay => ?_
      obtain ⟨hv, hr, ht, hb, hs, hn⟩ := (s.mayBoot_iff tb).mp hmay
      rcases h with h | h | h | h | h | h
      · exact Bool.false_ne_true (h.symm.trans hv)
      · exact Bool.false_ne_true (hr.symm.trans h)
      · rw [ht] at h; exact Bool.false_ne_true h
      · exact Bool.false_ne_true (hb.symm.trans h)
      · exact Bool.false_ne_true (hs.symm.trans h)
      · exact h hn
    case boots =>
      obtain ⟨hdie, htable, hcores⟩ := bootTable_starts tb s ((s.mayBoot_iff tb).mpr ⟨hv, hr, ht, hb, hs, hn⟩)
      refine ⟨_, rfl, ?mark, htable, fun k hk => ?core⟩
      case mark =>
        show Marks.has ((bootTable tb s).die d).booting t = true
        rw [hdie, Marks.has_put, if_pos rfl]
      case core =>
        show ((bootTable tb s).core k).front = _ ∧ ((bootTable tb s).core k).seat = _ ∧ ((bootTable tb s).core k).ctl = _ ∧
          ((bootTable tb s).core k).tower.cells = _
        rw [hcores k hk]
        exact ⟨rfl, rfl, rfl, (s.core k).tower.dropPins_cells⟩
    case under =>
      show marchDone tb s = s
      rw [marchDone, tableNo_toNat]
      refine if_neg ?_
      rw [Bool.and_eq_true]
      rintro ⟨hb, he⟩
      exact h.elim (fun h => Bool.false_ne_true (h.symm.trans hb)) fun h => Bool.false_ne_true (h.symm.trans he)
    case ends =>
      intro fails
      have ht : t < 24 := by omega
      refine ⟨_, marchDone_reads tb s hb he hclean, ?mark, fun n => ?faulty, fun i hi => ?others, fun hn hs => ?passes, fun hn => ?fails,
        ?spent⟩
      case others => rw [Bool.eq_iff_iff, Die.getLsbD_passed _ ht]; exact or_iff_left fun h => hi h.1
      case passes => exact (Die.getLsbD_passed _ ht t).mpr (.inr ⟨rfl, by rw [Die.passed_eq] at hn hs; exact ⟨hn, hs⟩⟩)
      case fails =>
        rw [Bool.eq_iff_iff, Die.getLsbD_passed _ ht]
        exact or_iff_left fun h => hn (by rw [Die.passed_eq]; exact h.2.1)
      all_goals rw [Die.passed_eq]
      case mark => exact (Marks.has_put x.booting t false t).trans (if_pos rfl)
      case faulty => exact Die.mem_marched_faulty tb s x n
      case spent => exact Die.has_marched_spent tb s x
    case early => exact if_neg (by rw [hv]; exact Bool.false_ne_true)
    case ready => exact if_pos hv
  case spare =>
    intro d t x k n
    refine ⟨fun h => congrArg _ (if_pos ?_), spareCoreTakeover_moves tb seat repairs s⟩
    rw [Bool.or_eq_true, Bool.not_eq_true']
    exact h
  case forward =>
    rw [exec_eventForward, execEventForward]
    refine ⟨fun h => by rw [h], fun e rest h => ⟨?host, fun k => ?core⟩⟩
    case host => rintro rfl; rw [h]; rfl
    case core => rintro rfl; rw [h]; rfl
  case power =>
    intro p w lim moved
    refine ⟨⟨plimOf v, rfl, plimOf_toNat v⟩, ?_⟩
    rw [exec_powerCapInterval, execPowerCapInterval]
    refine ⟨fun h => ⟨fun hc => ?slower, fun hc => ?slowest⟩, fun h h95 => ⟨fun hc => ?faster, fun hc => ?fastest⟩,
      fun h h95 => ?holds⟩
    case slower => exact congrArg _ ((if_pos h).trans (if_pos hc))
    case slowest => exact congrArg _ ((if_pos h).trans (if_neg (Nat.not_lt.mpr hc)))
    case faster => exact congrArg _ ((if_neg (Nat.not_lt.mpr h)).trans ((if_pos h95).trans (if_pos hc)))
    case fastest => exact congrArg _ ((if_neg (Nat.not_lt.mpr h)).trans ((if_pos h95).trans (if_neg (Nat.not_lt.mpr hc))))
    case holds => exact congrArg _ ((if_neg (Nat.not_lt.mpr h)).trans (if_neg (Nat.not_lt.mpr h95)))

end Sys2Proof.Machine

/-! Vector loads, stores, gathers and scatters (R206, R267, R269 to R271): the place of an active element among the bytes
that move, the runs and checks of a row, rows formed from bytes. -/

namespace Sys2Proof.Machine

/-! ## The place of an element among those selected -/

section
variable {f : Nat → Bool} {N e : Nat} (hon : f e = true) (he : e < N)
include hon he

/-- A selected number splits the selected ones into those below it and the rest. -/
theorem filter_range_split : ∃ rest, (List.range N).filter f = (List.range e).filter f ++ e :: rest := by
  obtain ⟨m, rfl⟩ : ∃ m, N = e + (1 + m) := ⟨N - e - 1, by omega⟩
  refine ⟨(((List.range m).map (1 + ·)).map (e + ·)).filter f, ?_⟩
  rw [List.range_add, List.range_add, List.filter_append, List.map_append, List.filter_append]
  simp [hon]

theorem idxOf_filter_range : ((List.range N).filter f).idxOf e = ((List.range e).filter f).length := by
  obtain ⟨rest, h⟩ := filter_range_split hon he
  rw [h, List.idxOf_append_of_notMem (by simp), List.idxOf_cons_self, Nat.add_zero]

theorem findIdx?_filter_range : ((List.range N).filter f).findIdx? (fun q => decide (q = e)) = some ((List.range e).filter f).length := by
  obtain ⟨rest, h⟩ := filter_range_split hon he
  have hnone : ((List.range e).filter f).findIdx? (fun q => decide (q = e)) = none := by
    rw [List.findIdx?_eq_none_iff]
    intro q hq
    have := List.mem_range.mp (List.mem_filter.mp hq).1
    exact decide_eq_false (by omega)
  rw [h, List.findIdx?_append, hnone, List.findIdx?_cons]
  simp

end

theorem length_filter_blocks (f : Nat → Bool) {wb : Nat} (hwb : 0 < wb) (m : Nat) :
    ((List.range (m * wb)).filter (fun j => f (j / wb))).length = ((List.range m).filter f).length * wb := by
  induction m with
  | zero => simp
  | succ m ih =>
    have hblock : (((List.range wb).map (m * wb + ·)).filter (fun j => f (j / wb))) =
        if f m = true then (List.range wb).map (m * wb + ·) else [] := by
      have hj : ∀ j ∈ (List.range wb).map (m * wb + ·), j / wb = m := by
        intro j hj
        obtain ⟨i, hi, rfl⟩ := List.mem_map.mp hj
        rw [Nat.add_comm, Nat.add_mul_div_right _ _ hwb, Nat.div_eq_of_lt (List.mem_range.mp hi), Nat.zero_add]
      split
      next h => exact List.filter_eq_self.mpr fun j h' => by rw [hj j h', h]
      next h => exact List.filter_eq_nil_iff.mpr fun j h' => by rwa [hj j h']
    rw [Nat.succ_mul, List.range_add, List.filter_append, List.length_append, ih, hblock, List.range_succ, List.filter_append,
      List.length_append]
    cases hf : f m <;> simp [hf, Nat.add_mul]

/-- The place of an active element's byte among the active bytes. -/
theorem length_filter_byte (f : Nat → Bool) {wb m j : Nat} (hj : j < wb) (hon : f m = true) :
    ((List.range (m * wb + j)).filter (fun j => f (j / wb))).length = ((List.range m).filter f).length * wb + j := by
  have hrest : ((List.range j).map (m * wb + ·)).filter (fun j => f (j / wb)) = (List.range j).map (m * wb + ·) := by
    refine List.filter_eq_self.mpr fun q hq => ?_
    obtain ⟨i, hi, rfl⟩ := List.mem_map.mp hq
    have := List.mem_range.mp hi
    rw [Nat.add_comm, Nat.add_mul_div_right _ _ (by omega), Nat.div_eq_of_lt (by omega), Nat.zero_add, hon]
  rw [List.range_add, List.filter_append, List.length_append, length_filter_blocks f (by omega), hrest]
  simp

/-! ## Rows formed from bytes -/

theorem getD_map_toNat (l : List (BitVec 8)) (i : Nat) : (l.map BitVec.toNat).getD i 0 = (l.getD i 0#8).toNat :=
  List.getD_map l 0#8 BitVec.toNat

theorem bytesToNat_congr {l l' : List (BitVec 8)} (h : ∀ j, l.getD j 0#8 = l'.getD j 0#8) : bytesToNat l = bytesToNat l' := by
  refine Nat.eq_of_testBit_eq fun j => ?_
  rw [bytesToNat, bytesToNat, testBit_packNat (by decide), testBit_packNat (by decide), getD_map_toNat, getD_map_toNat, h]

theorem getD_take_drop {l : List (BitVec 8)} (i n j : Nat) :
    ((l.drop i).take n).getD j 0#8 = if j < n then l.getD (i + j) 0#8 else 0#8 := by
  simp only [List.getD_eq_getElem?_getD, List.getElem?_take, List.getElem?_drop]
  split <;> rfl

/-- An element of a row formed from bytes. -/
theorem elemAt_bytes (l : List (BitVec 8)) {wb m : Nat} (h : 8 * wb * (m + 1) ≤ 1024) :
    elemAt (BitVec.ofNat 1024 (bytesToNat l)) (8 * wb) m = bytesToNat ((l.drop (m * wb)).take wb) := by
  refine Nat.eq_of_testBit_eq fun j => ?_
  rw [elemAt, BitVec.testBit_toNat, BitVec.getLsbD_extractLsb', BitVec.getLsbD_ofNat, bytesToNat, testBit_packNat (by decide), bytesToNat,
    testBit_packNat (by decide), getD_map_toNat, getD_map_toNat, getD_take_drop]
  by_cases hj : j < 8 * wb
  · have hlt : 8 * wb * m + j < 1024 := by rw [Nat.mul_succ] at h; omega
    have hdiv : (8 * wb * m + j) / 8 = m * wb + j / 8 := by
      rw [Nat.mul_assoc, Nat.mul_comm wb m]
      omega
    have hmod : (8 * wb * m + j) % 8 = j % 8 := by
      rw [Nat.mul_assoc]
      omega
    rw [decide_eq_true hj, decide_eq_true hlt, hdiv, hmod, if_pos (by omega), Bool.true_and, Bool.true_and]
  · rw [decide_eq_false hj, if_neg (by omega)]
    simp

theorem ofNat_bytes_row (x : BitVec 1024) : BitVec.ofNat 1024 (bytesToNat (natToBytes 128 x.toNat)) = x := by
  rw [bytesToNat_natToBytes, show (256 : Nat) = 2 ^ 8 from rfl, ← pow_mul, Nat.mod_eq_of_lt x.isLt, BitVec.ofNat_toNat,
    BitVec.setWidth_eq]


/-! ## Runs of active bytes (R267) -/

theorem runsOf_eq_nil_iff (ea : Nat) (f : Nat → Bool) (fuel j : Nat) :
    runsOf ea f fuel j = [] ↔ ∀ i, j ≤ i → i < j + fuel → f i = false := by
  induction fuel generalizing j with
  | zero => exact iff_of_true rfl fun i h h' => absurd h' (by omega)
  | succ fuel ih =>
    rw [runsOf]
    cases hj : f j with
    | true =>
      refine iff_of_false ?_ fun h => Bool.false_ne_true ((h j (Nat.le_refl j) (by omega)).symm.trans hj)
      rw [if_pos rfl]
      split
      · split <;> exact List.cons_ne_nil _ _
      · exact List.cons_ne_nil _ _
    | false =>
      rw [if_neg Bool.false_ne_true, ih]
      refine forall_congr' fun i => ⟨fun h hi hi' => ?_, fun h hi hi' => h (by omega) (by omega)⟩
      rcases Nat.eq_or_lt_of_le hi with rfl | hlt
      · exact hj
      · exact h hlt (by omega)

/-! ## Checks over the addresses an instruction forms (R267) -/

section
variable (s : State) (k : CoreId) (cap : Cap) (kind : Kind) {al : Nat} {eas : List Nat} (rs : Runs) {z : Nat}

theorem checkRuns_far (h : eas.find? (fun a => decide (2 ^ 56 ≤ a)) = some z) :
    s.checkRuns k cap kind al eas rs = .error (Trap.xlate (BitVec.ofNat 64 z)) := by
  rw [State.checkRuns, h]

theorem checkRuns_misaligned (h : eas.find? (fun a => decide (2 ^ 56 ≤ a)) = none) (hal : al ≠ 0)
    (hz : eas.find? (fun a => decide (a % al ≠ 0)) = some z) :
    s.checkRuns k cap kind al eas rs = .error (Trap.align (BitVec.ofNat 64 z)) := by
  simp only [State.checkRuns, h, decide_eq_true hal, Bool.true_and, hz]

/-- Where every address meets the alignment asked, the check is the one that asks none. -/
theorem checkRuns_aligned (h : ∀ a ∈ eas, a % al = 0) : s.checkRuns k cap kind al eas rs = s.checkRuns k cap kind 0 eas rs := by
  have hnone (al : Nat) (h : al = 0 ∨ ∀ a ∈ eas, a % al = 0) :
      eas.find? (fun a => decide (al ≠ 0) && decide (a % al ≠ 0)) = none := by
    rw [List.find?_eq_none]
    intro a ha
    rcases h with h | h
    · simp [h]
    · simp [h a ha]
  simp only [State.checkRuns, hnone al (.inr h), hnone 0 (.inl rfl)]

end

/-! ## Rows of vd (R134, R135) -/

section
variable (v : VIn)

/-- The bytes of an element. -/
def VIn.bytes (v : VIn) : Nat := v.w / 8

theorem VIn.bytes_cases : (v.bytes = 4 ∧ v.w = 32 ∧ v.n = 32) ∨ (v.bytes = 2 ∧ v.w = 16 ∧ v.n = 64) := by
  have hn : v.w * v.n = 1024 := accW_accN _
  rcases v.w_cases with hw | hw
  · exact .inl ⟨by rw [VIn.bytes, hw], hw, by rw [hw] at hn; omega⟩
  · exact .inr ⟨by rw [VIn.bytes, hw], hw, by rw [hw] at hn; omega⟩

theorem VIn.bytes_pos : 0 < v.bytes := by have := v.bytes_cases; omega

theorem VIn.w_eq : v.w = 8 * v.bytes := by have := v.bytes_cases; omega

theorem VIn.bytes_mul_n : v.n * v.bytes = 128 := by
  rcases v.bytes_cases with ⟨hb, -, hn⟩ | ⟨hb, -, hn⟩ <;> rw [hb, hn]

/-- A row written to vd whose elements are known. -/
theorem VIn.Row.of_elems {v : VIn} (d : BitVec 6) {f : Nat → Nat} {row : BitVec 1024}
    (h : ∀ m, m < v.n → elemAt row v.w m = f m % 2 ^ v.w) :
    v.Row d f (v.c.vec.setRow (vrow v.cap.vrb d) row) where
  elems m hm := by rw [Vec.row_setRow, if_pos rfl, h m hm]
  rows r hr := by rw [Vec.row_setRow, if_neg hr]
  engaged := Vec.setRow_tile_engaged ..
  preds := Vec.setRow_preds ..
  exposed := Vec.setRow_exposed ..
  gens := Vec.setRow_gens ..

theorem VIn.elemAt_bytes (l : List (BitVec 8)) {m : Nat} (hm : m < v.n) :
    elemAt (BitVec.ofNat 1024 (bytesToNat l)) v.w m = bytesToNat ((l.drop (m * v.bytes)).take v.bytes) := by
  rw [v.w_eq]
  refine Sys2Proof.Machine.elemAt_bytes l ?_
  calc 8 * v.bytes * (m + 1) ≤ 8 * v.bytes * v.n := Nat.mul_le_mul_left _ hm
    _ = 1024 := by rw [Nat.mul_assoc, Nat.mul_comm v.bytes, v.bytes_mul_n]

theorem VIn.el_eq_bytes (r : BitVec 6) {m : Nat} (hm : m < v.n) :
    v.el r m = bytesToNat (((natToBytes 128 (v.row r).toNat).drop (m * v.bytes)).take v.bytes) := by
  rw [← v.elemAt_bytes _ hm, ofNat_bytes_row, VIn.el]

theorem VIn.bytesToNat_take_lt (l : List (BitVec 8)) : bytesToNat (l.take v.bytes) < 2 ^ v.w := by
  refine (bytesToNat_lt _).trans_le (Nat.pow_le_pow_right (by decide) ?_)
  rw [v.w_eq]
  exact Nat.mul_le_mul_left _ (List.length_take_le _ _)

end

/-! ## What the active elements take (R206, R270, R271) -/

section
variable (v : VIn) (p : BitVec 4) (n : BitVec 1)

/-- The active elements, in ascending order. -/
def VIn.activeEls (v : VIn) (p : BitVec 4) (n : BitVec 1) : List Nat := (List.range v.n).filter (v.active p n)

/-- The active elements below one. -/
def VIn.before (v : VIn) (p : BitVec 4) (n : BitVec 1) (m : Nat) : Nat := ((List.range m).filter (v.active p n)).length

/-- A byte of a row belongs to an active element. -/
def VIn.byteOn (v : VIn) (p : BitVec 4) (n : BitVec 1) (j : Nat) : Bool := v.active p n (j / v.bytes)

/-- What an element of vd holds once the active ones have taken the bytes that came, in ascending order. -/
def VIn.took (v : VIn) (d : BitVec 6) (p : BitVec 4) (n : BitVec 1) (bs : List (BitVec 8)) (m : Nat) : Nat :=
  if v.active p n m then bytesToNat ((bs.drop (v.before p n m * v.bytes)).take v.bytes) else v.el d m

theorem VIn.took_lt (d : BitVec 6) (bs : List (BitVec 8)) (m : Nat) : v.took d p n bs m < 2 ^ v.w := by
  rw [VIn.took]
  split
  · exact v.bytesToNat_take_lt _
  · exact v.el_lt d m

/-- The bytes of a row once the active ones have been loaded. -/
def VIn.loadedBytes (v : VIn) (d : BitVec 6) (p : BitVec 4) (n : BitVec 1) (bs : List (BitVec 8)) : List (BitVec 8) :=
  (List.range 128).map (fun j => if v.byteOn p n j then bs.getD (((List.range 128).filter (v.byteOn p n)).idxOf j) 0#8
    else (natToBytes 128 (v.row d).toNat).getD j 0#8)

theorem VIn.elemAt_loadedBytes (d : BitVec 6) (bs : List (BitVec 8)) {m : Nat} (hm : m < v.n) :
    elemAt (BitVec.ofNat 1024 (bytesToNat (v.loadedBytes d p n bs))) v.w m = v.took d p n bs m := by
  have hlt {j : Nat} (hj : j < v.bytes) : m * v.bytes + j < 128 := by
    have : (m + 1) * v.bytes ≤ v.n * v.bytes := Nat.mul_le_mul_right _ hm
    rw [v.bytes_mul_n, Nat.succ_mul] at this
    omega
  have helem {j : Nat} (hj : j < v.bytes) : (m * v.bytes + j) / v.bytes = m := by
    rw [Nat.add_comm, Nat.add_mul_div_right _ _ v.bytes_pos, Nat.div_eq_of_lt hj, Nat.zero_add]
  have hget {j : Nat} (hj : j < v.bytes) : (v.loadedBytes d p n bs).getD (m * v.bytes + j) 0#8 =
      if v.active p n m then bs.getD (v.before p n m * v.bytes + j) 0#8
      else (natToBytes 128 (v.row d).toNat).getD (m * v.bytes + j) 0#8 := by
    rw [VIn.loadedBytes, List.getD_eq_getElem?_getD, List.getElem?_map, List.getElem?_range (hlt hj), Option.map_some, Option.getD_some]
    have hon : v.byteOn p n (m * v.bytes + j) = v.active p n m := by rw [VIn.byteOn, helem hj]
    rw [hon]
    split
    next h =>
      rw [idxOf_filter_range (hon.trans h) (hlt hj)]
      exact congrArg (bs.getD · 0#8) (length_filter_byte (v.active p n) hj h)
    next h => rfl
  rw [v.elemAt_bytes _ hm, VIn.took]
  split
  next h =>
    refine bytesToNat_congr fun j => ?_
    rw [getD_take_drop, getD_take_drop]
    split
    next hj => rw [hget hj, if_pos h]
    next => rfl
  next h =>
    rw [v.el_eq_bytes d hm]
    refine bytesToNat_congr fun j => ?_
    rw [getD_take_drop, getD_take_drop]
    split
    next hj => rw [hget hj, if_neg h]
    next => rfl

/-- Without an active element, no run; with one, some. -/
theorem VIn.rowRuns_eq_nil_iff (imm : BitVec 7) : rowRuns v imm p n = [] ↔ v.activeEls p n = [] := by
  rw [rowRuns, runsOf_eq_nil_iff, VIn.activeEls, List.filter_eq_nil_iff]
  constructor
  · intro h m hm
    have hm := List.mem_range.mp hm
    have h128 : m * v.bytes < 0 + 128 := by
      rw [Nat.zero_add, ← v.bytes_mul_n]
      exact Nat.mul_lt_mul_of_pos_right hm v.bytes_pos
    have := h (m * v.bytes) (Nat.zero_le _) h128
    rw [← VIn.bytes, Nat.mul_div_cancel _ v.bytes_pos] at this
    rw [this]
    exact Bool.false_ne_true
  · intro h i _ hi
    have hi : i < v.n * v.bytes := by rw [v.bytes_mul_n]; omega
    exact Bool.eq_false_iff.mpr (h _ (List.mem_range.mpr (Nat.div_lt_of_lt_mul (by rwa [Nat.mul_comm] at hi))))

end


/-! ## The row forms (R269, R270) -/

/-- With no matrix command still writing, a row is the same in every read (R261). -/
theorem VIn.row_at_now (v : VIn) (h : v.c.mtx.before = []) (r : BitVec 6) (q : Nat) : (v.at q).row r = v.row r := by
  simp only [VIn.row, VIn.at, h]

theorem State.modCore_congr {s : State} {k : CoreId} {f g : Core → Core} (h : f (s.core k) = g (s.core k)) :
    s.modCore k f = s.modCore k g :=
  congrArg (s.setCore k) h

/-- The address of a row (R270). -/
def VIn.rowEa (v : VIn) (imm : BitVec 7) : Nat := (v.cap.x + imm.signExtend 64 * 128#64).toNat

/-- The bytes of a row that a condition selects. -/
def VIn.bytesAt (v : VIn) (d : BitVec 6) (f : Nat → Bool) : List (BitVec 8) :=
  ((List.range 128).filter f).map (fun j => (natToBytes 128 (v.row d).toNat).getD j 0#8)

section
variable {d a : BitVec 6} {imm : BitVec 7} {p : BitVec 4} {n : BitVec 1} {x : VExt} {aligned : Bool} {form : RowForm} {k : CoreId}
  {cap : Cap} {r : Word} {s u : State} {v : VIn} (hv : v = { c := s.core k, cap := cap, x := x, tick := s.tick })
  {ps all : List Piece} {bs : List (BitVec 8)} {tr : TrapInfo}
include hv

theorem vRow_idle (h : v.activeEls p n = []) : vRow d imm p n x form aligned k cap r s = .done s := by
  subst hv
  rw [vRow]
  exact if_pos (by rw [(VIn.rowRuns_eq_nil_iff _ p n imm).mpr h]; rfl)

section
variable (hon : v.activeEls p n ≠ [])
include hon

theorem vRow_trap (h : s.checkRuns k cap (if form = .load then .vld else .vst) (if aligned then 128 else 0) [v.rowEa imm]
    (rowRuns v imm p n) = .error tr) : vRow d imm p n x form aligned k cap r s = .trap tr s := by
  have hruns : ¬(rowRuns v imm p n).isEmpty = true := by rwa [List.isEmpty_iff, v.rowRuns_eq_nil_iff]
  subst hv
  simp only [vRow]
  rw [if_neg hruns]
  rw [VIn.rowEa] at h
  rw [h]

theorem vRow_load (hb : v.c.mtx.before = [])
    (h : s.checkRuns k cap .vld (if aligned then 128 else 0) [v.rowEa imm] (rowRuns v imm p n) = .ok ps)
    (hc : s.consume k ps = .ok bs u) (hvec : (u.core k).vec = (s.core k).vec) (hmtx : (u.core k).mtx = (s.core k).mtx) :
    vRow d imm p n x .load aligned k cap r s = .done (u.modCore k (fun c => { c with
      vec := v.c.vec.setRow (vrow v.cap.vrb d) (BitVec.ofNat 1024 (bytesToNat (v.loadedBytes d p n bs))) })) := by
  have hruns : ¬(rowRuns v imm p n).isEmpty = true := by rwa [List.isEmpty_iff, v.rowRuns_eq_nil_iff]
  subst hv
  simp only [vRow]
  rw [if_neg hruns]
  rw [VIn.rowEa] at h
  simp only [if_true, ne_eq, reduceCtorEq, not_false_eq_true, decide_true, Bool.true_or, Bool.and_true, if_false, h, hc]
  refine congrArg _ (State.modCore_congr ?_)
  rw [Core.rowPut_now _ (by rw [hmtx]; exact hb), hvec]
  rfl

theorem vRow_store (h : s.checkRuns k cap .vst (if aligned then 128 else 0) [v.rowEa imm] (rowRuns v imm p n) = .ok ps)
    (hd : s.deliver k ps (v.bytesAt d (v.byteOn p n)) = .ok () u) : vRow d imm p n x .store aligned k cap r s = .done u := by
  have hruns : ¬(rowRuns v imm p n).isEmpty = true := by rwa [List.isEmpty_iff, v.rowRuns_eq_nil_iff]
  subst hv
  simp only [vRow]
  rw [if_neg hruns]
  rw [VIn.rowEa] at h
  rw [VIn.bytesAt] at hd
  simp only [ne_eq, reduceCtorEq, not_false_eq_true, decide_true, Bool.true_or, Bool.and_true, if_false, h]
  exact hd ▸ rfl

theorem vRow_masked (hb : v.c.mtx.before = []) (h : s.checkRuns k cap .vst 0 [v.rowEa imm] (rowRuns v imm p n) = .ok all)
    (hs : s.splitRuns k cap .vst (runsOf (v.rowEa imm) (fun j => v.byteOn p n j && (v.row x.c).getLsbD j) 128 0) = .ok ps)
    (hd : s.deliver k ps (v.bytesAt d (fun j => v.byteOn p n j && (v.row x.c).getLsbD j)) = .ok () u) :
    vRow d imm p n x .masked false k cap r s = .done u := by
  have hruns : ¬(rowRuns v imm p n).isEmpty = true := by rwa [List.isEmpty_iff, v.rowRuns_eq_nil_iff]
  have hrow := v.row_at_now hb x.c 1
  rw [← hrow] at hs hd
  subst hv
  simp only [vRow]
  rw [if_neg hruns]
  rw [VIn.rowEa] at h hs
  rw [VIn.bytesAt] at hd
  simp only [VIn.byteOn, VIn.bytes] at hs hd
  simp only [ne_eq, not_true_eq_false, decide_false, Bool.false_or, reduceCtorEq, Bool.false_eq_true, if_true, if_false, h, hs]
  exact hd ▸ rfl

end

/-! ## Gather and scatter (R271) -/

/-- The address of an element of a gather or scatter. -/
def VIn.gatherEa (v : VIn) (a : BitVec 6) (m : Nat) : Nat := (v.cap.x + BitVec.ofNat 64 (v.el a m * v.bytes)).toNat

omit hv in
theorem gatherAddrs_eq (v : VIn) (a : BitVec 6) (p : BitVec 4) (n : BitVec 1) :
    gatherAddrs v a p n = (v.activeEls p n).map (fun m => (m, v.gatherEa a m)) := rfl

omit hv in
theorem gatherCheck_eq (s : State) (k : CoreId) (cap : Cap) (kind : Kind) (v : VIn) (a : BitVec 6) (p : BitVec 4) (n : BitVec 1) :
    gatherCheck s k cap kind v.bytes (gatherAddrs v a p n) =
      s.checkRuns k cap kind v.bytes ((v.activeEls p n).map (v.gatherEa a))
        ((v.activeEls p n).map (fun m => (v.gatherEa a m, v.bytes))) := by
  rw [gatherCheck, gatherAddrs_eq, List.map_map, List.map_map]
  rfl

theorem vGather_trap (h : gatherCheck s k cap .vld v.bytes (gatherAddrs v a p n) = .error tr) :
    vGather d a p n x k cap r s = .trap tr s := by
  subst hv
  rw [VIn.bytes] at h
  simp only [vGather, h]

theorem vScatter_trap (h : gatherCheck s k cap .vst v.bytes (gatherAddrs v a p n) = .error tr) :
    vScatter d a p n x k cap r s = .trap tr s := by
  subst hv
  rw [VIn.bytes] at h
  simp only [vScatter, h]

theorem vGather_done (hb : v.c.mtx.before = []) (h : gatherCheck s k cap .vld v.bytes (gatherAddrs v a p n) = .ok ps)
    (hc : s.consume k ps = .ok bs u) (hvec : (u.core k).vec = (s.core k).vec) (hmtx : (u.core k).mtx = (s.core k).mtx) :
    vGather d a p n x k cap r s = .done (u.modCore k (fun c => { c with
      vec := v.c.vec.setRow (vrow v.cap.vrb d) (packRow v.w ((List.range v.n).map (v.took d p n bs))) })) := by
  have hout : (List.range v.n).map (fun e => match (gatherAddrs v a p n).findIdx? (fun q => decide (q.1 = e)) with
      | some ix => bytesToNat ((bs.drop (ix * (v.w / 8))).take (v.w / 8))
      | none => v.el d e) = (List.range v.n).map (v.took d p n bs) := by
    refine List.map_congr_left fun m hm => ?_
    rw [gatherAddrs_eq, List.findIdx?_map, VIn.took]
    cases hact : v.active p n m with
    | true =>
      rw [if_pos rfl]
      have : (v.activeEls p n).findIdx? (fun q => decide (q = m)) = some (v.before p n m) :=
        findIdx?_filter_range hact (List.mem_range.mp hm)
      rw [show ((fun q : Nat × Nat => decide (q.1 = m)) ∘ fun m => (m, v.gatherEa a m)) = fun q => decide (q = m) from rfl, this]
      rfl
    | false =>
      have hnone : (v.activeEls p n).findIdx? (fun q => decide (q = m)) = none := by
        rw [List.findIdx?_eq_none_iff]
        intro q hq
        refine decide_eq_false fun hqm => Bool.false_ne_true ?_
        rw [← hact, ← hqm]
        exact (List.mem_filter.mp hq).2
      rw [show ((fun q : Nat × Nat => decide (q.1 = m)) ∘ fun m => (m, v.gatherEa a m)) = fun q => decide (q = m) from rfl, hnone]
      rfl
  subst hv
  rw [VIn.bytes] at h
  simp only [vGather, h, hc]
  refine congrArg _ (State.modCore_congr ?_)
  rw [Core.rowPut_now _ (by rw [hmtx]; exact hb), hvec]
  exact congrArg (fun l : List Nat => ({ u.core k with
    vec := (s.core k).vec.setRow (vrow cap.vrb d) (packRow (accW (s.core k).ctl.acct) l) } : Core)) hout

theorem vScatter_done (hb : v.c.mtx.before = []) (h : gatherCheck s k cap .vst v.bytes (gatherAddrs v a p n) = .ok ps)
    (hd : s.deliver k ps ((v.activeEls p n).flatMap (fun m => natToBytes v.bytes (v.el d m))) = .ok () u) :
    vScatter d a p n x k cap r s = .done u := by
  have hbytes : (gatherAddrs v a p n).flatMap (fun e => natToBytes v.bytes ((v.at 1).el d e.1)) =
      (v.activeEls p n).flatMap (fun m => natToBytes v.bytes (v.el d m)) := by
    rw [gatherAddrs_eq, List.flatMap_map]
    exact congrArg (List.flatMap · _) (funext fun m => by rw [show (v.at 1).el d m = v.el d m from v.el_at_now hb d m v.out 1])
  rw [← hbytes] at hd
  subst hv
  rw [VIn.bytes] at h hd
  simp only [vScatter, h]
  exact hd ▸ rfl

end


/-! ## The row forms as instructions -/

section
variable (v : BitVec 6) (g : BitVec 5) (imm : BitVec 7) (p : BitVec 4) (n : BitVec 1) (x : Option VExt) (y : VExt) (t : Option Tok)

/-- The five row forms. -/
def rowForms : List Instr :=
  [.vLd v g imm p n x t, .vSt v g imm p n x t, .vLdu v g imm p n x t, .vStu v g imm p n x t, .vStm v g imm p n y t]

/-- Each of the five captures the same and is a row form. -/
theorem exec_rowForm {i : Instr} (hi : i ∈ rowForms v g imm p n x y t) (s : State) : ∃ z form aligned,
    exec i s = runE .v i (capOf i (s.core s.exe)) (vRow v imm p n z form aligned) s ∧ i.tok? = t ∧
      capOf i (s.core s.exe) = capOf (.vLd v g imm p n x t) (s.core s.exe) := by
  rw [rowForms] at hi
  simp only [List.mem_cons, List.not_mem_nil, or_false] at hi
  rcases hi with rfl | rfl | rfl | rfl | rfl
  · exact ⟨x.getD vextDefault, .load, true, exec_vLd .., rfl, rfl⟩
  · exact ⟨x.getD vextDefault, .store, true, exec_vSt .., rfl, rfl⟩
  · exact ⟨x.getD vextDefault, .load, false, exec_vLdu .., rfl, rfl⟩
  · exact ⟨x.getD vextDefault, .store, false, exec_vStu .., rfl, rfl⟩
  · exact ⟨y, .masked, false, exec_vStm .., rfl, rfl⟩

end

/-- A gather or scatter whose check fails traps. -/
theorem exec_gather_traps {v a : BitVec 6} {g : BitVec 5} {p : BitVec 4} {n : BitVec 1} {x : Option VExt} {t : Option Tok} {i : Instr}
    (hi : i ∈ [Instr.vGth v a g p n x t, .vSct v a g p n x t]) {s : State} (h : s.engineGoes .v t) {V : VIn}
    (hV : V = { c := s.core s.exe, cap := capOf (.vGth v a g p n x t) (s.core s.exe), x := x.getD vextDefault, tick := s.tick })
    {tr : TrapInfo}
    (hc : ∀ kind, gatherCheck s s.exe V.cap kind V.bytes (gatherAddrs V a p n) = .error tr) :
    exec i s = .next (s.engineTraps .v i tr) := by
  subst hV
  simp only [List.mem_cons, List.not_mem_nil, or_false] at hi
  rcases hi with rfl | rfl
  · exact (exec_vGth ..).trans (runE_trap .v _ _ _ s s _ h (vGather_trap rfl (hc _)))
  · exact (exec_vSct ..).trans (runE_trap .v _ _ _ s s _ h (vScatter_trap rfl (hc _)))

/-- Settles O40: each form's body at the checks, pieces and bytes that the clause names. -/
theorem vectorMemory : Obligations.VectorMemory := by
  unfold Obligations.VectorMemory
  intro v a g imm p n x y t ps all bs s u hgo k V cap wb ea on row sel masked bytesOf loaded before reads writes took act adr adrs far
    traps
  have hV : V = { c := s.core s.exe, cap := cap, x := x.getD vextDefault, tick := s.tick } := rfl
  have hb : V.c.mtx.before = [] := by
    obtain ⟨-, -, -, -, -, hb, -⟩ := hgo
    exact hb
  have hadrs : ∀ kind, gatherCheck s k cap kind wb (gatherAddrs V a p n) =
      s.checkRuns k cap kind wb adrs (act.map (fun m => (adr m, wb))) := fun kind => gatherCheck_eq s k cap kind V a p n
  have hwb : wb ≠ 0 := V.bytes_pos.ne'
  have haligned (kind : Kind) (hal : ea % 128 = 0) : s.checkRuns k cap kind 128 [ea] (runsOf ea sel 128 0) =
      s.checkRuns k cap kind 0 [ea] (runsOf ea sel 128 0) :=
    checkRuns_aligned s k cap kind _ fun z hz => by rwa [List.mem_singleton.mp hz]
  have hloaded (i : Instr) (aligned : Bool)
      (hi : exec i s = runE .v i cap (vRow v imm p n (x.getD vextDefault) .load aligned) s) (htok : i.tok? = t) (hact : act ≠ [])
      (hc : s.checkRuns k cap .vld (if aligned then 128 else 0) [ea] (runsOf ea sel 128 0) = .ok ps) (hr : s.consume k ps = .ok bs u)
      (hvec : (u.core k).vec = (s.core k).vec) (hmtx : (u.core k).mtx = (s.core k).mtx) : ∃ w, V.Row v (V.took v p n bs) w ∧
        exec i s = .next ((u.modCore k (fun c => { c with vec := w })).engineWent k i) :=
    ⟨_, VIn.Row.of_elems v fun m hm => (V.elemAt_loadedBytes p n v bs hm).trans (Nat.mod_eq_of_lt (V.took_lt p n v bs m)).symm,
      hi.trans (runE_done .v i cap _ s _ (htok ▸ hgo) (vRow_load hV hact hb hc hr hvec hmtx))⟩
  refine ⟨fun hact i hi => ?idle, fun hact hfar i hi => ?far, fun hact hfar hal i hi => ?align, fun hact hr => ?load,
    fun hact hw => ?store, fun hact hc hs hd => ?masked, fun i hi => ?checks, fun hr => ?gather, fun hw => ?scatter⟩
  case idle =>
    obtain ⟨z, form, aligned, he, htok, hcap⟩ := exec_rowForm v g imm p n x y t hi s
    rw [he, hcap]
    exact runE_done .v i cap _ s s (htok ▸ hgo) (vRow_idle (v := { V with x := z }) rfl hact)
  case far =>
    obtain ⟨z, form, aligned, he, htok, hcap⟩ := exec_rowForm v g imm p n x y t hi s
    refine he.trans (runE_trap .v i _ _ s s _ (htok ▸ hgo) ?_)
    rw [hcap]
    exact vRow_trap (v := { V with x := z }) rfl hact (checkRuns_far s k cap _ _ (List.find?_cons_of_pos hfar))
  case align =>
    have hnone : [ea].find? far = none := by rw [List.find?_cons_of_neg (by rw [hfar]; exact Bool.false_ne_true), List.find?_nil]
    have hsome : [ea].find? (fun z => decide (z % 128 ≠ 0)) = some ea := List.find?_cons_of_pos (decide_eq_true hal)
    have hchk (kind : Kind) : s.checkRuns k cap kind 128 [ea] (runsOf ea sel 128 0) = .error (Trap.align (BitVec.ofNat 64 ea)) :=
      checkRuns_misaligned s k cap kind _ hnone (by decide) hsome
    simp only [List.mem_cons, List.not_mem_nil, or_false] at hi
    rcases hi with rfl | rfl
    · exact (exec_vLd ..).trans (runE_trap .v _ _ _ s s _ hgo (vRow_trap hV hact (hchk .vld)))
    · exact (exec_vSt ..).trans (runE_trap .v _ _ _ s s _ hgo (vRow_trap hV hact (hchk .vst)))
  case load =>
    obtain ⟨hc, hcons, hvec, hmtx⟩ := hr
    exact ⟨hloaded _ false (exec_vLdu ..) rfl hact hc hcons hvec hmtx,
      fun hal => hloaded _ true (exec_vLd ..) rfl hact ((haligned _ hal).trans hc) hcons hvec hmtx⟩
  case store =>
    obtain ⟨hc, hdel⟩ := hw
    exact ⟨(exec_vStu ..).trans (runE_done .v _ _ _ s u hgo (vRow_store (aligned := false) hV hact hc hdel)),
      fun hal => (exec_vSt ..).trans (runE_done .v _ _ _ s u hgo (vRow_store (aligned := true) hV hact ((haligned _ hal).trans hc) hdel))⟩
  case masked =>
    exact (exec_vStm ..).trans (runE_done .v _ _ _ s u hgo (vRow_masked (v := { V with x := y }) rfl hact hb hc hs hd))
  case checks =>
    refine ⟨fun z hz => exec_gather_traps hi hgo hV fun kind => ?_, fun z hnone hz => exec_gather_traps hi hgo hV fun kind => ?_⟩
    · exact (hadrs kind).trans (checkRuns_far s k cap kind _ hz)
    · exact (hadrs kind).trans (checkRuns_misaligned s k cap kind _ hnone hwb hz)
  case gather =>
    obtain ⟨hc, hcons, hvec, hmtx⟩ := hr
    refine ⟨_, VIn.Row.of_setRow V v (V.took v p n bs) _ fun _ => rfl, (exec_vGth ..).trans ?_⟩
    exact runE_done .v _ _ _ s _ hgo (vGather_done hV hb ((hadrs _).trans hc) hcons hvec hmtx)
  case scatter =>
    obtain ⟨hc, hdel⟩ := hw
    exact (exec_vSct ..).trans (runE_done .v _ _ _ s u hgo (vScatter_done hV hb ((hadrs _).trans hc) hdel))

end Sys2Proof.Machine

/-! Pinned rows, shape registers, refresh deferral and poison (R196 to R200, R283, R286 to R291): accesses to the tower window,
the fields of a shape register, what a line's pin, write-back and release leave of the bytes and poison that the tower reads as. -/

namespace Sys2Proof.Machine

/-! ## Accesses to the tower window (R24, R266) -/

section
variable {s : State} {k : CoreId} {asid : BitVec 16} {xe sup : Bool} {kind : Kind} {off n : Nat}

/-- The piece that n bytes of the window are. -/
def windowPiece (off n : Nat) : Piece := { a := windowBase + off, len := n, at_ := .window off }

theorem pieces_window (use : Use) (fuel : Nat) (hn : 0 < n) (hoff : off < 2 ^ 25) (hpage : off % 4096 + n ≤ 4096) :
    s.pieces k asid xe sup use (fuel + 2) (windowBase + off) n = .ok [windowPiece off n] := by
  have hplace : s.placeOf k asid xe sup use (windowBase + off) = .ok (.window off) := by
    rw [State.placeOf, if_neg (by rw [windowBase]; omega), if_pos (Nat.le_add_right _ _), Nat.add_sub_cancel_left]
  have hwalk : s.walked k asid xe (windowBase + off) = [] := by
    rw [State.walked, if_pos (by simp)]
  have hlen : min n (4096 - (windowBase + off) % 4096) = n := by rw [windowBase]; omega
  have hrest (a : Nat) : s.pieces k asid xe sup use (fuel + 1) a 0 = .ok [] := by rw [State.pieces, if_pos rfl]
  rw [State.pieces, if_neg (by omega)]
  simp only [hplace, hlen, hwalk, Nat.sub_self, hrest]
  rfl

theorem check_window {al : Nat} (hkind : kind ≠ .head) (hal : al = 0 ∨ (windowBase + off) % al = 0) (hn : 0 < n) (hoff : off < 2 ^ 25)
    (hpage : off % 4096 + n ≤ 4096) : s.check k asid xe sup kind al (windowBase + off) n = .ok [windowPiece off n] := by
  have hpieces : s.split k asid xe sup kind.use (windowBase + off) n = .ok [windowPiece off n] :=
    pieces_window kind.use (n / 4096) hn hoff hpage
  have hregion : s.regionTraps k kind sup n [windowPiece off n] = none := by
    show (List.findSome? _ [_]) = none
    rw [List.findSome?_singleton]
    exact if_neg hkind
  rw [State.check, if_neg (by rw [windowBase]; omega), if_neg (by omega), hpieces]
  simp only [hregion]

theorem windowPiece_not_blocked (write : Bool) : [windowPiece off n].any (s.pieceBlocked k write) = false := rfl

/-- A read of clean bytes of the window, none of them poisoned. -/
theorem ctlLoad_window {al : Nat} (hkind : kind ≠ .head) (hal : al = 0 ∨ (windowBase + off) % al = 0) (hn : 0 < n) (hoff : off < 2 ^ 25)
    (hpage : off % 4096 + n ≤ 4096) (hclean : ((s.core k).tower.scrub off n).2 = (0, 0))
    (hpoison : (s.core k).tower.firstPoison off n = none) :
    s.ctlLoad k kind al (windowBase + off) n = .ok ((s.core k).tower.read off n) s := by
  have htouch : [windowPiece off n].foldl (fun s p => s.touchPiece k p) s = s := s.scrubTower_of_clean k off n hclean
  have hbad : s.piecesBad k true [windowPiece off n] = none := by
    show (List.findSome? (s.piecePoison k) [windowPiece off n]) = none
    rw [List.findSome?_singleton]
    show ((s.core k).tower.firstPoison off n).map _ = none
    rw [hpoison]
    rfl
  have hread : s.readPieces k [windowPiece off n] = (s.core k).tower.read off n := List.append_nil _
  rw [State.ctlLoad, State.load, check_window hkind hal hn hoff hpage]
  simp only [State.consume, windowPiece_not_blocked, htouch, hbad, hread]
  rfl

end

/-! ## Fields of a shape register (R286 to R288) -/

/-- The fields of the format: code, word, low bit, width, signed. -/
def shFields : List (Nat × Nat × Nat × Nat × Bool) := (List.range 14).map (fun code => (code, shField code))

theorem mem_shFields {code n lo len : Nat} {sg : Bool} (h : (code, n, lo, len, sg) ∈ shFields) :
    code < 14 ∧ shField code = (n, lo, len, sg) := by
  obtain ⟨c, hc, he⟩ := List.mem_map.mp h
  obtain ⟨rfl, hf⟩ := Prod.mk.inj he
  exact ⟨List.mem_range.mp hc, hf⟩

theorem shField_fits (code : Nat) :
    (shField code).1 < 8 ∧ (shField code).2.1 + (shField code).2.2.1 ≤ 64 ∧ (shField code).2.2.1 < 64 := by
  unfold shField
  split <;> decide

theorem shField_signed {code : Nat} (h : (shField code).2.2.2 = true) : (shField code).2.2.1 = 48 := by
  revert h
  unfold shField
  split <;> decide

theorem shField_apart : ∀ c < 14, ∀ c' < 14, c' ≠ c → (shField c').1 ≠ (shField c).1 ∨
    (shField c).2.1 + (shField c).2.2.1 ≤ (shField c').2.1 ∨ (shField c').2.1 + (shField c').2.2.1 ≤ (shField c).2.1 := by
  decide

section
variable (x : BitVec 512)

theorem getLsbD_shWord (n i : Nat) : (shWord x n).getLsbD i = (decide (i < 64) && x.getLsbD (64 * n + i)) :=
  BitVec.getLsbD_extractLsb' ..

theorem getLsbD_shSetWord {n : Nat} (w : Word) {j : Nat} (hj : j < 512) :
    (shSetWord x n w).getLsbD j = if 64 * n ≤ j ∧ j < 64 * n + 64 then w.getLsbD (j - 64 * n) else x.getLsbD j := by
  simp only [shSetWord, BitVec.getLsbD_or, BitVec.getLsbD_and, BitVec.getLsbD_not, BitVec.getLsbD_shiftLeft, BitVec.getLsbD_ofNat,
    Nat.testBit_two_pow_sub_one, BitVec.truncate_eq_setWidth, BitVec.getLsbD_setWidth]
  by_cases hlo : j < 64 * n
  · simp [hlo, hj]
  · by_cases hhi : j < 64 * n + 64
    · simp [hlo, hj, show 64 * n ≤ j by omega, hhi, show j - 64 * n < 64 by omega, show j - 64 * n < 512 by omega]
    · simp [hlo, hj, hhi, BitVec.getLsbD_of_ge w (j - 64 * n) (by omega), show ¬j - 64 * n < 64 by omega]

theorem shWord_shSetWord_same {n : Nat} (hn : n < 8) (w : Word) : shWord (shSetWord x n w) n = w := by
  refine BitVec.eq_of_getLsbD_eq fun i hi => ?_
  rw [getLsbD_shWord, getLsbD_shSetWord x w (by omega), if_pos (by omega), decide_eq_true hi, Bool.true_and, Nat.add_sub_cancel_left]

theorem shWord_shSetWord_ne {n m : Nat} (hm : m < 8) (h : m ≠ n) (w : Word) : shWord (shSetWord x n w) m = shWord x m := by
  refine BitVec.eq_of_getLsbD_eq fun i hi => ?_
  rw [getLsbD_shWord, getLsbD_shSetWord x w (by omega), if_neg (by omega), getLsbD_shWord]

theorem shGet_shPut_same (code : Nat) (v : Word) : (shGet (shPut x code v) code).toNat = v.toNat % 2 ^ (shField code).2.2.1 := by
  obtain ⟨hn, hfit, hlen⟩ := shField_fits code
  rw [shGet, shPut]
  simp only [shWord_shSetWord_same x hn]
  exact field_setField_same _ _ hlen hfit

theorem shGet_shPut_ne {code code' : Nat} (hc : code < 14) (hc' : code' < 14) (hne : code' ≠ code) (v : Word) :
    shGet (shPut x code v) code' = shGet x code' := by
  obtain ⟨hn, -, -⟩ := shField_fits code
  obtain ⟨hn', hfit, hlen⟩ := shField_fits code'
  simp only [shGet, shPut]
  by_cases hw : (shField code').1 = (shField code).1
  · rw [hw, shWord_shSetWord_same x hn]
    exact field_setField_ne _ _ hlen hfit ((shField_apart code hc code' hc' hne).resolve_left fun h => h hw)
  · rw [shWord_shSetWord_ne x hn' hw]

/-- A field as bits of the register. -/
theorem toNat_field_shWord (n lo : Nat) {len : Nat} (hfit : lo + len ≤ 64) (hlen : len < 64) :
    (field (shWord x n) lo len).toNat = x.toNat / 2 ^ (64 * n + lo) % 2 ^ len := by
  refine Nat.eq_of_testBit_eq fun i => ?_
  rw [BitVec.testBit_toNat, getLsbD_field _ _ _ hlen, getLsbD_shWord, Nat.testBit_mod_two_pow, Nat.testBit_div_two_pow,
    BitVec.testBit_toNat]
  by_cases hi : i < len
  · rw [decide_eq_true hi, decide_eq_true (show lo + i < 64 by omega), show i + (64 * n + lo) = 64 * n + (lo + i) by omega, Bool.true_and,
      Bool.true_and]
  · rw [decide_eq_false hi, Bool.false_and, Bool.false_and]

theorem field_shWord_eq_zero_iff (n lo : Nat) {len : Nat} (hfit : lo + len ≤ 64) (hlen : len < 64) :
    field (shWord x n) lo len = 0#64 ↔ x.extractLsb' (64 * n + lo) len = 0#len := by
  rw [← BitVec.toNat_inj, toNat_field_shWord x n lo hfit hlen, ← BitVec.toNat_inj, BitVec.extractLsb'_toNat, Nat.shiftRight_eq_div_pow,
    BitVec.toNat_ofNat, BitVec.toNat_ofNat, Nat.zero_mod, Nat.zero_mod]

theorem shapeOk_iff : shapeOk x = true ↔ x.extractLsb' 57 7 = 0#7 ∧ x.extractLsb' 77 51 = 0#51 ∧ x.extractLsb' 184 8 = 0#8 ∧
    x.extractLsb' 304 16 = 0#16 ∧ x.extractLsb' 368 16 = 0#16 ∧ x.extractLsb' 432 16 = 0#16 ∧ x.extractLsb' 448 64 = 0#64 := by
  simp only [shapeOk, Bool.and_eq_true, decide_eq_true_eq, and_assoc]
  rw [field_shWord_eq_zero_iff x 0 57 (by decide) (by decide), field_shWord_eq_zero_iff x 1 13 (by decide) (by decide),
    field_shWord_eq_zero_iff x 2 56 (by decide) (by decide), field_shWord_eq_zero_iff x 4 48 (by decide) (by decide),
    field_shWord_eq_zero_iff x 5 48 (by decide) (by decide), field_shWord_eq_zero_iff x 6 48 (by decide) (by decide)]
  rfl

theorem shgetWord_eq (code : Nat) {v : Nat} (hv : (shGet x code).toNat = v) : shgetWord x code =
    if (shField code).2.2.2 = true ∧ 2 ^ 47 ≤ v then BitVec.ofInt 64 ((v : Int) - 2 ^ 48) else BitVec.ofNat 64 v := by
  have hword : shGet x code = BitVec.ofNat 64 v := by rw [← hv, BitVec.ofNat_toNat, BitVec.setWidth_eq]
  rw [shgetWord]
  cases hs : (shField code).2.2.2 with
  | false => rw [if_neg Bool.false_ne_true, if_neg fun h => Bool.false_ne_true h.1, hword]
  | true =>
    have hlt : v < 2 ^ 48 := by
      have hlen : (shField code).2.2.1 = 48 := shField_signed hs
      rw [← hlen, ← hv]
      exact (toNat_field (shWord x (shField code).1) _ (shField_fits code).2.2).trans_lt (Nat.mod_lt _ (by positivity))
    have hlow : ((shGet x code).truncate 48).toNat = v := by
      rw [BitVec.truncate_eq_setWidth, BitVec.toNat_setWidth, hv, Nat.mod_eq_of_lt hlt]
    rw [if_pos rfl, BitVec.signExtend, BitVec.toInt_eq_toNat_cond, hlow]
    by_cases hneg : 2 ^ 47 ≤ v
    · rw [if_neg (by omega), if_pos ⟨rfl, hneg⟩]
      rfl
    · rw [if_pos (by omega), if_neg fun h => hneg h.2, BitVec.ofInt_natCast]

theorem shsetOk_iff (code : Nat) (v : Word) : shsetOk code v = true ↔
    if (shField code).2.2.2 then v.extractLsb' 47 17 = 0#17 ∨ v.extractLsb' 47 17 = 0x1FFFF#17
    else v.toNat < 2 ^ (shField code).2.2.1 := by
  simp only [shsetOk]
  split
  · rw [Bool.or_eq_true, decide_eq_true_eq, decide_eq_true_eq, field_eq_zero_iff v 47 (by decide)]
    refine or_congr_right ((field_eq_iff v 47 (by decide) 0x1FFFF (by decide)).trans ?_)
    rw [← BitVec.toNat_inj]
    rfl
  · exact decide_eq_true_iff

end


/-! ## Rows and the cells that serve them (R190, R208) -/

/-- The row of an offset, by its line number. -/
def rowNo (off : Nat) : Nat := off / 512 % 65536

theorem rowNo_lt (off : Nat) : rowNo off < 65536 := Nat.mod_lt _ (by decide)

theorem Tower.servRow_lt (t : Tower) (sub : Nat) {r : Nat} (hr : r < 64) : t.servRow sub r < 66 := by
  simp only [Tower.servRow]
  split
  · decide
  · split <;> omega

/-- Two rows of a subarray are served by two. -/
theorem Tower.servRow_inj (t : Tower) (sub : Nat) {r r' : Nat} (hr : r < 64) (hr' : r' < 64)
    (h : t.servRow sub r = t.servRow sub r') : r = r' := by
  simp only [Tower.servRow, Bool.and_eq_true, decide_eq_true_eq] at h
  repeat' split at h
  all_goals omega

/-- The serving row of a row, counted over the whole tower. -/
def Tower.rowIx (t : Tower) (r : Nat) : Nat := r % 1024 * 66 + t.servRow (r % 1024) (r / 1024)

theorem Tower.rowIx_inj (t : Tower) {r r' : Nat} (hr : r < 65536) (hr' : r' < 65536) (h : t.rowIx r = t.rowIx r') : r = r' := by
  have hlt := t.servRow_lt (r % 1024) (r := r / 1024) (by omega)
  have hlt' := t.servRow_lt (r' % 1024) (r := r' / 1024) (by omega)
  rw [Tower.rowIx, Tower.rowIx] at h
  have hsub : r % 1024 = r' % 1024 := by omega
  rw [hsub] at h
  have := t.servRow_inj (r' % 1024) (r := r / 1024) (r' := r' / 1024) (by omega) (by omega) (by omega)
  omega

theorem Tower.key_eq (t : Tower) (off : Nat) : t.key off = 512 * t.rowIx (rowNo off) + off % 512 := by
  have hsub : subOf off = rowNo off % 1024 := by rw [subOf, rowNo]; omega
  have hrow : rowOf off = rowNo off / 1024 := by rw [rowOf, rowNo]; omega
  rw [Tower.key, rowKey, hsub, hrow, Tower.rowIx]
  omega

/-- The first cell of a row's serving row. -/
theorem Tower.rowKey_eq (t : Tower) {r : Nat} (hr : r < 65536) : rowKey (subOf (r * 512)) (t.servRow (subOf (r * 512)) (rowOf (r * 512))) =
    512 * t.rowIx r := by
  have hkey := t.key_eq (r * 512)
  have hno : rowNo (r * 512) = r := by rw [rowNo]; omega
  rw [Tower.key, hno] at hkey
  omega

/-! ## Sectors in error (R197, R205) -/

/-- A sector is marked, or a word of it has two or more bits in error. -/
def sectorBad (poison err2 : Marks) (sec : Nat) : Bool := Marks.has poison sec || err2.any (fun w => decide (w / 4 = sec))

theorem sectorBad_iff (poison err2 : Marks) (sec : Nat) :
    sectorBad poison err2 sec = true ↔ sec ∈ poison ∨ ∃ w ∈ err2, w / 4 = sec := by
  rw [sectorBad, Bool.or_eq_true, Marks.has_iff, List.any_eq_true]
  simp only [decide_eq_true_eq]

theorem mem_putRowMarks (m r : Marks) (base n x : Nat) : x ∈ putRowMarks m base n r ↔
    (x ∈ m ∧ ¬(base ≤ x ∧ x < base + n)) ∨ ∃ y ∈ r, y < n ∧ y + base = x := by
  simp [putRowMarks, and_assoc, imp_iff_not_or]

theorem mem_rowMarks (m : Marks) (base n x : Nat) : x ∈ rowMarks m base n ↔ x < n ∧ x + base ∈ m := by
  simp only [rowMarks, List.mem_map, List.mem_filter, Bool.and_eq_true, decide_eq_true_eq]
  constructor
  · rintro ⟨y, ⟨hy, hlo, hhi⟩, rfl⟩
    exact ⟨by omega, by rwa [Nat.sub_add_cancel hlo]⟩
  · rintro ⟨hx, hm⟩
    exact ⟨x + base, ⟨hm, by omega, by omega⟩, by omega⟩

/-- The sectors of a row that a line is written back to are those of the line; the others stay. -/
theorem sectorBad_putRowMarks (p e lp le : Marks) (a b : Nat) {sec : Nat} (hsec : sec < 16) :
    sectorBad (putRowMarks p (16 * a) 16 lp) (putRowMarks e (64 * a) 64 le) (16 * b + sec) =
      if b = a then sectorBad lp le sec else sectorBad p e (16 * b + sec) := by
  rw [Bool.eq_iff_iff, sectorBad_iff]
  split
  next h =>
    subst h
    rw [sectorBad_iff, mem_putRowMarks]
    refine or_congr ⟨?_, fun h => .inr ⟨sec, h, hsec, by omega⟩⟩ ⟨?_, ?_⟩
    · rintro (⟨-, h⟩ | ⟨y, hy, -, he⟩)
      · omega
      · rwa [show sec = y by omega]
    · rintro ⟨w, hw, he⟩
      rcases (mem_putRowMarks ..).mp hw with ⟨-, h⟩ | ⟨y, hy, -, hyw⟩
      · omega
      · exact ⟨y, hy, by omega⟩
    · rintro ⟨w, hw, he⟩
      exact ⟨w + 64 * b, (mem_putRowMarks ..).mpr (.inr ⟨w, hw, by omega, rfl⟩), by omega⟩
  next h =>
    rw [sectorBad_iff, mem_putRowMarks]
    refine or_congr ⟨?_, fun h' => .inl ⟨h', by omega⟩⟩ ⟨?_, ?_⟩
    · rintro (⟨h', -⟩ | ⟨y, -, hy, he⟩)
      · exact h'
      · omega
    · rintro ⟨w, hw, he⟩
      rcases (mem_putRowMarks ..).mp hw with ⟨h', -⟩ | ⟨y, -, hy, hyw⟩
      · exact ⟨w, h', he⟩
      · omega
    · rintro ⟨w, hw, he⟩
      exact ⟨w, (mem_putRowMarks ..).mpr (.inl ⟨hw, by omega⟩), he⟩

/-- A captured row's sectors are those of the cells. -/
theorem sectorBad_rowMarks (p e : Marks) (a : Nat) {sec : Nat} (hsec : sec < 16) :
    sectorBad (rowMarks p (16 * a) 16) (rowMarks e (64 * a) 64) sec = sectorBad p e (16 * a + sec) := by
  rw [Bool.eq_iff_iff, sectorBad_iff, sectorBad_iff, mem_rowMarks, and_iff_right hsec, Nat.add_comm sec]
  refine or_congr_right ⟨?_, ?_⟩
  · rintro ⟨w, hw, he⟩
    exact ⟨w + 64 * a, ((mem_rowMarks ..).mp hw).2, by omega⟩
  · rintro ⟨w, hw, he⟩
    exact ⟨w - 64 * a, (mem_rowMarks ..).mpr ⟨by omega, by rwa [Nat.sub_add_cancel (by omega)]⟩, by omega⟩

/-! ## Bytes of a row -/

theorem Memory.getD_read (m : Memory) (a : Nat) {n i : Nat} (hi : i < n) : (Memory.read m a n).getD i 0#8 = Memory.get m (a + i) := by
  induction n generalizing a i with
  | zero => exact absurd hi (Nat.not_lt_zero i)
  | succ n ih =>
    cases i with
    | zero => rfl
    | succ i =>
      rw [Memory.read, List.getD_cons_succ, ih (a + 1) (by omega)]
      congr 1
      omega

theorem Memory.get_clear (m : Memory) {a n x : Nat} (h : ¬(a ≤ x ∧ x < a + n)) : Memory.get (Memory.clear m a n) x = Memory.get m x :=
  Memory.get_filter m (fun y => !(decide (a ≤ y) && decide (y < a + n))) x (by simpa [imp_iff_not_or] using h)

section
variable (t : Tower)

theorem Tower.takes_of_sound (h : t.stuck = []) (key : Nat) (b : BitVec 8) : t.takes key b = b := by
  rw [Tower.takes, h]
  rfl

theorem Tower.get_cells_writeBack (l : Line) {r i : Nat} (hr : r < 65536) (hi : i < 512) :
    Memory.get (t.writeBack l).cells (512 * t.rowIx r + i) =
      if r = l.row.toNat then t.takes (512 * t.rowIx r + i) (Memory.get l.data i) else Memory.get t.cells (512 * t.rowIx r + i) := by
  simp only [Tower.writeBack, t.rowKey_eq l.row.isLt]
  rw [Memory.get_write, List.length_map, List.length_zipIdx, Memory.length_read]
  by_cases h : r = l.row.toNat
  · subst h
    rw [if_pos (by omega), if_pos rfl, Nat.add_sub_cancel_left, List.getD_eq_getElem?_getD, List.getElem?_map, List.getElem?_zipIdx]
    have hbyte := Memory.getD_read l.data 0 hi
    rw [List.getD_eq_getElem?_getD, List.getElem?_eq_getElem (by rwa [Memory.length_read]), Option.getD_some, Nat.zero_add] at hbyte
    rw [List.getElem?_eq_getElem (by rwa [Memory.length_read]), hbyte]
    simp
  · have hix : t.rowIx r ≠ t.rowIx l.row.toNat := fun he => h (t.rowIx_inj hr l.row.isLt he)
    rw [if_neg (by omega), if_neg h, Memory.get_clear _ (by omega)]

theorem Tower.sectorBad_writeBack (l : Line) {r sec : Nat} (hr : r < 65536) (hsec : sec < 16) :
    sectorBad (t.writeBack l).poison (t.writeBack l).err2 (16 * t.rowIx r + sec) =
      if r = l.row.toNat then sectorBad l.poison l.err2 sec else sectorBad t.poison t.err2 (16 * t.rowIx r + sec) := by
  simp only [Tower.writeBack, t.rowKey_eq l.row.isLt, show 512 * t.rowIx l.row.toNat / 32 = 16 * t.rowIx l.row.toNat by omega,
    show 512 * t.rowIx l.row.toNat / 8 = 64 * t.rowIx l.row.toNat by omega]
  rw [sectorBad_putRowMarks _ _ _ _ _ _ hsec]
  exact if_congr ⟨t.rowIx_inj hr l.row.isLt, congrArg _⟩ rfl rfl

theorem Tower.get_data_capture (row : BitVec 16) (keep : Bool) {i : Nat} (hi : i < 512) :
    Memory.get (t.capture row keep).data i = Memory.get t.cells (512 * t.rowIx row.toNat + i) := by
  simp only [Tower.capture, t.rowKey_eq row.isLt]
  rw [Memory.get_write, Memory.length_read, if_pos (by omega), Nat.sub_zero, Memory.getD_read _ _ hi]

theorem Tower.sectorBad_capture (row : BitVec 16) (keep : Bool) {sec : Nat} (hsec : sec < 16) :
    sectorBad (t.capture row keep).poison (t.capture row keep).err2 sec = sectorBad t.poison t.err2 (16 * t.rowIx row.toNat + sec) := by
  simp only [Tower.capture, t.rowKey_eq row.isLt, show 512 * t.rowIx row.toNat / 32 = 16 * t.rowIx row.toNat by omega,
    show 512 * t.rowIx row.toNat / 8 = 64 * t.rowIx row.toNat by omega]
  exact sectorBad_rowMarks _ _ _ hsec

end

/-! ## The line of an offset (R196, R197) -/

section
variable {t : Tower} {o : Nat} {k : BitVec 5} {l : Line}

theorem Tower.lineAt_some (h : t.lineAt o = some (k, l)) : t.line k = some l ∧ l.row.toNat = rowNo o := by
  obtain ⟨k', -, hk⟩ := List.exists_of_findSome?_eq_some h
  split at hk
  next l' hl =>
    split at hk
    next hrow =>
      obtain ⟨rfl, rfl⟩ := Prod.mk.inj (Option.some.inj hk)
      exact ⟨hl, hrow⟩
    next => exact absurd hk.symm (Option.some_ne_none _)
  next => exact absurd hk.symm (Option.some_ne_none _)

theorem Tower.lineAt_eq_none_iff : t.lineAt o = none ↔ ∀ k l, t.line k = some l → l.row.toNat ≠ rowNo o := by
  rw [Tower.lineAt, List.findSome?_eq_none_iff]
  constructor
  · intro h k l hl hrow
    have hk := h k (List.mem_map.mpr ⟨k.toNat, List.mem_range.mpr k.isLt, by rw [BitVec.ofNat_toNat, BitVec.setWidth_eq]⟩)
    rw [Tower.line] at hl
    rw [rowNo] at hrow
    simp only [hl, hrow, if_true, reduceCtorEq] at hk
  · intro h k _
    split
    next l hl => exact if_neg (h k l hl)
    next => rfl

theorem Tower.lineAt_eq_some_iff (h : linesApart t) : t.lineAt o = some (k, l) ↔ t.line k = some l ∧ l.row.toNat = rowNo o := by
  refine ⟨Tower.lineAt_some, fun ⟨hl, hrow⟩ => ?_⟩
  cases he : t.lineAt o with
  | none => exact absurd hrow (Tower.lineAt_eq_none_iff.mp he k l hl)
  | some e =>
    obtain ⟨hl', hrow'⟩ := Tower.lineAt_some (k := e.1) (l := e.2) he
    have hk := h e.1 k e.2 l hl' hl (by rw [hrow', hrow])
    rw [← hk] at hl
    rw [← hk, show l = e.2 from Option.some.inj (hl.symm.trans hl')]

end


/-! ## What a tower reads as -/

section
variable {t : Tower} {o : Nat} {k : BitVec 5} {l : Line}

theorem Tower.byte_of_line (h : t.lineAt o = some (k, l)) : t.byte o = Memory.get l.data (o % 512) := by
  rw [Tower.byte, h]

theorem Tower.byte_of_free (h : t.lineAt o = none) : t.byte o = Memory.get t.cells (512 * t.rowIx (rowNo o) + o % 512) := by
  rw [Tower.byte, h]
  exact congrArg _ (t.key_eq o)

theorem Tower.poisoned_of_line (h : t.lineAt o = some (k, l)) : t.poisoned o = sectorBad l.poison l.err2 (o % 512 / 32) := by
  rw [Tower.poisoned, h]
  rfl

theorem Tower.poisoned_of_free (h : t.lineAt o = none) :
    t.poisoned o = sectorBad t.poison t.err2 (16 * t.rowIx (rowNo o) + o % 512 / 32) := by
  rw [Tower.poisoned, h]
  show sectorBad t.poison t.err2 (t.key o / 32) = _
  rw [t.key_eq, show (512 * t.rowIx (rowNo o) + o % 512) / 32 = 16 * t.rowIx (rowNo o) + o % 512 / 32 by omega]

end

/-- A tower reads as another, but for the bytes where cells of the other are stuck (R197, R295). -/
def Tower.ReadsAs (x t : Tower) : Prop := ∀ o, (t.stuck = [] → x.byte o = t.byte o) ∧ x.poisoned o = t.poisoned o

section
variable {x t : Tower}

/-- Where both find one line, or the same cells, they read alike. -/
theorem Tower.reads_of_line {o : Nat} {e : BitVec 5 × Line} (hx : x.lineAt o = some e) (ht : t.lineAt o = some e) :
    x.byte o = t.byte o ∧ x.poisoned o = t.poisoned o :=
  ⟨(Tower.byte_of_line hx).trans (Tower.byte_of_line ht).symm, (Tower.poisoned_of_line hx).trans (Tower.poisoned_of_line ht).symm⟩

end

section
variable (t : Tower) (d : BitVec 5)

theorem Tower.line_setLine (e : Option Line) (n : BitVec 5) :
    ({ t with lines := t.lines.set d e } : Tower).line n = if n = d then e else t.line n := by
  split
  next h => rw [h]; exact Bank.get_set_same ..
  next h => exact Bank.get_set_ne _ _ _ _ _ h

theorem Tower.release_of_free (h : t.line d = none) : t.release d = t := by rw [Tower.release, h]

/-- What releasing a pinned line leaves: what writing it back leaves, without the line. -/
theorem Tower.release_of_pinned {l : Line} (h : t.line d = some l) : (t.release d).lines = (t.writeBack l).lines.set d none ∧
    (t.release d).cells = (t.writeBack l).cells ∧ (t.release d).poison = (t.writeBack l).poison ∧
      (t.release d).err2 = (t.writeBack l).err2 ∧ (t.release d).remap = (t.writeBack l).remap := by
  simp only [Tower.release, h, Tower.noteFree, and_self]

theorem Tower.writeBack_lines (l : Line) : (t.writeBack l).lines = t.lines := by rw [Tower.writeBack]

theorem Tower.lineAt_writeBack (l : Line) (o : Nat) : (t.writeBack l).lineAt o = t.lineAt o := by
  rw [Tower.lineAt, t.writeBack_lines, Tower.lineAt]

theorem Tower.rowIx_congr {x t : Tower} (h : x.remap = t.remap) (r : Nat) : x.rowIx r = t.rowIx r := by
  rw [Tower.rowIx, Tower.servRow, h, Tower.rowIx, Tower.servRow]

theorem Tower.rowIx_writeBack (l : Line) (r : Nat) : (t.writeBack l).rowIx r = t.rowIx r := Tower.rowIx_congr (by rw [Tower.writeBack]) r

theorem Tower.rowIx_release (r : Nat) : (t.release d).rowIx r = t.rowIx r := by
  cases h : t.line d with
  | none => rw [t.release_of_free d h]
  | some l =>
    obtain ⟨-, -, -, -, hremap⟩ := t.release_of_pinned d h
    rw [Tower.rowIx_congr hremap, t.rowIx_writeBack]

theorem Tower.line_release (n : BitVec 5) : (t.release d).line n = if n = d then none else t.line n := by
  cases h : t.line d with
  | none =>
    rw [t.release_of_free d h]
    split
    next hn => rw [hn, h]
    next => rfl
  | some l =>
    obtain ⟨hlines, -⟩ := t.release_of_pinned d h
    rw [Tower.line, hlines, t.writeBack_lines]
    exact t.line_setLine d none n

theorem linesApart_release (h : linesApart t) : linesApart (t.release d) := by
  intro k k' l l' hk hk'
  rw [Tower.line_release] at hk hk'
  split at hk
  next => exact absurd hk.symm (Option.some_ne_none l)
  next =>
    split at hk'
    next => exact absurd hk'.symm (Option.some_ne_none l')
    next => exact h k k' l l' hk hk'

/-- Writing a line back, the pin staying, changes nothing that is read. -/
theorem Tower.readsAs_writeBack {l : Line} (hl : t.line d = some l) : (t.writeBack l).ReadsAs t := by
  intro o
  cases he : t.lineAt o with
  | some e =>
    obtain ⟨hbyte, hpoison⟩ := Tower.reads_of_line ((t.lineAt_writeBack l o).trans he) he
    exact ⟨fun _ => hbyte, hpoison⟩
  | none =>
    have hrow : rowNo o ≠ l.row.toNat := (Tower.lineAt_eq_none_iff.mp he d l hl).symm
    have hx := (t.lineAt_writeBack l o).trans he
    refine ⟨fun _ => ?_, ?_⟩
    · rw [Tower.byte_of_free hx, Tower.byte_of_free he, t.rowIx_writeBack]
      exact (t.get_cells_writeBack l (rowNo_lt o) (Nat.mod_lt o (by decide))).trans (if_neg hrow)
    · rw [Tower.poisoned_of_free hx, Tower.poisoned_of_free he, t.rowIx_writeBack]
      exact (t.sectorBad_writeBack l (rowNo_lt o) (by omega)).trans (if_neg hrow)

/-- A line written back and freed leaves in its cells what it held. -/
theorem Tower.readsAs_release (h : linesApart t) : (t.release d).ReadsAs t := by
  cases hl : t.line d with
  | none =>
    rw [t.release_of_free d hl]
    exact fun o => ⟨fun _ => rfl, rfl⟩
  | some l =>
    intro o
    have hapart := linesApart_release t d h
    obtain ⟨-, hcells, hpois, herr, -⟩ := t.release_of_pinned d hl
    by_cases hrow : rowNo o = l.row.toNat
    · have hold : t.lineAt o = some (d, l) := (Tower.lineAt_eq_some_iff h).mpr ⟨hl, hrow.symm⟩
      have hx : (t.release d).lineAt o = none := by
        refine Tower.lineAt_eq_none_iff.mpr fun k m hm hmrow => ?_
        rw [Tower.line_release] at hm
        split at hm
        next => exact absurd hm.symm (Option.some_ne_none m)
        next hk => exact hk (h k d m l hm hl (by rw [hmrow, hrow]))
      rw [Tower.byte_of_free hx, Tower.byte_of_line hold, Tower.poisoned_of_free hx, Tower.poisoned_of_line hold,
        t.rowIx_release, hcells, hpois, herr]
      refine ⟨fun hstuck => ?_, ?_⟩
      · refine (t.get_cells_writeBack l (rowNo_lt o) (Nat.mod_lt o (by decide))).trans ?_
        rw [if_pos hrow, t.takes_of_sound hstuck]
      · exact (t.sectorBad_writeBack l (rowNo_lt o) (by omega)).trans (if_pos hrow)
    · cases he : t.lineAt o with
      | some e =>
        obtain ⟨hm, hmrow⟩ := Tower.lineAt_some (k := e.1) (l := e.2) he
        have hne : e.1 ≠ d := by
          rintro hd
          rw [hd, hl] at hm
          exact hrow (by rw [← hmrow, Option.some.inj hm])
        have hx : (t.release d).lineAt o = some (e.1, e.2) :=
          (Tower.lineAt_eq_some_iff hapart).mpr ⟨by rw [Tower.line_release, if_neg hne, hm], hmrow⟩
        obtain ⟨hbyte, hpoison⟩ := Tower.reads_of_line hx he
        exact ⟨fun _ => hbyte, hpoison⟩
      | none =>
        have hx : (t.release d).lineAt o = none := by
          refine Tower.lineAt_eq_none_iff.mpr fun k m hm => ?_
          rw [Tower.line_release] at hm
          split at hm
          next => exact absurd hm.symm (Option.some_ne_none m)
          next => exact Tower.lineAt_eq_none_iff.mp he k m hm
        rw [Tower.byte_of_free hx, Tower.byte_of_free he, Tower.poisoned_of_free hx, Tower.poisoned_of_free he,
          t.rowIx_release, hcells, hpois, herr]
        refine ⟨fun _ => ?_, ?_⟩
        · exact (t.get_cells_writeBack l (rowNo_lt o) (Nat.mod_lt o (by decide))).trans (if_neg hrow)
        · exact (t.sectorBad_writeBack l (rowNo_lt o) (by omega)).trans (if_neg hrow)

/-- A row captured by a line that was free, where no other line is pinned in its subarray, reads as its cells. -/
theorem Tower.readsAs_capture (h : linesApart t) (hd : t.line d = none) (row : BitVec 16) (keep : Bool)
    (hrow : ∀ k l, t.line k = some l → subOf (l.row.toNat * 512) ≠ subOf (row.toNat * 512)) :
    linesApart { t with lines := t.lines.set d (some (t.capture row keep)) } ∧
      ({ t with lines := t.lines.set d (some (t.capture row keep)) } : Tower).ReadsAs t := by
  have hapart : linesApart { t with lines := t.lines.set d (some (t.capture row keep)) } := by
    intro k k' l l' hk hk' hsub
    rw [Tower.line_setLine] at hk hk'
    split at hk
    next hkd =>
      split at hk'
      next hkd' => rw [hkd, hkd']
      next =>
        obtain rfl := Option.some.inj hk
        exact absurd hsub.symm (hrow k' l' hk')
    next =>
      split at hk'
      next =>
        obtain rfl := Option.some.inj hk'
        exact absurd hsub (hrow k l hk)
      next => exact h k k' l l' hk hk' hsub
  refine ⟨hapart, fun o => ?_⟩
  by_cases ho : rowNo o = row.toNat
  · have hold : t.lineAt o = none := Tower.lineAt_eq_none_iff.mpr fun k l hl hlrow => hrow k l hl (by rw [hlrow, ho])
    have hx := (Tower.lineAt_eq_some_iff hapart (o := o)).mpr ⟨(t.line_setLine d _ d).trans (if_pos rfl), ho.symm⟩
    rw [Tower.byte_of_line hx, Tower.byte_of_free hold, Tower.poisoned_of_line hx, Tower.poisoned_of_free hold, ho]
    exact ⟨fun _ => t.get_data_capture row keep (Nat.mod_lt o (by decide)), t.sectorBad_capture row keep (by omega)⟩
  · cases he : t.lineAt o with
    | some e =>
      obtain ⟨hm, hmrow⟩ := Tower.lineAt_some (k := e.1) (l := e.2) he
      have hne : e.1 ≠ d := by
        rintro hed
        rw [hed, hd] at hm
        exact Option.some_ne_none _ hm.symm
      have hx := (Tower.lineAt_eq_some_iff hapart (o := o)).mpr ⟨(t.line_setLine d _ e.1).trans ((if_neg hne).trans hm), hmrow⟩
      obtain ⟨hbyte, hpoison⟩ := Tower.reads_of_line hx he
      exact ⟨fun _ => hbyte, hpoison⟩
    | none =>
      have hx : ({ t with lines := t.lines.set d (some (t.capture row keep)) } : Tower).lineAt o = none := by
        refine Tower.lineAt_eq_none_iff.mpr fun k m hm => ?_
        rw [Tower.line_setLine] at hm
        split at hm
        next =>
          obtain rfl := Option.some.inj hm
          exact Ne.symm ho
        next => exact Tower.lineAt_eq_none_iff.mp he k m hm
      rw [Tower.byte_of_free hx, Tower.byte_of_free he, Tower.poisoned_of_free hx, Tower.poisoned_of_free he,
        Tower.rowIx_congr (t := t) (x := { t with lines := t.lines.set d (some (t.capture row keep)) }) rfl]
      exact ⟨fun _ => rfl, rfl⟩

theorem Bank.mem_of_get {κ α : Type} [DecidableEq κ] {m : Bank κ α} {d v : α} {k : κ} (h : Bank.get m d k = v) (hv : v ≠ d) :
    (k, v) ∈ m := by
  induction m with
  | nil => exact absurd h.symm hv
  | cons e rest ih =>
    rw [Bank.get] at h
    split at h
    next he =>
      rw [← he, ← h]
      exact List.mem_cons_self
    next => exact List.mem_cons_of_mem _ (ih h)

/-- Where no other line is pinned in a row's subarray, no other line is there. -/
theorem Tower.subPinned_false {row : BitVec 16} (h : t.subPinned d row = false) {k : BitVec 5} {l : Line} (hk : k ≠ d)
    (hl : t.line k = some l) : subOf (l.row.toNat * 512) ≠ subOf (row.toNat * 512) := by
  have hmem : (k, some l) ∈ t.lines := Bank.mem_of_get hl (Option.some_ne_none l)
  have hno := List.any_eq_false.mp h _ hmem
  simpa [hk] using hno

end


/-- The tower with a line pinned to a row, what it held before written back. -/
def Tower.pinned (t : Tower) (d : BitVec 5) (row : BitVec 16) (keep : Bool) : Tower :=
  { t.release d with lines := (t.release d).lines.set d (some ((t.release d).capture row keep)) }

section
variable (t : Tower) (d : BitVec 5) (row : BitVec 16) (keep : Bool)

theorem Tower.pin_eq : t.pin d row keep = if t.subPinned d row then none else some (t.pinned d row keep) := rfl

theorem Tower.line_pinned (n : BitVec 5) :
    (t.pinned d row keep).line n = if n = d then some ((t.release d).capture row keep) else t.line n := by
  refine ((t.release d).line_setLine d _ n).trans ?_
  rw [t.line_release]
  split <;> rfl

theorem Tower.stuck_release : (t.release d).stuck = t.stuck := by
  cases h : t.line d with
  | none => rw [t.release_of_free d h]
  | some l => simp only [Tower.release, h, Tower.noteFree, Tower.writeBack]

theorem Tower.readsAs_pinned (h : linesApart t) (hfree : t.subPinned d row = false) :
    linesApart (t.pinned d row keep) ∧ (t.pinned d row keep).ReadsAs t := by
  have hrow (k : BitVec 5) (l : Line) (hl : (t.release d).line k = some l) : subOf (l.row.toNat * 512) ≠ subOf (row.toNat * 512) := by
    rw [t.line_release] at hl
    split at hl
    next => exact absurd hl.symm (Option.some_ne_none l)
    next hk => exact t.subPinned_false d hfree hk hl
  obtain ⟨hapart, hreads⟩ := (t.release d).readsAs_capture d (linesApart_release t d h) ((t.line_release d d).trans (if_pos rfl))
    row keep hrow
  refine ⟨hapart, fun o => ?_⟩
  obtain ⟨hbyte, hpoison⟩ := t.readsAs_release d h o
  obtain ⟨hbyte', hpoison'⟩ := hreads o
  exact ⟨fun hs => (hbyte' ((t.stuck_release d).trans hs)).trans (hbyte hs), hpoison'.trans hpoison⟩

end


/-! ## Poison of a sector (R197, R291) -/

theorem sectorBad_put (poison err2 : Marks) (sec sec' : Nat) :
    sectorBad (Marks.put poison sec true) err2 sec' = (sectorBad poison err2 sec' || decide (sec' = sec)) := by
  rw [sectorBad, Marks.has_put, sectorBad]
  by_cases h : sec' = sec <;> simp [h]

theorem Tower.lineAt_of_rowNo (t : Tower) {o o' : Nat} (h : rowNo o = rowNo o') : t.lineAt o = t.lineAt o' := by
  rw [rowNo, rowNo] at h
  rw [Tower.lineAt, h, Tower.lineAt]

/-- Offsets of one sector are those of one row and one sector of it. -/
theorem sector_eq_iff {o off : Nat} (ho : o < 2 ^ 25) (hoff : off < 2 ^ 25) :
    o / 32 = off / 32 ↔ rowNo o = rowNo off ∧ o % 512 / 32 = off % 512 / 32 := by
  rw [rowNo, rowNo]
  omega

section
variable (t : Tower) (off o : Nat)

theorem Tower.setPoison_of_free (b : Bool) (h : t.lineAt off = none) :
    t.setPoison off b = { t with poison := Marks.put t.poison (t.key off / 32) b } := by
  rw [Tower.setPoison, h]

theorem Tower.setPoison_of_line (b : Bool) {k : BitVec 5} {l : Line} (h : t.lineAt off = some (k, l)) :
    t.setPoison off b = { t with lines := t.lines.set k (some { l with poison := Marks.put l.poison (off % 512 / 32) b }) } := by
  rw [Tower.setPoison, h]

/-- A line that changes without leaving its row is found where it was found. -/
theorem Tower.lineAt_setLine {k : BitVec 5} {l l' : Line} (hl : t.line k = some l) (hrow : l'.row = l.row) :
    ({ t with lines := t.lines.set k (some l') } : Tower).lineAt o = (t.lineAt o).map (fun e => (e.1, if e.1 = k then l' else e.2)) := by
  rw [Tower.lineAt, Tower.lineAt, List.map_findSome?]
  refine congrArg (List.findSome? · _) (funext fun n => ?_)
  have hn := t.line_setLine k (some l') n
  rw [Tower.line, Tower.line] at hn
  by_cases hk : n = k
  · subst hk
    rw [Tower.line] at hl
    rw [if_pos rfl] at hn
    simp only [hn, hl, hrow, Function.comp_apply]
    split <;> simp
  · rw [if_neg hk] at hn
    simp only [hn, Function.comp_apply]
    split
    · split <;> simp [hk]
    · rfl

theorem Tower.byte_setPoison : (t.setPoison off true).byte o = t.byte o := by
  cases he : t.lineAt off with
  | none => rw [t.setPoison_of_free off true he]; rfl
  | some e =>
    obtain ⟨hl, -⟩ := Tower.lineAt_some (k := e.1) (l := e.2) he
    have hx := t.lineAt_setLine o hl (l' := { e.2 with poison := Marks.put e.2.poison (off % 512 / 32) true }) rfl
    rw [t.setPoison_of_line off true he]
    cases ho : t.lineAt o with
    | none =>
      rw [ho] at hx
      rw [Tower.byte_of_free hx, Tower.byte_of_free ho]
      rfl
    | some m =>
      rw [ho] at hx
      rw [Tower.byte_of_line hx, Tower.byte_of_line ho]
      split
      next hk =>
        obtain ⟨hm, -⟩ := Tower.lineAt_some (k := m.1) (l := m.2) ho
        rw [hk, hl] at hm
        rw [← Option.some.inj hm]
      next => rfl

theorem Tower.poisoned_setPoison {off o : Nat} (hoff : off < 2 ^ 25) (ho : o < 2 ^ 25) :
    (t.setPoison off true).poisoned o = (t.poisoned o || decide (o / 32 = off / 32)) := by
  rw [decide_eq_decide.mpr (sector_eq_iff ho hoff)]
  cases he : t.lineAt off with
  | none =>
    rw [t.setPoison_of_free off true he]
    cases hm : t.lineAt o with
    | some m =>
      have hrow : rowNo o ≠ rowNo off := fun h => Option.some_ne_none m (hm.symm.trans ((t.lineAt_of_rowNo h).trans he))
      rw [decide_eq_false fun h => hrow h.1, Bool.or_false]
      exact (Tower.poisoned_of_line (t := { t with poison := Marks.put t.poison (t.key off / 32) true }) hm).trans
        (Tower.poisoned_of_line hm).symm
    | none =>
      rw [Tower.poisoned_of_free (t := { t with poison := Marks.put t.poison (t.key off / 32) true }) hm, Tower.poisoned_of_free hm]
      refine (sectorBad_put ..).trans (congrArg _ (decide_eq_decide.mpr ?_))
      rw [Tower.rowIx_congr (t := t) (x := { t with poison := Marks.put t.poison (t.key off / 32) true }) rfl, t.key_eq]
      constructor
      · intro h
        have hix : t.rowIx (rowNo o) = t.rowIx (rowNo off) := by omega
        exact ⟨t.rowIx_inj (rowNo_lt o) (rowNo_lt off) hix, by omega⟩
      · rintro ⟨hrow, hsec⟩
        rw [hrow]
        omega
  | some e =>
    obtain ⟨hl, hlrow⟩ := Tower.lineAt_some (k := e.1) (l := e.2) he
    have hx := t.lineAt_setLine o hl (l' := { e.2 with poison := Marks.put e.2.poison (off % 512 / 32) true }) rfl
    rw [t.setPoison_of_line off true he]
    cases hm : t.lineAt o with
    | none =>
      have hrow : rowNo o ≠ rowNo off := fun h => Option.some_ne_none e (he.symm.trans ((t.lineAt_of_rowNo h).symm.trans hm))
      rw [hm] at hx
      rw [Tower.poisoned_of_free hx, Tower.poisoned_of_free hm, decide_eq_false fun h => hrow h.1, Bool.or_false]
      rfl
    | some m =>
      obtain ⟨hn, hnrow⟩ := Tower.lineAt_some (k := m.1) (l := m.2) hm
      rw [hm] at hx
      rw [Tower.poisoned_of_line hx, Tower.poisoned_of_line hm]
      by_cases hk : m.1 = e.1
      · rw [hk, hl] at hn
        have hrow : rowNo o = rowNo off := by rw [← hnrow, ← hlrow, Option.some.inj hn]
        rw [if_pos hk, ← Option.some.inj hn]
        refine (sectorBad_put ..).trans (congrArg _ (decide_eq_decide.mpr ?_))
        rw [and_iff_right hrow]
      · have hrow : rowNo o ≠ rowNo off := fun h => by
          have := Option.some.inj (hm.symm.trans ((t.lineAt_of_rowNo h).trans he))
          exact hk (congrArg Prod.fst this)
        rw [if_neg hk, decide_eq_false fun h => hrow h.1, Bool.or_false]

end

/-! ## Deferred subarrays (R200, R290) -/

theorem has_deferMarks (m : Marks) (line n sub : Nat) : Marks.has (deferMarks m line n) sub = true ↔
    Marks.has m sub = true ∨ ∃ i, i < n ∧ (line + i) % 1024 = sub := by
  induction n generalizing m line with
  | zero => simp [deferMarks]
  | succ n ih =>
    rw [deferMarks, ih, Marks.has_put]
    by_cases h : sub = line % 1024
    · rw [if_pos h]
      exact iff_of_true (.inl rfl) (.inr ⟨0, Nat.succ_pos n, h.symm⟩)
    · rw [if_neg h]
      refine or_congr_right ⟨?_, ?_⟩
      · rintro ⟨i, hi, he⟩
        exact ⟨i + 1, by omega, by rwa [← Nat.add_assoc, Nat.add_right_comm]⟩
      · rintro ⟨i, hi, he⟩
        cases i with
        | zero => exact absurd he.symm h
        | succ i => exact ⟨i, by omega, by rwa [Nat.add_right_comm, Nat.add_assoc]⟩

/-- The subarrays that hold a byte of a range. -/
theorem has_deferMarks_range (m : Marks) {off n : Nat} (hn : 0 < n) (sub : Nat) :
    Marks.has (deferMarks m (off / 512) (min ((off + n - 1) / 512 - off / 512 + 1) 1024)) sub = true ↔
      Marks.has m sub = true ∨ ∃ o, off ≤ o ∧ o < off + n ∧ o / 512 % 1024 = sub := by
  rw [has_deferMarks]
  refine or_congr_right ⟨?_, ?_⟩
  · rintro ⟨i, hi, he⟩
    exact ⟨max off ((off / 512 + i) * 512), by omega, by omega, by omega⟩
  · rintro ⟨o, hlo, hhi, he⟩
    exact ⟨(o / 512 - off / 512) % 1024, by omega, by omega⟩


/-! ## The instructions, their tokens there -/

/-- Core s.exe after its control instruction has changed it by f and retired. -/
theorem State.core_did (s : State) (f : Core → Core) (t : Option Tok) : (s.did f t).core s.exe =
    { f (s.core s.exe) with tok := ((f (s.core s.exe)).tok.pop t).push t, front := (f (s.core s.exe)).front.advance } := by
  rw [State.did, State.core_went, State.core_modCore]

section
variable {t : Option Tok} {s : State} (h : s.goes t)
include h

theorem State.leftSlot_of_advance {u : State} (hu : (u.core s.exe).front = (s.core s.exe).front.advance) : s.leftSlot u := by
  obtain ⟨hdone, hstarted, -, -, -⟩ := h
  rw [State.leftSlot, hu, Front.advance]
  generalize (s.core s.exe).front = x at hdone hstarted
  cases x
  cases hdone
  cases hstarted
  rfl

theorem State.leftSlot_went : s.leftSlot (s.went s.exe t) := State.leftSlot_of_advance h (by rw [State.core_went])

theorem State.leftSlot_did (f : Core → Core) (hf : (f (s.core s.exe)).front = (s.core s.exe).front) : s.leftSlot (s.did f t) :=
  State.leftSlot_of_advance h (by rw [State.core_did, hf])

theorem runC_did {body : CoreId → State → Eff} {f : Core → Core} (hb : body s.exe s = .done (s.modCore s.exe f))
    (hf : (f (s.core s.exe)).tok = (s.core s.exe).tok) : runC t body s = .next (s.did f t) :=
  runC_done t body s _ h hb (by rw [State.core_modCore, hf])

section
variable (d a b : BitVec 5) (keep : BitVec 1) {off : Nat} (hoff : off < 2 ^ 25) (ha : (s.val a).toNat = windowBase + off)

theorem exec_rowwb_did : exec (.rowwb d t) s = .next (s.did (fun c => { c with tower := c.tower.rowwb d }) t) :=
  runC_did (body := rowBody (fun x => x.rowwb d)) h rfl rfl

theorem exec_rowrel_did : exec (.rowrel d t) s = .next (s.did (fun c => { c with tower := c.tower.release d }) t) :=
  runC_did (body := rowBody (fun x => x.release d)) h rfl rfl

theorem exec_shset_writes (hok : shsetOk b.toNat (s.val a) = true) : exec (.shset d a b t) s = .next (s.did (fun c =>
    { c with shapes := c.shapes.set (d.truncate 4) (shPut (c.shape (d.truncate 4)) b.toNat (s.val a)) }) t) :=
  runC_did (body := shsetBody d a b) h (if_pos hok) rfl

theorem exec_shset_refuses (hok : ¬shsetOk b.toNat (s.val a) = true) :
    exec (.shset d a b t) s = .next (s.traps { code := 0x01#8, addr := s.val a }) :=
  runC_trap t (shsetBody d a b) s s _ h (if_neg hok)

theorem exec_shget_puts : exec (.shget d a b t) s =
    .next (s.puts d (shgetWord ((s.core s.exe).shape (a.truncate 4)) b.toNat) t) :=
  runC_did (body := shgetBody d a b) (f := fun c => c.setReg d (shgetWord ((s.core s.exe).shape (a.truncate 4)) b.toNat)) h rfl rfl

theorem exec_refdefer_nothing (hb : s.val b = 0#64) : exec (.refdefer a b t) s = .next (s.went s.exe t) :=
  runC_done t (refdeferBody a b) s s h (if_pos hb) rfl

include hoff ha

omit h in
/-- A check of a byte of the window, as `rowpin`, `refdefer` and `poison` make it. -/
theorem check_window_byte {kind : Kind} (hkind : kind ≠ .head) : s.check s.exe (s.core s.exe).ctl.asid (s.core s.exe).ctl.xe
    (s.core s.exe).ctl.sup kind 0 ((s.core s.exe).reg a).toNat 1 = .ok [windowPiece off 1] := by
  rw [show ((s.core s.exe).reg a).toNat = windowBase + off from ha]
  exact check_window hkind (.inl rfl) (by decide) hoff (by omega)

theorem exec_rowpin_refuses (hp : (s.core s.exe).tower.subPinned d (BitVec.ofNat 16 (off / 512)) = true) :
    exec (.rowpin d a keep t) s = .next (s.traps { code := 0x05#8, addr := s.val a }) := by
  refine runC_trap t (rowpinBody d a keep) s s _ h ?_
  have hva : ((s.core s.exe).reg a).toNat - windowBase = off := by rw [show ((s.core s.exe).reg a).toNat = windowBase + off from ha]; omega
  simp only [rowpinBody, check_window_byte a hoff ha (kind := .row) (by decide), windowPiece_not_blocked, hva, Tower.pin_eq, hp]
  rfl

theorem exec_rowpin_pins (hp : (s.core s.exe).tower.subPinned d (BitVec.ofNat 16 (off / 512)) = false) :
    exec (.rowpin d a keep t) s = .next (s.did (fun c => { c with
      tower := c.tower.pinned d (BitVec.ofNat 16 (off / 512)) (decide (keep = 1#1))
      ctl := { c.ctl with cst := setBit c.ctl.cst (32 + d.toNat) false } }) t) := by
  refine runC_did (body := rowpinBody d a keep) h ?_ rfl
  have hva : ((s.core s.exe).reg a).toNat - windowBase = off := by rw [show ((s.core s.exe).reg a).toNat = windowBase + off from ha]; omega
  simp only [rowpinBody, check_window_byte a hoff ha (kind := .row) (by decide), windowPiece_not_blocked, hva, Tower.pin_eq, hp]
  rfl

section
variable (hal : off % 64 = 0) (hclean : ((s.core s.exe).tower.scrub off 64).2 = (0, 0))
  (hpoison : (s.core s.exe).tower.firstPoison off 64 = none)
include hal hclean hpoison

omit h in
theorem ctlLoad_shld : s.ctlLoad s.exe .shld 64 (s.reg s.exe a).toNat 64 = .ok ((s.core s.exe).tower.read off 64) s := by
  rw [show (s.reg s.exe a).toNat = windowBase + off from ha]
  exact ctlLoad_window (by decide) (.inr (by rw [windowBase]; omega)) (by decide) hoff (by omega) hclean hpoison

theorem exec_shld_loads (hok : shapeOk (BitVec.ofNat 512 (bytesToNat ((s.core s.exe).tower.read off 64))) = true) :
    exec (.shld d a t) s = .next (s.did (fun c => { c with
      shapes := c.shapes.set (d.truncate 4) (BitVec.ofNat 512 (bytesToNat ((s.core s.exe).tower.read off 64))) }) t) := by
  refine runC_did (body := shldBody d a) h ?_ rfl
  simp only [shldBody, ctlLoad_shld a hoff ha hal hclean hpoison, hok]
  rfl

theorem exec_shld_refuses (hok : ¬shapeOk (BitVec.ofNat 512 (bytesToNat ((s.core s.exe).tower.read off 64))) = true) :
    exec (.shld d a t) s = .next (s.traps { code := 0x01#8, addr := s.val a }) := by
  refine runC_trap t (shldBody d a) s s _ h ?_
  simp only [shldBody, ctlLoad_shld a hoff ha hal hclean hpoison, hok]
  rfl

end

theorem exec_refdefer_refuses (hb : s.val b ≠ 0#64) (hn : 2 ^ 25 < off + (s.val b).toNat) :
    exec (.refdefer a b t) s = .next (s.traps { code := 0x05#8, addr := s.val a }) := by
  refine runC_trap t (refdeferBody a b) s s _ h ((if_neg hb).trans ?_)
  have hfar : 2 ^ 56 < ((s.core s.exe).reg a).toNat + (s.val b).toNat := by
    rw [show ((s.core s.exe).reg a).toNat = windowBase + off from ha, windowBase]
    omega
  have hcheck := check_window_byte a hoff ha (kind := .row) (by decide)
  show (match s.check s.exe _ _ _ .row 0 ((s.core s.exe).reg a).toNat 1 with | .error _ => _ | .ok _ => _) = _
  rw [hcheck]
  exact (if_neg (by rw [windowPiece_not_blocked]; exact Bool.false_ne_true)).trans (if_pos hfar)

/-- The subarrays that `refdefer` marks. -/
def Tower.deferred (t : Tower) (off n : Nat) : Marks := deferMarks t.defer (off / 512) (min ((off + n - 1) / 512 - off / 512 + 1) 1024)

theorem exec_refdefer_marks (hb : s.val b ≠ 0#64) (hn : off + (s.val b).toNat ≤ 2 ^ 25) : exec (.refdefer a b t) s =
    .next (s.did (fun c => { c with tower := { c.tower with defer := c.tower.deferred off (s.val b).toNat } }) t) := by
  refine runC_did (body := refdeferBody a b) h ((if_neg hb).trans ?_) rfl
  have hva : (s.reg s.exe a).toNat - windowBase = off := by rw [show (s.reg s.exe a).toNat = windowBase + off from ha]; omega
  have hnear : ¬2 ^ 56 < ((s.core s.exe).reg a).toNat + (s.val b).toNat := by
    rw [show ((s.core s.exe).reg a).toNat = windowBase + off from ha, windowBase]
    omega
  have hcheck := check_window_byte a hoff ha (kind := .row) (by decide)
  show (match s.check s.exe _ _ _ .row 0 ((s.core s.exe).reg a).toNat 1 with | .error _ => _ | .ok _ => _) = _
  rw [hcheck]
  refine (if_neg (by rw [windowPiece_not_blocked]; exact Bool.false_ne_true)).trans ((if_neg hnear).trans ?_)
  rw [hva]
  rfl

theorem exec_poison_poisons (hsup : (s.core s.exe).ctl.cst.getLsbD 11 = true) :
    exec (.poison a t) s = .next (s.did (fun c => { c with tower := c.tower.setPoison off true }) t) := by
  have hcheck : s.check s.exe (s.core s.exe).ctl.asid (s.core s.exe).ctl.xe (s.core s.exe).ctl.sup .poison 0
      ((s.core s.exe).ctl.reg a).toNat 1 = .ok [windowPiece off 1] := check_window_byte a hoff ha (by decide)
  have hs : (!(s.core s.exe).ctl.sup) = false := congrArg Bool.not hsup
  refine runC_did (body := poisonBody a) h ?_ rfl
  simp only [poisonBody, hs, hcheck, windowPiece_not_blocked]
  rfl

end

end


/-! ## What they leave -/

theorem State.did_congr {s : State} {f g : Core → Core} (h : f (s.core s.exe) = g (s.core s.exe)) (t : Option Tok) :
    s.did f t = s.did g t :=
  congrArg (fun u : State => u.went s.exe t) (State.modCore_congr h)

section
variable (t : Tower) (d : BitVec 5)

theorem Tower.rowwb_of_pinned {l : Line} (h : t.line d = some l) : t.rowwb d = t.writeBack l := by rw [Tower.rowwb, h]

theorem Tower.rowwb_of_free (h : t.line d = none) : t.rowwb d = t := by rw [Tower.rowwb, h]

theorem Tower.line_rowwb (n : BitVec 5) : (t.rowwb d).line n = t.line n := by
  cases h : t.line d with
  | none => rw [t.rowwb_of_free d h]
  | some l => rw [t.rowwb_of_pinned d h, Tower.line, t.writeBack_lines, Tower.line]

theorem Tower.readsAs_rowwb : (t.rowwb d).ReadsAs t := by
  cases h : t.line d with
  | none =>
    rw [t.rowwb_of_free d h]
    exact fun o => ⟨fun _ => rfl, rfl⟩
  | some l =>
    rw [t.rowwb_of_pinned d h]
    exact t.readsAs_writeBack d h

end

theorem shsetOk_of_small {code : Nat} {v : Word} (h : v.toNat < 2 ^ (shField code).2.2.1)
    (hs : (shField code).2.2.2 = true → v.toNat < 2 ^ 47) : shsetOk code v = true := by
  rw [shsetOk_iff]
  split
  next hsg =>
    left
    rw [← BitVec.toNat_inj, BitVec.extractLsb'_toNat, Nat.shiftRight_eq_div_pow, Nat.div_eq_of_lt (hs hsg)]
    rfl
  next => exact h

theorem Core.shape_setShape (c : Core) (n : BitVec 4) (x : BitVec 512) :
    ({ c with shapes := c.shapes.set n x } : Core).shape n = x := Bank.get_set_same ..

/-- Each of the instructions completes, and what its result holds. -/
theorem towerControl_completes (d a b : BitVec 5) (keep : BitVec 1) (off : Nat) (t : Option Tok) (s : State) (h : s.goes t) :
     let c := s.core s.exe
     let inside : Prop := off < 2 ^ 25 ∧ (s.val a).toNat = 0xFFFFFFFE000000 + off
     (inside → c.tower.subPinned d (BitVec.ofNat 16 (off / 512)) = false →
       ∃ u, exec (.rowpin d a keep t) s = .next u ∧ s.leftSlot u ∧ ((u.core s.exe).tower.line d).isSome = true) ∧
     (∃ u, exec (.rowwb d t) s = .next u ∧ s.leftSlot u ∧ (u.core s.exe).tower.line d = c.tower.line d) ∧
     (∃ u, exec (.rowrel d t) s = .next u ∧ s.leftSlot u ∧ (u.core s.exe).tower.line d = none) ∧
     (b.toNat < 14 → (s.val a).toNat < 2 ^ (shField b.toNat).2.2.1 →
       ((shField b.toNat).2.2.2 = true → (s.val a).toNat < 2 ^ 47) →
       ∃ u, exec (.shset d a b t) s = .next u ∧ s.leftSlot u ∧
         shGet ((u.core s.exe).shape (d.truncate 4)) b.toNat = s.val a) ∧
     (inside → off % 64 = 0 → (c.tower.scrub off 64).2 = (0, 0) → c.tower.firstPoison off 64 = none →
       shapeOk (BitVec.ofNat 512 (bytesToNat (c.tower.read off 64))) = true →
       ∃ u, exec (.shld d a t) s = .next u ∧ s.leftSlot u ∧
         ((u.core s.exe).shape (d.truncate 4)).toNat = bytesToNat (c.tower.read off 64)) ∧
     (inside → off + (s.val b).toNat ≤ 2 ^ 25 →
       ∃ u, exec (.refdefer a b t) s = .next u ∧ s.leftSlot u ∧
         (s.val b ≠ 0#64 → Marks.has (u.core s.exe).tower.defer (off / 512 % 1024) = true)) ∧
     (inside → c.ctl.cst.getLsbD 11 = true →
       ∃ u, exec (.poison a t) s = .next u ∧ s.leftSlot u ∧ (u.core s.exe).tower.poisoned off = true) := by
  intro c inside
  have hdid (f : Core → Core) : (s.did f t).core s.exe = _ := s.core_did f t
  refine ⟨fun ⟨hoff, ha⟩ hp => ⟨_, exec_rowpin_pins h d a keep hoff ha hp, State.leftSlot_did h _ rfl, ?rowpin⟩,
    ⟨_, exec_rowwb_did h d, State.leftSlot_did h _ rfl, ?rowwb⟩, ⟨_, exec_rowrel_did h d, State.leftSlot_did h _ rfl, ?rowrel⟩,
    fun _ hlt hs => ⟨_, exec_shset_writes h d a b (shsetOk_of_small hlt hs), State.leftSlot_did h _ rfl, ?shset⟩,
    fun ⟨hoff, ha⟩ hal hclean hpoison hok => ⟨_, exec_shld_loads h d a hoff ha hal hclean hpoison hok,
      State.leftSlot_did h _ rfl, ?shld⟩,
    fun ⟨hoff, ha⟩ hn => ?refdefer,
    fun ⟨hoff, ha⟩ hsup => ⟨_, exec_poison_poisons h a hoff ha hsup, State.leftSlot_did h _ rfl, ?poison⟩⟩
  case rowpin =>
    rw [hdid]
    show ((c.tower.pinned d _ _).line d).isSome = true
    rw [Tower.line_pinned, if_pos rfl]
    rfl
  case rowwb =>
    rw [hdid]
    exact c.tower.line_rowwb d d
  case rowrel =>
    rw [hdid]
    exact (c.tower.line_release d d).trans (if_pos rfl)
  case shset =>
    rw [hdid]
    show shGet (Core.shape { c with shapes := c.shapes.set _ _ } _) b.toNat = _
    rw [Core.shape_setShape, ← BitVec.toNat_inj, shGet_shPut_same, Nat.mod_eq_of_lt hlt]
  case shld =>
    rw [hdid]
    show (Core.shape { c with shapes := c.shapes.set _ _ } _).toNat = _
    rw [Core.shape_setShape, BitVec.toNat_ofNat, Nat.mod_eq_of_lt]
    refine (bytesToNat_lt _).trans_eq ?_
    rw [Tower.read, List.length_map, List.length_range]
  case refdefer =>
    by_cases hb : s.val b = 0#64
    · exact ⟨_, exec_refdefer_nothing h a b hb, State.leftSlot_went h, fun hne => absurd hb hne⟩
    · refine ⟨_, exec_refdefer_marks h a b hoff ha hb hn, State.leftSlot_did h _ rfl, fun _ => ?_⟩
      rw [hdid]
      have hpos : 0 < (s.val b).toNat := Nat.pos_of_ne_zero fun hz => hb (BitVec.eq_of_toNat_eq hz)
      exact (has_deferMarks_range c.tower.defer hpos _).mpr (.inr ⟨off, Nat.le_refl off, by omega, rfl⟩)
  case poison =>
    rw [hdid]
    show (c.tower.setPoison off true).poisoned off = true
    rw [c.tower.poisoned_setPoison hoff hoff, decide_eq_true rfl, Bool.or_true]

/-- Settles O34: the tower reads the same through every pin, write-back and release, and each field and mark is written alone. -/
theorem towerControl : Obligations.TowerControl := by
  unfold Obligations.TowerControl
  refine ⟨towerControl_completes, fun d a keep off t s h hapart => ?rows, fun d a b off t s h => ?shapes,
    fun a b off t s h hoff ha => ?marks⟩
  case rows =>
    intro old row same
    have hsame {x : Tower} (h : linesApart x) (hr : x.ReadsAs old) (hl : ∀ n, n ≠ d → x.line n = old.line n) : same x :=
      ⟨h, fun o _ => hr o, hl⟩
    refine ⟨fun hoff ha => ⟨fun hp => exec_rowpin_refuses h d a keep hoff ha hp, fun hp => ?pins⟩, ?rowwb, ?rowrel⟩
    case pins =>
      obtain ⟨hx, hreads⟩ := old.readsAs_pinned d row (decide (keep = 1#1)) hapart hp
      exact ⟨_, _, (old.line_pinned d row _ d).trans (if_pos rfl), rfl, rfl,
        hsame hx hreads fun n hn => (old.line_pinned d row _ n).trans (if_neg hn),
        (exec_rowpin_pins h d a keep hoff ha hp).trans (congrArg _ (State.did_congr rfl t))⟩
    case rowwb =>
      refine ⟨old.rowwb d, old.line_rowwb d d, hsame ?_ (old.readsAs_rowwb d) fun n _ => old.line_rowwb d n,
        (exec_rowwb_did h d).trans (congrArg _ (State.did_congr rfl t))⟩
      intro k k' l l' hk hk'
      rw [Tower.line_rowwb] at hk hk'
      exact hapart k k' l l' hk hk'
    case rowrel =>
      exact ⟨old.release d, (old.line_release d d).trans (if_pos rfl),
        hsame (linesApart_release old d hapart) (old.readsAs_release d hapart) fun n hn => (old.line_release d n).trans (if_neg hn),
        (exec_rowrel_did h d).trans (congrArg _ (State.did_congr rfl t))⟩
  case shapes =>
    intro c va fields get
    have hget (x : BitVec 512) {code n lo len : Nat} {sg : Bool} (hf : (code, n, lo, len, sg) ∈ fields) :
        code < 14 ∧ shField code = (n, lo, len, sg) ∧ get x n lo len = (shGet x code).toNat := by
      obtain ⟨hc, he⟩ := mem_shFields hf
      obtain ⟨-, hfit, hlen⟩ := shField_fits code
      rw [he] at hfit hlen
      refine ⟨hc, he, ?_⟩
      rw [shGet, he]
      exact (toNat_field_shWord x n lo hfit hlen).symm
    refine ⟨fun n lo len sg hf => ?fields, fun hoff hal ha hclean hpoison => ?image⟩
    case fields =>
      intro takes
      obtain ⟨hc, he, -⟩ := hget 0#512 hf
      have htakes : shsetOk b.toNat va = true ↔ takes := by
        rw [shsetOk_iff, he]
      refine ⟨fun ht => ⟨shPut (c.shape (d.truncate 4)) b.toNat va, ?writes, ?same, fun m n' lo' len' sg' hf' hm => ?others⟩,
        fun ht => exec_shset_refuses h d a b (mt htakes.mp ht), ?shget⟩
      case writes => exact (exec_shset_writes h d a b (htakes.mpr ht)).trans (congrArg _ (State.did_congr rfl t))
      case same =>
        obtain ⟨-, -, hx⟩ := hget (shPut (c.shape (d.truncate 4)) b.toNat va) hf
        rw [hx, shGet_shPut_same, he]
      case others =>
        obtain ⟨hc', -, hx⟩ := hget (shPut (c.shape (d.truncate 4)) b.toNat va) hf'
        obtain ⟨-, -, hold⟩ := hget (c.shape (d.truncate 4)) hf'
        rw [hx, hold, shGet_shPut_ne _ hc hc' hm]
      case shget =>
        obtain ⟨-, -, hx⟩ := hget (c.shape (a.truncate 4)) hf
        intro v
        rw [exec_shget_puts h d a b, shgetWord_eq _ _ hx.symm, he]
    case image =>
      intro x clean
      exact ⟨fun hok => exec_shld_loads h d a hoff ha hal hclean hpoison ((shapeOk_iff x).mpr hok),
        fun hok => exec_shld_refuses h d a hoff ha hal hclean hpoison (mt (shapeOk_iff x).mp hok)⟩
  case marks =>
    intro c n
    have hne (hn : n ≠ 0) : s.val b ≠ 0#64 := fun hb => hn (congrArg BitVec.toNat hb)
    refine ⟨fun hn => exec_refdefer_nothing h a b (BitVec.eq_of_toNat_eq hn),
      fun hn hfar => exec_refdefer_refuses h a b hoff ha (hne hn) hfar,
      fun hn hnear => ⟨c.tower.deferred off n, ?marks, fun sub _ => has_deferMarks_range c.tower.defer (Nat.pos_of_ne_zero hn) sub⟩,
      fun hsup => ⟨c.tower.setPoison off true, ?poison, c.tower.byte_setPoison off, fun o ho => c.tower.poisoned_setPoison hoff ho⟩⟩
    case marks => exact (exec_refdefer_marks h a b hoff ha (hne hn) hnear).trans (congrArg _ (State.did_congr rfl t))
    case poison => exact (exec_poison_poisons h a hoff ha hsup).trans (congrArg _ (State.did_congr rfl t))

end Sys2Proof.Machine
